-- ==== Sys2Proof/Word.lean ====
section
/-! DEFINITION. The word types of the model and the shape of its sparse tables. -/
namespace Sys2Proof

/-- A 64-bit register, operand word or counter (R20, R83). -/
abbrev W := BitVec 64

/-- One byte (R641 fixes the order of the bytes of wider fields). -/
abbrev Byte := BitVec 8

/-- A table keyed by number, held as pairs of key and value, the keys strictly rising. -/
abbrev Map (α : Type) := List (Nat × α)

end Sys2Proof
end

