-- ==== Sys2Proof/Syntax.lean ====
section
/-! DEFINITION. The commands of the device, one constructor per row of the opcode table, in its order, with the data
each brings from outside: the fields of an operation word, the contents of a message, a measurement (log 7). -/
namespace Sys2Proof

/-- The grandmaster dataset of a time source, in the order it is compared (R54). -/
structure Dataset where
  clockClass : Nat
  accuracy   : Nat
  variance   : Nat
  identity   : Nat
  steps      : Nat
  deriving DecidableEq, Repr

/-- A program of a set: its entry bundle, its length in bundles, and its certificate: envelope E, E_min, worst-case bundle count B, lane operations per lane (R103). -/
structure Entry where
  pc    : Nat
  e     : Nat
  eMin  : Nat := 0
  b     : Nat := 0
  lanes : List Nat := []
  len   : Nat := 0
  deriving DecidableEq, Repr

/-- The chain settings of an automaton section (R329). -/
structure Chain where
  gen  : Nat
  n    : Nat
  pos  : Nat
  ids  : List Nat
  sets : List Nat
  deriving DecidableEq, Repr

/-- A lay's complete program set in a shade (R81, R103, R105, R311). -/
structure ProgSet where
  ingress  : Option Entry := none
  egress   : Option Entry := none
  slowPath : Option Entry := none
  vector   : Option Entry := none
  code     : List (BitVec 128) := []
  data     : List Byte := []
  autBytes : Nat := 0
  autSets  : List Nat := []
  chain    : Option Chain := none
  x        : Nat := 0
  strands  : Nat := 0
  deriving DecidableEq, Repr

/-- A PROGLOAD image as fetched and checked (R81, R103): the set it holds, whether its digest verifies, whether it carries
a kind-4 header and that header's checks pass. -/
structure Image where
  set      : ProgSet
  digestOk : Bool
  header   : Bool
  signedOk : Bool
  deriving DecidableEq, Repr

/-- The SecTAG of a received frame: whether its E and C bits are both 1, association number, packet number, SCI, and whether the ICV verifies (R161, R561). -/
structure SecTag where
  ec    : Bool
  an    : Nat
  pn    : Nat
  sci   : W
  icvOk : Bool
  deriving DecidableEq, Repr

/-- The braid header of a DATA frame (Table 11.2). -/
structure BraidHdr where
  kind   : Nat := 0
  cls    : Nat
  knotIn : Bool
  dest   : Nat
  src    : Nat
  epoch  : Nat
  ttl    : Nat
  hash   : Nat
  orig   : Nat
  deriving DecidableEq, Repr

/-- A HELLO body (Table 11.5). -/
structure Hello where
  id       : Nat
  prov     : Bool
  fenced   : Bool
  leaseReq : Bool
  epoch    : Nat
  hops     : Nat
  offer    : Nat
  knot     : Nat
  face     : Bool
  deriving DecidableEq, Repr

/-- What a scan found (R321, R324): the winner with its priority, the count of distinct rules, and the REPORT rules that matched (rule, end offset, priority), in winner order. -/
structure Scan where
  winner  : Option (Nat × Nat)
  count   : Nat
  reports : List (Nat × Nat × Nat)
  suspect : Bool
  fixed   : Nat := 0
  hard    : Option Nat := none
  deriving DecidableEq, Repr

/-- What a channel's SPD says (R513): the highest data rate as DMC_CONFIG codes it, DIMMs, ranks per DIMM, x8 devices, density code, capacity in GiB. -/
structure Spd where
  rate    : Nat
  dimms   : Nat
  ranks   : Nat
  x8      : Bool
  density : Nat
  gib     : Nat
  deriving DecidableEq, Repr

/-- Kinds of a received RoCEv2 packet (Table 17.1). -/
inductive ROp where
  | send | write | readReq | readResp | ack | nakSeq | nakAccess | nakInvalid | cnp | unsupported
  deriving DecidableEq, Repr

/-- A received RoCEv2 packet as its checks find it (R494, R504, R506): connection, kind, PSN, EXH (epoch or control count), whether ICRC and tag verify, ECN CE, R_Key, offset, READ length, payload (of a READ, the data its region answers with). -/
structure RPkt where
  conn   : Nat
  op     : ROp
  psn    : Nat
  exh    : Nat
  icrcOk : Bool
  tagOk  : Bool
  ce     : Bool
  rkey   : Nat
  off    : Nat
  len    : Nat
  data   : List Byte
  deriving DecidableEq, Repr

/-- What an image's signature checks find (R573): its public key hashes to the key fuse it names, its signature verifies, its digest. -/
structure ImgChk where
  keyOk  : Bool
  sigOk  : Bool
  digest : Nat
  deriving DecidableEq, Repr

/-- What the ROM finds of a flash slot: the checks of its sheath and standby images, and the digest of the pair (R571, R574). -/
structure SlotChk where
  sheath  : ImgChk
  standby : ImgChk
  pair    : Nat
  deriving DecidableEq, Repr

/-- What a lifecycle token asks for (Table 19.2, R545). -/
inductive LcKind where
  | provision | lockdown | recover | retire | debug
  deriving DecidableEq, Repr

/-- A lifecycle token as the sheath reads it (R543): its transition, the key that signed it (0 Lemrad root, 1 and 2 the owner keys), whether the signature verifies, DEVICE_ID, nonce; OWNER_HASH0 and POLICY of a provisioning token. -/
structure LcToken where
  kind     : LcKind
  signer   : Nat
  sigOk    : Bool
  deviceId : W
  nonce    : W
  owner0   : Nat
  policy   : Nat
  deriving DecidableEq, Repr

/-- The DRAM record of the settings store (Table 18.7): rate as DMC_CONFIG codes it, granule, bank masks, and rate and burst of each port. -/
structure DramRecord where
  rate  : Nat
  k     : Nat
  masks : List Nat
  ports : List (Nat × Nat)
  deriving DecidableEq, Repr

/-- What the arrays read for a lane operation found (R223): 0 for no error, 1 for corrected, 2 for an uncorrectable one, and where in a set it lies. -/
structure EccRead where
  ecc : Nat
  way : Nat
  deriving DecidableEq, Repr

/-- What an automaton scrub step found (R325): the unit lines it repairs, and how many single-bit errors it corrected. -/
structure AutScrubFound where
  bad : List (Nat × Nat)
  fixed : Nat
  deriving DecidableEq, Repr

/-- The bytes of an I/O access: the first one's offset, and how many. -/
structure IoRange where
  off : Nat
  size : Nat
  deriving DecidableEq, Repr

/-- Who asks the DRAM for a line (R521, R533): the controller's port, and the user and the item of the user it serves. -/
structure DramUser where
  port : Nat
  user : Nat
  item : Nat
  deriving DecidableEq, Repr

/-- A command: one row of the opcode table. -/
inductive Instr where
  /-- SPLICE_PROGRAM_ACCEPT (R134). -/
  | spliceProgramAccept (words : List W)
  /-- AT_PROGRAM_START (R75). -/
  | atProgramStart
  /-- SPLICE_PROGRAM_RESUME (R37). -/
  | spliceProgramResume (p : Nat)
  /-- TSET (R144). -/
  | tset (p : Nat)
  /-- TDEL (R144). -/
  | tdel (p : Nat)
  /-- SHADEOPEN (R145). -/
  | shadeopen (p : Nat)
  /-- TCOMMIT (R146). -/
  | tcommit (p : Nat)
  /-- TCOMMIT_FABRIC (R365). -/
  | tcommitFabric (p : Nat)
  /-- SHADERETIRE (R147). -/
  | shaderetire (p : Nat)
  /-- SHADERETIRE_DRAIN_DONE (R147). -/
  | shaderetireDrainDone (p : Nat)
  /-- PORTSET (R150). -/
  | portset (p : Nat)
  /-- QSET (R262). -/
  | qset (p : Nat)
  /-- SHAPE (R272). -/
  | shape (p : Nat)
  /-- POLSET (R274). -/
  | polset (p : Nat)
  /-- MCSET (R169). -/
  | mcset (p : Nat)
  /-- PROGLOAD (R81). -/
  | progload (p : Nat) (img : Image)
  /-- SNAP (R148). -/
  | snap (p : Nat)
  /-- SNAP_FABRIC (R366). -/
  | snapFabric (p : Nat)
  /-- CAL_RUN (R379). -/
  | calRun (p : Nat)
  /-- CAL_SET_PERIOD (R379). -/
  | calSetPeriod (p : Nat)
  /-- CAL_SUSPEND (R380). -/
  | calSuspend (p : Nat)
  /-- CAL_RESUME (R379). -/
  | calResume (p : Nat)
  /-- REELSRC (R53). -/
  | reelsrc (p : Nat)
  /-- FENCE (R149). -/
  | fence (p : Nat)
  /-- FENCE_CLEAR (R149). -/
  | fenceClear (p : Nat)
  /-- FENCE_DRAIN_DONE (R149). -/
  | fenceDrainDone (p : Nat)
  /-- FENCE_RESET (R368). -/
  | fenceReset (p : Nat)
  /-- WAITTURN (R142). -/
  | waitturn (p : Nat)
  /-- WAITTURN_DONE (R142). -/
  | waitturnDone (p : Nat)
  /-- BARRIER (R367). -/
  | barrier (p : Nat)
  /-- BARRIER_FABRIC (R367). -/
  | barrierFabric (p : Nat)
  /-- BARRIER_COMPLETE (R367). -/
  | barrierComplete (p : Nat)
  /-- JOIN_SELF (R363). -/
  | joinSelf (p : Nat)
  /-- JOIN_NODE (R351). -/
  | joinNode (p : Nat)
  /-- JOIN_KNOT (R351). -/
  | joinKnot (p : Nat)
  /-- JOIN_MEMBER (R351). -/
  | joinMember (p : Nat)
  /-- LEAVE_SELF (R359). -/
  | leaveSelf (p : Nat)
  /-- LEAVE_SELF_DRAIN_DONE (R359). -/
  | leaveSelfDrainDone (p : Nat)
  /-- LEAVE_NODE (R351). -/
  | leaveNode (p : Nat)
  /-- LEAVE_KNOT (R351). -/
  | leaveKnot (p : Nat)
  /-- LEAVE_MEMBER (R351). -/
  | leaveMember (p : Nat)
  /-- QPSET_ENABLE (R425). -/
  | qpsetEnable (p : Nat)
  /-- QPSET_RELEASE (R425). -/
  | qpsetRelease (p : Nat)
  /-- QPSET_LOGLINE_ARCHIVE (R303). -/
  | qpsetLoglineArchive (p : Nat)
  /-- QPSET_LOGLINE_VIEW (R303). -/
  | qpsetLoglineView (p : Nat)
  /-- QUIESCE (R442). -/
  | quiesce (p : Nat)
  /-- ABORT (R443). -/
  | abort (p : Nat) (ring : List (List Byte))
  /-- SLCSET (R454). -/
  | slcset (p : Nat)
  /-- SLCSET_RELEASE (R455). -/
  | slcsetRelease (p : Nat)
  /-- SLCRESET (R461). -/
  | slcreset (p : Nat)
  /-- SLCRESET_STALL_END (R463). -/
  | slcresetStallEnd (p : Nat)
  /-- VOLSET_VOLUME (R479). -/
  | volsetVolume (p : Nat)
  /-- VOLSET_EXTENT (R479). -/
  | volsetExtent (p : Nat)
  /-- VOLSET_TARGET (R479). -/
  | volsetTarget (p : Nat)
  /-- VOLSET_DRAIN_DONE (R480). -/
  | volsetDrainDone (p : Nat)
  /-- CONNSET_CONNECTION (R497). -/
  | connsetConnection (p : Nat)
  /-- CONNSET_RELEASE (R498). -/
  | connsetRelease (p : Nat)
  /-- CONNSET_GLOBAL (R496). -/
  | connsetGlobal (p : Nat)
  /-- FALLBACK (R589). -/
  | fallback (p : Nat)
  /-- RNGDRAW (R151). -/
  | rngdraw (p : Nat)
  /-- SPLICE_TIMEOUT_EXPIRY (R642). -/
  | spliceTimeoutExpiry (p : Nat)
  /-- TURN_BOUNDARY (R72). -/
  | turnBoundary (temps : List Int)
  /-- SHADE_COMMIT (R180). -/
  | shadeCommit (n : Nat)
  /-- SNAP_CAPTURE (R635). -/
  | snapCapture
  /-- CALIBRATION_SLOT (R372). -/
  | calibrationSlot
  /-- HELLO_SEND (R346). -/
  | helloSend
  /-- PAUSE_REPEAT (R243). -/
  | pauseRepeat (acct : Nat)
  /-- MODERATION_TIMER_EXPIRY (R446). -/
  | moderationTimerExpiry (q : Nat)
  /-- EVENT_BUFFER_CLOSE (R441). -/
  | eventBufferClose (q : Nat)
  /-- LOGLINE_PAGE_CLOSE (R295). -/
  | loglinePageClose (seq : Nat)
  /-- PTP_MESSAGE_RECEIVE (R54). -/
  | ptpMessageReceive (port : Nat) (dataset : Option Dataset) (sample delay : Option Nat)
  /-- TIME_MESSAGE_RECEIVE (R62). -/
  | timeMessageReceive (port reel16 era eraOffset hops : Nat) (upHold : Bool) (dataset : Option Dataset) (delay : Option Nat)
  /-- PPS_IN_EDGE (R609). -/
  | ppsInEdge
  /-- PPS_OUT_PULSE (R71). -/
  | ppsOutPulse
  /-- REEL_DISCONTINUITY (R61). -/
  | reelDiscontinuity
  /-- REEL_SOURCE_LOSS (R56). -/
  | reelSourceLoss (entry : Nat)
  /-- REEL_HOLDOVER_ENTER (R56). -/
  | reelHoldoverEnter
  /-- FRAME_ARRIVAL (R161). -/
  | frameArrival (port : Nat) (bytes : List Byte) (whole : Bool) (rxLen : Nat) (fcsBad : Bool) (sec : Option SecTag)
  /-- FRAME_END (R165). -/
  | frameEnd (pkt : Nat) (bytes : List Byte) (rxLen : Nat) (fcsBad : Bool) (sec : Option SecTag)
  /-- MAC_CONTROL_FRAME (R160). -/
  | macControlFrame (port op : Nat)
  /-- PFC_FRAME_RECEIVE (R278). -/
  | pfcFrameReceive (port vec : Nat) (quanta : List Nat)
  /-- PAUSE_FRAME_RECEIVE (R278). -/
  | pauseFrameReceive (port quanta : Nat)
  /-- PAUSE_TIMER_EXPIRY (R278). -/
  | pauseTimerExpiry (port cls : Nat)
  /-- PACKET_DISPATCH (R99). -/
  | packetDispatch (pkt f : Nat)
  /-- COPY_EGRESS_DISPATCH (R249). -/
  | copyEgressDispatch (pkt copy f : Nat)
  /-- PACKET_RELEASE (R101). -/
  | packetRelease (pkt : Nat) (copy : Option Nat)
  /-- ENVELOPE_EXPIRY (R104). -/
  | envelopeExpiry (f : Nat)
  /-- TRAP_VECTOR_START (R116). -/
  | trapVectorStart (f : Nat)
  /-- TRAP_RECORD_DELIVER (R115). -/
  | trapRecordDeliver (lay : Nat)
  /-- SLOW_TIMEOUT (R109). -/
  | slowTimeout (f : Nat)
  /-- SLOW_LINE_TAKE (R107). -/
  | slowLineTake (f : Nat)
  /-- INJECTION_TAKE (R438). -/
  | injectionTake (f : Nat)
  /-- NOP (R122). -/
  | nop (f : Nat) (word : BitVec 32) (ecc : Nat)
  /-- ALU_ADD (R126). -/
  | aluAdd (f : Nat) (g : BitVec 4) (rd ra rb : BitVec 5)
  /-- ALU_SUB (R126). -/
  | aluSub (f : Nat) (g : BitVec 4) (rd ra rb : BitVec 5)
  /-- ALU_AND (R126). -/
  | aluAnd (f : Nat) (g : BitVec 4) (rd ra rb : BitVec 5)
  /-- ALU_OR (R126). -/
  | aluOr (f : Nat) (g : BitVec 4) (rd ra rb : BitVec 5)
  /-- ALU_XOR (R126). -/
  | aluXor (f : Nat) (g : BitVec 4) (rd ra rb : BitVec 5)
  /-- ALU_ANDN (R126). -/
  | aluAndn (f : Nat) (g : BitVec 4) (rd ra rb : BitVec 5)
  /-- ALU_SHL (R126). -/
  | aluShl (f : Nat) (g : BitVec 4) (rd ra rb : BitVec 5)
  /-- ALU_SHR (R126). -/
  | aluShr (f : Nat) (g : BitVec 4) (rd ra rb : BitVec 5)
  /-- ALU_SAR (R126). -/
  | aluSar (f : Nat) (g : BitVec 4) (rd ra rb : BitVec 5)
  /-- ALU_MOV (R126). -/
  | aluMov (f : Nat) (g : BitVec 4) (rd ra rb : BitVec 5)
  /-- ALU_MINU (R126). -/
  | aluMinu (f : Nat) (g : BitVec 4) (rd ra rb : BitVec 5)
  /-- ALU_MAXU (R126). -/
  | aluMaxu (f : Nat) (g : BitVec 4) (rd ra rb : BitVec 5)
  /-- ALU_POPC (R126). -/
  | aluPopc (f : Nat) (g : BitVec 4) (rd ra rb : BitVec 5)
  /-- ALU_CLZ (R126). -/
  | aluClz (f : Nat) (g : BitVec 4) (rd ra rb : BitVec 5)
  /-- ALU_MUL (R126). -/
  | aluMul (f : Nat) (g : BitVec 4) (rd ra rb : BitVec 5)
  /-- ADDI (R126). -/
  | addi (f : Nat) (g : BitVec 4) (rd ra : BitVec 5) (imm : BitVec 12)
  /-- ANDI (R126). -/
  | andi (f : Nat) (g : BitVec 4) (rd ra : BitVec 5) (imm : BitVec 12)
  /-- ORI (R126). -/
  | ori (f : Nat) (g : BitVec 4) (rd ra : BitVec 5) (imm : BitVec 12)
  /-- XORI (R126). -/
  | xori (f : Nat) (g : BitVec 4) (rd ra : BitVec 5) (imm : BitVec 12)
  /-- SHLI (R126). -/
  | shli (f : Nat) (g : BitVec 4) (rd ra : BitVec 5) (imm : BitVec 12)
  /-- SHRI (R126). -/
  | shri (f : Nat) (g : BitVec 4) (rd ra : BitVec 5) (imm : BitVec 12)
  /-- SARI (R126). -/
  | sari (f : Nat) (g : BitVec 4) (rd ra : BitVec 5) (imm : BitVec 12)
  /-- MOVZ (R126). -/
  | movz (f : Nat) (g : BitVec 4) (h : BitVec 2) (rd : BitVec 5) (imm : BitVec 16)
  /-- MOVK (R126). -/
  | movk (f : Nat) (g : BitVec 4) (h : BitVec 2) (rd : BitVec 5) (imm : BitVec 16)
  /-- CMP (R127). -/
  | cmp (f : Nat) (g : BitVec 4) (pd cond : BitVec 3) (ra rb : BitVec 5) (low : BitVec 6)
  /-- CMPI (R127). -/
  | cmpi (f : Nat) (g : BitVec 4) (pd cond : BitVec 3) (ra : BitVec 5) (imm : BitVec 11)
  /-- PLOG_AND (R126). -/
  | plogAnd (f : Nat) (g : BitVec 4) (pd pa pb : BitVec 3) (low : BitVec 10)
  /-- PLOG_OR (R126). -/
  | plogOr (f : Nat) (g : BitVec 4) (pd pa pb : BitVec 3) (low : BitVec 10)
  /-- PLOG_XOR (R126). -/
  | plogXor (f : Nat) (g : BitVec 4) (pd pa pb : BitVec 3) (low : BitVec 10)
  /-- PLOG_ANDN (R126). -/
  | plogAndn (f : Nat) (g : BitVec 4) (pd pa pb : BitVec 3) (low : BitVec 10)
  /-- PLOG_NOT (R126). -/
  | plogNot (f : Nat) (g : BitVec 4) (pd pa pb : BitVec 3) (low : BitVec 10)
  /-- PLOG_SET (R126). -/
  | plogSet (f : Nat) (g : BitVec 4) (pd pa pb : BitVec 3) (low : BitVec 10)
  /-- PLOG_CLR (R126). -/
  | plogClr (f : Nat) (g : BitVec 4) (pd pa pb : BitVec 3) (low : BitVec 10)
  /-- EXT (R124). -/
  | ext (f : Nat) (g : BitVec 4) (rd ra : BitVec 5) (pos len : BitVec 6)
  /-- INS (R124). -/
  | ins (f : Nat) (g : BitVec 4) (rd ra : BitVec 5) (pos len : BitVec 6)
  /-- MRD (R126). -/
  | mrd (f : Nat) (g : BitVec 4) (rd : BitVec 5) (n : BitVec 4) (low : BitVec 13)
  /-- MWR (R85). -/
  | mwr (f : Nat) (g : BitVec 4) (ra : BitVec 5) (n : BitVec 4) (low : BitVec 13)
  /-- MWRI (R85). -/
  | mwri (f : Nat) (g : BitVec 4) (n : BitVec 4) (mid : BitVec 6) (imm : BitVec 12)
  /-- WLD (R125). -/
  | wld (f : Nat) (g : BitVec 4) (rd : BitVec 5) (size : BitVec 2) (indexed : BitVec 1) (ra : BitVec 5) (off : BitVec 9) (ecc : Nat)
  /-- WST (R125). -/
  | wst (f : Nat) (g : BitVec 4) (rd : BitVec 5) (size : BitVec 2) (indexed : BitVec 1) (ra : BitVec 5) (off : BitVec 9)
  /-- SLD (R125). -/
  | sld (f : Nat) (g : BitVec 4) (rd : BitVec 5) (size region : BitVec 2) (ra : BitVec 5) (imm : BitVec 8) (ecc : Nat)
  /-- SST (R125). -/
  | sst (f : Nat) (g : BitVec 4) (rd : BitVec 5) (size region : BitVec 2) (ra : BitVec 5) (imm : BitVec 8)
  /-- BR (R96). -/
  | br (f : Nat) (g : BitVec 4) (target : BitVec 14) (low : BitVec 8)
  /-- LKX (R128). -/
  | lkx (f : Nat) (g : BitVec 4) (rd ra : BitVec 5) (pd : BitVec 3) (v : BitVec 9)
  /-- LKX_MAC (R203). -/
  | lkxMac (f : Nat) (g : BitVec 4) (rd ra : BitVec 5) (pd : BitVec 3) (v : BitVec 9)
  /-- LKL (R192). -/
  | lkl (f : Nat) (g : BitVec 4) (rd ra : BitVec 5) (pd : BitVec 3) (v : BitVec 9)
  /-- LKA (R193). -/
  | lka (f : Nat) (g : BitVec 4) (rd ra : BitVec 5) (pd : BitVec 3) (v : BitVec 9)
  /-- COUNT (R129). -/
  | count (f : Nat) (g : BitVec 4) (rd ra : BitVec 5) (pd : BitVec 3) (v : BitVec 9)
  /-- POLICE (R275). -/
  | police (f : Nat) (g : BitVec 4) (rd ra : BitVec 5) (pd : BitVec 3) (v : BitVec 9)
  /-- MCRD (R169). -/
  | mcrd (f : Nat) (g : BitVec 4) (rd ra : BitVec 5) (pd : BitVec 3) (v : BitVec 9)
  /-- AUTSUB (R318). -/
  | autsub (f : Nat) (g : BitVec 4) (rd ra : BitVec 5) (pd : BitVec 3) (v : BitVec 9)
  /-- AUTWAIT (R130). -/
  | autwait (f : Nat) (g : BitVec 4) (pd : BitVec 3) (mid : BitVec 7) (b : BitVec 12)
  /-- AUTWAITU (R130). -/
  | autwaitu (f : Nat) (g : BitVec 4) (pd : BitVec 3) (mid : BitVec 7) (b : BitVec 12)
  /-- AUTWAIT_TIMEOUT (R130). -/
  | autwaitTimeout (f : Nat)
  /-- CLTRY (R405). -/
  | cltry (f : Nat) (g : BitVec 4) (rd ra : BitVec 5) (pd : BitVec 3) (v : BitVec 9)
  /-- CLREL (R405). -/
  | clrel (f : Nat) (g : BitVec 4) (rd ra : BitVec 5) (pd : BitVec 3) (v : BitVec 9)
  /-- CLWAIT (R405). -/
  | clwait (f : Nat) (g : BitVec 4) (rd ra : BitVec 5) (pd : BitVec 3) (v : BitVec 9)
  /-- LNPUT (R408). -/
  | lnput (f : Nat) (g : BitVec 4) (rd ra : BitVec 5) (pd : BitVec 3) (v : BitVec 9)
  /-- LNGET (R408). -/
  | lnget (f : Nat) (g : BitVec 4) (rd ra : BitVec 5) (pd : BitVec 3) (v : BitVec 9)
  /-- LNPUTW (R410). -/
  | lnputw (f : Nat) (g : BitVec 4) (rd ra : BitVec 5) (pd : BitVec 3) (v : BitVec 9)
  /-- LNGETW (R410). -/
  | lngetw (f : Nat) (g : BitVec 4) (rd ra : BitVec 5) (pd : BitVec 3) (v : BitVec 9)
  /-- FWD (R169). -/
  | fwd (f : Nat) (g : BitVec 4) (high : BitVec 14) (code : BitVec 8)
  /-- DROP (R131). -/
  | drop (f : Nat) (g : BitVec 4) (high : BitVec 14) (code : BitVec 8)
  /-- TRAP (R131). -/
  | trap (f : Nat) (g : BitVec 4) (high : BitVec 14) (code : BitVec 8)
  /-- SLOW (R173). -/
  | slow (f : Nat) (g : BitVec 4) (high : BitVec 14) (code : BitVec 8)
  /-- LANE_RESULT_ARRIVAL (R128). -/
  | laneResultArrival (f lane : Nat) (ecc : EccRead)
  /-- AUTOMATON_RESULT_DELIVERY (R314). -/
  | automatonResultDelivery (unit : Nat) (scan : Scan)
  /-- SCHEDULER_PICK (R266). -/
  | schedulerPick (port : Nat)
  /-- COPY_TRANSMIT (R286). -/
  | copyTransmit (pkt copy : Nat)
  /-- PORT_LINK_LOSS (R252). -/
  | portLinkLoss (port : Nat)
  /-- RESIDUE_REMOVAL_DONE (R252). -/
  | residueRemovalDone (port : Nat)
  /-- LOGLINE_ARCHIVE_WRITE (R300). -/
  | loglineArchiveWrite
  /-- PAGE_ARCHIVE_COMPLETE (R301). -/
  | pageArchiveComplete (seq : Nat)
  /-- PAGE_ARCHIVE_RETRY (R301). -/
  | pageArchiveRetry (seq : Nat)
  /-- CHAIN_SEGMENT_RECEIVE (R331). -/
  | chainSegmentReceive (port gen set tag : Nat) (bytes : List Byte)
  /-- MCH_WORD_RECEIVE (R332). -/
  | mchWordReceive (word : W) (crcOk : Bool)
  /-- CHAIN_RETURN_RECEIVE (R333). -/
  | chainReturnReceive (word : W)
  /-- CHAIN_TAG_TIMEOUT (R334). -/
  | chainTagTimeout (tag : Nat)
  /-- AUT_LINE_RELOAD_DONE (R326). -/
  | autLineReloadDone (unit : Nat)
  /-- TABLE_LINE_RELOAD_DONE (R224). -/
  | tableLineReloadDone (table line : Nat)
  /-- STALE_WINDOW_CLOSE (R219). -/
  | staleWindowClose (table line : Nat)
  /-- LOOKUP_CACHE_EXPIRY (R215). -/
  | lookupCacheExpiry (lay table shade key : Nat)
  /-- BRAID_DATA_RECEIVE (R343). -/
  | braidDataReceive (port : Nat) (hdr : BraidHdr) (hcrcOk : Bool) (bytes : List Byte) (whole : Bool) (rxLen : Nat) (fcsBad : Bool) (sec : Option SecTag)
  /-- HELLO_RECEIVE (R347). -/
  | helloReceive (port : Nat) (hello : Hello) (faceLends : Bool)
  /-- CREDIT_RECEIVE (R355). -/
  | creditReceive (port : Nat) (grants : List Nat) (rxFrames : Nat)
  /-- GLOBAL_RECEIVE (R364). -/
  | globalReceive (port src op target seq turn arg : Nat)
  /-- GLOBAL_RESET (R368). -/
  | globalReset (target : Nat)
  /-- MARKER_RECEIVE (R366). -/
  | markerReceive (port turn : Nat)
  /-- MGMT_RECEIVE (R369). -/
  | mgmtReceive (port src dest lease p : Nat) (body : List Byte)
  /-- LEASE_EXPIRY (R348). -/
  | leaseExpiry (port : Nat)
  /-- BRAID_LINK_LOSS (R360). -/
  | braidLinkLoss (port : Nat) (pcs : Bool)
  /-- LINK_LOSS_HANDLING_DONE (R361). -/
  | linkLossHandlingDone (port : Nat)
  /-- MAINT_REQUEST_GRANT (R376). -/
  | maintRequestGrant (who : Option Nat) (code res : Nat)
  /-- SERDES_SCAN (R371). -/
  | serdesScan (lane : Nat) (temp : Int) (bin : Nat)
  /-- SERDES_RECAL (R371). -/
  | serdesRecal (port : Nat) (temp : Int) (bin : Nat)
  /-- DRAM_EYE (R384). -/
  | dramEye (ch : Nat) (dir : Int) (limit : Bool) (temp : Int) (bin : Nat)
  /-- DRAM_RETRAIN (R374). -/
  | dramRetrain (ch : Nat) (temp : Int) (bin : Nat)
  /-- DRAM_PATROL (R535). -/
  | dramPatrol (ch : Nat) (hard : List Nat) (fixed : List (Nat × Nat)) (carried : Nat)
  /-- DRAM_TRACK (R536). -/
  | dramTrack (ch : Nat)
  /-- HEADROOM (R239). -/
  | headroom (port : Nat) (temp : Int) (bin : Nat)
  /-- TCAM_SCRUB (R210). -/
  | tcamScrub (bad shadowErr : List Nat)
  /-- EXACT_SCRUB (R221). -/
  | exactScrub (bad shadowErr : List Nat)
  /-- AUT_SCRUB (R325). -/
  | autScrub (lay : Nat) (bad : AutScrubFound)
  /-- FLASH_WRITE (R590). -/
  | flashWrite (area : Nat)
  /-- JOURNAL_COMPACT (R585). -/
  | journalCompact
  /-- MAINT_ACTIVITY_END (R381). -/
  | maintActivityEnd (code res : Nat)
  /-- RETAKE_LOAD_TRIGGER (R383). -/
  | retakeLoadTrigger (code res : Nat)
  /-- RETAKE_TEMP_TRIGGER (R383). -/
  | retakeTempTrigger (code res : Nat) (temp : Int)
  /-- HC_CRC (R397). -/
  | hcCrc (c : Nat) (f7 : BitVec 7) (rs2 rs1 rd : BitVec 5)
  /-- HC_KEY (R397). -/
  | hcKey (c : Nat) (f7 : BitVec 7) (rs2 rs1 rd : BitVec 5)
  /-- AQ_SUB (R400). -/
  | aqSub (c : Nat) (f7 : BitVec 7) (rs2 rs1 rd : BitVec 5) (seg : Option (List Byte))
  /-- AQ_GET (R401). -/
  | aqGet (c : Nat) (f7 : BitVec 7) (rs1 rd : BitVec 5)
  /-- CL_TRY (R404). -/
  | clTry (c : Nat) (rs1 rd : BitVec 5)
  /-- CL_WAIT (R405). -/
  | clWait (c : Nat) (rs2 rs1 rd : BitVec 5)
  /-- CL_REL (R405). -/
  | clRel (c : Nat) (rs1 rd : BitVec 5)
  /-- CL_READ (R404). -/
  | clRead (c : Nat) (rs1 rd : BitVec 5)
  /-- CL_WAIT_TIMEOUT (R406). -/
  | clWaitTimeout (c : Nat)
  /-- LN_PUT (R408). -/
  | lnPut (c : Nat) (rs2 rs1 rd : BitVec 5)
  /-- LN_GET (R408). -/
  | lnGet (c : Nat) (rs1 rd : BitVec 5)
  /-- LN_PUTW (R410). -/
  | lnPutw (c : Nat) (rs2 rs1 rd : BitVec 5)
  /-- LN_GETW (R410). -/
  | lnGetw (c : Nat) (rs1 rd : BitVec 5)
  /-- CORE_INTERRUPT (R406). -/
  | coreInterrupt (c : Nat)
  /-- CORE_RESET (R407). -/
  | coreReset (c : Nat) (held : Bool)
  /-- CAP_RAND_READ (R402). -/
  | capRandRead (c : Nat) (rd : BitVec 5)
  /-- LANYARD_NOTIFY_WRITE (R411). -/
  | lanyardNotifyWrite (c l : Nat) (v : BitVec 32)
  /-- L3_MODE_SWITCH (R390). -/
  | l3ModeSwitch (c : Nat)
  /-- L3_SWITCH_DONE (R390). -/
  | l3SwitchDone
  /-- RD_SHARED (R392). -/
  | rdShared (c ln : Nat) (victim : Option (Nat × Option (List Byte))) (back : Option Nat)
  /-- RD_UNIQUE (R392). -/
  | rdUnique (c ln : Nat) (victim : Option (Nat × Option (List Byte))) (back : Option Nat)
  /-- UPGRADE (R393). -/
  | upgrade (c ln : Nat)
  /-- EVICT_DIRTY (R393). -/
  | evictDirty (c ln : Nat)
  /-- EVICT_CLEAN (R392). -/
  | evictClean (c ln : Nat)
  /-- IO_READ (R395). -/
  | ioRead (agent ln : Nat)
  /-- IO_WRITE (R395). -/
  | ioWrite (agent ln mask : Nat) (line : List Byte)
  /-- SNP_SHARED (R393). -/
  | snpShared (c ln : Nat) (dirty : Option (List Byte))
  /-- SNP_INV (R393). -/
  | snpInv (c ln : Nat) (dirty : Option (List Byte))
  /-- ACK (R393). -/
  | ack (c ln : Nat)
  /-- MISS (R393). -/
  | miss (c ln : Nat)
  /-- EVICTING (R393). -/
  | evicting (c ln : Nat)
  /-- DATA (R392). -/
  | data (c ln : Nat)
  /-- EVICT_ACK (R394). -/
  | evictAck (c ln : Nat)
  /-- SQ_DOORBELL (R433). -/
  | sqDoorbell (q v : Nat)
  /-- CQ_DOORBELL (R433). -/
  | cqDoorbell (q v : Nat)
  /-- FETCH_ROUND (R435). -/
  | fetchRound (engine : Nat) (descs : List (List Byte))
  /-- INJECT (R438). -/
  | inject (q id : Nat) (frame : List Byte)
  /-- NET_RECV_BUF (R439). -/
  | netRecvBuf (q id : Nat)
  /-- CONTROL_RUN (R436). -/
  | controlRun (q id : Nat)
  /-- EVENT_BUF (R440). -/
  | eventBuf (q id : Nat)
  /-- COMPLETION_WRITE (R429). -/
  | completionWrite (q : Nat)
  /-- PERST_ASSERT (R417). -/
  | perstAssert (n : Nat)
  /-- HOST_LINK_DOWN (R417). -/
  | hostLinkDown (n : Nat)
  /-- D3HOT_ENTRY (R448). -/
  | d3hotEntry (k : Nat)
  /-- D0_RETURN (R448). -/
  | d0Return (k : Nat)
  /-- MSIX_UNMASK (R447). -/
  | msixUnmask (k v : Nat)
  /-- REGISTER_WRITE (R35). -/
  | registerWrite (who space off size v : Nat)
  /-- COUNTER_LOW_READ (R21). -/
  | counterLowRead (who : Nat) (at' : IoRange)
  /-- RC_REGISTER_READ (R419). -/
  | rcRegisterRead (who off : Nat)
  /-- GLB_SNAP_VIEW_WRITE (R636). -/
  | glbSnapViewWrite (who v be : Nat)
  /-- TBL_RAW_SELECT_WRITE (R640). -/
  | tblRawSelectWrite (who v be : Nat)
  /-- RAW_WINDOW_WRITE (R640). -/
  | rawWindowWrite (who off size v : Nat)
  /-- RAW_STATUS_COMMIT (R218). -/
  | rawStatusCommit (who off v : Nat)
  /-- RAW_STATUS_READ (R640). -/
  | rawStatusRead (who off : Nat)
  /-- BOOT_WINDOW_WRITE (R578). -/
  | bootWindowWrite (who off : Nat) (bytes : List Byte)
  /-- SHE_TAMPER_LATCH_CLEAR (R567). -/
  | sheTamperLatchClear (who size v : Nat)
  /-- PWR_TRIP_CLEAR (R616). -/
  | pwrTripClear (who size v : Nat)
  /-- MB_UP (R457). -/
  | mbUp (who slice v : Nat)
  /-- MB_DOWN (R457). -/
  | mbDown (who slice v : Nat)
  /-- MAILBOX_DELIVERY (R459). -/
  | mailboxDelivery (slice : Nat) (up : Bool) (bytes : List Byte)
  /-- STORE_READ (R481). -/
  | storeRead (q id : Nat) (scatter : List (Nat × Nat))
  /-- STORE_WRITE (R481). -/
  | storeWrite (q id : Nat) (scatter : List (Nat × Nat))
  /-- STORE_FLUSH (R476). -/
  | storeFlush (q id : Nat)
  /-- STORE_TRIM (R477). -/
  | storeTrim (q id : Nat)
  /-- ABORT_TAG (R489). -/
  | abortTag (q id : Nat)
  /-- NVME_COMPLETION_RECEIVE (R485). -/
  | nvmeCompletionReceive (part code type : Nat)
  /-- STORE_PART_TIMEOUT (R486). -/
  | storePartTimeout (part : Nat)
  /-- RELAY_INBOUND_ACCESS (R484). -/
  | relayInboundAccess (part off : Nat) (write : Bool) (bytes : List Byte)
  /-- RDMA_PACKET_RECEIVE (R506). -/
  | rdmaPacketReceive (p : RPkt)
  /-- RDMA_ACK_TIMEOUT (R500). -/
  | rdmaAckTimeout (conn : Nat)
  /-- GCM_ENCRYPT (R558). -/
  | gcmEncrypt (q id : Nat) (src aad : List Byte)
  /-- GCM_DECRYPT (R559). -/
  | gcmDecrypt (q id : Nat) (src aad tag : List Byte)
  /-- XTS_ENCRYPT (R558). -/
  | xtsEncrypt (q id : Nat) (src : List Byte)
  /-- XTS_DECRYPT (R558). -/
  | xtsDecrypt (q id : Nat) (src : List Byte)
  /-- CTR (R558). -/
  | ctr (q id : Nat) (src : List Byte)
  /-- KEY_UNWRAP (R559). -/
  | keyUnwrap (q id : Nat) (blob : List Byte)
  /-- KEY_GEN (R559). -/
  | keyGen (q id : Nat)
  /-- KEY_WRAP (R559). -/
  | keyWrap (q id : Nat)
  /-- KEY_ZERO (R549). -/
  | keyZero (q id : Nat)
  /-- SA_SET (R562). -/
  | saSet (q id : Nat)
  /-- DRAM_REQUEST_ACCEPT (R521). -/
  | dramRequestAccept (who : DramUser) (write : Bool) (a mask : Nat) (line : List Byte) (keep : Bool)
  /-- DRAM_READ_RETURN (R532). -/
  | dramReadReturn (ch err dev : Nat) (mirrorBad : Bool)
  /-- DRAM_REFRESH (R526). -/
  | dramRefresh (ch rank : Nat)
  /-- DRAM_PARITY_ALERT (R529). -/
  | dramParityAlert (ch : Nat)
  /-- DRAM_TRAINING_STEP (R538). -/
  | dramTrainingStep (ch : Nat) (ok : Bool) (spd : Option Spd)
  /-- DRAM_READY (R539). -/
  | dramReady (temp : Int)
  /-- LC_TOKEN (R545). -/
  | lcToken (t : LcToken)
  /-- TAMPER_ALARM (R564). -/
  | tamperAlarm (sources ticks : Nat)
  /-- LOCKDOWN_FUSE_BLOW (R564). -/
  | lockdownFuseBlow
  /-- RNG_STARTUP_DONE (R550). -/
  | rngStartupDone
  /-- RNG_HEALTH_FAIL (R552). -/
  | rngHealthFail
  /-- DRBG_RESEED (R553). -/
  | drbgReseed
  /-- SYS_RST_RELEASE (R600). -/
  | sysRstRelease (straps : Nat) (copiesOk : Bool) (tj : Int)
  /-- SYS_RST_ASSERT (R600). -/
  | sysRstAssert
  /-- FLASH_LOAD (R574). -/
  | flashLoad (a b : SlotChk)
  /-- SHEATH_INIT (R577). -/
  | sheathInit (dram : Option DramRecord)
  /-- BOOT_RELEASE (R579). -/
  | bootRelease (who size : Nat) (chk : ImgChk)
  /-- BOOT_VERIFY_VERDICT (R581). -/
  | bootVerifyVerdict (good : Bool)
  /-- GATES_OPEN (R581). -/
  | gatesOpen
  /-- BOOT_SCRUB_DONE (R582). -/
  | bootScrubDone
  /-- TRIAL_TIMEOUT (R588). -/
  | trialTimeout
  /-- SET_READ (R586). -/
  | setRead (c addr : Nat)
  /-- SET_APPEND (R584). -/
  | setAppend (c addr : Nat)
  /-- BOOT_COMMIT (R587). -/
  | bootCommit (c : Nat)
  /-- BOOT_SELECT (R590). -/
  | bootSelect (c v : Nat)
  /-- PWR_GOOD_FALL (R602). -/
  | pwrGoodFall
  /-- PWR_GOOD_RISE (R600). -/
  | pwrGoodRise
  /-- STANDBY_POWER_UP (R605). -/
  | standbyPowerUp
  /-- AVS_EVALUATION (R596). -/
  | avsEvaluation (below above err : Bool)
  /-- PMB_ALERT (R598). -/
  | pmbAlert (words : List Nat)
  /-- TELEMETRY_POLL (R598). -/
  | telemetryPoll (regs : List (Option (Nat × Nat × Nat)))
  /-- RAIL_EXCURSION (R594). -/
  | railExcursion (rail : Nat)
  /-- REFCLK_LOSS (R609). -/
  | refclkLoss (kind n : Nat)
  /-- THERMAL_TRIP (R614). -/
  | thermalTrip (sensor : Nat)
  /-- PORT_LINK_UP (R347). -/
  | portLinkUp (port : Nat)
  /-- MCH_LANE_UP (R328). -/
  | mchLaneUp (out : Bool)
  /-- MCH_LANE_DOWN (R334). -/
  | mchLaneDown (out : Bool)
  /-- PERST_DEASSERT (R413). -/
  | perstDeassert (n : Nat)
  /-- HOST_LINK_L0 (R445). -/
  | hostLinkL0 (n : Nat)
  /-- REFCLK_RETURN (R609). -/
  | refclkReturn (kind n : Nat)
  /-- TREF10M_IN_LOSS (R609). -/
  | tref10mInLoss
  /-- STANDBY_POWER_LOSS (R566). -/
  | standbyPowerLoss
  /-- RAIL_EXCURSION_END (R594). -/
  | railExcursionEnd (rail : Nat)
  /-- CRYPTO_RESULT_RELEASE (R565). -/
  | cryptoResultRelease (q id : Nat) (fault : Bool)
  /-- OLDEST_WRITE_WAIT_EXPIRY (R523). -/
  | oldestWriteWaitExpiry (ch : Nat)
  /-- ROW_IDLE_CLOSE (R519). -/
  | rowIdleClose (ch bank : Nat)
  deriving DecidableEq, Repr

end Sys2Proof
end

