-- ==== Sys2Proof/Decode.lean ====
section
/-! DEFINITION. Words and commands. The opcode table gives no row any bits, so no word spells a command
(`decodeTableWord`). The packet operations have words of their own in a strand program (R119, R120, R123, Tables 4.1 and
4.2): `operationWord` is the word of an operation, `decodeOperation` the operation of a word. -/
namespace Sys2Proof

/-- The command a word spells by the table's bits: the table gives bits for no row. -/
def decodeTableWord (_nbits _w : Nat) : Option Instr := none

/-! ## Formats (Table 4.1) -/

/-- A word: guard [31:28], major opcode [27:22], and the fields of [21:0] (R120, R123). -/
def opWord (g : BitVec 4) (major : BitVec 6) (fields : BitVec 22) : BitVec 32 := g ++ major ++ fields

/-- The guard of a word. -/
def wordGuard (w : BitVec 32) : BitVec 4 := w.extractLsb' 28 4

/-- The major opcode of a word. -/
def wordMajor (w : BitVec 32) : BitVec 6 := w.extractLsb' 22 6

/-- n bits of a word from bit lo up. -/
def fieldOf (n lo : Nat) (w : BitVec 32) : BitVec n := w.extractLsb' lo n

/-- Format R. -/
def formR (rd ra rb : BitVec 5) (fn : BitVec 7) : BitVec 22 := rd ++ ra ++ rb ++ fn

/-- Format I. -/
def formI (rd ra : BitVec 5) (imm : BitVec 12) : BitVec 22 := rd ++ ra ++ imm

/-- Format Z. -/
def formZ (rd : BitVec 5) (keep : BitVec 1) (imm : BitVec 16) : BitVec 22 := rd ++ keep ++ imm

/-! ## The word of an operation -/

/-- The word of a packet operation (Table 4.2); none for a command that is no operation. -/
def operationWord : Instr → Option (BitVec 32)
  | .nop _ word _ => some word
  | .aluAdd _ g rd ra rb => some (opWord g 0x01 (formR rd ra rb 0x00))
  | .aluSub _ g rd ra rb => some (opWord g 0x01 (formR rd ra rb 0x01))
  | .aluAnd _ g rd ra rb => some (opWord g 0x01 (formR rd ra rb 0x02))
  | .aluOr _ g rd ra rb => some (opWord g 0x01 (formR rd ra rb 0x03))
  | .aluXor _ g rd ra rb => some (opWord g 0x01 (formR rd ra rb 0x04))
  | .aluAndn _ g rd ra rb => some (opWord g 0x01 (formR rd ra rb 0x05))
  | .aluShl _ g rd ra rb => some (opWord g 0x01 (formR rd ra rb 0x06))
  | .aluShr _ g rd ra rb => some (opWord g 0x01 (formR rd ra rb 0x07))
  | .aluSar _ g rd ra rb => some (opWord g 0x01 (formR rd ra rb 0x08))
  | .aluMov _ g rd ra rb => some (opWord g 0x01 (formR rd ra rb 0x09))
  | .aluMinu _ g rd ra rb => some (opWord g 0x01 (formR rd ra rb 0x0A))
  | .aluMaxu _ g rd ra rb => some (opWord g 0x01 (formR rd ra rb 0x0B))
  | .aluPopc _ g rd ra rb => some (opWord g 0x01 (formR rd ra rb 0x0C))
  | .aluClz _ g rd ra rb => some (opWord g 0x01 (formR rd ra rb 0x0D))
  | .aluMul _ g rd ra rb => some (opWord g 0x01 (formR rd ra rb 0x10))
  | .addi _ g rd ra imm => some (opWord g 0x02 (formI rd ra imm))
  | .andi _ g rd ra imm => some (opWord g 0x03 (formI rd ra imm))
  | .ori _ g rd ra imm => some (opWord g 0x04 (formI rd ra imm))
  | .xori _ g rd ra imm => some (opWord g 0x05 (formI rd ra imm))
  | .shli _ g rd ra imm => some (opWord g 0x06 (formI rd ra imm))
  | .shri _ g rd ra imm => some (opWord g 0x07 (formI rd ra imm))
  | .sari _ g rd ra imm => some (opWord g 0x08 (formI rd ra imm))
  | .movz _ g h rd imm => some (opWord g (0x3#4 ++ h) (formZ rd 0 imm))
  | .movk _ g h rd imm => some (opWord g (0x3#4 ++ h) (formZ rd 1 imm))
  | .cmp _ g pd cond ra rb low => some (opWord g 0x10 (pd ++ cond ++ ra ++ rb ++ low))
  | .cmpi _ g pd cond ra imm => some (opWord g 0x11 (pd ++ cond ++ ra ++ imm))
  | .plogAnd _ g pd pa pb low => some (opWord g 0x12 (pd ++ pa ++ pb ++ 0#3 ++ low))
  | .plogOr _ g pd pa pb low => some (opWord g 0x12 (pd ++ pa ++ pb ++ 1#3 ++ low))
  | .plogXor _ g pd pa pb low => some (opWord g 0x12 (pd ++ pa ++ pb ++ 2#3 ++ low))
  | .plogAndn _ g pd pa pb low => some (opWord g 0x12 (pd ++ pa ++ pb ++ 3#3 ++ low))
  | .plogNot _ g pd pa pb low => some (opWord g 0x12 (pd ++ pa ++ pb ++ 4#3 ++ low))
  | .plogSet _ g pd pa pb low => some (opWord g 0x12 (pd ++ pa ++ pb ++ 5#3 ++ low))
  | .plogClr _ g pd pa pb low => some (opWord g 0x12 (pd ++ pa ++ pb ++ 6#3 ++ low))
  | .ext _ g rd ra pos len => some (opWord g 0x14 (rd ++ ra ++ pos ++ len))
  | .ins _ g rd ra pos len => some (opWord g 0x15 (rd ++ ra ++ pos ++ len))
  | .mrd _ g rd n low => some (opWord g 0x16 (rd ++ n ++ low))
  | .mwr _ g ra n low => some (opWord g 0x17 (ra ++ n ++ low))
  | .mwri _ g n mid imm => some (opWord g 0x18 (n ++ mid ++ imm))
  | .wld _ g rd size indexed ra off _ => some (opWord g 0x19 (rd ++ size ++ indexed ++ ra ++ off))
  | .wst _ g rd size indexed ra off => some (opWord g 0x1A (rd ++ size ++ indexed ++ ra ++ off))
  | .sld _ g rd size region ra imm _ => some (opWord g 0x1B (rd ++ size ++ region ++ ra ++ imm))
  | .sst _ g rd size region ra imm => some (opWord g 0x1C (rd ++ size ++ region ++ ra ++ imm))
  | .br _ g target low => some (opWord g 0x20 (target ++ low))
  | .lkx _ g rd ra pd v => some (opWord g 0x28 (rd ++ ra ++ pd ++ v))
  | .lkxMac _ g rd ra pd v => some (opWord g 0x28 (rd ++ ra ++ pd ++ v))
  | .lkl _ g rd ra pd v => some (opWord g 0x29 (rd ++ ra ++ pd ++ v))
  | .lka _ g rd ra pd v => some (opWord g 0x2A (rd ++ ra ++ pd ++ v))
  | .count _ g rd ra pd v => some (opWord g 0x2B (rd ++ ra ++ pd ++ v))
  | .police _ g rd ra pd v => some (opWord g 0x2C (rd ++ ra ++ pd ++ v))
  | .mcrd _ g rd ra pd v => some (opWord g 0x2D (rd ++ ra ++ pd ++ v))
  | .autsub _ g rd ra pd v => some (opWord g 0x2E (rd ++ ra ++ pd ++ v))
  | .cltry _ g rd ra pd v => some (opWord g 0x31 (rd ++ ra ++ pd ++ v))
  | .clrel _ g rd ra pd v => some (opWord g 0x32 (rd ++ ra ++ pd ++ v))
  | .clwait _ g rd ra pd v => some (opWord g 0x33 (rd ++ ra ++ pd ++ v))
  | .lnput _ g rd ra pd v => some (opWord g 0x34 (rd ++ ra ++ pd ++ v))
  | .lnget _ g rd ra pd v => some (opWord g 0x35 (rd ++ ra ++ pd ++ v))
  | .lnputw _ g rd ra pd v => some (opWord g 0x36 (rd ++ ra ++ pd ++ v))
  | .lngetw _ g rd ra pd v => some (opWord g 0x37 (rd ++ ra ++ pd ++ v))
  | .autwait _ g pd mid b => some (opWord g 0x2F (pd ++ mid ++ b))
  | .autwaitu _ g pd mid b => some (opWord g 0x30 (pd ++ mid ++ b))
  | .fwd _ g high code => some (opWord g 0x38 (high ++ code))
  | .drop _ g high code => some (opWord g 0x39 (high ++ code))
  | .trap _ g high code => some (opWord g 0x3A (high ++ code))
  | .slow _ g high code => some (opWord g 0x3B (high ++ code))
  | _ => none

/-! ## The operation of a word -/

/-- The ALU operation of a function code (Table 4.2). -/
def decodeAlu (f : Nat) (g : BitVec 4) (rd ra rb : BitVec 5) (fn : Nat) : Option Instr :=
  match fn with
  | 0x00 => some (.aluAdd f g rd ra rb)
  | 0x01 => some (.aluSub f g rd ra rb)
  | 0x02 => some (.aluAnd f g rd ra rb)
  | 0x03 => some (.aluOr f g rd ra rb)
  | 0x04 => some (.aluXor f g rd ra rb)
  | 0x05 => some (.aluAndn f g rd ra rb)
  | 0x06 => some (.aluShl f g rd ra rb)
  | 0x07 => some (.aluShr f g rd ra rb)
  | 0x08 => some (.aluSar f g rd ra rb)
  | 0x09 => some (.aluMov f g rd ra rb)
  | 0x0A => some (.aluMinu f g rd ra rb)
  | 0x0B => some (.aluMaxu f g rd ra rb)
  | 0x0C => some (.aluPopc f g rd ra rb)
  | 0x0D => some (.aluClz f g rd ra rb)
  | 0x10 => some (.aluMul f g rd ra rb)
  | _ => none

/-- The PLOG operation of a function code (Table 4.2). -/
def decodePlog (f : Nat) (g : BitVec 4) (pd pa pb : BitVec 3) (low : BitVec 10) (fn : Nat) : Option Instr :=
  match fn with
  | 0 => some (.plogAnd f g pd pa pb low)
  | 1 => some (.plogOr f g pd pa pb low)
  | 2 => some (.plogXor f g pd pa pb low)
  | 3 => some (.plogAndn f g pd pa pb low)
  | 4 => some (.plogNot f g pd pa pb low)
  | 5 => some (.plogSet f g pd pa pb low)
  | 6 => some (.plogClr f g pd pa pb low)
  | _ => none

/-- The operation of format K of a major opcode (Tables 4.2 and 4.3). -/
def decodeK (f : Nat) (g : BitVec 4) (rd ra : BitVec 5) (pd : BitVec 3) (v : BitVec 9) (major : Nat) : Option Instr :=
  match major with
  | 0x28 => some (if v.getLsbD 8 then .lkxMac f g rd ra pd v else .lkx f g rd ra pd v)
  | 0x29 => some (.lkl f g rd ra pd v)
  | 0x2A => some (.lka f g rd ra pd v)
  | 0x2B => some (.count f g rd ra pd v)
  | 0x2C => some (.police f g rd ra pd v)
  | 0x2D => some (.mcrd f g rd ra pd v)
  | 0x2E => some (.autsub f g rd ra pd v)
  | 0x31 => some (.cltry f g rd ra pd v)
  | 0x32 => some (.clrel f g rd ra pd v)
  | 0x33 => some (.clwait f g rd ra pd v)
  | 0x34 => some (.lnput f g rd ra pd v)
  | 0x35 => some (.lnget f g rd ra pd v)
  | 0x36 => some (.lnputw f g rd ra pd v)
  | 0x37 => some (.lngetw f g rd ra pd v)
  | _ => none

/-- The operation a word names on fibre f, none where its major opcode or function is reserved (R122); loads with no error in what they read. -/
def decodeNamed (f : Nat) (w : BitVec 32) : Option Instr :=
  let g := wordGuard w
  let a5 : BitVec 5 := fieldOf 5 17 w
  let b5 : BitVec 5 := fieldOf 5 12 w
  let pd : BitVec 3 := fieldOf 3 19 w
  match (wordMajor w).toNat with
  | 0x01 => decodeAlu f g a5 b5 (fieldOf 5 7 w) (fieldOf 7 0 w).toNat
  | 0x02 => some (.addi f g a5 b5 (fieldOf 12 0 w))
  | 0x03 => some (.andi f g a5 b5 (fieldOf 12 0 w))
  | 0x04 => some (.ori f g a5 b5 (fieldOf 12 0 w))
  | 0x05 => some (.xori f g a5 b5 (fieldOf 12 0 w))
  | 0x06 => some (.shli f g a5 b5 (fieldOf 12 0 w))
  | 0x07 => some (.shri f g a5 b5 (fieldOf 12 0 w))
  | 0x08 => some (.sari f g a5 b5 (fieldOf 12 0 w))
  | 0x0C | 0x0D | 0x0E | 0x0F =>
    some (if w.getLsbD 16 then .movk f g (fieldOf 2 22 w) a5 (fieldOf 16 0 w) else .movz f g (fieldOf 2 22 w) a5 (fieldOf 16 0 w))
  | 0x10 => some (.cmp f g pd (fieldOf 3 16 w) (fieldOf 5 11 w) (fieldOf 5 6 w) (fieldOf 6 0 w))
  | 0x11 => some (.cmpi f g pd (fieldOf 3 16 w) (fieldOf 5 11 w) (fieldOf 11 0 w))
  | 0x12 => decodePlog f g pd (fieldOf 3 16 w) (fieldOf 3 13 w) (fieldOf 10 0 w) (fieldOf 3 10 w).toNat
  | 0x14 => some (.ext f g a5 b5 (fieldOf 6 6 w) (fieldOf 6 0 w))
  | 0x15 => some (.ins f g a5 b5 (fieldOf 6 6 w) (fieldOf 6 0 w))
  | 0x16 => some (.mrd f g a5 (fieldOf 4 13 w) (fieldOf 13 0 w))
  | 0x17 => some (.mwr f g a5 (fieldOf 4 13 w) (fieldOf 13 0 w))
  | 0x18 => some (.mwri f g (fieldOf 4 18 w) (fieldOf 6 12 w) (fieldOf 12 0 w))
  | 0x19 => some (.wld f g a5 (fieldOf 2 15 w) (fieldOf 1 14 w) (fieldOf 5 9 w) (fieldOf 9 0 w) 0)
  | 0x1A => some (.wst f g a5 (fieldOf 2 15 w) (fieldOf 1 14 w) (fieldOf 5 9 w) (fieldOf 9 0 w))
  | 0x1B => some (.sld f g a5 (fieldOf 2 15 w) (fieldOf 2 13 w) (fieldOf 5 8 w) (fieldOf 8 0 w) 0)
  | 0x1C => some (.sst f g a5 (fieldOf 2 15 w) (fieldOf 2 13 w) (fieldOf 5 8 w) (fieldOf 8 0 w))
  | 0x20 => some (.br f g (fieldOf 14 8 w) (fieldOf 8 0 w))
  | 0x2F => some (.autwait f g pd (fieldOf 7 12 w) (fieldOf 12 0 w))
  | 0x30 => some (.autwaitu f g pd (fieldOf 7 12 w) (fieldOf 12 0 w))
  | 0x38 => some (.fwd f g (fieldOf 14 8 w) (fieldOf 8 0 w))
  | 0x39 => some (.drop f g (fieldOf 14 8 w) (fieldOf 8 0 w))
  | 0x3A => some (.trap f g (fieldOf 14 8 w) (fieldOf 8 0 w))
  | 0x3B => some (.slow f g (fieldOf 14 8 w) (fieldOf 8 0 w))
  | n => decodeK f g a5 b5 (fieldOf 3 9 w) (fieldOf 9 0 w) n

/-- The operation of a word: what names none is carried by NOP, which traps on it unless it is 0 (R122). -/
def decodeOperation (f : Nat) (w : BitVec 32) : Instr := (decodeNamed f w).getD (.nop f w 0)

/-- Slot n of a bundle (R119). -/
def slotWord (bundle : BitVec 128) (n : Nat) : BitVec 32 := bundle.extractLsb' (32 * n) 32

end Sys2Proof
end

