-- ==== Sys2Proof/Config.lean ====
section
/-! DEFINITION. What the spec leaves open: values nothing in the model fixes (constants with no body), and
the standard algorithms it names without giving (AES, SHA-384, ECDSA, RFC 3394), as functions nothing can evaluate. -/
namespace Sys2Proof.Config

/-- The n-th free value: a value the spec leaves open after a command that runs (log 8). -/
opaque freeValue : Nat → BitVec 64

/-- The n-th output byte of the DRBG (R553, log 8). -/
opaque drbgByte : Nat → BitVec 8

/-- AES in the named mode (FIPS 197, SP 800-38D, IEEE 1619): key, initial value, data in, data out (Table 0.3, log 12). -/
opaque cipher : (mode : Nat) → (key : List (BitVec 8)) → (iv : List (BitVec 8)) → (data : List (BitVec 8)) → List (BitVec 8)

/-- The GCM tag of a key, initial value, additional data and ciphertext (SP 800-38D, log 12). -/
opaque gcmTag : (key : List (BitVec 8)) → (iv aad data : List (BitVec 8)) → List (BitVec 8)

/-- A frame as MACsec protects it: SecTAG, secure data and ICV, for a key, salt, SCI, SSCI, association number and packet number (IEEE 802.1AE, R562, log 12). -/
opaque macsecFrame : (key salt : List (BitVec 8)) → (sci : BitVec 64) → (ssci an pn : Nat) → (frame : List (BitVec 8)) → List (BitVec 8)

/-- The wrapped form of a key under a key-encryption key (RFC 3394, log 12). -/
opaque wrapKey : (kek : List (BitVec 8)) → (key : List (BitVec 8)) → List (BitVec 8)

/-- The inverse of `wrapKey`: the key in a blob, none where its integrity check fails (RFC 3394, log 12). -/
opaque unwrapKey : (kek blob : List (BitVec 8)) → Option (List (BitVec 8))

/-- The key of the device key-encryption slot, derived from DEVICE_SECRET (SP 800-108 with the label QN-DKEK, R548, log 12). -/
opaque deriveKey : (secret : Nat) → List (BitVec 8)

/-- The bytes of a RoCEv2 frame of a connection: addresses, kind, PSN, epoch or control count, payload (InfiniBand Annex A17, R495, R504, log 12). -/
opaque rdmaFrame : (addr : List (BitVec 64)) → (kind psn epoch : Nat) → (payload : List (BitVec 8)) → List (BitVec 8)

/-- The DRAM channel that holds the shadow of a table line; the spec gives no map (R221, R373, log 13). -/
opaque shadowChannel : (table line : Nat) → Fin 12

end Sys2Proof.Config
end

