-- ==== Sys2Proof/Machine/Bits.lean ====
section
/-! DEFINITION. Byte order, bit fields and checksums: the helpers every layout of the spec is read and written with. -/
namespace Sys2Proof.Machine

/-- Bits [lo+width-1:lo] of a number. -/
def bits (x lo width : Nat) : Nat := x / 2 ^ lo % 2 ^ width

/-- Bit i of a number. -/
def bit (x i : Nat) : Bool := x.testBit i

/-- A Bool as the number of one bit. -/
def ofBit (b : Bool) : Nat := if b then 1 else 0

/-- The number with bits [lo+width-1:lo] replaced. -/
def setBits (x lo width v : Nat) : Nat :=
  x - bits x lo width * 2 ^ lo + v % 2 ^ width * 2 ^ lo

/-- The positions below n whose bit is set, ascending. -/
def bitList (x n : Nat) : List Nat := (List.range n).filter x.testBit

/-- A number as n bytes, least significant first (R641). -/
def le : Nat → Nat → List Byte
  | 0, _ => []
  | n + 1, x => BitVec.ofNat 8 x :: le n (x / 256)

/-- The number bytes spell, least significant first (R641). -/
def ofLe : List Byte → Nat
  | [] => 0
  | b :: bs => b.toNat + 256 * ofLe bs

/-- A number as n bytes, most significant first (R125, R338). -/
def be (n x : Nat) : List Byte := (le n x).reverse

/-- The number bytes spell, most significant first (R125). -/
def ofBe (bs : List Byte) : Nat := ofLe bs.reverse

/-- The little-endian field of `size` bytes at `off` of a structure (R641). -/
def field (bs : List Byte) (off size : Nat) : Nat := ofLe ((bs.drop off).take size)

/-- The bytes padded with zeros, or cut, to n. -/
def padTo (n : Nat) (bs : List Byte) : List Byte := (bs ++ List.replicate (n - bs.length) 0).take n

/-- One step of a reflected CRC over a bit of width-free state. -/
def crcBitRefl (poly crc : Nat) : Nat :=
  if crc % 2 = 1 then (crc / 2) ^^^ poly else crc / 2

/-- One byte of a reflected CRC. -/
def crcByteRefl (poly crc : Nat) (b : Byte) : Nat :=
  (List.range 8).foldl (fun c _ => crcBitRefl poly c) (crc ^^^ b.toNat)

/-- A reflected 32-bit CRC with all ones before and after (CRC-32 and CRC-32C). -/
def crcRefl32 (poly : Nat) (bs : List Byte) : Nat :=
  (bs.foldl (crcByteRefl poly) 0xFFFFFFFF) ^^^ 0xFFFFFFFF

/-- CRC-32 with the IEEE 802.3 polynomial (R199). -/
def crc32 : List Byte → Nat := crcRefl32 0xEDB88320

/-- CRC-32C with the Castagnoli polynomial (R199). -/
def crc32c : List Byte → Nat := crcRefl32 0x82F63B78

/-- One byte of the unreflected CRC-64 with the ECMA-182 polynomial (Table 4.8). -/
def crc64Byte (crc : Nat) (b : Byte) : Nat :=
  (List.range 8).foldl
    (fun c _ => if 2 ^ 63 ≤ c then (2 * c) % 2 ^ 64 ^^^ 0x42F0E1EBA9EA3693 else 2 * c)
    (crc ^^^ b.toNat * 2 ^ 56)

/-- CRC-64 with the ECMA-182 polynomial, initial value 0, no final inversion (Table 4.8, log 14). -/
def crc64 (bs : List Byte) : Nat := bs.foldl crc64Byte 0

/-- The distance from b up to a in counts of n bits (R433, R145). -/
def ahead (n a b : Nat) : Nat := (a + 2 ^ n - b % 2 ^ n) % 2 ^ n

/-- Number a is greater than number b in serial-number arithmetic on 32 bits (R145). -/
def serialGt (a b : Nat) : Bool := 1 ≤ ahead 32 a b && ahead 32 a b < 2 ^ 31

/-- A number read as a signed field of n bits. -/
def signed (n x : Nat) : Int := if x % 2 ^ n < 2 ^ (n - 1) then (x % 2 ^ n : Nat) else ((x % 2 ^ n : Nat) : Int) - (2 ^ n : Nat)

/-- An integer as an unsigned field of n bits. -/
def unsigned (n : Nat) (x : Int) : Nat := (x % (2 ^ n : Nat)).toNat

/-- Division rounded up. -/
def ceilDiv (a b : Nat) : Nat := (a + b - 1) / b

end Sys2Proof.Machine
end

