-- ==== Sys2Proof/Machine/State.lean ====
section
/-! DEFINITION. The state of the device as plain data, field by field as the spec names it, with its value at reset. -/
namespace Sys2Proof.Machine

/-- What the device sends to the outside: the model's own record of outputs (log 7). -/
inductive OutKind where
  | frame | macControl | braidControl | braidFrame | hostWrite | hostRead | msix | capInterrupt | pme | pps
  | mchWord | nvme | rdmaPacket | ptpMessage | snoop | coherence | dramCommand | flash | pin | mailbox | ioReply
  deriving DecidableEq, Repr

/-- One output: its kind, the numbers that say where it goes and what it is, and its bytes (log 7). -/
structure Out where
  kind  : OutKind
  args  : List Nat
  bytes : List Byte := []
  deriving DecidableEq, Repr

/-! ## Reel (02_reel_time.md) -/

/-- Table 2.3. -/
inductive ReelSt where
  | free | acquiring | locked | holdover
  deriving DecidableEq, Repr

/-- One REELSRC candidate entry (R53, Table 4.6) with what has been received for it (R54, R56, R58), and the reel time of the last of it. -/
structure Cand where
  kind     : Nat := 0
  port     : Nat := 0
  prio1    : Nat := 0
  prio2    : Nat := 0
  selPrio  : Nat := 0
  asym     : Int := 0
  floorU   : Nat := 0
  ageA     : Nat := 0
  dataset  : Option Dataset := none
  present  : Bool := false
  hops     : Nat := 0
  upHold   : Bool := false
  heardNs  : Nat := 0
  deriving DecidableEq, Repr

/-- A discontinuity that takes effect at the next boundary: the step D, and for a follower the era and era offset it adopts (R60, R62). -/
structure PendDisc where
  d     : Int
  adopt : Option (Nat × Nat) := none
  deriving DecidableEq, Repr

/-- The reel (R49 to R79). `time` and `slew` are in units of 1/24,000 ns, so that one pclk is 10,000 of them (Table 0.5) and a slew of one unit per pclk is 100 ppm (R59). `follower` and `hops` are those of the source in use or lost last (R55), `rootSet` the dataset of the time root (R54), `tod` how far the PTP source's time of day is ahead, in sixteenths of a nanosecond (R52), `stepTo` the turn of a forward step's boundary and the turn it leads to while skipped turns remain (R63), `trefLost` the loss of TREF10M_IN (R609). -/
structure Reel where
  time      : Nat := 0
  served    : Nat := 0
  st        : ReelSt := .free
  src       : Option Nat := none
  freq      : Option Nat := none
  era       : Nat := 0
  eraOffset : Nat := 0
  holdNs    : Nat := 0
  phaseErr  : Int := 0
  lastDisc  : Nat := 0
  cands     : Map Cand := []
  held      : List Int := []
  disc      : Option PendDisc := none
  good      : Nat := 0
  unapplied : Nat := 0
  slew      : Int := 0
  loss      : Bool := false
  secSum    : Int := 0
  secMeans  : List Int := []
  holdStart : Nat := 0
  holdA     : Nat := 0
  lossTurn  : Nat := 0
  secWhole  : Bool := false
  follower  : Bool := false
  hops      : Nat := 0
  rootSet   : Option Dataset := none
  tod       : Option Int := none
  stepTo    : Option (Nat × Nat) := none
  trefLost  : Bool := false
  holdB0    : Nat := 0
  freqMem   : Int := 0
  uMilli    : Nat := 4600000
  pps       : Bool := false
  deriving DecidableEq, Repr

/-! ## Splice sequencer (04_enette_reference.md) -/

/-- What an instruction of R37 waits for. -/
inductive SpWait where
  | turn (t : Nat)
  | barrier (t : Nat) (fabric bad : Bool)
  | fence (kind target : Nat)
  | retire (index : Nat) (asked : Nat)
  | leaveSelf
  | quiesce (q : Nat)
  | abort (q : Nat)
  | volume (v cut : Nat)
  | sliceReset (s : Nat)
  | activity (code resource : Nat)
  | place (code resource : Nat)
  | fallback
  deriving DecidableEq, Repr

/-- Where a program stands: executing, at a wait of R37 (with its expiry turn, R642), deferred (R139), or its instruction has ended with a status. -/
inductive SpPhase where
  | running
  | waiting (w : SpWait) (expiry : Option Nat)
  | deferred
  | ended (status : Nat)
  deriving DecidableEq, Repr

/-- A splice program (R133 to R140): header fields, the words not yet executed, and where it stands. -/
structure Prog where
  seq      : Nat
  qp       : Nat
  desc     : Nat
  capstan  : Bool
  slice    : Nat
  turn     : Option Nat := none
  shaded   : Bool := false
  shade    : Nat := 0
  cookie   : W := 0
  words    : List W := []
  idx      : Nat := 0
  left     : Nat := 0
  firstBad : Option (Nat × Nat) := none
  phase    : SpPhase := .running
  deriving DecidableEq, Repr

/-- One splice log record (Table 4.8); `lost` where both its copies in DRAM were uncorrectable, so that it is not delivered (R534). -/
structure LogRec where
  time   : Nat
  who    : Nat
  kind   : Nat
  op     : Nat
  status : Nat
  seq    : Nat
  idx    : Nat
  qp     : Nat
  shade  : Nat
  digest : W
  lost   : Bool := false
  deriving DecidableEq, Repr

/-- A program a control queue offers for acceptance (R36, R38): queue pair, descriptor, and what it was found to wait for: an entry of the AT list (R74), or one of the 16 places (R38). -/
structure Offer where
  qp     : Nat
  desc   : Nat
  len    : Nat
  hold   : Option Bool := none
  deriving DecidableEq, Repr

/-- A pending SNAP (R148): the turn, the block mask, and whether it is fabric-wide (R366). -/
structure Snap where
  turn   : Nat
  mask   : Nat
  fabric : Bool
  deriving DecidableEq, Repr

/-- The sequencer complex and the splice log (R36 to R38, R133 to R155). `cur` is the program that runs alone, `busy` the pclk at which the cost of what it has executed is spent (R143); `stage` is the staging ring, `ring` the DRAM ring (R153). -/
structure Splice where
  offers    : List Offer := []
  progs     : List Prog := []
  atList    : List Prog := []
  cur       : Option Nat := none
  nextSeq   : Nat := 0
  busy      : Nat := 0
  stage     : List LogRec := []
  ring      : List LogRec := []
  logWaited : Bool := false
  fences    : List (Nat × Nat) := []
  snaps     : List Snap := []
  snapTurns : Map Nat := []
  deriving DecidableEq, Repr

/-! ## Host interface (14_host_queues.md) -/

/-- Table 14.10. -/
inductive QpSt where
  | disabled | active | quiescing | aborting | idle
  deriving DecidableEq, Repr

/-- A fetched descriptor whose completion is not yet written (R435, R437). -/
structure Desc where
  id      : Nat
  bytes   : List Byte
  gen     : Nat
  started : Bool := false
  done    : Bool := false
  deriving DecidableEq, Repr

/-- A completion waiting to be written (R428, R429): `desc` names the fetched descriptor it ends, if any. -/
structure Cpl where
  tag    : Nat
  status : Nat
  gen    : Nat
  dws    : List Nat := []
  desc   : Option Nat := none
  deriving DecidableEq, Repr

/-- A posted buffer of a NET_RECV or EVENT queue pair (R439 to R441). -/
structure Buf where
  desc  : Nat
  addr  : Nat
  len   : Nat
  used  : Nat := 0
  count : Nat := 0
  first : Option Nat := none
  deriving DecidableEq, Repr

/-- A queue pair (R424 to R446). -/
structure Qp where
  st       : QpSt := .disabled
  kind     : Nat := 0
  capstan  : Bool := false
  port     : Nat := 0
  fn       : Nat := 0
  lidx     : Nat := 0
  slice    : Nat := 0
  sqBase   : Nat := 0
  cqBase   : Nat := 0
  sqDepth  : Nat := 0
  cqDepth  : Nat := 0
  weight   : Nat := 0
  burst    : Nat := 0
  modCount : Nat := 0
  modTimer : Nat := 0
  word5    : W := 0
  prod     : Nat := 0
  fetched  : Nat := 0
  cqWr     : Nat := 0
  cqHead   : Nat := 0
  credit   : Nat := 0
  descs    : List Desc := []
  held     : List Cpl := []
  waited   : Bool := false
  unsig    : Nat := 0
  timerAt  : Option Nat := none
  due      : Bool := false
  bufs     : List Buf := []
  logPos   : Nat := 0
  reset    : Bool := false
  rateTurn : Nat := 0
  deriving DecidableEq, Repr

/-- A host function (R413 to R417, R446 to R448). -/
structure Fn where
  d3      : Bool := false
  pmeSent : Bool := false
  masked  : List Nat := []
  pend    : List Nat := []
  errs    : Nat := 0
  last    : W := 0
  deriving DecidableEq, Repr

/-- The link of a host port: down, L0 or L1 (R417, Table 14.12). -/
inductive HpLink where
  | down | l0 | l1
  deriving DecidableEq, Repr

/-- A host port (R413 to R417). `fnNext` is the count that applies at the next PERST# deassertion. -/
structure HostPort where
  perst   : Bool := false
  link    : HpLink := .down
  fnCount : Nat := 1
  fnNext  : Nat := 1
  manager : Bool := false
  released : Bool := false
  deriving DecidableEq, Repr

/-- The host interface (R413 to R449) and the per-reader windows of 23_observation_map.md. -/
structure Hif where
  ports    : Map HostPort := [(0, { manager := true }), (1, {}), (2, {}), (3, {})]
  fns      : Map Fn := []
  qps      : Map Qp := []
  steer    : Map (Nat × Nat) := []
  last     : W := 0
  engines  : Map Nat := []
  tags     : Map Nat := []
  tagWait  : List Nat := []
  latches  : Map (Nat × W) := []
  views    : Map Nat := []
  rawSel   : Map Nat := []
  rawStage : Map (Nat × Map W) := []
  sliceCredit : Map Nat := []
  deriving DecidableEq, Repr

/-! ## Strands, fibres and lays (03_strands_execution.md) -/

/-- The state of Table 3.2 a program sees: registers, predicates, metadata, window and prefix (by offset + 64), fibre scratch. -/
structure Arch where
  w    : Map W := []
  p    : BitVec 8 := 1
  m    : Map W := []
  win  : List Host.Cell := []
  scr  : List Host.Cell := []
  dirt : Nat := 0
  deriving DecidableEq, Repr

/-- How a program ends (R131). -/
inductive Term where
  | fwd | drop (code : Nat) | trap (code : Nat) | slow
  deriving DecidableEq, Repr

/-- A lane operation with the operands it read at issue (R128, Table 4.3). `atEnd` names the incomplete packet whose remainder is charged when its frame ends, and the offset of LENGTH from the received length (R163). -/
inductive LaneOp where
  | exact (key : Nat)
  | mac (learn dest : Bool) (key : Nat)
  | lpm (wide : Bool) (key : Nat)
  | acl (profile : Nat) (key : Nat)
  | count (index bytes : Nat) (atEnd : Option (Nat × Int))
  | police (index shade colour charge : Nat) (atEnd : Option (Nat × Int))
  | group (g : Nat)
  | automaton (tag : Nat) (word : Nat)
  deriving DecidableEq, Repr

/-- What a fibre is running (R99, R107, R116). -/
inductive Role where
  | ingress | egress | slow | vector
  deriving DecidableEq, Repr

/-- The work a fibre holds: its packet and copy, its shade index, envelope E, D (or the start, on the slow path), and whether its program is an egress program. -/
structure Run where
  role  : Role
  pkt   : Nat
  copy  : Nat := 0
  shade : Nat := 0
  e     : Nat := 0
  d     : Nat := 0
  out   : Bool := false
  deriving DecidableEq, Repr

/-- A posted lane operation (R95): `due` is the pclk at which its result arrives, `run` the work its fibre then held and `m0` its ingress port; `dead` is set by a trap (R113). -/
structure Post where
  lane : Nat
  op   : LaneOp
  rd   : Nat
  pd   : Nat
  due  : Nat
  run  : Run
  m0   : Nat := 0
  dead : Bool := false
  deriving DecidableEq, Repr

/-- A blocked slow-path operation (R108, R410). -/
inductive Block where
  | cleat (n pd : Nat)
  | put (n : Nat) (word : W) (pd : Nat)
  | get (n rd pd : Nat)
  deriving DecidableEq, Repr

/-- A trap in progress: cause, and the pclk t (R113, R116). -/
structure TrapAt where
  cause : Nat
  t     : Nat
  deriving DecidableEq, Repr

/-- An accepted automaton submission whose result the fibre has not taken (R317): its segment, its unit, the result word once it has arrived, and the pclk from which it is there (R316). -/
structure Sub where
  id   : Nat
  unit : Nat
  word : Option W := none
  from' : Nat := 0
  deriving DecidableEq, Repr

/-- A fibre (R83, R90 to R117). `iss` holds the registers as they stood when the bundle issued (R92), `at'` the pclk of that issue; `fetch` is the pclk at which the next bundle is in the fetch buffer (R96, R99), `avail` those at which results of fixed latency are available (R93), by register, 32 + predicate, 64 for m15 and 65 for m14; `freeAt` is the first pclk at which the fibre is free (R101). -/
structure Fibre where
  arch    : Arch := {}
  iss     : Arch := {}
  undo    : List (Nat × Byte) := []
  slot    : Nat := 0
  pc      : Nat := 0
  run     : Option Run := none
  ended   : Option Term := none
  parked  : Bool := false
  trapped : Option TrapAt := none
  block   : Option Block := none
  posts   : List Post := []
  subs    : List Sub := []
  waits   : List (Nat × Option Nat) := []
  autUnits : List Nat := []
  hits    : List (Nat × Nat) := []
  hitTabs : List Nat := []
  at'     : Nat := 0
  fetch   : Nat := 0
  avail   : Map Nat := []
  freeAt  : Nat := 0
  deriving DecidableEq, Repr

/-- A lookup-cache entry (R215). -/
structure CacheEnt where
  table : Nat
  shade : Nat
  key   : Nat
  value : W
  line  : Nat
  fill  : Nat
  deriving DecidableEq, Repr

/-- An injected frame waiting for an exception fibre (R438). -/
structure Inject where
  qp     : Nat
  desc   : Nat
  cls    : Nat
  domain : Nat
  user0  : W
  bytes  : List Byte
  deriving DecidableEq, Repr

/-- A lay: the fibre map in force (R105), its lines and queues (R80), and its last trap (R118). -/
structure Lay where
  x        : Nat := 0
  strands  : Nat := 0
  lastTrap : Nat := 0
  slowLine : List Nat := []
  trapLine : List (List Byte) := []
  inject   : List Inject := []
  cache    : List CacheEnt := []
  deriving DecidableEq, Repr

/-- All lays and fibres; fibre f of strand s is number 8 s + f (R13). `issued` is, by strand, the first pclk after its latest issue, `borrowed` the fibre that most recently borrowed a slot (R90); `loads` numbers the program sets loaded (R81). -/
structure Lays where
  lays     : Map Lay := []
  fibres   : Map Fibre := []
  laneFree : Map Nat := []
  issued   : Map Nat := []
  borrowed : Map Nat := []
  loads    : Nat := 0
  deriving DecidableEq, Repr

/-! ## Shades (05_packet_path.md) -/

/-- Table 5.5. -/
inductive ShSt where
  | free | opened | pending | current | draining | retiring
  deriving DecidableEq, Repr

/-- A policer's mode and rates (R274): `rfc4115`, colour-aware, CIR, PIR or EIR, CBS, PBS or EBS. -/
structure PolCfg where
  rfc4115 : Bool := false
  aware   : Bool := false
  cir     : Nat := 0
  pir     : Nat := 0
  cbs     : Nat := 0
  pbs     : Nat := 0
  deriving DecidableEq, Repr

/-- A live-shade index (R177, R189) with the shaded settings that are not table lines (R181), and the one-time settings of its own commit (R145). `loads` tells, by lay, which PROGLOAD loaded the set it holds (R81). -/
structure Shade where
  st       : ShSt := .free
  num      : Nat := 0
  turn     : Nat := 0
  resident : Nat := 0
  fabric   : Bool := false
  sets     : Map ProgSet := []
  loads    : Map Nat := []
  groups   : Map Nat := []
  shapers  : Map (Nat × Nat) := []
  policers : Map PolCfg := []
  shFill   : Map Bool := []
  polFill  : Map Bool := []
  ctrSet   : Map (W × W) := []
  dropSelf : Bool := false
  joinSelf : Option (Nat × Nat × Nat) := none
  epoch    : Nat := 0
  deriving DecidableEq, Repr

/-! ## Packets and ports (05, 07, 08) -/

/-- Where a packet is (R25, R99 to R107). -/
inductive Place where
  | arrival | waiting | ingress (fibre : Nat) | releaseLine (due : Nat) | slowLine | slow (fibre : Nat) | linked | gone
  deriving DecidableEq, Repr

/-- Where a copy is (R249, R263). -/
inductive CopyAt where
  | queued | picked | egress (fibre : Nat) | egressLine (due : Nat) | transmit | sending | gone
  deriving DecidableEq, Repr

/-- One copy of a packet (R169, R174, R249, R266, R292). `owed` lists the picks made while its frame was incomplete: queue, shaper, credits used (R267, R269, R281); `due` ends segment 4 of its pick, or is the pclk it was passed to transmit; `wait` is what coil bandwidth adds (R258). -/
structure Copy where
  port   : Nat
  cls    : Nat
  mirror : Bool := false
  cut    : Bool := false
  pos    : CopyAt := .queued
  read   : Nat := 0
  owed   : List (Nat × Option Nat × Nat) := []
  hold   : Nat := 0
  m      : Map W := []
  head   : List Byte := []
  skip   : Nat := 0
  term   : Option Term := none
  fate   : Option Nat := none
  code   : Nat := 0
  stomp  : Bool := false
  dead   : Bool := false
  due    : Nat := 0
  wait   : Nat := 0
  dest   : Nat := 0
  strand : Nat := 0
  txNs   : Option Nat := none
  mac    : Option (Nat × Nat) := none
  deriving DecidableEq, Repr

/-- A MACsec secure association of a port (Table 19.12): `keyed` is cleared when a tamper response zeroises the keys (R565). -/
structure Sa where
  rx     : Bool
  an     : Nat
  slot   : Nat
  sci    : W
  ssci   : Nat
  salt   : List Byte
  pn     : Nat
  window : Nat
  top    : Nat := 0
  active : Bool := false
  keyed  : Bool := true
  deriving DecidableEq, Repr

/-- A packet in the device (R156 to R176, R228 to R253, R284 to R292). -/
structure Pkt where
  iport   : Nat
  bytes   : List Byte := []
  whole   : Bool := false
  rxLen   : Nat := 0
  rxBytes : Nat := 0
  refNs   : Nat := 0
  refPclk : Nat := 0
  due     : Nat := 0
  lay     : Nat := 0
  shade   : Nat := 0
  counted : Bool := false
  place   : Place := .arrival
  m       : Map W := []
  head    : List Byte := []
  skip    : Nat := 0
  acct    : Nat := 0
  cells   : Nat := 0
  freed   : Nat := 0
  pfx     : Bool := false
  stop    : Bool := false
  lastCut : Bool := false
  lastFate : Option Nat := none
  eport   : Nat := 0x1FF
  term    : Option Term := none
  fate    : Option Nat := none
  code    : Nat := 0
  final   : Bool := false
  fault   : Bool := false
  hdr     : List Byte := []
  copies  : Map Copy := []
  txd     : Nat := 0
  stale   : Bool := false
  suspect : Bool := false
  counts  : List (Nat × Int) := []
  polices : List (Nat × Bool × Bool × Int) := []
  strand  : Nat := 0
  fateNs  : Nat := 0
  waited  : Bool := false
  inj     : Option (Nat × Nat) := none
  transit : Option BraidHdr := none
  hash    : Nat := 0
  mirror  : Bool := false
  cls     : Nat := 0
  domain  : Nat := 0
  yellowSeen : Bool := false
  sas     : Map Sa := []
  pastSeen : Bool := false
  toHost  : List (Nat × Nat × Nat × Option Nat) := []
  wback   : Nat := 0
  wait    : Nat := 0
  deriving DecidableEq, Repr

/-- A port's configuration words (Table 4.7) and its state (R252). -/
structure Port where
  lanes   : Nat := 1
  rate    : Nat := 0
  fec     : Nat := 0
  braid   : Bool := false
  enable  : Bool := false
  ctMask  : Nat := 0
  pfc     : Nat := 0
  pause   : Bool := false
  defCls  : Nat := 0
  macsec  : Bool := false
  domain  : Nat := 0
  delay   : Nat := 0
  allow   : Nat := 0
  link    : Bool := false
  removing : Bool := false
  deriving DecidableEq, Repr

/-- An egress queue (R261, R266). -/
structure Queue where
  quantum : Nat := 9416
  shaper  : Option Nat := none
  deficit : Int := 0
  awarded : Bool := false
  copies  : List (Nat × Nat) := []
  peak    : Nat := 0
  deriving DecidableEq, Repr

/-- A token bucket (R270): level and remainder. -/
structure Bucket where
  level : Int := 0
  rho   : Nat := 0
  deriving DecidableEq, Repr

/-- A coil account (R230 to R244): cells held per tier, the headroom H and reserve in force and those that apply at the next boundary. -/
structure Acct where
  res    : Nat := 0
  shared : Nat := 0
  hr     : Nat := 0
  past   : Nat := 0
  xoff   : Bool := false
  xTurns : Nat := 0
  h      : Nat := 0
  hNext  : Option Nat := none
  rsv    : Nat := 0
  rsvNext : Option Nat := none
  withheld : Nat := 0
  debt   : Nat := 0
  taken  : Option Nat := none
  deriving DecidableEq, Repr

/-- A copy in a port's egress line (R263): its charge, the pclk at which it was passed to transmit, its length once its frame is complete, the pclk before which its last byte is not there, and whether its reference point has crossed the lands. -/
structure LineEnt where
  pkt   : Nat
  copy  : Nat
  bytes : Nat
  ready : Option Nat := none
  len   : Option Nat := none
  least : Nat := 0
  sent  : Bool := false
  deriving DecidableEq, Repr

/-- Packets, ports, queues, coil and buckets. `txFree` is, by port, the pclk by which the last byte of the copies that have left its line is passed to transmit; `eOut` the largest egress envelope in force, `eOutNext` the one that applies at the next boundary (R263); `bwAt` and `bwUsed` are the pclk of the latest write-back or window fill and the bytes of such moved in it (R255). -/
structure Path where
  pkts     : Map Pkt := []
  nextPkt  : Nat := 0
  ports    : Map Port := []
  queues   : Map Queue := []
  rrNext   : Map Nat := []
  lines    : Map (List LineEnt) := []
  txFree   : Map Nat := []
  eOut     : Map Nat := []
  eOutNext : Map Nat := []
  bwAt     : Nat := 0
  bwUsed   : Nat := 0
  pauseEnd : Map Nat := []
  accts    : Map Acct := []
  scale    : Nat := 0x10000
  short    : Bool := false
  peak     : Nat := 0
  delays   : Map (List Nat) := []
  delayNs  : Map (Nat × Bool × Bool) := []
  injWait  : List (Nat × Inject) := []
  shapers  : Map Bucket := []
  polC     : Map Bucket := []
  polP     : Map Bucket := []
  deriving DecidableEq, Repr

/-! ## Tables (06_tables.md) -/

/-- A line of the MAC or general exact table (R190, R195, Table 6.5). -/
structure Line where
  key    : Nat
  result : W
  mask   : Nat
  hit    : Bool := false
  deriving DecidableEq, Repr

/-- An LPM row, or a wide entry in its pair or quad (R206). A mask of 0 is a hole (R210). `tmask` holds mask bits written through the raw window in place of those of the prefix length (Table 6.4); `fix` is the row at which the entry was found corrupt, while it is reloaded: it moves with the entry (R211, R224). -/
structure Row where
  plen   : Nat
  key    : Nat
  result : W
  mask   : Nat
  tmask  : Option Nat := none
  fix    : Option Nat := none
  deriving DecidableEq, Repr

/-- A quad of the wide region (R206): its band and its entries, one per row pair, or one of length 65 to 128. -/
structure Quad where
  plen  : Nat
  lo    : Option Row
  hi    : Option Row := none
  deriving DecidableEq, Repr

/-- A row of the ACL (R213). -/
structure AclRow where
  pos    : Nat
  key    : Nat
  cmask  : Nat
  action : W
  mask   : Nat
  deriving DecidableEq, Repr

/-- An open stale window (R219). -/
structure Stale where
  table : Nat
  line  : Nat
  close : Nat
  deriving DecidableEq, Repr

/-- The searched tables, counters, learn filter and scrubber (R190 to R227). `goodTurn` is the turn of the latest compare of each scrub region, `lastGood` that of the last good compare of the lines which that one did not find good (Table 6.8). -/
structure Tables where
  mac      : Map Line := []
  exact    : Map Line := []
  narrow   : List Row := []
  wide     : List Quad := []
  acl      : Map AclRow := []
  counters : Map (W × W) := []
  learned  : List (Nat × Nat) := []
  stale    : List Stale := []
  reload   : List (Nat × Nat × Nat) := []
  rawLpm   : Map Row := []
  tcamPos  : Nat := 0
  exactPos : Nat := 0
  holeWide : Bool := false
  goodTurn : Map Nat := []
  lastGood : Map Nat := []
  fixLast  : W := 0
  deriving DecidableEq, Repr

/-! ## Logline (09_logline.md) -/

/-- What a packet or copy record says (Table 9.2). -/
structure RecFields where
  iport : Nat
  eport : Nat
  fate  : Nat
  len   : Nat
  shade : Nat
  hash  : Nat
  stale : Bool
  suspect : Bool
  cut   : Bool
  mirror : Bool
  cls   : Nat
  code  : Nat
  copy  : Bool
  ref   : Nat
  domain : Nat
  time  : Nat
  deriving DecidableEq, Repr

/-- What the logline writes, in the order of reel time (R294, R297): a turn boundary, the start of a block, a SNAP mark, or a record with its frame's first bytes. -/
inductive LogItem where
  | turn (t : Nat) | block (anchor era eraOff : Nat) | mark (turn : Nat) | entry (r : RecFields) (frame : List Byte)
  deriving DecidableEq, Repr

/-- A staged page (R294, R295, R300, R301), with the header maps of the binding under which it opened (R303). -/
structure Page where
  seq     : Nat
  first   : Bool := false
  gapPage : Bool := false
  anchor  : Nat := 0
  era     : Nat := 0
  eraOff  : Nat := 0
  turn    : Nat := 0
  recs    : List Byte := []
  vol     : Option Nat := none
  m48     : Nat := 0
  m112    : Nat := 0
  closed  : Bool := false
  writing : Bool := false
  retry   : Option Nat := none
  tries   : Nat := 0
  done    : Option Nat := none
  deriving DecidableEq, Repr

/-- A tenant view (R303, Table 9.5). -/
structure View where
  header  : Bool := false
  slice   : Nat := 0
  qp      : Nat := 0
  ports   : Nat := 0
  domains : List Nat := []
  held    : Nat := 0
  span    : Nat := 0
  deriving DecidableEq, Repr

/-- The logline (R284 to R307). -/
structure Log where
  pages   : List Page := []
  seq     : Nat := 0
  archSeq : Nat := 0
  anchor  : Nat := 0
  era     : Nat := 0
  eraOff  : Nat := 0
  newBlock : Bool := true
  nonce   : W := 0
  gaps    : Map (Nat × Nat) := []
  used    : Nat := 0
  usedFwd : Nat := 0
  hit     : Bool := false
  hitLast : Bool := false
  archive : Option (Nat × Nat × Nat) := none
  archVol : Option Nat := none
  lost    : Nat := 0
  views   : Map View := []
  items   : List LogItem := []
  deriving DecidableEq, Repr

/-! ## Automata and the match chain (10_automata.md) -/

/-- Who submitted a segment: a fibre, the chain (with the origin's tag), or a capstan query slot (R318). -/
inductive SegFor where
  | fibre (key : Nat) | chain (tag : Nat) | query (core slot : Nat)
  deriving DecidableEq, Repr

/-- An accepted segment (R313, R318). -/
structure Seg where
  id     : Nat
  owner  : SegFor
  slot   : Nat := 0
  finish : Nat := 0
  shade  : Nat := 0
  set    : Nat := 0
  bytes  : List Byte := []
  trunc  : Bool := false
  noSet  : Bool := false
  tag    : Option Nat := none
  m0     : Nat := 0
  deriving DecidableEq, Repr

/-- An automaton unit (R312 to R318, R326): its accepted segments, oldest first, and whether it is out of admission. -/
structure AutUnit where
  segs : List Seg := []
  fix  : List (Nat × Nat) := []
  deriving DecidableEq, Repr

/-- A tag of the match chain awaiting its other input, under the chain settings it is merged with (R329, R332, R334). -/
structure ChainTag where
  tag  : Nat
  mine : Option W := none
  up   : Option W := none
  since : Nat := 0
  chain : Chain
  deriving DecidableEq, Repr

/-- The automaton units and the chain (R308 to R336). -/
structure Aut where
  units    : Map AutUnit := []
  nextSeg  : Nat := 0
  seq      : Nat := 0
  tags     : List ChainTag := []
  gone     : List Nat := []
  mine     : List (Nat × SegFor × Nat × Nat × Bool) := []
  inUp     : Bool := false
  outUp    : Bool := false
  fixLast  : W := 0
  scrubPos : Map Nat := []
  goodTurn : Map Nat := []
  lastGood : Map Nat := []
  deriving DecidableEq, Repr

/-! ## Braid (11_braid.md) -/

/-- A node or knot route entry (R350, R351): identifier, membership, next hops, ADAPTIVE, flowlet gap, and a knot's face. -/
structure Route where
  id       : Nat
  mask     : Nat
  hops     : List Nat
  adaptive : Bool
  gap      : Nat
  face     : Nat := 0
  deriving DecidableEq, Repr

/-- A knot membership entry (R351). -/
structure Member where
  id      : Nat
  mask    : Nat
  face    : Bool
  gateway : Bool
  lender  : Bool
  deriving DecidableEq, Repr

/-- R347. -/
inductive LinkSt where
  | down | hello | up
  deriving DecidableEq, Repr

/-- A braid link (R346 to R362, R366). `peerTime` and `rxTime` are the timestamps of the peer's last TIME message: sent, and received here (R70, Table 11.3). -/
structure Link where
  st       : LinkSt := .down
  gotHello : Bool := false
  gotCredit : Bool := false
  peer     : Nat := 0
  peerProv : Bool := false
  peerFenced : Bool := false
  lease    : Option Nat := none
  leaseTurn : Nat := 0
  grants   : Map Nat := []
  sent     : Map Nat := []
  myGrant  : Map Nat := []
  peerRx   : Nat := 0
  txUp     : Nat := 0
  rxUp     : Nat := 0
  silent   : Nat := 0
  heard    : Bool := false
  delay    : Nat := 0
  lost     : Bool := false
  mark     : Option Nat := none
  markDone : Bool := false
  markBad  : Bool := false
  markFrames : Nat := 0
  markCells  : Nat := 0
  markTurn   : Nat := 0
  early    : Option Nat := none
  asked    : Bool := false
  hello    : List Byte := []
  peerTime : Nat := 0
  rxTime   : Nat := 0
  deriving DecidableEq, Repr

/-- A flowlet entry (R354). -/
structure Flowlet where
  route : Nat
  hop   : Nat
  turn  : Nat
  deriving DecidableEq, Repr

/-- The braid (R337 to R370). -/
structure Braid where
  node     : Nat := 0
  prov     : Bool := false
  h        : Nat := 0
  hopNs    : Nat := 1024
  epochBad : Option Nat := none
  resets   : List (Nat × Nat) := []
  nodes    : List Route := []
  knots    : List Route := []
  members  : List Member := []
  flowlets : Map Flowlet := []
  links    : Map Link := []
  slots    : Map Nat := []
  seen     : List (Nat × Nat) := []
  seq      : Nat := 0
  helloAt  : Nat := 0
  deriving DecidableEq, Repr

/-! ## Calibration and the maintenance arbiter (12_calibration_maintenance.md) -/

/-- Table 12.2. -/
inductive Token where
  | port (p : Nat) | lgroup (peer : Nat) | chan (c : Nat) | tcam | aut (l : Nat) | flash
  deriving DecidableEq, Repr

/-- Who claims tokens: a splice program, or the device itself (R376, R377). -/
inductive Who where
  | prog (seq : Nat) | device
  deriving DecidableEq, Repr

/-- A request for an activity or a table instruction, with its claims (token, X) (R375, R376), and for a CAL in mode RUN the turn served when it was made (R379). -/
structure Req where
  who    : Who
  code   : Nat
  res    : Nat
  claims : List (Token × Bool)
  region : Nat := 0
  turn   : Nat := 0
  deriving DecidableEq, Repr

/-- An activity or instruction holding its tokens (R375), with the conditions of its result (R381). -/
structure Hold where
  req   : Req
  start : Nat := 0
  temp  : Int := 0
  bin   : Nat := 0
  ran   : Bool := false
  dir   : Int := 0
  limit : Bool := false
  deriving DecidableEq, Repr

/-- A stored result (Table 12.10, R381). -/
structure Result where
  temp  : Int
  bin   : Nat
  prov  : Bool
  retake : Bool := false
  turn  : Nat
  deriving DecidableEq, Repr

/-- The period of a periodic activity on a resource (R371, R379, R380): default when none. -/
structure Period where
  turns : Option Nat := none
  suspended : Bool := false
  next  : Nat := 0
  deriving DecidableEq, Repr

/-- Calibration (R371 to R385). Results are keyed by port or channel; `due` says that the slot of the last boundary has a periodic activity to start. -/
structure Cal where
  holds   : List Hold := []
  waiting : List Req := []
  asked   : List Req := []
  placeQ  : List Req := []
  periods : Map Period := []
  serdes  : Map Result := []
  hroom   : Map Result := []
  dram    : Map Result := []
  eyeStep : Map Int := []
  guard   : List Nat := []
  slotAt  : Nat := 0
  due     : Bool := false
  scrub   : Map (Nat × Nat) := []
  deriving DecidableEq, Repr

/-! ## Addressed memories (log 6): strand scratch by 24,576 s + offset, the shade banks' bytes by lay, the L3 flat region, DRAM -/

/-- The memories commands read and write by address, each in the canonical form of `Memory.wf`. -/
structure Mems where
  scratch : List Host.Cell := []
  flat    : List Host.Cell := []
  dram    : List Host.Cell := []
  deriving DecidableEq, Repr

/-! ## DRAM controller (18_dram.md) -/

/-- A request of one line (R518): `c` is its channel address, `a` its offset, `at'` the pclk of its acceptance, `port` 5 for the controller's own;
`user` and `item` say for whom a read is made (Table 18.6): a connection's context, a descriptor of a store queue, a record of the splice log ring. -/
structure DReq where
  id    : Nat
  port  : Nat
  write : Bool
  a     : Nat
  c     : Nat
  mask  : Nat
  data  : List Byte := []
  keep  : Bool
  at'   : Nat
  user  : Nat := 0
  item  : Nat := 0
  deriving DecidableEq, Repr

/-- An open row: the row, the pclk of its last request, and whether it was left open by an OPEN hint (R519). -/
structure DRow where
  row  : Nat
  last : Nat
  keep : Bool
  deriving DecidableEq, Repr

/-- A channel (R521 to R530, R538). `st` 0 untrained, 1 training, 2 ready, 3 FAILED; `order` the banks in in-order mode with the youngest request matched; `retry` the last 64 commands. -/
structure DChan where
  st     : Nat := 0
  step   : Nat := 0
  bad    : Nat := 0
  tries  : Nat := 0
  drain  : Bool := false
  reads  : List DReq := []
  writes : List DReq := []
  order  : List (Nat × Nat) := []
  rows   : Map DRow := []
  retry  : List (Nat × Bool × Nat) := []
  replays : Nat × Nat := (0, 0)
  late   : Map Nat := []
  deriving DecidableEq, Repr

/-- The DRAM controller (R512 to R540). Rates and densities as coded in DMC_CONFIG; `poison` holds lines by 2^40 channel + channel address. -/
structure Dmc where
  ready    : Bool := false
  training : Bool := false
  noRecord : Bool := false
  reason   : Nat := 0
  rate     : Nat := 0
  k        : Nat := 0
  dimms    : Nat := 0
  ranks    : Nat := 0
  x8       : Bool := false
  density  : Nat := 0
  capacity : Nat := 0
  masks    : List Nat := []
  ports    : List (Nat × Nat) := []
  levels   : Map Bucket := []
  chans    : Map DChan := []
  nextReq  : Nat := 0
  waiting  : List DReq := []
  poison   : List Nat := []
  ceLast   : W := 0
  ueLast   : W := 0
  deriving DecidableEq, Repr

/-! ## Boot (20_boot_update.md) -/

/-- Table 20.2. -/
inductive BootSt where
  | rom | flashLoad | sheathInit | waitPush | verify | opened | scrub | halted | recovery
  deriving DecidableEq, Repr

/-- A sheath slot, or a rejected capstan digest (R571): digest, failed-trial count, last reason. -/
structure TrialRec where
  digest : Nat := 0
  count  : Nat := 0
  reason : Nat := 0
  deriving DecidableEq, Repr

/-- A trial in progress (R571): a sheath slot, or a capstan digest. -/
inductive Trial where
  | slot (n : Nat) | capstan (digest : Nat)
  deriving DecidableEq, Repr

/-- The directory in force (R571), with the sequence number of its copy. -/
structure Directory where
  seq       : Nat := 0
  active    : Nat := 0
  trial     : Option Trial := none
  slots     : Map TrialRec := []
  committed : Nat := 0
  rejected  : List TrialRec := []
  reason    : Nat := 0
  deriving DecidableEq, Repr

/-- A settings record (R584). -/
structure SetRec where
  kind   : Nat
  schema : Nat
  inst   : Nat
  seq    : Nat
  body   : List Byte
  deriving DecidableEq, Repr

/-- The settings journal (R584, R585): the generation of the current half, the records in it in order, the next sequence. -/
structure Journal where
  gen  : Nat := 1
  half : Nat := 0
  recs : List SetRec := []
  next : Nat := 0
  deriving DecidableEq, Repr

/-- Header fields of the image that runs (Table 20.4): body length, rollback version, lowest and highest schema read. -/
structure ImgHdr where
  len  : Nat := 0
  roll : Nat := 0
  lo   : Nat := 0
  hi   : Nat := 0
  deriving DecidableEq, Repr

/-- Boot, update and fallback (R568 to R591). `held` is main-domain reset (R600); `flash` the xSPI flash by offset outside the areas `dir` and `jnl` stand for. -/
structure Boot where
  held     : Bool := true
  st       : BootSt := .rom
  gated    : Bool := true
  straps   : Nat := 0
  slot     : Nat := 0
  pushed   : Bool := false
  reason   : Nat := 0
  dir      : Directory := {}
  flash    : List Host.Cell := []
  jnl      : Journal := {}
  jnlHold  : Option (List Byte) := none
  sheath   : ImgHdr := {}
  standby  : ImgHdr := {}
  cap      : ImgHdr := {}
  refill   : Bool := false
  ranCap   : Bool := false
  ringBase : List Nat := []
  shTrial  : Bool := false
  capTrial : Bool := false
  selected : Option Nat := none
  setDone  : Bool := false
  trialAt  : Nat := 0
  passed   : Option Nat := none
  fallAt   : Option (Nat × Nat) := none
  page     : Option (Nat × Nat) := none
  pageSeq  : Nat := 0
  relNs    : Nat := 0
  verNs    : Nat := 0
  digest   : Nat := 0
  last     : List Byte := []
  setResult : Nat × Nat × Nat := (0, 0, 0)
  setBusy  : Bool := false
  flSrc    : Nat := 0
  flLen    : Nat := 0
  result   : Nat := 0
  deriving DecidableEq, Repr

/-! ## Capstans (13_capstan.md) -/

/-- A holder or waiter of a cleat or lanyard: a fibre or a capstan core (R403). -/
inductive Holder where
  | fibre (f : Nat) | core (c : Nat)
  deriving DecidableEq, Repr

/-- A cleat (R403, R405): its holder and its waiters in arrival order. -/
structure Cleat where
  holder  : Option Holder := none
  waiters : List Holder := []
  deriving DecidableEq, Repr

/-- A lanyard (R408 to R410): its words, oldest first, the pclk of the last put with the words put in it that are still there, and the waiting puts and gets. -/
structure Lanyard where
  words : List W := []
  fresh : Nat × Nat := (0, 0)
  puts  : List (Holder × W) := []
  gets  : List Holder := []
  deriving DecidableEq, Repr

/-- A core's wait in CL.WAIT (with its expiry turn), LN.PUTW or LN.GETW: the cleat or lanyard and rd. -/
inductive CoreWait where
  | cleat (n rd : Nat) (expiry : Option Nat)
  | put (n rd : Nat)
  | get (n rd : Nat)
  deriving DecidableEq, Repr

/-- State of a line in an L2 (R391, R392). -/
inductive LSt where
  | s | e | m
  deriving DecidableEq, Repr

/-- A line in an L2. -/
structure L2Line where
  st   : LSt
  data : List Byte
  deriving DecidableEq, Repr

/-- An entry of an L2's eviction buffer (R386, R393): its data if dirty, whether the notice has not yet reached the directory, and whether a snoop took it. -/
structure Evb where
  line  : Nat
  dirty : Option (List Byte)
  sent  : Bool := true
  taken : Bool := false
  deriving DecidableEq, Repr

/-- A capstan core as its coprocessors, cleat and lanyard instructions and its L2 see it (R386, R391 to R412). `step` is cclk / 400 MHz and `stepNext` a change that takes effect at the next turn boundary (R44), `exc` the last exception one of these instructions raised. -/
structure Core where
  x       : Map W := []
  xstat   : Nat := 0
  running : Bool := false
  step    : Nat := 8
  stepNext : Option Nat := none
  wait    : Option CoreWait := none
  slots   : Map (Option W) := []
  lnyInt  : Bool := false
  exc     : Option Nat := none
  l2      : Map L2Line := []
  evb     : List Evb := []
  deriving DecidableEq, Repr

/-- What a directory transaction serves (R392). -/
inductive CReq where
  | shared (c : Nat) | unique (c : Nat) | upgrade (c : Nat) | ioRead (agent : Nat) | ioWrite (agent mask : Nat) (data : List Byte) | back
  deriving DecidableEq, Repr

/-- A directory entry (R391): one owner, or sharers. -/
structure DirEnt where
  owner   : Option Nat := none
  sharers : List Nat := []
  deriving DecidableEq, Repr

/-- A transaction on a line (R392, R393): the request, the cores whose answer it waits for, the dirty data that came, the eviction it holds, and the requests behind it. -/
structure Txn where
  req   : CReq
  wait  : List Nat
  data  : Option (List Byte) := none
  fromBuf : Bool := false
  held  : Option Nat := none
  queue : List CReq := []
  deriving DecidableEq, Repr

/-- Messages under way between the directory and an L2 (Table 13.4). -/
inductive CKind where
  | snpShared | snpInv | ack | miss | evicting | data (st : LSt) | evictAck (code : Nat)
  deriving DecidableEq, Repr

/-- A message under way: the core at its L2 end, the line, and data if it carries any. -/
structure CMsg where
  kind : CKind
  core : Nat
  line : Nat
  data : Option (List Byte) := none
  deriving DecidableEq, Repr

/-- The L3's mode (R390). -/
inductive L3Mode where
  | flat | switching | cache
  deriving DecidableEq, Repr

/-- The capstan complex: cores, cleats, lanyards, notify table, directory. Lines are numbered by DRAM offset / 64. -/
structure Cap where
  cores    : Map Core := []
  cleats   : Map Cleat := []
  lanyards : Map Lanyard := []
  notify   : Map Nat := []
  mode     : L3Mode := .flat
  modeSt   : Nat := 0
  dir      : Map DirEnt := []
  txns     : Map Txn := []
  msgs     : List CMsg := []
  deriving DecidableEq, Repr

/-! ## Tenant slices (15_tenant_slices.md) -/

/-- One direction of a mailbox (R456, R458): sequence, unacknowledged, and a message not yet delivered (length, generation). -/
structure Mbox where
  seq   : Nat := 0
  unack : Bool := false
  msg   : Option (Nat × Nat) := none
  deriving DecidableEq, Repr

/-- The settings of a slice that SLCSET may replace (R454): weight, mailbox copies and vectors, rate and burst of each bucket. -/
structure SlcCfg where
  weight : Nat := 0
  mbT    : Nat := 0
  mbM    : Nat := 0
  vecT   : Nat := 0
  vecM   : Nat := 0
  rates  : List (Nat × Nat) := []
  deriving DecidableEq, Repr

/-- An enabled slice (R450). `next` are settings that apply from the next boundary; `orphan` a manager reset under R464. -/
structure Slice where
  role    : Nat
  port    : Nat := 0
  fn      : Nat := 0
  capstan : Bool := false
  core    : Nat := 0
  pasid   : Option Nat := none
  mgr     : Nat := 0
  cfg     : SlcCfg := {}
  next    : Option SlcCfg := none
  gen     : Nat := 1
  up      : Mbox := {}
  down    : Mbox := {}
  levels  : Map Bucket := []
  resetWait : Bool := false
  orphan  : Bool := false
  deriving DecidableEq, Repr

/-! ## Storage (16_storage.md) -/

/-- A volume (Table 16.4). -/
structure Vol where
  ro   : Bool
  xts  : Option Nat
  size : Nat
  deriving DecidableEq, Repr

/-- An extent (Table 16.4). -/
structure Ext where
  vol    : Nat
  first  : Nat
  len    : Nat
  target : Nat
  at'    : Nat
  deriving DecidableEq, Repr

/-- A target (Table 16.4). `limit` is log2 of the transfer limit in blocks. -/
structure Tgt where
  online  : Bool
  remote  : Bool
  lba512  : Bool
  link    : Nat
  limit   : Nat
  nsid    : Nat
  timeout : Nat
  routing : Nat
  conn    : Nat
  conns   : Nat
  deriving DecidableEq, Repr

/-- How far a part is: not issued, issued (since a turn), or ended with a status and the NVMe code and type. -/
inductive PartSt where
  | waiting | issued (turn : Nat) | ended (st code type : Nat)
  deriving DecidableEq, Repr

/-- A part of a command (R481, R482): its relay region is open while `open'`; a remote part names its connection and R_Key. -/
structure Part where
  id     : Nat
  target : Nat
  first  : Nat
  len    : Nat
  at'    : Nat
  st     : PartSt := .waiting
  open'  : Bool := false
  conn   : Option Nat := none
  key    : Nat := 0
  deriving DecidableEq, Repr

/-- A store command (R470, R474, R480): of a descriptor of a queue pair, or of a logline page. -/
structure Cmd where
  id      : Nat
  q       : Option Nat
  desc    : Nat
  gen     : Nat := 0
  op      : Nat
  ordered : Bool := false
  fua     : Bool := false
  tag     : Nat := 0
  vol     : Nat := 0
  first   : Nat := 0
  blocks  : Nat := 0
  buf     : Nat := 0
  scatter : List (Nat × Nat) := []
  started : Bool := false
  waited  : Bool := false
  aborted : Bool := false
  fin     : Bool := false
  xts     : Option Nat := none
  parts   : List Part := []
  deriving DecidableEq, Repr

/-- The storage engine (R469 to R492). -/
structure Sto where
  vols     : Map Vol := []
  exts     : Map Ext := []
  tgts     : Map Tgt := []
  cmds     : List Cmd := []
  nextCmd  : Nat := 0
  nextPart : Nat := 0
  deriving DecidableEq, Repr

/-! ## RDMA engine (17_rdma.md) -/

/-- Table 17.4. -/
inductive ConnSt where
  | disabled | active | error
  deriving DecidableEq, Repr

/-- An outstanding request of a connection (R500): its first PSN and count, payload bytes, the storage part it carries, and the reel time of its send. -/
structure RReq where
  psn  : Nat
  n    : Nat
  len  : Nat
  part : Nat
  sent : Nat := 0
  deriving DecidableEq, Repr

/-- A connection (R493 to R511). -/
structure Conn where
  st      : ConnSt := .disabled
  encrypt : Bool := false
  side    : Nat := 0
  mtu     : Nat := 1024
  ipv6    : Bool := false
  lay     : Nat := 0
  cls     : Nat := 0
  qpn     : Nat := 0
  limit   : Nat := 0
  retries : Nat := 0
  psn     : Nat := 0
  unack   : Nat := 0
  rxPsn   : Nat := 0
  epoch   : Nat := 0
  peerEpoch : Nat := 0
  ctlTx   : Nat := 0
  ctlRx   : Nat := 0
  timeout : Nat := 0
  since   : Option Nat := none
  window  : Nat := 0
  rtt     : Nat := 0
  halved  : Nat := 0
  grown   : Nat := 0
  nakGap  : Bool := false
  cnpTurn : Option Nat := none
  reqs    : List RReq := []
  addr    : List W := []
  keySlot : Option Nat := none
  key     : List Byte := []
  deriving DecidableEq, Repr

/-- The RDMA engine: GLOBAL settings (R496), connections, cached contexts with the latest used first (R499), frames received and not yet taken (R495), and the reads it holds a tag for (R501). -/
structure Rdm where
  set    : Bool := false
  plain  : Nat := 0
  enc    : Nat := 0
  port   : Nat := 0
  count  : Nat := 0
  conns  : Map Conn := []
  cached : List Nat := []
  rx     : List (Bool × Nat) := []
  deriving DecidableEq, Repr

/-! ## Sheath (19_sheath.md) -/

/-- The fuses (Table 19.4). The device-secret is none while no fuse of it is programmed. -/
structure Fuses where
  root      : Nat := 0
  owner0    : Nat := 0
  owner1    : Nat := 0
  revoked0  : Bool := false
  secured   : Bool := false
  retired   : Bool := false
  lockdown  : Nat := 0
  recovery  : Nat := 0
  deviceId  : W := 0
  secret    : Option Nat := none
  policy    : Nat := 0
  rollSheath : Nat := 0
  rollStandby : Nat := 0
  rollCap   : Nat := 0
  deriving DecidableEq, Repr

/-- A key slot in use (R547, Table 19.13). -/
structure KeySlot where
  usage  : Nat
  expo   : Bool
  origin : Nat
  owner  : Nat
  refs   : Nat := 0
  key    : List Byte
  deriving DecidableEq, Repr

/-- A standby log record (Table 19.11). -/
structure StbyRec where
  ns      : Nat
  sources : Nat
  phase   : Nat
  zeroised : Bool
  seq     : Nat
  secs    : Nat
  deriving DecidableEq, Repr

/-- An operation under way in a lookaside engine or the hardened core (R557, R565): what it writes and installs when it is released. -/
structure CryOp where
  q       : Nat
  desc    : Nat
  gen     : Nat
  core    : Bool
  hard    : Bool
  engine  : Nat
  len     : Nat
  status  : Nat
  written : Nat
  outs    : List (Nat × List Byte)
  install : Option (Nat × KeySlot) := none
  zero    : Option Nat := none
  deriving DecidableEq, Repr

/-- The random-number field (Table 19.14). -/
inductive RngSt where
  | notReady | ready | failed | stopped
  deriving DecidableEq, Repr

/-- The sheath and the standby domain (R541 to R567). `sas` is keyed by 32 port + SA index (R561); `armed` is what the standby tamper watch latched (R605); `holdNs` the reel time latched when main power fell (R602); `pool` the next byte and the 8-byte reads left of the capstans' generate request (R553); `keysLocked` the lock of the root-key registers, from which no key is derived any more (R576). -/
structure She where
  policy  : Nat := 0
  sas     : Map Sa := []
  fuses   : Fuses := {}
  life    : Nat := 0
  rng     : RngSt := .notReady
  health  : Nat := 0
  lockPending : Bool := false
  stbyLost : Bool := false
  gatesClosed : Bool := false
  debug   : Bool := false
  latch   : Nat := 0
  nonce   : W := 0
  slots   : Map KeySlot := []
  fuseDue : Bool := false
  nonced  : Bool := false
  faults  : Nat := 0
  ops     : List CryOp := []
  lcResult : Nat := 0
  draws   : Nat := 0
  seeded  : Nat := 0
  owed    : Bool := false
  log     : List StbyRec := []
  logHead : Nat := 0
  armed   : Option (Nat × Nat) := none
  manager : Bool := false
  holdNs  : Nat := 0
  pool    : Nat × Nat := (0, 0)
  keysLocked : Bool := false
  deriving DecidableEq, Repr

/-! ## Power and clocks (21_power_clocks_electrical.md) -/

/-- Power, clocks and temperature (R592 to R616). `good` is PWR_GOOD; `trip` the sensor latched in PWR_TRIP; `tripHold` a release withheld until SYS_RST# and a lower temperature (R614). -/
structure Pwr where
  good     : Bool := true
  stby     : Bool := true
  avs      : Bool := false
  avsFault : Bool := false
  high     : Bool := false
  cold     : Bool := false
  rails    : List Nat := []
  plLost   : Nat := 0
  hpLost   : Nat := 0
  spLost   : Nat := 0
  target   : Nat := 750
  readback : Nat := 750
  above    : Nat := 0
  off15    : Nat := 0
  nextAvs  : Nat := 64
  nextPoll : Nat := 4096
  temps    : List Int := []
  railV    : Map Nat := []
  railI    : Map Nat := []
  railS    : Map Nat := []
  trip     : Option Nat := none
  tripHold : Bool := false
  sysRst   : Bool := false
  deriving DecidableEq, Repr


/-! ## The device and the machine -/

/-- Slice 0 at reset (R452): MANAGER, generation 1, capstan core 0 as owner, weight 255, every rate 0. -/
def slice0 : Slice :=
  { role := 2, capstan := true, cfg := { weight := 255, rates := List.replicate 8 (0, 0) } }

/-- All that is captured or changed by a command except the queue and the snapshot images. -/
structure Dev where
  variant24 : Bool := false
  pclk   : Nat := 0
  free   : Nat := 0
  drawn  : Nat := 0
  out    : List Out := []
  ctr    : Map W := []
  reel   : Reel := {}
  spl    : Splice := {}
  hif    : Hif := {}
  lay    : Lays := {}
  shd    : Map Shade := [(0, { st := .current })]
  path   : Path := {}
  tbl    : Tables := {}
  log    : Log := {}
  aut    : Aut := {}
  brd    : Braid := {}
  cal    : Cal := {}
  mem    : Mems := {}
  dmc    : Dmc := {}
  boot   : Boot := {}
  cap    : Cap := {}
  rdm    : Rdm := {}
  she    : She := {}
  pwr    : Pwr := {}
  slc    : Map Slice := [(0, slice0)]
  sto    : Sto := {}
  deriving DecidableEq, Repr

/-- A captured image of a block: the turn, and the device as it stood at the boundary (R635). -/
structure Captured where
  turn : Nat
  dev  : Dev
  deriving DecidableEq, Repr

/-- Why a step faults: no command of this block does; every effect the spec names is a next state or an answer it gives. -/
inductive Fault where
  /-- Raised by nothing: the spec gives no command an effect that stops the device for good. Safe. -/
  | none
  deriving DecidableEq, Repr

/-- Why a command is refused. -/
inductive Refusal where
  /-- Raised by the dispatch for a row without a meaning. Safe. -/
  | notModelled (mnemonic : String)
  /-- Raised by `State.run` for a command that names something no such device has (a lane, a port or a fibre beyond its range, WellFormed.lean): the hardware receives no such command. Safe. -/
  | illFormed
  deriving DecidableEq, Repr

/-- The machine: the device, the snapshot images by SNAP bit (R635), the device as it stood at a boundary whose SNAPs are still to be captured, and the commands that wait, first in first out. -/
structure State where
  dev     : Dev := {}
  snaps   : Map Captured := []
  frozen  : Option Dev := none
  pending : List Instr := []
  deriving DecidableEq, Repr

/-- The machine right after reset: every field at the value the spec states, or at the one log 1, 2, 3, 6 or 10 names. -/
def State.reset : State := {}

end Sys2Proof.Machine
end

