-- ==== Sys2Proof/WellFormed.lean ====
section
/-! DEFINITION. Which commands a QN9240 can receive: every number within the range the spec gives what it names.
A command that breaks its check names nothing of the device and is refused (`Refusal.illFormed`). -/
namespace Sys2Proof

/-- Accesses of registers there are (R35, R388): by a host function 1 to 64 bytes in the 64 MiB of its BAR0; by a core 1, 2, 4 or 8 bytes, at an offset from the observation registers' base that reaches past the last device region of Table 13.3. -/
def ioOk (who off size : Nat) : Bool := if who < 32 then off < 2 ^ 26 && 1 ≤ size && size ≤ 64 else off < 2 ^ 29 && [1, 2, 4, 8].contains size

/-- The check of each command; BitVec operands need none. -/
def Instr.wf : Instr → Bool
  | .spliceProgramAccept words => words.length ≤ 65536
  | .atProgramStart => true
  | .spliceProgramResume _ => true
  | .tset _ => true
  | .tdel _ => true
  | .shadeopen _ => true
  | .tcommit _ => true
  | .tcommitFabric _ => true
  | .shaderetire _ => true
  | .shaderetireDrainDone _ => true
  | .portset _ => true
  | .qset _ => true
  | .shape _ => true
  | .polset _ => true
  | .mcset _ => true
  | .progload _ _ => true
  | .snap _ => true
  | .snapFabric _ => true
  | .calRun _ => true
  | .calSetPeriod _ => true
  | .calSuspend _ => true
  | .calResume _ => true
  | .reelsrc _ => true
  | .fence _ => true
  | .fenceClear _ => true
  | .fenceDrainDone _ => true
  | .fenceReset _ => true
  | .waitturn _ => true
  | .waitturnDone _ => true
  | .barrier _ => true
  | .barrierFabric _ => true
  | .barrierComplete _ => true
  | .joinSelf _ => true
  | .joinNode _ => true
  | .joinKnot _ => true
  | .joinMember _ => true
  | .leaveSelf _ => true
  | .leaveSelfDrainDone _ => true
  | .leaveNode _ => true
  | .leaveKnot _ => true
  | .leaveMember _ => true
  | .qpsetEnable _ => true
  | .qpsetRelease _ => true
  | .qpsetLoglineArchive _ => true
  | .qpsetLoglineView _ => true
  | .quiesce _ => true
  | .abort _ _ => true
  | .slcset _ => true
  | .slcsetRelease _ => true
  | .slcreset _ => true
  | .slcresetStallEnd _ => true
  | .volsetVolume _ => true
  | .volsetExtent _ => true
  | .volsetTarget _ => true
  | .volsetDrainDone _ => true
  | .connsetConnection _ => true
  | .connsetRelease _ => true
  | .connsetGlobal _ => true
  | .fallback _ => true
  | .rngdraw _ => true
  | .spliceTimeoutExpiry _ => true
  | .turnBoundary temps => temps.length ≤ 64
  | .shadeCommit _ => true
  | .snapCapture => true
  | .calibrationSlot => true
  | .helloSend => true
  | .pauseRepeat _ => true
  | .moderationTimerExpiry q => q < 65536
  | .eventBufferClose q => q < 65536
  | .loglinePageClose _ => true
  | .ptpMessageReceive port _ _ _ => port < 256
  | .timeMessageReceive port _ era _ _ _ _ _ => port < 256 && era < 65536
  | .ppsInEdge => true
  | .ppsOutPulse => true
  | .reelDiscontinuity => true
  | .reelSourceLoss entry => entry < 16
  | .reelHoldoverEnter => true
  | .frameArrival port _ _ _ _ _ => port < 256
  | .frameEnd _ _ _ _ _ => true
  | .macControlFrame port op => port < 256 && op < 65536
  | .pfcFrameReceive port vec quanta => port < 256 && vec < 256 && quanta.length == 8 && quanta.all (· < 65536)
  | .pauseFrameReceive port quanta => port < 256 && quanta < 65536
  | .pauseTimerExpiry port cls => port < 256 && cls < 8
  | .packetDispatch _ f => f < 4096
  | .copyEgressDispatch _ _ f => f < 4096
  | .packetRelease _ _ => true
  | .envelopeExpiry f => f < 4096
  | .trapVectorStart f => f < 4096
  | .trapRecordDeliver lay => lay < 32
  | .slowTimeout f => f < 4096
  | .slowLineTake f => f < 4096
  | .injectionTake f => f < 4096
  | .nop f _ ecc => f < 4096 && ecc < 3
  | .aluAdd f _ _ _ _ => f < 4096
  | .aluSub f _ _ _ _ => f < 4096
  | .aluAnd f _ _ _ _ => f < 4096
  | .aluOr f _ _ _ _ => f < 4096
  | .aluXor f _ _ _ _ => f < 4096
  | .aluAndn f _ _ _ _ => f < 4096
  | .aluShl f _ _ _ _ => f < 4096
  | .aluShr f _ _ _ _ => f < 4096
  | .aluSar f _ _ _ _ => f < 4096
  | .aluMov f _ _ _ _ => f < 4096
  | .aluMinu f _ _ _ _ => f < 4096
  | .aluMaxu f _ _ _ _ => f < 4096
  | .aluPopc f _ _ _ _ => f < 4096
  | .aluClz f _ _ _ _ => f < 4096
  | .aluMul f _ _ _ _ => f < 4096
  | .addi f _ _ _ _ => f < 4096
  | .andi f _ _ _ _ => f < 4096
  | .ori f _ _ _ _ => f < 4096
  | .xori f _ _ _ _ => f < 4096
  | .shli f _ _ _ _ => f < 4096
  | .shri f _ _ _ _ => f < 4096
  | .sari f _ _ _ _ => f < 4096
  | .movz f _ _ _ _ => f < 4096
  | .movk f _ _ _ _ => f < 4096
  | .cmp f _ _ _ _ _ _ => f < 4096
  | .cmpi f _ _ _ _ _ => f < 4096
  | .plogAnd f _ _ _ _ _ => f < 4096
  | .plogOr f _ _ _ _ _ => f < 4096
  | .plogXor f _ _ _ _ _ => f < 4096
  | .plogAndn f _ _ _ _ _ => f < 4096
  | .plogNot f _ _ _ _ _ => f < 4096
  | .plogSet f _ _ _ _ _ => f < 4096
  | .plogClr f _ _ _ _ _ => f < 4096
  | .ext f _ _ _ _ _ => f < 4096
  | .ins f _ _ _ _ _ => f < 4096
  | .mrd f _ _ _ _ => f < 4096
  | .mwr f _ _ _ _ => f < 4096
  | .mwri f _ _ _ _ => f < 4096
  | .wld f _ _ _ _ _ _ ecc => f < 4096 && ecc < 3
  | .wst f _ _ _ _ _ _ => f < 4096
  | .sld f _ _ _ _ _ _ ecc => f < 4096 && ecc < 3
  | .sst f _ _ _ _ _ _ => f < 4096
  | .br f _ _ _ => f < 4096
  | .lkx f _ _ _ _ v => f < 4096 && !v.getLsbD 8
  | .lkxMac f _ _ _ _ v => f < 4096 && v.getLsbD 8
  | .lkl f _ _ _ _ _ => f < 4096
  | .lka f _ _ _ _ _ => f < 4096
  | .count f _ _ _ _ _ => f < 4096
  | .police f _ _ _ _ _ => f < 4096
  | .mcrd f _ _ _ _ _ => f < 4096
  | .autsub f _ _ _ _ _ => f < 4096
  | .autwait f _ _ _ _ => f < 4096
  | .autwaitu f _ _ _ _ => f < 4096
  | .autwaitTimeout f => f < 4096
  | .cltry f _ _ _ _ _ => f < 4096
  | .clrel f _ _ _ _ _ => f < 4096
  | .clwait f _ _ _ _ _ => f < 4096
  | .lnput f _ _ _ _ _ => f < 4096
  | .lnget f _ _ _ _ _ => f < 4096
  | .lnputw f _ _ _ _ _ => f < 4096
  | .lngetw f _ _ _ _ _ => f < 4096
  | .fwd f _ _ _ => f < 4096
  | .drop f _ _ _ => f < 4096
  | .trap f _ _ _ => f < 4096
  | .slow f _ _ _ => f < 4096
  | .laneResultArrival f lane ecc => f < 4096 && lane < 4 && ecc.ecc < 3 && ecc.way < 8
  | .automatonResultDelivery unit scan => unit < 64 && scan.hard.all (· < 4096)
  | .schedulerPick port => port < 256
  | .copyTransmit _ _ => true
  | .portLinkLoss port => port < 256
  | .residueRemovalDone port => port < 256
  | .loglineArchiveWrite => true
  | .pageArchiveComplete _ => true
  | .pageArchiveRetry _ => true
  | .chainSegmentReceive port _ _ _ _ => port < 256
  | .mchWordReceive _ _ => true
  | .chainReturnReceive _ => true
  | .chainTagTimeout tag => tag < 2 ^ 24
  | .autLineReloadDone unit => unit < 64
  | .tableLineReloadDone table _ => table < 4
  | .staleWindowClose table _ => table < 4
  | .lookupCacheExpiry lay table shade _ => lay < 32 && table < 5 && shade < 4
  | .braidDataReceive port _ _ _ _ _ _ _ => port < 256
  | .helloReceive port _ _ => port < 256
  | .creditReceive port grants _ => port < 256 && grants.length == 8
  | .globalReceive port _ op _ _ _ _ => port < 256 && 1 ≤ op && op ≤ 3
  | .globalReset _ => true
  | .markerReceive port _ => port < 256
  | .mgmtReceive port _ _ _ _ _ => port < 256
  | .leaseExpiry port => port < 256
  | .braidLinkLoss port _ => port < 256
  | .linkLossHandlingDone port => port < 256
  | .maintRequestGrant _ _ _ => true
  | .serdesScan lane _ bin => lane < 256 && bin < 4
  | .serdesRecal port _ bin => port < 256 && bin < 4
  | .dramEye ch dir _ _ bin => ch < 12 && bin < 4 && dir.natAbs ≤ 1
  | .dramRetrain ch _ bin => ch < 12 && bin < 4
  | .dramPatrol ch _ _ _ => ch < 12
  | .dramTrack ch => ch < 12
  | .headroom port _ bin => port < 256 && bin < 4
  | .tcamScrub bad shadowErr => bad.all (· < 256) && shadowErr.all (· < 256)
  | .exactScrub bad shadowErr => bad.all (· < 1024) && shadowErr.all (· < 1024)
  | .autScrub lay _ => lay < 32
  | .flashWrite area => area < 16
  | .journalCompact => true
  | .maintActivityEnd _ _ => true
  | .retakeLoadTrigger _ _ => true
  | .retakeTempTrigger _ _ _ => true
  | .hcCrc c _ _ _ _ => c < 32
  | .hcKey c _ _ _ _ => c < 32
  | .aqSub c _ _ _ _ _ => c < 32
  | .aqGet c _ _ _ => c < 32
  | .clTry c _ _ => c < 32
  | .clWait c _ _ _ => c < 32
  | .clRel c _ _ => c < 32
  | .clRead c _ _ => c < 32
  | .clWaitTimeout c => c < 32
  | .lnPut c _ _ _ => c < 32
  | .lnGet c _ _ => c < 32
  | .lnPutw c _ _ _ => c < 32
  | .lnGetw c _ _ => c < 32
  | .coreInterrupt c => c < 32
  | .coreReset c _ => c < 32
  | .capRandRead c _ => c < 32
  | .lanyardNotifyWrite c l _ => c < 32 && l < 1024
  | .l3ModeSwitch c => c < 32
  | .l3SwitchDone => true
  | .rdShared c _ _ _ => c < 32
  | .rdUnique c _ _ _ => c < 32
  | .upgrade c _ => c < 32
  | .evictDirty c _ => c < 32
  | .evictClean c _ => c < 32
  | .ioRead agent _ => agent < 4
  | .ioWrite agent _ mask _ => agent < 4 && mask < 2 ^ 64
  | .snpShared c _ _ => c < 32
  | .snpInv c _ _ => c < 32
  | .ack c _ => c < 32
  | .miss c _ => c < 32
  | .evicting c _ => c < 32
  | .data c _ => c < 32
  | .evictAck c _ => c < 32
  | .sqDoorbell q v => q < 65536 && v < 2 ^ 64
  | .cqDoorbell q v => q < 65536 && v < 2 ^ 64
  | .fetchRound engine _ => engine < 5
  | .inject q _ _ => q < 65536
  | .netRecvBuf q _ => q < 65536
  | .controlRun q _ => q < 65536
  | .eventBuf q _ => q < 65536
  | .completionWrite q => q < 65536
  | .perstAssert n => n < 4
  | .hostLinkDown n => n < 4
  | .d3hotEntry k => k < 32
  | .d0Return k => k < 32
  | .msixUnmask k v => k < 32 && v < 2048
  | .registerWrite who space off size v => who < 64 && space < 5 && ioOk who off size && v < 2 ^ 64
  | .counterLowRead who r => who < 64 && ioOk who r.off r.size && r.size ≤ 8
  | .rcRegisterRead who off => who < 64 && off < 2 ^ 26 && off % 4 == 0
  | .glbSnapViewWrite who v be => who < 64 && v < 2 ^ 32 && be < 16
  | .tblRawSelectWrite who v be => who < 64 && v < 2 ^ 32 && be < 16
  | .rawWindowWrite who off size v => who < 64 && off < 2 ^ 22 && ioOk who off size && size ≤ 8 && v < 2 ^ 64
  | .rawStatusCommit who off v => who < 64 && off < 2 ^ 22 && off % 8 == 0 && v < 2 ^ 64
  | .rawStatusRead who off => who < 64 && off < 2 ^ 22 && off % 8 == 0
  | .bootWindowWrite who off bytes => who < 64 && 0x2000000 ≤ off && off + bytes.length ≤ 0x3F00000 && ioOk who off bytes.length
  | .sheTamperLatchClear who size v => who < 64 && ioOk who 0 size && size ≤ 8 && v < 2 ^ 32
  | .pwrTripClear who size v => who < 64 && ioOk who 0 size && size ≤ 8 && v < 2 ^ 32
  | .mbUp who slice v => who < 64 && slice < 4096 && v < 2 ^ 64
  | .mbDown who slice v => who < 64 && slice < 4096 && v < 2 ^ 64
  | .mailboxDelivery slice _ _ => slice < 4096
  | .storeRead q _ _ => q < 65536
  | .storeWrite q _ _ => q < 65536
  | .storeFlush q _ => q < 65536
  | .storeTrim q _ => q < 65536
  | .abortTag q _ => q < 65536
  | .nvmeCompletionReceive _ code type => code < 256 && type < 8
  | .storePartTimeout _ => true
  | .relayInboundAccess _ _ _ _ => true
  | .rdmaPacketReceive p => p.conn < 131072
  | .rdmaAckTimeout conn => conn < 131072
  | .gcmEncrypt q _ _ _ => q < 65536
  | .gcmDecrypt q _ _ _ _ => q < 65536
  | .xtsEncrypt q _ _ => q < 65536
  | .xtsDecrypt q _ _ => q < 65536
  | .ctr q _ _ => q < 65536
  | .keyUnwrap q _ _ => q < 65536
  | .keyGen q _ => q < 65536
  | .keyWrap q _ => q < 65536
  | .keyZero q _ => q < 65536
  | .saSet q _ => q < 65536
  | .dramRequestAccept u _ _ mask line _ => u.port < 5 && mask < 2 ^ 64 && line.length ≤ 64
  | .dramReadReturn ch err dev _ => ch < 12 && err < 3 && dev < 32
  | .dramRefresh ch rank => ch < 12 && rank < 4
  | .dramParityAlert ch => ch < 12
  | .dramTrainingStep ch _ _ => ch < 12
  | .dramReady _ => true
  | .lcToken _ => true
  | .tamperAlarm sources _ => sources < 256
  | .lockdownFuseBlow => true
  | .rngStartupDone => true
  | .rngHealthFail => true
  | .drbgReseed => true
  | .sysRstRelease straps _ _ => straps < 8
  | .sysRstAssert => true
  | .flashLoad _ _ => true
  | .sheathInit _ => true
  | .bootRelease who size _ => who < 64 && 1 ≤ size && size ≤ 8
  | .bootVerifyVerdict _ => true
  | .gatesOpen => true
  | .bootScrubDone => true
  | .trialTimeout => true
  | .setRead c addr => c < 32 && addr < 2 ^ 64
  | .setAppend c addr => c < 32 && addr < 2 ^ 64
  | .bootCommit c => c < 32
  | .bootSelect c v => c < 32 && v < 2 ^ 64
  | .pwrGoodFall => true
  | .pwrGoodRise => true
  | .standbyPowerUp => true
  | .avsEvaluation _ _ _ => true
  | .pmbAlert words => words.length == 9 && words.all (· < 65536)
  | .telemetryPoll regs => regs.length == 9
  | .railExcursion rail => rail < 7
  | .refclkLoss kind n => kind < 3 && n < 8 && (kind == 0 || n < 4)
  | .thermalTrip sensor => sensor < 64
  | .portLinkUp port => port < 256
  | .mchLaneUp _ => true
  | .mchLaneDown _ => true
  | .perstDeassert n => n < 4
  | .hostLinkL0 n => n < 4
  | .refclkReturn kind n => kind < 4 && n < 8 && (kind == 0 || n < 4)
  | .tref10mInLoss => true
  | .standbyPowerLoss => true
  | .railExcursionEnd rail => rail < 7
  | .cryptoResultRelease q _ _ => q < 65536
  | .oldestWriteWaitExpiry ch => ch < 12
  | .rowIdleClose ch _ => ch < 12

end Sys2Proof
end

