-- ==== Sys2Proof/Machine/Ops.lean ====
section
/-! DEFINITION. The named operations every meaning is written over: sparse tables, addressed memory, counters, free
values, outputs, time, and the one way a command reaches the state (`State.run`). -/
namespace Sys2Proof.Machine

/-! ## Sparse tables -/

/-- The entry of a key. -/
def Map.find {α : Type} : Map α → Nat → Option α
  | [], _ => none
  | (a, x) :: t, k => if a = k then some x else Map.find t k

/-- The entry of a key, or a value for an absent one. -/
def Map.getD {α : Type} (m : Map α) (k : Nat) (d : α) : α := (Map.find m k).getD d

/-- The table with a key's entry set, keys staying in order. -/
def Map.put {α : Type} : Map α → Nat → α → Map α
  | [], k, v => [(k, v)]
  | (a, x) :: t, k, v =>
    if k < a then (k, v) :: (a, x) :: t else if a = k then (k, v) :: t else (a, x) :: Map.put t k v

/-- The table without a key. -/
def Map.del {α : Type} (m : Map α) (k : Nat) : Map α := m.filter fun e => e.1 != k

/-- The table with one entry changed by a function of its value, an absent one starting from a default. -/
def Map.modify {α : Type} (m : Map α) (k : Nat) (d : α) (f : α → α) : Map α := Map.put m k (f (Map.getD m k d))

/-- The keys whose entries pass a test. -/
def Map.keysWhere {α : Type} (m : Map α) (p : Nat → α → Bool) : List Nat :=
  (m.filter fun e => p e.1 e.2).map (·.1)

/-! ## Addressed memory -/

/-- One byte: an unlisted address reads 0 (log 6). -/
def Memory.read : List Host.Cell → Nat → Byte
  | [], _ => 0
  | (a, b) :: t, k => if a = k then b else Memory.read t k

/-- Store one byte, keeping the form: addresses strictly rising and no entry equal to 0. -/
def Memory.write : List Host.Cell → Nat → Byte → List Host.Cell
  | [], k, v => if v = 0 then [] else [(k, v)]
  | (a, b) :: t, k, v =>
    if k < a then (if v = 0 then (a, b) :: t else (k, v) :: (a, b) :: t)
    else if a = k then (if v = 0 then t else (k, v) :: t)
    else (a, b) :: Memory.write t k v

/-- The canonical form of a memory: addresses strictly rising, no entry equal to what an unlisted address reads as. -/
def Memory.wf : List Host.Cell → Bool
  | [] => true
  | [(_, b)] => b != 0
  | (a, b) :: (a', b') :: t => b != 0 && a < a' && Memory.wf ((a', b') :: t)

/-- n bytes from an address upward. -/
def Memory.readBytes (m : List Host.Cell) (a : Nat) : Nat → List Byte
  | 0 => []
  | n + 1 => Memory.read m a :: Memory.readBytes m (a + 1) n

/-- Store bytes from an address upward. -/
def Memory.writeBytes (m : List Host.Cell) (a : Nat) : List Byte → List Host.Cell
  | [] => m
  | b :: bs => Memory.writeBytes (Memory.write m a b) (a + 1) bs

/-! ## How a command reaches the state -/

/-- The state with its device changed. -/
def State.onDev (f : Dev → Dev) (s : State) : State := { s with dev := f s.dev }

/-- Run a command whose effect is on the main domain of the device: refused where it is ill-formed (`ok` is its check in WellFormed.lean), without effect while the main domain is held in reset (R600, log 21), otherwise the next state. -/
def State.run (ok : Bool) (f : Dev → Dev) (s : State) : Host.Outcome State Fault Refusal :=
  if ok then .next (if s.dev.boot.held then s else s.onDev f) else .refused .illFormed

/-- Run a command whose effect reaches beyond the device: the snapshot images. -/
def State.runState (ok : Bool) (f : State → State) (s : State) : Host.Outcome State Fault Refusal :=
  if ok then .next (if s.dev.boot.held then s else f s) else .refused .illFormed

/-- Run a command of the standby domain, of a supply or of a reset input, which acts in main-domain reset too. -/
def State.runAny (ok : Bool) (f : State → State) (s : State) : Host.Outcome State Fault Refusal :=
  if ok then .next (f s) else .refused .illFormed

/-- Apply a change where a condition holds; where it does not, the event does not happen (log 9). -/
def Dev.when (c : Bool) (f : Dev → Dev) (d : Dev) : Dev := if c then f d else d

/-- Apply a change with the value an option holds; without one the event does not happen (log 9). -/
def Dev.with' {α : Type} (o : Option α) (f : α → Dev → Dev) (d : Dev) : Dev :=
  match o with
  | some x => f x d
  | none => d

/-! ## Counters, free values, outputs -/

/-- Add to the counter at a global-window offset, modulo 2^64 (R20, log 10). -/
def Dev.add (off n : Nat) (d : Dev) : Dev :=
  { d with ctr := Map.modify d.ctr off 0 fun v => v + BitVec.ofNat 64 n }

/-- Increment the counter at an offset (R20). -/
def Dev.bump (off : Nat) (d : Dev) : Dev := d.add off 1

/-- Subtract from a gauge kept beside the counters (R287). -/
def Dev.sub (off n : Nat) (d : Dev) : Dev :=
  { d with ctr := Map.modify d.ctr off 0 fun v => v - BitVec.ofNat 64 n }

/-- Increment a counter where a condition holds. -/
def Dev.bumpIf (c : Bool) (off : Nat) (d : Dev) : Dev := if c then d.bump off else d

/-- The value of a counter. -/
def Dev.count (off : Nat) (d : Dev) : W := Map.getD d.ctr off 0

/-- The next free value (log 8). -/
def Dev.freeW (d : Dev) : W := Config.freeValue d.free

/-- Step past a free value. -/
def Dev.useFree (d : Dev) : Dev := { d with free := d.free + 1 }

/-- n bytes of DRBG output from here on (R553, log 8). -/
def Dev.drbg (n : Nat) (d : Dev) : List Byte := (List.range n).map fun i => Config.drbgByte (d.drawn + i)

/-- Step past n bytes of DRBG output. -/
def Dev.draw (n : Nat) (d : Dev) : Dev := { d with drawn := d.drawn + n }

/-- Send something to the outside (log 7). -/
def Dev.send (k : OutKind) (args : List Nat) (bytes : List Byte) (d : Dev) : Dev :=
  { d with out := d.out ++ [⟨k, args, bytes⟩] }

/-- Send something through an output of Table 20.5: nothing leaves while the outputs are gated (R580). -/
def Dev.sendGated (k : OutKind) (args : List Nat) (bytes : List Byte) (d : Dev) : Dev :=
  if d.boot.gated then d else d.send k args bytes

/-! ## Time -/

/-- Units of reel time in a nanosecond. -/
def nsUnits : Nat := 24000

/-- Units of reel time in a pclk (Table 0.5). -/
def pclkUnits : Nat := 10000

/-- Reel time in ns (R49). -/
def Dev.ns (d : Dev) : Nat := d.reel.time / nsUnits

/-- Reel time in sixteenths of a nanosecond. -/
def Dev.reel16 (d : Dev) : Int := ((d.reel.time / 1500 : Nat) : Int)

/-- The current turn (R49, R50). -/
def Dev.turn (d : Dev) : Nat := d.ns / 1024

/-- The correction of n pclk while the reel slews: one unit per pclk, which is 100 ppm, until none is left (R59). -/
def Reel.slewIn (n : Nat) (r : Reel) : Int :=
  if 0 ≤ r.slew then (min n r.slew.toNat : Nat) else -((min n r.slew.natAbs : Nat) : Int)

/-- Reel time, in units, n pclk from now. -/
def Reel.after (n : Nat) (r : Reel) : Nat := (r.time + (pclkUnits * n : Nat) + r.slewIn n).toNat

/-- Reel time in ns at a pclk not before now. -/
def Dev.nsAt (t : Nat) (d : Dev) : Nat := d.reel.after (t - d.pclk) / nsUnits

/-- PPS_OUT stays high for 100 µs after the second (R71). -/
def Dev.ppsFall (d : Dev) : Dev :=
  if d.reel.pps && 100000 ≤ d.ns % 10 ^ 9 then { d with reel := { d.reel with pps := false } } else d

/-- n pclk edges pass: 5/12 ns each (Table 0.5), with the slew correction (R59). -/
def Dev.pass (n : Nat) (d : Dev) : Dev :=
  if n = 0 then d
  else
    let a := d.reel.slewIn n
    ({ d with
        pclk := d.pclk + n
        reel := { d.reel with time := d.reel.after n, slew := d.reel.slew - a, secSum := d.reel.secSum + a } } : Dev).ppsFall

/-- Let time pass to a pclk that is not yet reached: an event due then takes effect then (log 11). -/
def Dev.due (t : Nat) (d : Dev) : Dev := d.pass (t - d.pclk)

/-- The pclk edges in which reel time grows by at least g units. -/
def Reel.edgesFor (g : Nat) (r : Reel) : Nat :=
  let s := r.slew.natAbs
  if 0 ≤ r.slew then
    let n := ceilDiv g (pclkUnits + 1)
    if n ≤ s then n else ceilDiv (g - s) pclkUnits
  else
    let n := ceilDiv g (pclkUnits - 1)
    if n ≤ s then n else ceilDiv (g + s) pclkUnits

/-- The pclk edges up to a reel time in ns: the first edge at which reel time is at least that (R40). -/
def Dev.edgesTo (ns : Nat) (d : Dev) : Nat :=
  if nsUnits * ns ≤ d.reel.time then 0 else d.reel.edgesFor (nsUnits * ns - d.reel.time)

/-- Let time pass to a reel time that is not yet reached (R40). -/
def Dev.dueNs (ns : Nat) (d : Dev) : Dev := d.pass (d.edgesTo ns)

/-- Time passes to an edge of hclk, every second edge of pclk (R40, R43): what takes effect in the host interface, the sequencer or the sheath does so there. -/
def Dev.toHclk (d : Dev) : Dev := d.pass (d.pclk % 2)

/-- Let time pass to a reel time, and to the first edge of hclk at or after it (R40). -/
def Dev.dueNsH (ns : Nat) (d : Dev) : Dev := (d.dueNs ns).toHclk

/-- Let time pass to the boundary of the next turn whose per-turn effects have not taken place (R72). -/
def Dev.toBoundary (d : Dev) : Dev := d.dueNs ((d.reel.served + 1) * 1024)

/-- Whether the effects of turn t's boundary have been reached, the SNAP captures due by then taken first (R40, R72). -/
def Dev.reached (t : Nat) (d : Dev) : Bool := t ≤ d.reel.served && d.spl.snaps.all fun x => t < x.turn

/-! ## Capstan physical memory (Table 13.3, R390, R395) -/

/-- Base of the L3 flat region. -/
def flatBase : Nat := 0x10000000
/-- Size of the L3 flat region. -/
def flatSize : Nat := 0x2000000
/-- Base of DRAM. -/
def dramBase : Nat := 0x10000000000

/-- Where a physical address lies: in the flat L3 (true) or in DRAM, with its offset; none where Table 13.3 maps no memory. -/
def Dev.physOff (a : Nat) (d : Dev) : Option (Bool × Nat) :=
  if flatBase ≤ a ∧ a < flatBase + flatSize then some (d.cap.mode != .cache, a - flatBase)
  else if dramBase ≤ a ∧ a < dramBase + d.dmc.capacity ∧ d.cap.mode = .cache then some (false, a - dramBase)
  else none

/-- The dirty copy of a line in some L2 or eviction buffer, if there is one. -/
def Core.dirty (c : Core) (ln : Nat) : Option (List Byte) :=
  match Map.find c.l2 ln with
  | some x => if x.st = .m then some x.data else none
  | none => (c.evb.find? fun e => e.line == ln && !e.taken).bind (·.dirty)

/-- The latest data of a DRAM line (R393): in an L2, at the directory, under way between them, or in the L3. -/
def Dev.lineNow (ln : Nat) (d : Dev) : List Byte :=
  match d.cap.cores.findSome? fun e => e.2.dirty ln with
  | some x => x
  | none =>
    match (Map.find d.cap.txns ln).bind (·.data) with
    | some x => x
    | none => (d.cap.msgs.findSome? fun m => if m.line = ln then m.data else none).getD (Memory.readBytes d.mem.dram (64 * ln) 64)

/-- The byte at a physical address; an unmapped one reads 0. -/
def Dev.physByte (a : Nat) (d : Dev) : Byte :=
  match d.physOff a with
  | some (true, o) => Memory.read d.mem.flat o
  | some (false, o) => (d.lineNow (o / 64)).getD (o % 64) 0
  | none => 0

/-- n bytes from a physical address. -/
def Dev.physRead (a n : Nat) (d : Dev) : List Byte := (List.range n).map fun i => d.physByte (a + i)

/-- A byte of a line replaced. -/
def patchLine (o : Nat) (b : Byte) (data : List Byte) : List Byte := data.set (o % 64) b

/-- A core's copies of a line with one byte replaced (R395). -/
def Core.patch (o : Nat) (b : Byte) (c : Core) : Core := { c with
  l2 := c.l2.map fun e => if e.1 = o / 64 then (e.1, { e.2 with data := patchLine o b e.2.data }) else e
  evb := c.evb.map fun e => if e.line = o / 64 then { e with dirty := e.dirty.map (patchLine o b) } else e }

/-- Every copy of a line in the capstan complex with one byte replaced (R395). -/
def Cap.patch (o : Nat) (b : Byte) (x : Cap) : Cap := { x with
  cores := x.cores.map fun e => (e.1, e.2.patch o b)
  txns := x.txns.map fun e => if e.1 = o / 64 then (e.1, { e.2 with data := e.2.data.map (patchLine o b) }) else e
  msgs := x.msgs.map fun m => if m.line = o / 64 then { m with data := m.data.map (patchLine o b) } else m }

/-- Store one byte at a physical address, coherently; to an unmapped one, nothing. -/
def Dev.physPut (a : Nat) (b : Byte) (d : Dev) : Dev :=
  match d.physOff a with
  | some (true, o) => { d with mem := { d.mem with flat := Memory.write d.mem.flat o b } }
  | some (false, o) => { d with mem := { d.mem with dram := Memory.write d.mem.dram o b }, cap := d.cap.patch o b }
  | none => d

/-- Store bytes from a physical address upward. -/
def Dev.physWrite (a : Nat) : List Byte → Dev → Dev
  | [], d => d
  | b :: bs, d => Dev.physWrite (a + 1) bs (d.physPut a b)

/-! ## The variant (R1, R5, R632) -/

/-- Lanes, and ports, of the variant (Table 0.1). -/
def Dev.lanes (d : Dev) : Nat := if d.variant24 then 128 else 256

/-- Lays that own a port block (Table 0.1). -/
def Dev.blocks (d : Dev) : Nat := if d.variant24 then 16 else 32

end Sys2Proof.Machine
end

