-- ==== Sys2Proof/Machine/Regs.lean ====
section
/-! DEFINITION. The register map of the global window: where each register of the block tables lies (Table 23.2 and the
tables it names), and the register that an offset falls in. -/
namespace Sys2Proof.Machine

/-- Access codes of Table 0.6. -/
inductive Access where
  | ro | rw | rw1c | wo | rc | rs
  deriving DecidableEq, Repr

/-- A register or an array of them: first offset, distance between elements, elements, size in bytes, access (R633). -/
structure RegRow where
  base   : Nat
  stride : Nat
  count  : Nat
  size   : Nat
  access : Access
  deriving DecidableEq, Repr

namespace Reg

/-- GLB_ID. -/
def glbId : Nat := 0x0
/-- GLB_CAPS. -/
def glbCaps : Nat := 0x4
/-- GLB_TAG_FREE. -/
def glbTagFree : Nat := 0x8
/-- GLB_TAG_WAIT. -/
def glbTagWait : Nat := 0x10
/-- GLB_SNAP_STATUS. -/
def glbSnapStatus : Nat := 0x18
/-- GLB_SNAP_VIEW. -/
def glbSnapView : Nat := 0x20
/-- GLB_SNAP_TURN. -/
def glbSnapTurn (i : Nat) : Nat := 0x100 + 0x8 * i
/-- GLB_SPLICE_ACCEPT. -/
def glbSpliceAccept : Nat := 0x1000
/-- GLB_SPLICE_FAIL. -/
def glbSpliceFail : Nat := 0x1008
/-- GLB_SPLICE_LOG_HEAD. -/
def glbSpliceLogHead : Nat := 0x1010
/-- GLB_SPLICE_LOG_WAIT. -/
def glbSpliceLogWait : Nat := 0x1018
/-- GLB_SPLICE_EVENT_LOST. -/
def glbSpliceEventLost : Nat := 0x1020
/-- GLB_SPLICE_STATUS. -/
def glbSpliceStatus : Nat := 0x1028
/-- GLB_SHADE_STATE. -/
def glbShadeState : Nat := 0x2000
/-- GLB_SHADE_CURRENT. -/
def glbShadeCurrent : Nat := 0x2004
/-- GLB_SHADE_NUM0. -/
def glbShadeNum0 : Nat := 0x2008
/-- GLB_SHADE_NUM1. -/
def glbShadeNum1 : Nat := 0x200C
/-- GLB_SHADE_NUM2. -/
def glbShadeNum2 : Nat := 0x2010
/-- GLB_SHADE_NUM3. -/
def glbShadeNum3 : Nat := 0x2014
/-- GLB_SHADE_RESIDENT0. -/
def glbShadeResident0 : Nat := 0x2020
/-- GLB_SHADE_RESIDENT1. -/
def glbShadeResident1 : Nat := 0x2028
/-- GLB_SHADE_RESIDENT2. -/
def glbShadeResident2 : Nat := 0x2030
/-- GLB_SHADE_RESIDENT3. -/
def glbShadeResident3 : Nat := 0x2038
/-- GLB_SHADE_TURN0. -/
def glbShadeTurn0 : Nat := 0x2040
/-- GLB_SHADE_TURN1. -/
def glbShadeTurn1 : Nat := 0x2048
/-- GLB_SHADE_TURN2. -/
def glbShadeTurn2 : Nat := 0x2050
/-- GLB_SHADE_TURN3. -/
def glbShadeTurn3 : Nat := 0x2058
/-- GLB_SHADE_BUSY. -/
def glbShadeBusy : Nat := 0x2060
/-- REEL_TIME. -/
def reelTime : Nat := 0x10000
/-- REEL_TURN. -/
def reelTurn : Nat := 0x10008
/-- REEL_STATUS. -/
def reelStatus : Nat := 0x10010
/-- REEL_ERA. -/
def reelEra : Nat := 0x10014
/-- REEL_ERA_OFFSET. -/
def reelEraOffset : Nat := 0x10018
/-- REEL_HOLDOVER_NS. -/
def reelHoldoverNs : Nat := 0x10020
/-- REEL_PHASE_ERR. -/
def reelPhaseErr : Nat := 0x10028
/-- REEL_LAST_DISC. -/
def reelLastDisc : Nat := 0x10030
/-- REEL_DISC_COUNT. -/
def reelDiscCount : Nat := 0x10040
/-- REEL_SAMPLE_REJECT. -/
def reelSampleReject : Nat := 0x10048
/-- REEL_SRC_REJECT. -/
def reelSrcReject : Nat := 0x10050
/-- REEL_AT_LATE. -/
def reelAtLate : Nat := 0x10058
/-- REEL_AT_WAIT. -/
def reelAtWait : Nat := 0x10060
/-- REEL_STEP_FIRED. -/
def reelStepFired : Nat := 0x10068
/-- LAY_STATUS. -/
def layStatus (i : Nat) : Nat := 0x20000 + 0x200 * i
/-- LAY_LAST_TRAP. -/
def layLastTrap (i : Nat) : Nat := 0x20004 + 0x200 * i
/-- LAY_DISPATCH. -/
def layDispatch (i : Nat) : Nat := 0x20008 + 0x200 * i
/-- LAY_DISPATCH_WAIT. -/
def layDispatchWait (i : Nat) : Nat := 0x20010 + 0x200 * i
/-- LAY_FETCH_SQUASH. -/
def layFetchSquash (i : Nat) : Nat := 0x20018 + 0x200 * i
/-- LAY_TRAP. -/
def layTrap (i : Nat) : Nat := 0x20020 + 0x200 * i
/-- LAY_TRAP_LOST. -/
def layTrapLost (i : Nat) : Nat := 0x20028 + 0x200 * i
/-- LAY_RELEASE_HOLD. -/
def layReleaseHold (i : Nat) : Nat := 0x20030 + 0x200 * i
/-- LAY_LANE_WAIT. -/
def layLaneWait (i : Nat) : Nat := 0x20038 + 0x200 * i
/-- LAY_SLOW_DISPATCH. -/
def laySlowDispatch (i : Nat) : Nat := 0x20040 + 0x200 * i
/-- LAY_SLOW_FULL. -/
def laySlowFull (i : Nat) : Nat := 0x20048 + 0x200 * i
/-- LAY_PSTORE_CORRECT. -/
def layPstoreCorrect (i : Nat) : Nat := 0x20050 + 0x200 * i
/-- LAY_SSTORE_CORRECT. -/
def laySstoreCorrect (i : Nat) : Nat := 0x20058 + 0x200 * i
/-- TBL_MAC_USED. -/
def tblMacUsed : Nat := 0x30000
/-- TBL_EXACT_USED. -/
def tblExactUsed : Nat := 0x30004
/-- TBL_LPM_NARROW. -/
def tblLpmNarrow : Nat := 0x30008
/-- TBL_LPM_WIDE. -/
def tblLpmWide : Nat := 0x3000C
/-- TBL_ACL_USED. -/
def tblAclUsed : Nat := 0x30010
/-- TBL_STALE_OPEN. -/
def tblStaleOpen : Nat := 0x30014
/-- TBL_LPM_HOLES. -/
def tblLpmHoles : Nat := 0x30018
/-- TBL_LEARN_NOTICE. -/
def tblLearnNotice : Nat := 0x30020
/-- TBL_LEARN_FILTERED. -/
def tblLearnFiltered : Nat := 0x30028
/-- TBL_LEARN_DROP. -/
def tblLearnDrop : Nat := 0x30030
/-- TBL_LEARN_FAIL. -/
def tblLearnFail : Nat := 0x30038
/-- TBL_FLOOD_UNKNOWN. -/
def tblFloodUnknown : Nat := 0x30040
/-- TBL_LPM_MOVE. -/
def tblLpmMove : Nat := 0x30048
/-- TBL_RAW_WRITE. -/
def tblRawWrite : Nat := 0x30050
/-- TBL_RAW_REJECT. -/
def tblRawReject : Nat := 0x30058
/-- TBL_STALE_RESULT. -/
def tblStaleResult : Nat := 0x30060
/-- TBL_SCRUB_PASS. -/
def tblScrubPass : Nat := 0x30068
/-- TBL_SCRUB_FIX. -/
def tblScrubFix : Nat := 0x30070
/-- TBL_SUSPECT_RESULT. -/
def tblSuspectResult : Nat := 0x30078
/-- TBL_ECC_CORRECT. -/
def tblEccCorrect : Nat := 0x30080
/-- TBL_SHADOW_ERR. -/
def tblShadowErr : Nat := 0x30088
/-- TBL_SCRUB_DEFER. -/
def tblScrubDefer : Nat := 0x30090
/-- TBL_FIX_LAST. -/
def tblFixLast : Nat := 0x30098
/-- TBL_RAW_SELECT. -/
def tblRawSelect : Nat := 0x300A0
/-- COIL_STATUS. -/
def coilStatus : Nat := 0x40000
/-- COIL_SCALE. -/
def coilScale : Nat := 0x40004
/-- COIL_FREE. -/
def coilFree : Nat := 0x40008
/-- COIL_POOL_SIZE. -/
def coilPoolSize : Nat := 0x4000C
/-- COIL_POOL_FREE. -/
def coilPoolFree : Nat := 0x40010
/-- COIL_RESERVED. -/
def coilReserved : Nat := 0x40014
/-- COIL_OVERDRAFT_USED. -/
def coilOverdraftUsed : Nat := 0x40018
/-- COIL_INJECT_HOLD. -/
def coilInjectHold : Nat := 0x4001C
/-- COIL_PEAK_USED. -/
def coilPeakUsed : Nat := 0x40020
/-- COIL_OVERDRAFT_TAKE. -/
def coilOverdraftTake : Nat := 0x40028
/-- COIL_SHORT_COUNT. -/
def coilShortCount : Nat := 0x40030
/-- COIL_INJECT_WAIT. -/
def coilInjectWait : Nat := 0x40038
/-- COIL_DOWN_COPY. -/
def coilDownCopy : Nat := 0x40040
/-- COIL_BW_WAIT. -/
def coilBwWait : Nat := 0x40048
/-- COIL_YELLOW_LIMIT. -/
def coilYellowLimit : Nat := 0x40050
/-- COIL_ING_HOLD. -/
def coilIngHold (i : Nat) : Nat := 0x41000 + 0x20 * i
/-- COIL_ING_HEADROOM. -/
def coilIngHeadroom (i : Nat) : Nat := 0x41004 + 0x20 * i
/-- COIL_ING_HR_USED. -/
def coilIngHrUsed (i : Nat) : Nat := 0x41008 + 0x20 * i
/-- COIL_ING_DELAY. -/
def coilIngDelay (i : Nat) : Nat := 0x4100C + 0x20 * i
/-- COIL_ING_XOFF. -/
def coilIngXoff (i : Nat) : Nat := 0x41010 + 0x20 * i
/-- COIL_ING_OVERFLOW. -/
def coilIngOverflow (i : Nat) : Nat := 0x41018 + 0x20 * i
/-- COIL_EQ_CELLS. -/
def coilEqCells (i : Nat) : Nat := 0x51000 + 0x10 * i
/-- COIL_EQ_PKTS. -/
def coilEqPkts (i : Nat) : Nat := 0x51004 + 0x10 * i
/-- COIL_EQ_PEAK. -/
def coilEqPeak (i : Nat) : Nat := 0x51008 + 0x10 * i
/-- COIL_ARR_HOLD. -/
def coilArrHold (i : Nat) : Nat := 0x59000 + 0x20 * i
/-- COIL_ARR_RESERVE. -/
def coilArrReserve (i : Nat) : Nat := 0x59004 + 0x20 * i
/-- COIL_ARR_XOFF. -/
def coilArrXoff (i : Nat) : Nat := 0x59008 + 0x20 * i
/-- COIL_ARR_OVERFLOW. -/
def coilArrOverflow (i : Nat) : Nat := 0x59010 + 0x20 * i
/-- SCHED_PAUSE_RX. -/
def schedPauseRx : Nat := 0x60000
/-- SCHED_PAUSE_IGNORED. -/
def schedPauseIgnored : Nat := 0x60008
/-- SCHED_SHAPE_HOLD. -/
def schedShapeHold : Nat := 0x60010
/-- SCHED_CREDIT_HOLD. -/
def schedCreditHold : Nat := 0x60018
/-- SCHED_Q_STATUS. -/
def schedQStatus (i : Nat) : Nat := 0x61000 + 0x20 * i
/-- SCHED_Q_DEFICIT. -/
def schedQDeficit (i : Nat) : Nat := 0x61004 + 0x20 * i
/-- SCHED_Q_TX_COPIES. -/
def schedQTxCopies (i : Nat) : Nat := 0x61008 + 0x20 * i
/-- SCHED_Q_TX_BYTES. -/
def schedQTxBytes (i : Nat) : Nat := 0x61010 + 0x20 * i
/-- SCHED_Q_CONFIG. -/
def schedQConfig (i : Nat) : Nat := 0x61018 + 0x20 * i
/-- SCHED_SHP_LEVEL. -/
def schedShpLevel (i : Nat) : Nat := 0x71000 + 0x10 * i
/-- SCHED_SHP_QUEUES. -/
def schedShpQueues (i : Nat) : Nat := 0x71008 + 0x10 * i
/-- SCHED_POL_C. -/
def schedPolC (i : Nat) : Nat := 0x160000 + 0x10 * i
/-- SCHED_POL_PE. -/
def schedPolPe (i : Nat) : Nat := 0x160008 + 0x10 * i
/-- LOG_STATUS. -/
def logStatus : Nat := 0x560000
/-- LOG_STAGE_FREE. -/
def logStageFree : Nat := 0x560004
/-- LOG_PAGE_SEQ. -/
def logPageSeq : Nat := 0x560008
/-- LOG_ARCH_SEQ. -/
def logArchSeq : Nat := 0x560010
/-- LOG_ARCH_SPAN. -/
def logArchSpan : Nat := 0x560018
/-- LOG_REC. -/
def logRec : Nat := 0x560020
/-- LOG_GAP_PKTS. -/
def logGapPkts : Nat := 0x560028
/-- LOG_HDR_SHED. -/
def logHdrShed : Nat := 0x560030
/-- LOG_ARCH_RETRY. -/
def logArchRetry : Nat := 0x560038
/-- LOG_ARCH_LOST. -/
def logArchLost : Nat := 0x560040
/-- LOG_VIEW_GAP. -/
def logViewGap : Nat := 0x560048
/-- LOG_MIRROR_MISS. -/
def logMirrorMiss : Nat := 0x560050
/-- LOG_IN. -/
def logIn (i : Nat) : Nat := 0x561000 + 0x20 * i
/-- LOG_RESIDENT. -/
def logResident (i : Nat) : Nat := 0x561008 + 0x20 * i
/-- LOG_COPIES_TX. -/
def logCopiesTx (i : Nat) : Nat := 0x561010 + 0x20 * i
/-- LOG_EG_LINKED. -/
def logEgLinked (i : Nat) : Nat := 0x564000 + 0x20 * i
/-- LOG_EG_QUEUED. -/
def logEgQueued (i : Nat) : Nat := 0x564008 + 0x20 * i
/-- LOG_EG_MIRROR. -/
def logEgMirror (i : Nat) : Nat := 0x564010 + 0x20 * i
/-- LOG_FATE. -/
def logFate (i : Nat) : Nat := 0x660000 + 0x8 * i
/-- LOG_EG_FATE. -/
def logEgFate (i : Nat) : Nat := 0x760000 + 0x8 * i
/-- AUT_STATUS. -/
def autStatus : Nat := 0xBE0000
/-- AUT_FIX_LAST. -/
def autFixLast : Nat := 0xBE0008
/-- AUT_SUBMIT. -/
def autSubmit : Nat := 0xBE0010
/-- AUT_SUBMIT_FULL. -/
def autSubmitFull : Nat := 0xBE0018
/-- AUT_SUBMIT_EARLY. -/
def autSubmitEarly : Nat := 0xBE0020
/-- AUT_HIT. -/
def autHit : Nat := 0xBE0028
/-- AUT_RESULT_ABANDON. -/
def autResultAbandon : Nat := 0xBE0030
/-- AUT_REPORT. -/
def autReport : Nat := 0xBE0038
/-- AUT_REPORT_DROP. -/
def autReportDrop : Nat := 0xBE0040
/-- AUT_ECC_CORRECT. -/
def autEccCorrect : Nat := 0xBE0048
/-- AUT_SCRUB_PASS. -/
def autScrubPass : Nat := 0xBE0050
/-- AUT_SCRUB_DEFER. -/
def autScrubDefer : Nat := 0xBE0058
/-- AUT_SCRUB_FIX. -/
def autScrubFix : Nat := 0xBE0060
/-- AUT_SUSPECT_RESULT. -/
def autSuspectResult : Nat := 0xBE0068
/-- AUT_CHAIN_SENT. -/
def autChainSent : Nat := 0xBE0070
/-- AUT_CHAIN_DROP. -/
def autChainDrop : Nat := 0xBE0078
/-- AUT_CHAIN_TIMEOUT. -/
def autChainTimeout : Nat := 0xBE0080
/-- AUT_CHAIN_LATE. -/
def autChainLate : Nat := 0xBE0088
/-- AUT_CHAIN_NOSET. -/
def autChainNoset : Nat := 0xBE0090
/-- AUT_MCH_CRC. -/
def autMchCrc : Nat := 0xBE0098
/-- AUT_U_BACKLOG. -/
def autUBacklog (i : Nat) : Nat := 0xBE1000 + 0x10 * i
/-- AUT_U_SCANNED. -/
def autUScanned (i : Nat) : Nat := 0xBE1008 + 0x10 * i
/-- BRD_STATUS. -/
def brdStatus : Nat := 0xBF0000
/-- BRD_LEAD. -/
def brdLead : Nat := 0xBF0004
/-- BRD_HOP. -/
def brdHop : Nat := 0xBF0008
/-- BRD_TTL_DROP. -/
def brdTtlDrop : Nat := 0xBF0010
/-- BRD_EPOCH_MISS. -/
def brdEpochMiss : Nat := 0xBF0018
/-- BRD_EPOCH_MISMATCH. -/
def brdEpochMismatch : Nat := 0xBF0020
/-- BRD_REROUTE. -/
def brdReroute : Nat := 0xBF0028
/-- BRD_COMMIT_MISS. -/
def brdCommitMiss : Nat := 0xBF0030
/-- BRD_GLOBAL_LATE. -/
def brdGlobalLate : Nat := 0xBF0038
/-- BRD_MGMT_DROP. -/
def brdMgmtDrop : Nat := 0xBF0040
/-- BRD_LEASE_GRANT. -/
def brdLeaseGrant : Nat := 0xBF0048
/-- BRD_LEASE_FULL. -/
def brdLeaseFull : Nat := 0xBF0050
/-- BRD_LNK_STATUS. -/
def brdLnkStatus (i : Nat) : Nat := 0xBF1000 + 0x80 * i
/-- BRD_LNK_PEER. -/
def brdLnkPeer (i : Nat) : Nat := 0xBF1004 + 0x80 * i
/-- BRD_LNK_DELAY. -/
def brdLnkDelay (i : Nat) : Nat := 0xBF1008 + 0x80 * i
/-- BRD_LNK_TX_FRAMES. -/
def brdLnkTxFrames (i : Nat) : Nat := 0xBF1010 + 0x80 * i
/-- BRD_LNK_RX_FRAMES. -/
def brdLnkRxFrames (i : Nat) : Nat := 0xBF1018 + 0x80 * i
/-- BRD_LNK_WIRE_LOSS. -/
def brdLnkWireLoss (i : Nat) : Nat := 0xBF1020 + 0x80 * i
/-- BRD_LNK_HDR_ERR. -/
def brdLnkHdrErr (i : Nat) : Nat := 0xBF1028 + 0x80 * i
/-- BRD_LNK_RX_CUT. -/
def brdLnkRxCut (i : Nat) : Nat := 0xBF1030 + 0x80 * i
/-- BRD_LNK_MARK_FRAMES. -/
def brdLnkMarkFrames (i : Nat) : Nat := 0xBF1038 + 0x80 * i
/-- BRD_LNK_MARK_CELLS. -/
def brdLnkMarkCells (i : Nat) : Nat := 0xBF1040 + 0x80 * i
/-- BRD_LNK_MARK_TURN. -/
def brdLnkMarkTurn (i : Nat) : Nat := 0xBF1048 + 0x80 * i
/-- CAL_STATUS. -/
def calStatus : Nat := 0x1000000
/-- CAL_DEFER. -/
def calDefer : Nat := 0x1000008
/-- CAL_QUEUE_WAIT. -/
def calQueueWait : Nat := 0x1000010
/-- CAL_SLOT_MERGE. -/
def calSlotMerge : Nat := 0x1000018
/-- CAL_RETAKE_LOAD. -/
def calRetakeLoad : Nat := 0x1000020
/-- CAL_RETAKE_TEMP. -/
def calRetakeTemp : Nat := 0x1000028
/-- CAL_EYE_LIMIT. -/
def calEyeLimit : Nat := 0x1000030
/-- CAL_RUN. -/
def calRun : Nat := 0x1000038
/-- CAL_PORT_RESULT. -/
def calPortResult (i : Nat) : Nat := 0x1001000 + 0x10 * i
/-- CAL_PORT_HR_RESULT. -/
def calPortHrResult (i : Nat) : Nat := 0x1001004 + 0x10 * i
/-- CAL_PORT_TURN. -/
def calPortTurn (i : Nat) : Nat := 0x1001008 + 0x10 * i
/-- CAL_DMC_RESULT. -/
def calDmcResult (i : Nat) : Nat := 0x1002000 + 0x10 * i
/-- CAL_DMC_TURN. -/
def calDmcTurn (i : Nat) : Nat := 0x1002008 + 0x10 * i
/-- CAP_STATUS. -/
def capStatus : Nat := 0x1010000
/-- CAP_RUNNING. -/
def capRunning : Nat := 0x1010004
/-- CAP_CLEAT_HELD. -/
def capCleatHeld : Nat := 0x1010008
/-- CAP_DIR_USED. -/
def capDirUsed : Nat := 0x101000C
/-- CAP_CLEAT_FAIL. -/
def capCleatFail : Nat := 0x1010010
/-- CAP_CLEAT_RESET_REL. -/
def capCleatResetRel : Nat := 0x1010018
/-- CAP_LNY_FULL. -/
def capLnyFull : Nat := 0x1010020
/-- CAP_LNY_EMPTY. -/
def capLnyEmpty : Nat := 0x1010028
/-- CAP_DIR_BACKINV. -/
def capDirBackinv : Nat := 0x1010030
/-- CAP_C_STATUS. -/
def capCStatus (i : Nat) : Nat := 0x1011000 + 0x100 * i
/-- CAP_C_RETIRED. -/
def capCRetired (i : Nat) : Nat := 0x1011008 + 0x100 * i
/-- CAP_C_FETCHED. -/
def capCFetched (i : Nat) : Nat := 0x1011010 + 0x100 * i
/-- CAP_C_ISSUED. -/
def capCIssued (i : Nat) : Nat := 0x1011018 + 0x100 * i
/-- CAP_C_SQUASH_ISSUED. -/
def capCSquashIssued (i : Nat) : Nat := 0x1011020 + 0x100 * i
/-- CAP_C_L2_MISS. -/
def capCL2Miss (i : Nat) : Nat := 0x1011028 + 0x100 * i
/-- CAP_C_EVICT_DIRTY. -/
def capCEvictDirty (i : Nat) : Nat := 0x1011030 + 0x100 * i
/-- CAP_C_SNOOP_EVICTING. -/
def capCSnoopEvicting (i : Nat) : Nat := 0x1011038 + 0x100 * i
/-- CAP_C_CLEAN_CROSS. -/
def capCCleanCross (i : Nat) : Nat := 0x1011040 + 0x100 * i
/-- CAP_C_EVB_FULL. -/
def capCEvbFull (i : Nat) : Nat := 0x1011048 + 0x100 * i
/-- CAP_C_HCU_RETIRED. -/
def capCHcuRetired (i : Nat) : Nat := 0x1011050 + 0x100 * i
/-- CAP_C_AQU_RETIRED. -/
def capCAquRetired (i : Nat) : Nat := 0x1011058 + 0x100 * i
/-- CAP_C_ACCESS_FAULT. -/
def capCAccessFault (i : Nat) : Nat := 0x1011060 + 0x100 * i
/-- HIF_STATUS. -/
def hifStatus : Nat := 0x1020000
/-- HIF_DB_STALE. -/
def hifDbStale : Nat := 0x1020008
/-- HIF_DB_DISABLED. -/
def hifDbDisabled : Nat := 0x1020010
/-- HIF_DB_RANGE. -/
def hifDbRange : Nat := 0x1020018
/-- HIF_ACCESS_ERR. -/
def hifAccessErr : Nat := 0x1020020
/-- HIF_ACCESS_LAST. -/
def hifAccessLast : Nat := 0x1020028
/-- HIF_CQ_WAIT. -/
def hifCqWait : Nat := 0x1020030
/-- HIF_RX_NOBUF. -/
def hifRxNobuf : Nat := 0x1020038
/-- HIF_EVT_OVERSIZE. -/
def hifEvtOversize : Nat := 0x1020040
/-- HIF_EVT_MISS. -/
def hifEvtMiss : Nat := 0x1020048
/-- HIF_PME_SENT. -/
def hifPmeSent : Nat := 0x1020050
/-- HIF_FUNC_RESET. -/
def hifFuncReset : Nat := 0x1020058
/-- HIF_QP_STATUS. -/
def hifQpStatus (i : Nat) : Nat := 0x1120000 + 0x20 * i
/-- HIF_QP_FETCH. -/
def hifQpFetch (i : Nat) : Nat := 0x1120004 + 0x20 * i
/-- HIF_QP_CQ_WRITE. -/
def hifQpCqWrite (i : Nat) : Nat := 0x1120008 + 0x20 * i
/-- HIF_QP_CQ_HEAD. -/
def hifQpCqHead (i : Nat) : Nat := 0x112000C + 0x20 * i
/-- HIF_QP_DESC. -/
def hifQpDesc (i : Nat) : Nat := 0x1120010 + 0x20 * i
/-- HIF_QP_MSG. -/
def hifQpMsg (i : Nat) : Nat := 0x1120018 + 0x20 * i
/-- SLC_ENABLED. -/
def slcEnabled : Nat := 0x1320000
/-- SLC_RESET. -/
def slcReset : Nat := 0x1320008
/-- SLC_RESET_STALL. -/
def slcResetStall : Nat := 0x1320010
/-- SLC_LATE_DISCARD. -/
def slcLateDiscard : Nat := 0x1320018
/-- SLC_MB_SENT. -/
def slcMbSent : Nat := 0x1320020
/-- SLC_MB_BUSY. -/
def slcMbBusy : Nat := 0x1320028
/-- SLC_MB_DISCARD. -/
def slcMbDiscard : Nat := 0x1320030
/-- SLC_RATE_HOLD. -/
def slcRateHold : Nat := 0x1320038
/-- SLC_S_STATUS. -/
def slcSStatus (i : Nat) : Nat := 0x1321000 + 0x80 * i
/-- SLC_S_OWNER. -/
def slcSOwner (i : Nat) : Nat := 0x1321004 + 0x80 * i
/-- SLC_S_PASID. -/
def slcSPasid (i : Nat) : Nat := 0x1321008 + 0x80 * i
/-- SLC_S_QP. -/
def slcSQp (i : Nat) : Nat := 0x132100C + 0x80 * i
/-- SLC_S_OUTSTANDING. -/
def slcSOutstanding (i : Nat) : Nat := 0x1321010 + 0x80 * i
/-- SLC_S_MB. -/
def slcSMb (i : Nat) : Nat := 0x1321018 + 0x80 * i
/-- SLC_S_MB_DOWN. -/
def slcSMbDown (i : Nat) : Nat := 0x132101C + 0x80 * i
/-- SLC_S_LEVEL of slice s, bucket b. -/
def slcSLevel (s b : Nat) : Nat := 0x1321020 + 0x80 * s + 8 * b
/-- STO_STATUS. -/
def stoStatus : Nat := 0x13B0000
/-- STO_EXTENT_USED. -/
def stoExtentUsed : Nat := 0x13B0004
/-- STO_BLOCKS_MAPPED. -/
def stoBlocksMapped : Nat := 0x13B0008
/-- STO_CMD. -/
def stoCmd : Nat := 0x13B0010
/-- STO_SPLIT. -/
def stoSplit : Nat := 0x13B0018
/-- STO_ORDER_WAIT. -/
def stoOrderWait : Nat := 0x13B0020
/-- STO_MEDIA_ERR. -/
def stoMediaErr : Nat := 0x13B0028
/-- STO_TIMEOUT. -/
def stoTimeout : Nat := 0x13B0030
/-- STO_RELAY_CA. -/
def stoRelayCa : Nat := 0x13B0038
/-- STO_ABORT_CAUGHT. -/
def stoAbortCaught : Nat := 0x13B0040
/-- STO_ABORT_MISSED. -/
def stoAbortMissed : Nat := 0x13B0048
/-- STO_XTS_BYTES. -/
def stoXtsBytes : Nat := 0x13B0050
/-- STO_T_STATUS. -/
def stoTStatus (i : Nat) : Nat := 0x13B1000 + 0x20 * i
/-- STO_T_OUTSTANDING. -/
def stoTOutstanding (i : Nat) : Nat := 0x13B1004 + 0x20 * i
/-- STO_T_PARTS. -/
def stoTParts (i : Nat) : Nat := 0x13B1008 + 0x20 * i
/-- STO_T_ERR. -/
def stoTErr (i : Nat) : Nat := 0x13B1010 + 0x20 * i
/-- RDM_STATUS. -/
def rdmStatus : Nat := 0x13C0000
/-- RDM_CACHE_USED. -/
def rdmCacheUsed : Nat := 0x13C0004
/-- RDM_CTX_COUNT. -/
def rdmCtxCount : Nat := 0x13C0008
/-- RDM_CACHE_MISS. -/
def rdmCacheMiss : Nat := 0x13C0010
/-- RDM_RETX_NAK. -/
def rdmRetxNak : Nat := 0x13C0018
/-- RDM_RETX_TIMEOUT. -/
def rdmRetxTimeout : Nat := 0x13C0020
/-- RDM_NAK_TX. -/
def rdmNakTx : Nat := 0x13C0028
/-- RDM_ICRC_ERR. -/
def rdmIcrcErr : Nat := 0x13C0030
/-- RDM_EPOCH_REJECT. -/
def rdmEpochReject : Nat := 0x13C0038
/-- RDM_AUTH_FAIL. -/
def rdmAuthFail : Nat := 0x13C0040
/-- RDM_CNP_RX. -/
def rdmCnpRx : Nat := 0x13C0048
/-- RDM_CNP_TX. -/
def rdmCnpTx : Nat := 0x13C0050
/-- RDM_RX_NOBUF. -/
def rdmRxNobuf : Nat := 0x13C0058
/-- RDM_KEY_REJECT. -/
def rdmKeyReject : Nat := 0x13C0060
/-- RDM_KEY_DISCARD. -/
def rdmKeyDiscard : Nat := 0x13C0068
/-- RDM_CONN_ERROR. -/
def rdmConnError : Nat := 0x13C0070
/-- RDM_C_STATE. -/
def rdmCState (i : Nat) : Nat := 0x14C0000 + 0x20 * i
/-- RDM_C_WINDOW. -/
def rdmCWindow (i : Nat) : Nat := 0x14C0004 + 0x20 * i
/-- RDM_C_SEND_PSN. -/
def rdmCSendPsn (i : Nat) : Nat := 0x14C0008 + 0x20 * i
/-- RDM_C_UNACK_PSN. -/
def rdmCUnackPsn (i : Nat) : Nat := 0x14C000C + 0x20 * i
/-- RDM_C_EPOCH. -/
def rdmCEpoch (i : Nat) : Nat := 0x14C0010 + 0x20 * i
/-- RDM_C_PEER_EPOCH. -/
def rdmCPeerEpoch (i : Nat) : Nat := 0x14C0014 + 0x20 * i
/-- RDM_C_RX_PSN. -/
def rdmCRxPsn (i : Nat) : Nat := 0x14C0018 + 0x20 * i
/-- DMC_STATUS. -/
def dmcStatus : Nat := 0x18C0000
/-- DMC_CONFIG. -/
def dmcConfig : Nat := 0x18C0004
/-- DMC_CAPACITY. -/
def dmcCapacity : Nat := 0x18C0008
/-- DMC_BANK_MASK. -/
def dmcBankMask (i : Nat) : Nat := 0x18C0010 + 0x8 * i
/-- DMC_CE_LAST. -/
def dmcCeLast : Nat := 0x18C0038
/-- DMC_UE_LAST. -/
def dmcUeLast : Nat := 0x18C0040
/-- DMC_SPLICE_LOST. -/
def dmcSpliceLost : Nat := 0x18C0048
/-- DMC_C_STATUS. -/
def dmcCStatus (i : Nat) : Nat := 0x18C1000 + 0x100 * i
/-- DMC_C_READS. -/
def dmcCReads (i : Nat) : Nat := 0x18C1008 + 0x100 * i
/-- DMC_C_WRITES. -/
def dmcCWrites (i : Nat) : Nat := 0x18C1010 + 0x100 * i
/-- DMC_C_ROW_HIT. -/
def dmcCRowHit (i : Nat) : Nat := 0x18C1018 + 0x100 * i
/-- DMC_C_QFULL. -/
def dmcCQfull (i : Nat) : Nat := 0x18C1020 + 0x100 * i
/-- DMC_C_MERGE. -/
def dmcCMerge (i : Nat) : Nat := 0x18C1028 + 0x100 * i
/-- DMC_C_RMW. -/
def dmcCRmw (i : Nat) : Nat := 0x18C1030 + 0x100 * i
/-- DMC_C_DRAIN. -/
def dmcCDrain (i : Nat) : Nat := 0x18C1038 + 0x100 * i
/-- DMC_C_INORDER. -/
def dmcCInorder (i : Nat) : Nat := 0x18C1040 + 0x100 * i
/-- DMC_C_REF_POSTPONE. -/
def dmcCRefPostpone (i : Nat) : Nat := 0x18C1048 + 0x100 * i
/-- DMC_C_PARITY_ALERT. -/
def dmcCParityAlert (i : Nat) : Nat := 0x18C1050 + 0x100 * i
/-- DMC_C_REPLAY. -/
def dmcCReplay (i : Nat) : Nat := 0x18C1058 + 0x100 * i
/-- DMC_C_CE. -/
def dmcCCe (i : Nat) : Nat := 0x18C1060 + 0x100 * i
/-- DMC_C_UE. -/
def dmcCUe (i : Nat) : Nat := 0x18C1068 + 0x100 * i
/-- DMC_C_PATROL_CARRY. -/
def dmcCPatrolCarry (i : Nat) : Nat := 0x18C1070 + 0x100 * i
/-- DMC_P_LEVEL. -/
def dmcPLevel (i : Nat) : Nat := 0x18C3000 + 0x20 * i
/-- DMC_P_BYTES. -/
def dmcPBytes (i : Nat) : Nat := 0x18C3008 + 0x20 * i
/-- DMC_P_OVER. -/
def dmcPOver (i : Nat) : Nat := 0x18C3010 + 0x20 * i
/-- SHE_STATUS. -/
def sheStatus : Nat := 0x18D0000
/-- SHE_TAMPER_LATCH. -/
def sheTamperLatch : Nat := 0x18D0004
/-- SHE_LC_NONCE. -/
def sheLcNonce : Nat := 0x18D0008
/-- SHE_DEVICE_ID. -/
def sheDeviceId : Nat := 0x18D0010
/-- SHE_POLICY. -/
def shePolicy : Nat := 0x18D0018
/-- SHE_RNG_DRAWS. -/
def sheRngDraws : Nat := 0x18D0020
/-- SHE_RNG_HEALTH_FAIL. -/
def sheRngHealthFail : Nat := 0x18D0028
/-- SHE_KEY_OPS. -/
def sheKeyOps : Nat := 0x18D0030
/-- SHE_FAULT_DETECT. -/
def sheFaultDetect : Nat := 0x18D0038
/-- SHE_TAMPER_EVENTS. -/
def sheTamperEvents : Nat := 0x18D0040
/-- SHE_LA_BYTES. -/
def sheLaBytes : Nat := 0x18D0048
/-- SHE_LA_AUTH_FAIL. -/
def sheLaAuthFail : Nat := 0x18D0050
/-- SHE_STBY_LOG_HEAD. -/
def sheStbyLogHead : Nat := 0x18D0058
/-- SHE_SLOT_ATTR. -/
def sheSlotAttr (i : Nat) : Nat := 0x18D1000 + 0x8 * i
/-- SHE_P_STATUS. -/
def shePStatus (i : Nat) : Nat := 0x18D2000 + 0x40 * i
/-- SHE_P_SA_MISS. -/
def shePSaMiss (i : Nat) : Nat := 0x18D2008 + 0x40 * i
/-- SHE_P_ICV_FAIL. -/
def shePIcvFail (i : Nat) : Nat := 0x18D2010 + 0x40 * i
/-- SHE_P_REPLAY. -/
def shePReplay (i : Nat) : Nat := 0x18D2018 + 0x40 * i
/-- SHE_P_NO_TAG. -/
def shePNoTag (i : Nat) : Nat := 0x18D2020 + 0x40 * i
/-- SHE_P_PN_EXHAUST. -/
def shePPnExhaust (i : Nat) : Nat := 0x18D2028 + 0x40 * i
/-- SHE_STBY_LOG. -/
def sheStbyLog (i : Nat) : Nat := 0x18D8000 + 0x10 * i
/-- BOOT_STATUS. -/
def bootStatus : Nat := 0x18E0000
/-- BOOT_RELEASE. -/
def bootRelease : Nat := 0x18E0008
/-- BOOT_RELEASE_TIME. -/
def bootReleaseTime : Nat := 0x18E0010
/-- BOOT_VERDICT_TIME. -/
def bootVerdictTime : Nat := 0x18E0018
/-- BOOT_FAIL. -/
def bootFail : Nat := 0x18E0020
/-- BOOT_GATED_WRITES. -/
def bootGatedWrites : Nat := 0x18E0028
/-- BOOT_FALLBACK. -/
def bootFallback : Nat := 0x18E0030
/-- BOOT_DIGEST. -/
def bootDigest : Nat := 0x18E0040
/-- BOOT_LAST. -/
def bootLast : Nat := 0x18E0080
/-- PWR_STATUS. -/
def pwrStatus : Nat := 0x18F0000
/-- PWR_TRIP. -/
def pwrTrip : Nat := 0x18F0004
/-- PWR_VCORE. -/
def pwrVcore : Nat := 0x18F0008
/-- PWR_TEMP_MAX. -/
def pwrTempMax : Nat := 0x18F000C
/-- PWR_AVS_STEP. -/
def pwrAvsStep : Nat := 0x18F0010
/-- PWR_AVS_ERR. -/
def pwrAvsErr : Nat := 0x18F0018
/-- PWR_THERM_HIGH. -/
def pwrThermHigh : Nat := 0x18F0020
/-- PWR_RAIL_FAULT. -/
def pwrRailFault : Nat := 0x18F0028
/-- PWR_PMB_ALERT. -/
def pwrPmbAlert : Nat := 0x18F0030
/-- PWR_REF_LOST. -/
def pwrRefLost : Nat := 0x18F0038
/-- PWR_TEMP. -/
def pwrTemp (i : Nat) : Nat := 0x18F0100 + 0x4 * i
/-- PWR_RAIL_V. -/
def pwrRailV (i : Nat) : Nat := 0x18F0200 + 0x10 * i
/-- PWR_RAIL_I. -/
def pwrRailI (i : Nat) : Nat := 0x18F0204 + 0x10 * i
/-- PWR_RAIL_STATUS. -/
def pwrRailStatus (i : Nat) : Nat := 0x18F0208 + 0x10 * i

end Reg

/-- The GLB_ block (Table 23.2). -/
def regsGlb : List RegRow := [
  ⟨0x0, 0x0, 1, 4, .ro⟩,
  ⟨0x4, 0x0, 1, 4, .ro⟩,
  ⟨0x8, 0x0, 1, 4, .ro⟩,
  ⟨0x10, 0x0, 1, 8, .ro⟩,
  ⟨0x18, 0x0, 1, 4, .ro⟩,
  ⟨0x20, 0x0, 1, 4, .rw⟩,
  ⟨0x100, 0x8, 19, 8, .ro⟩,
  ⟨0x1000, 0x0, 1, 8, .ro⟩,
  ⟨0x1008, 0x0, 1, 8, .ro⟩,
  ⟨0x1010, 0x0, 1, 8, .ro⟩,
  ⟨0x1018, 0x0, 1, 8, .ro⟩,
  ⟨0x1020, 0x0, 1, 8, .ro⟩,
  ⟨0x1028, 0x0, 1, 4, .ro⟩,
  ⟨0x2000, 0x0, 1, 4, .ro⟩,
  ⟨0x2004, 0x0, 1, 4, .ro⟩,
  ⟨0x2008, 0x0, 1, 4, .ro⟩,
  ⟨0x200C, 0x0, 1, 4, .ro⟩,
  ⟨0x2010, 0x0, 1, 4, .ro⟩,
  ⟨0x2014, 0x0, 1, 4, .ro⟩,
  ⟨0x2020, 0x0, 1, 8, .ro⟩,
  ⟨0x2028, 0x0, 1, 8, .ro⟩,
  ⟨0x2030, 0x0, 1, 8, .ro⟩,
  ⟨0x2038, 0x0, 1, 8, .ro⟩,
  ⟨0x2040, 0x0, 1, 8, .ro⟩,
  ⟨0x2048, 0x0, 1, 8, .ro⟩,
  ⟨0x2050, 0x0, 1, 8, .ro⟩,
  ⟨0x2058, 0x0, 1, 8, .ro⟩,
  ⟨0x2060, 0x0, 1, 8, .ro⟩]

/-- The REEL_ block (Table 23.2). -/
def regsReel : List RegRow := [
  ⟨0x10000, 0x0, 1, 8, .ro⟩,
  ⟨0x10008, 0x0, 1, 8, .ro⟩,
  ⟨0x10010, 0x0, 1, 4, .ro⟩,
  ⟨0x10014, 0x0, 1, 4, .ro⟩,
  ⟨0x10018, 0x0, 1, 8, .ro⟩,
  ⟨0x10020, 0x0, 1, 8, .ro⟩,
  ⟨0x10028, 0x0, 1, 4, .ro⟩,
  ⟨0x10030, 0x0, 1, 8, .ro⟩,
  ⟨0x10040, 0x0, 1, 8, .ro⟩,
  ⟨0x10048, 0x0, 1, 8, .ro⟩,
  ⟨0x10050, 0x0, 1, 8, .ro⟩,
  ⟨0x10058, 0x0, 1, 8, .ro⟩,
  ⟨0x10060, 0x0, 1, 8, .ro⟩,
  ⟨0x10068, 0x0, 1, 8, .ro⟩]

/-- The LAY_ block (Table 23.2). -/
def regsLay : List RegRow := [
  ⟨0x20000, 0x200, 32, 4, .ro⟩,
  ⟨0x20004, 0x200, 32, 4, .ro⟩,
  ⟨0x20008, 0x200, 32, 8, .ro⟩,
  ⟨0x20010, 0x200, 32, 8, .ro⟩,
  ⟨0x20018, 0x200, 32, 8, .ro⟩,
  ⟨0x20020, 0x200, 32, 8, .ro⟩,
  ⟨0x20028, 0x200, 32, 8, .ro⟩,
  ⟨0x20030, 0x200, 32, 8, .ro⟩,
  ⟨0x20038, 0x200, 32, 8, .ro⟩,
  ⟨0x20040, 0x200, 32, 8, .ro⟩,
  ⟨0x20048, 0x200, 32, 8, .ro⟩,
  ⟨0x20050, 0x200, 32, 8, .ro⟩,
  ⟨0x20058, 0x200, 32, 8, .ro⟩]

/-- The TBL_ block (Table 23.2). -/
def regsTbl : List RegRow := [
  ⟨0x30000, 0x0, 1, 4, .ro⟩,
  ⟨0x30004, 0x0, 1, 4, .ro⟩,
  ⟨0x30008, 0x0, 1, 4, .ro⟩,
  ⟨0x3000C, 0x0, 1, 4, .ro⟩,
  ⟨0x30010, 0x0, 1, 4, .ro⟩,
  ⟨0x30014, 0x0, 1, 4, .ro⟩,
  ⟨0x30018, 0x0, 1, 4, .ro⟩,
  ⟨0x30020, 0x0, 1, 8, .ro⟩,
  ⟨0x30028, 0x0, 1, 8, .ro⟩,
  ⟨0x30030, 0x0, 1, 8, .ro⟩,
  ⟨0x30038, 0x0, 1, 8, .ro⟩,
  ⟨0x30040, 0x0, 1, 8, .ro⟩,
  ⟨0x30048, 0x0, 1, 8, .ro⟩,
  ⟨0x30050, 0x0, 1, 8, .ro⟩,
  ⟨0x30058, 0x0, 1, 8, .ro⟩,
  ⟨0x30060, 0x0, 1, 8, .ro⟩,
  ⟨0x30068, 0x0, 1, 8, .ro⟩,
  ⟨0x30070, 0x0, 1, 8, .ro⟩,
  ⟨0x30078, 0x0, 1, 8, .ro⟩,
  ⟨0x30080, 0x0, 1, 8, .ro⟩,
  ⟨0x30088, 0x0, 1, 8, .ro⟩,
  ⟨0x30090, 0x0, 1, 8, .ro⟩,
  ⟨0x30098, 0x0, 1, 8, .ro⟩,
  ⟨0x300A0, 0x0, 1, 4, .rw⟩]

/-- The COIL_ block (Table 23.2). -/
def regsCoil : List RegRow := [
  ⟨0x40000, 0x0, 1, 4, .ro⟩,
  ⟨0x40004, 0x0, 1, 4, .ro⟩,
  ⟨0x40008, 0x0, 1, 4, .ro⟩,
  ⟨0x4000C, 0x0, 1, 4, .ro⟩,
  ⟨0x40010, 0x0, 1, 4, .ro⟩,
  ⟨0x40014, 0x0, 1, 4, .ro⟩,
  ⟨0x40018, 0x0, 1, 4, .ro⟩,
  ⟨0x4001C, 0x0, 1, 4, .ro⟩,
  ⟨0x40020, 0x0, 1, 4, .rc⟩,
  ⟨0x40028, 0x0, 1, 8, .ro⟩,
  ⟨0x40030, 0x0, 1, 8, .ro⟩,
  ⟨0x40038, 0x0, 1, 8, .ro⟩,
  ⟨0x40040, 0x0, 1, 8, .ro⟩,
  ⟨0x40048, 0x0, 1, 8, .ro⟩,
  ⟨0x40050, 0x0, 1, 8, .ro⟩,
  ⟨0x41000, 0x20, 2048, 4, .ro⟩,
  ⟨0x41004, 0x20, 2048, 4, .ro⟩,
  ⟨0x41008, 0x20, 2048, 4, .ro⟩,
  ⟨0x4100C, 0x20, 2048, 4, .ro⟩,
  ⟨0x41010, 0x20, 2048, 8, .ro⟩,
  ⟨0x41018, 0x20, 2048, 8, .ro⟩,
  ⟨0x51000, 0x10, 2048, 4, .ro⟩,
  ⟨0x51004, 0x10, 2048, 4, .ro⟩,
  ⟨0x51008, 0x10, 2048, 4, .rc⟩,
  ⟨0x59000, 0x20, 256, 4, .ro⟩,
  ⟨0x59004, 0x20, 256, 4, .ro⟩,
  ⟨0x59008, 0x20, 256, 8, .ro⟩,
  ⟨0x59010, 0x20, 256, 8, .ro⟩]

/-- The SCHED_ block (Table 23.2). -/
def regsSched : List RegRow := [
  ⟨0x60000, 0x0, 1, 8, .ro⟩,
  ⟨0x60008, 0x0, 1, 8, .ro⟩,
  ⟨0x60010, 0x0, 1, 8, .ro⟩,
  ⟨0x60018, 0x0, 1, 8, .ro⟩,
  ⟨0x61000, 0x20, 2048, 4, .ro⟩,
  ⟨0x61004, 0x20, 2048, 4, .ro⟩,
  ⟨0x61008, 0x20, 2048, 8, .ro⟩,
  ⟨0x61010, 0x20, 2048, 8, .ro⟩,
  ⟨0x61018, 0x20, 2048, 4, .ro⟩,
  ⟨0x71000, 0x10, 4096, 8, .ro⟩,
  ⟨0x71008, 0x10, 4096, 4, .ro⟩,
  ⟨0x160000, 0x10, 262144, 8, .ro⟩,
  ⟨0x160008, 0x10, 262144, 8, .ro⟩]

/-- The LOG_ block (Table 23.2). -/
def regsLog : List RegRow := [
  ⟨0x560000, 0x0, 1, 4, .ro⟩,
  ⟨0x560004, 0x0, 1, 4, .ro⟩,
  ⟨0x560008, 0x0, 1, 8, .ro⟩,
  ⟨0x560010, 0x0, 1, 8, .ro⟩,
  ⟨0x560018, 0x0, 1, 8, .ro⟩,
  ⟨0x560020, 0x0, 1, 8, .ro⟩,
  ⟨0x560028, 0x0, 1, 8, .ro⟩,
  ⟨0x560030, 0x0, 1, 8, .ro⟩,
  ⟨0x560038, 0x0, 1, 8, .ro⟩,
  ⟨0x560040, 0x0, 1, 8, .ro⟩,
  ⟨0x560048, 0x0, 1, 8, .ro⟩,
  ⟨0x560050, 0x0, 1, 8, .ro⟩,
  ⟨0x561000, 0x20, 257, 8, .ro⟩,
  ⟨0x561008, 0x20, 257, 8, .ro⟩,
  ⟨0x561010, 0x20, 257, 8, .ro⟩,
  ⟨0x564000, 0x20, 256, 8, .ro⟩,
  ⟨0x564008, 0x20, 256, 8, .ro⟩,
  ⟨0x564010, 0x20, 256, 8, .ro⟩,
  ⟨0x660000, 0x8, 65792, 8, .ro⟩,
  ⟨0x760000, 0x8, 65536, 8, .ro⟩]

/-- The AUT_ block (Table 23.2). -/
def regsAut : List RegRow := [
  ⟨0xBE0000, 0x0, 1, 4, .ro⟩,
  ⟨0xBE0008, 0x0, 1, 8, .ro⟩,
  ⟨0xBE0010, 0x0, 1, 8, .ro⟩,
  ⟨0xBE0018, 0x0, 1, 8, .ro⟩,
  ⟨0xBE0020, 0x0, 1, 8, .ro⟩,
  ⟨0xBE0028, 0x0, 1, 8, .ro⟩,
  ⟨0xBE0030, 0x0, 1, 8, .ro⟩,
  ⟨0xBE0038, 0x0, 1, 8, .ro⟩,
  ⟨0xBE0040, 0x0, 1, 8, .ro⟩,
  ⟨0xBE0048, 0x0, 1, 8, .ro⟩,
  ⟨0xBE0050, 0x0, 1, 8, .ro⟩,
  ⟨0xBE0058, 0x0, 1, 8, .ro⟩,
  ⟨0xBE0060, 0x0, 1, 8, .ro⟩,
  ⟨0xBE0068, 0x0, 1, 8, .ro⟩,
  ⟨0xBE0070, 0x0, 1, 8, .ro⟩,
  ⟨0xBE0078, 0x0, 1, 8, .ro⟩,
  ⟨0xBE0080, 0x0, 1, 8, .ro⟩,
  ⟨0xBE0088, 0x0, 1, 8, .ro⟩,
  ⟨0xBE0090, 0x0, 1, 8, .ro⟩,
  ⟨0xBE0098, 0x0, 1, 8, .ro⟩,
  ⟨0xBE1000, 0x10, 64, 4, .ro⟩,
  ⟨0xBE1008, 0x10, 64, 8, .ro⟩]

/-- The BRD_ block (Table 23.2). -/
def regsBrd : List RegRow := [
  ⟨0xBF0000, 0x0, 1, 4, .ro⟩,
  ⟨0xBF0004, 0x0, 1, 4, .ro⟩,
  ⟨0xBF0008, 0x0, 1, 4, .ro⟩,
  ⟨0xBF0010, 0x0, 1, 8, .ro⟩,
  ⟨0xBF0018, 0x0, 1, 8, .ro⟩,
  ⟨0xBF0020, 0x0, 1, 8, .ro⟩,
  ⟨0xBF0028, 0x0, 1, 8, .ro⟩,
  ⟨0xBF0030, 0x0, 1, 8, .ro⟩,
  ⟨0xBF0038, 0x0, 1, 8, .ro⟩,
  ⟨0xBF0040, 0x0, 1, 8, .ro⟩,
  ⟨0xBF0048, 0x0, 1, 8, .ro⟩,
  ⟨0xBF0050, 0x0, 1, 8, .ro⟩,
  ⟨0xBF1000, 0x80, 256, 4, .ro⟩,
  ⟨0xBF1004, 0x80, 256, 4, .ro⟩,
  ⟨0xBF1008, 0x80, 256, 4, .ro⟩,
  ⟨0xBF1010, 0x80, 256, 8, .ro⟩,
  ⟨0xBF1018, 0x80, 256, 8, .ro⟩,
  ⟨0xBF1020, 0x80, 256, 8, .ro⟩,
  ⟨0xBF1028, 0x80, 256, 8, .ro⟩,
  ⟨0xBF1030, 0x80, 256, 8, .ro⟩,
  ⟨0xBF1038, 0x80, 256, 8, .rs⟩,
  ⟨0xBF1040, 0x80, 256, 8, .rs⟩,
  ⟨0xBF1048, 0x80, 256, 8, .rs⟩]

/-- The CAL_ block (Table 23.2). -/
def regsCal : List RegRow := [
  ⟨0x1000000, 0x0, 1, 4, .ro⟩,
  ⟨0x1000008, 0x0, 1, 8, .ro⟩,
  ⟨0x1000010, 0x0, 1, 8, .ro⟩,
  ⟨0x1000018, 0x0, 1, 8, .ro⟩,
  ⟨0x1000020, 0x0, 1, 8, .ro⟩,
  ⟨0x1000028, 0x0, 1, 8, .ro⟩,
  ⟨0x1000030, 0x0, 1, 8, .ro⟩,
  ⟨0x1000038, 0x0, 1, 8, .ro⟩,
  ⟨0x1001000, 0x10, 256, 4, .ro⟩,
  ⟨0x1001004, 0x10, 256, 4, .ro⟩,
  ⟨0x1001008, 0x10, 256, 8, .ro⟩,
  ⟨0x1002000, 0x10, 12, 4, .ro⟩,
  ⟨0x1002008, 0x10, 12, 8, .ro⟩]

/-- The CAP_ block (Table 23.2). -/
def regsCap : List RegRow := [
  ⟨0x1010000, 0x0, 1, 4, .ro⟩,
  ⟨0x1010004, 0x0, 1, 4, .ro⟩,
  ⟨0x1010008, 0x0, 1, 4, .ro⟩,
  ⟨0x101000C, 0x0, 1, 4, .ro⟩,
  ⟨0x1010010, 0x0, 1, 8, .ro⟩,
  ⟨0x1010018, 0x0, 1, 8, .ro⟩,
  ⟨0x1010020, 0x0, 1, 8, .ro⟩,
  ⟨0x1010028, 0x0, 1, 8, .ro⟩,
  ⟨0x1010030, 0x0, 1, 8, .ro⟩,
  ⟨0x1011000, 0x100, 32, 4, .ro⟩,
  ⟨0x1011008, 0x100, 32, 8, .ro⟩,
  ⟨0x1011010, 0x100, 32, 8, .ro⟩,
  ⟨0x1011018, 0x100, 32, 8, .ro⟩,
  ⟨0x1011020, 0x100, 32, 8, .ro⟩,
  ⟨0x1011028, 0x100, 32, 8, .ro⟩,
  ⟨0x1011030, 0x100, 32, 8, .ro⟩,
  ⟨0x1011038, 0x100, 32, 8, .ro⟩,
  ⟨0x1011040, 0x100, 32, 8, .ro⟩,
  ⟨0x1011048, 0x100, 32, 8, .ro⟩,
  ⟨0x1011050, 0x100, 32, 8, .ro⟩,
  ⟨0x1011058, 0x100, 32, 8, .ro⟩,
  ⟨0x1011060, 0x100, 32, 8, .ro⟩]

/-- The HIF_ block (Table 23.2). -/
def regsHif : List RegRow := [
  ⟨0x1020000, 0x0, 1, 4, .ro⟩,
  ⟨0x1020008, 0x0, 1, 8, .ro⟩,
  ⟨0x1020010, 0x0, 1, 8, .ro⟩,
  ⟨0x1020018, 0x0, 1, 8, .ro⟩,
  ⟨0x1020020, 0x0, 1, 8, .ro⟩,
  ⟨0x1020028, 0x0, 1, 8, .ro⟩,
  ⟨0x1020030, 0x0, 1, 8, .ro⟩,
  ⟨0x1020038, 0x0, 1, 8, .ro⟩,
  ⟨0x1020040, 0x0, 1, 8, .ro⟩,
  ⟨0x1020048, 0x0, 1, 8, .ro⟩,
  ⟨0x1020050, 0x0, 1, 8, .ro⟩,
  ⟨0x1020058, 0x0, 1, 8, .ro⟩,
  ⟨0x1120000, 0x20, 65536, 4, .ro⟩,
  ⟨0x1120004, 0x20, 65536, 4, .ro⟩,
  ⟨0x1120008, 0x20, 65536, 4, .ro⟩,
  ⟨0x112000C, 0x20, 65536, 4, .ro⟩,
  ⟨0x1120010, 0x20, 65536, 8, .ro⟩,
  ⟨0x1120018, 0x20, 65536, 8, .ro⟩]

/-- The SLC_ block (Table 23.2). -/
def regsSlc : List RegRow := [
  ⟨0x1320000, 0x0, 1, 4, .ro⟩,
  ⟨0x1320008, 0x0, 1, 8, .ro⟩,
  ⟨0x1320010, 0x0, 1, 8, .ro⟩,
  ⟨0x1320018, 0x0, 1, 8, .ro⟩,
  ⟨0x1320020, 0x0, 1, 8, .ro⟩,
  ⟨0x1320028, 0x0, 1, 8, .ro⟩,
  ⟨0x1320030, 0x0, 1, 8, .ro⟩,
  ⟨0x1320038, 0x0, 1, 8, .ro⟩,
  ⟨0x1321000, 0x80, 4096, 4, .ro⟩,
  ⟨0x1321004, 0x80, 4096, 4, .ro⟩,
  ⟨0x1321008, 0x80, 4096, 4, .ro⟩,
  ⟨0x132100C, 0x80, 4096, 4, .ro⟩,
  ⟨0x1321010, 0x80, 4096, 8, .ro⟩,
  ⟨0x1321018, 0x80, 4096, 4, .ro⟩,
  ⟨0x132101C, 0x80, 4096, 4, .ro⟩,
  ⟨0x1321020, 0x80, 4096, 8, .ro⟩,
  ⟨0x1321028, 0x80, 4096, 8, .ro⟩,
  ⟨0x1321030, 0x80, 4096, 8, .ro⟩,
  ⟨0x1321038, 0x80, 4096, 8, .ro⟩,
  ⟨0x1321040, 0x80, 4096, 8, .ro⟩,
  ⟨0x1321048, 0x80, 4096, 8, .ro⟩,
  ⟨0x1321050, 0x80, 4096, 8, .ro⟩,
  ⟨0x1321058, 0x80, 4096, 8, .ro⟩]

/-- The STO_ block (Table 23.2). -/
def regsSto : List RegRow := [
  ⟨0x13B0000, 0x0, 1, 4, .ro⟩,
  ⟨0x13B0004, 0x0, 1, 4, .ro⟩,
  ⟨0x13B0008, 0x0, 1, 8, .ro⟩,
  ⟨0x13B0010, 0x0, 1, 8, .ro⟩,
  ⟨0x13B0018, 0x0, 1, 8, .ro⟩,
  ⟨0x13B0020, 0x0, 1, 8, .ro⟩,
  ⟨0x13B0028, 0x0, 1, 8, .ro⟩,
  ⟨0x13B0030, 0x0, 1, 8, .ro⟩,
  ⟨0x13B0038, 0x0, 1, 8, .ro⟩,
  ⟨0x13B0040, 0x0, 1, 8, .ro⟩,
  ⟨0x13B0048, 0x0, 1, 8, .ro⟩,
  ⟨0x13B0050, 0x0, 1, 8, .ro⟩,
  ⟨0x13B1000, 0x20, 1024, 4, .ro⟩,
  ⟨0x13B1004, 0x20, 1024, 4, .ro⟩,
  ⟨0x13B1008, 0x20, 1024, 8, .ro⟩,
  ⟨0x13B1010, 0x20, 1024, 8, .ro⟩]

/-- The RDM_ block (Table 23.2). -/
def regsRdm : List RegRow := [
  ⟨0x13C0000, 0x0, 1, 4, .ro⟩,
  ⟨0x13C0004, 0x0, 1, 4, .ro⟩,
  ⟨0x13C0008, 0x0, 1, 4, .ro⟩,
  ⟨0x13C0010, 0x0, 1, 8, .ro⟩,
  ⟨0x13C0018, 0x0, 1, 8, .ro⟩,
  ⟨0x13C0020, 0x0, 1, 8, .ro⟩,
  ⟨0x13C0028, 0x0, 1, 8, .ro⟩,
  ⟨0x13C0030, 0x0, 1, 8, .ro⟩,
  ⟨0x13C0038, 0x0, 1, 8, .ro⟩,
  ⟨0x13C0040, 0x0, 1, 8, .ro⟩,
  ⟨0x13C0048, 0x0, 1, 8, .ro⟩,
  ⟨0x13C0050, 0x0, 1, 8, .ro⟩,
  ⟨0x13C0058, 0x0, 1, 8, .ro⟩,
  ⟨0x13C0060, 0x0, 1, 8, .ro⟩,
  ⟨0x13C0068, 0x0, 1, 8, .ro⟩,
  ⟨0x13C0070, 0x0, 1, 8, .ro⟩,
  ⟨0x14C0000, 0x20, 131072, 4, .ro⟩,
  ⟨0x14C0004, 0x20, 131072, 4, .ro⟩,
  ⟨0x14C0008, 0x20, 131072, 4, .ro⟩,
  ⟨0x14C000C, 0x20, 131072, 4, .ro⟩,
  ⟨0x14C0010, 0x20, 131072, 4, .ro⟩,
  ⟨0x14C0014, 0x20, 131072, 4, .ro⟩,
  ⟨0x14C0018, 0x20, 131072, 4, .ro⟩]

/-- The DMC_ block (Table 23.2). -/
def regsDmc : List RegRow := [
  ⟨0x18C0000, 0x0, 1, 4, .ro⟩,
  ⟨0x18C0004, 0x0, 1, 4, .ro⟩,
  ⟨0x18C0008, 0x0, 1, 8, .ro⟩,
  ⟨0x18C0010, 0x8, 5, 8, .ro⟩,
  ⟨0x18C0038, 0x0, 1, 8, .ro⟩,
  ⟨0x18C0040, 0x0, 1, 8, .ro⟩,
  ⟨0x18C0048, 0x0, 1, 8, .ro⟩,
  ⟨0x18C1000, 0x100, 12, 4, .ro⟩,
  ⟨0x18C1008, 0x100, 12, 8, .ro⟩,
  ⟨0x18C1010, 0x100, 12, 8, .ro⟩,
  ⟨0x18C1018, 0x100, 12, 8, .ro⟩,
  ⟨0x18C1020, 0x100, 12, 8, .ro⟩,
  ⟨0x18C1028, 0x100, 12, 8, .ro⟩,
  ⟨0x18C1030, 0x100, 12, 8, .ro⟩,
  ⟨0x18C1038, 0x100, 12, 8, .ro⟩,
  ⟨0x18C1040, 0x100, 12, 8, .ro⟩,
  ⟨0x18C1048, 0x100, 12, 8, .ro⟩,
  ⟨0x18C1050, 0x100, 12, 8, .ro⟩,
  ⟨0x18C1058, 0x100, 12, 8, .ro⟩,
  ⟨0x18C1060, 0x100, 12, 8, .ro⟩,
  ⟨0x18C1068, 0x100, 12, 8, .ro⟩,
  ⟨0x18C1070, 0x100, 12, 8, .ro⟩,
  ⟨0x18C3000, 0x20, 5, 8, .ro⟩,
  ⟨0x18C3008, 0x20, 5, 8, .ro⟩,
  ⟨0x18C3010, 0x20, 5, 8, .ro⟩]

/-- The SHE_ block (Table 23.2). -/
def regsShe : List RegRow := [
  ⟨0x18D0000, 0x0, 1, 4, .ro⟩,
  ⟨0x18D0004, 0x0, 1, 4, .rw1c⟩,
  ⟨0x18D0008, 0x0, 1, 8, .ro⟩,
  ⟨0x18D0010, 0x0, 1, 8, .ro⟩,
  ⟨0x18D0018, 0x0, 1, 8, .ro⟩,
  ⟨0x18D0020, 0x0, 1, 8, .ro⟩,
  ⟨0x18D0028, 0x0, 1, 8, .ro⟩,
  ⟨0x18D0030, 0x0, 1, 8, .ro⟩,
  ⟨0x18D0038, 0x0, 1, 8, .ro⟩,
  ⟨0x18D0040, 0x0, 1, 8, .ro⟩,
  ⟨0x18D0048, 0x0, 1, 8, .ro⟩,
  ⟨0x18D0050, 0x0, 1, 8, .ro⟩,
  ⟨0x18D0058, 0x0, 1, 8, .ro⟩,
  ⟨0x18D1000, 0x8, 256, 8, .ro⟩,
  ⟨0x18D2000, 0x40, 256, 4, .ro⟩,
  ⟨0x18D2008, 0x40, 256, 8, .ro⟩,
  ⟨0x18D2010, 0x40, 256, 8, .ro⟩,
  ⟨0x18D2018, 0x40, 256, 8, .ro⟩,
  ⟨0x18D2020, 0x40, 256, 8, .ro⟩,
  ⟨0x18D2028, 0x40, 256, 8, .ro⟩,
  ⟨0x18D8000, 0x10, 1024, 16, .ro⟩]

/-- The BOOT_ block (Table 23.2). -/
def regsBoot : List RegRow := [
  ⟨0x18E0000, 0x0, 1, 4, .ro⟩,
  ⟨0x18E0008, 0x0, 1, 8, .wo⟩,
  ⟨0x18E0010, 0x0, 1, 8, .ro⟩,
  ⟨0x18E0018, 0x0, 1, 8, .ro⟩,
  ⟨0x18E0020, 0x0, 1, 8, .ro⟩,
  ⟨0x18E0028, 0x0, 1, 8, .ro⟩,
  ⟨0x18E0030, 0x0, 1, 8, .ro⟩,
  ⟨0x18E0040, 0x0, 1, 48, .ro⟩,
  ⟨0x18E0080, 0x0, 1, 64, .ro⟩]

/-- The PWR_ block (Table 23.2). -/
def regsPwr : List RegRow := [
  ⟨0x18F0000, 0x0, 1, 4, .ro⟩,
  ⟨0x18F0004, 0x0, 1, 4, .rw1c⟩,
  ⟨0x18F0008, 0x0, 1, 4, .ro⟩,
  ⟨0x18F000C, 0x0, 1, 4, .ro⟩,
  ⟨0x18F0010, 0x0, 1, 8, .ro⟩,
  ⟨0x18F0018, 0x0, 1, 8, .ro⟩,
  ⟨0x18F0020, 0x0, 1, 8, .ro⟩,
  ⟨0x18F0028, 0x0, 1, 8, .ro⟩,
  ⟨0x18F0030, 0x0, 1, 8, .ro⟩,
  ⟨0x18F0038, 0x0, 1, 8, .ro⟩,
  ⟨0x18F0100, 0x4, 64, 4, .ro⟩,
  ⟨0x18F0200, 0x10, 9, 4, .ro⟩,
  ⟨0x18F0204, 0x10, 9, 4, .ro⟩,
  ⟨0x18F0208, 0x10, 9, 4, .ro⟩]

/-- Every register of the global window. -/
def regTable : List RegRow :=
  regsGlb ++ regsReel ++ regsLay ++ regsTbl ++ regsCoil ++ regsSched ++ regsLog ++ regsAut ++ regsBrd ++ regsCal ++ regsCap ++ regsHif ++ regsSlc ++ regsSto ++ regsRdm ++ regsDmc ++ regsShe ++ regsBoot ++ regsPwr

/-- The element of an array of registers that an offset falls in, and the offset within it. -/
def RegRow.element (r : RegRow) (off : Nat) : Option (Nat × Nat) :=
  if off < r.base then none
  else
    let i := if r.stride = 0 then 0 else (off - r.base) / r.stride
    let x := off - r.base - r.stride * i
    if i < r.count ∧ x < r.size then some (i, x) else none

/-- The register an offset falls in: its row, its element, and the byte within it (R631: none in a gap). -/
def regAt (off : Nat) : Option (RegRow × Nat × Nat) :=
  regTable.findSome? fun r => (r.element off).map fun e => (r, e.1, e.2)

/-- Bases and apertures of the blocks, by SNAP bit (Table 23.2). -/
def blockBases : List (Nat × Nat) := [
  (0x0, 0x10000),
  (0x10000, 0x10000),
  (0x20000, 0x10000),
  (0x30000, 0x10000),
  (0x40000, 0x20000),
  (0x60000, 0x500000),
  (0x560000, 0x680000),
  (0xBE0000, 0x10000),
  (0xBF0000, 0x410000),
  (0x1000000, 0x10000),
  (0x1010000, 0x10000),
  (0x1020000, 0x300000),
  (0x1320000, 0x90000),
  (0x13B0000, 0x10000),
  (0x13C0000, 0x500000),
  (0x18C0000, 0x10000),
  (0x18D0000, 0x10000),
  (0x18E0000, 0x10000),
  (0x18F0000, 0x10000)]

end Sys2Proof.Machine
end

