-- ==== Sys2Proof/Machine/Queue.lean ====
section
/-! DEFINITION. Queue pairs: completions, messages, event delivery (14_host_queues.md), and the splice log that the
SPLICE_LOG event source reads (R152 to R154). -/
namespace Sys2Proof.Machine

/-! ## Access to queue pairs and functions -/

/-- The queue pair numbered q. -/
def Dev.qp (d : Dev) (q : Nat) : Qp := Map.getD d.hif.qps q {}

/-- Change queue pair q. -/
def Dev.onQp (q : Nat) (f : Qp → Qp) (d : Dev) : Dev :=
  { d with hif := { d.hif with qps := Map.modify d.hif.qps q {} f } }

/-- The function of a number 8 port + function. -/
def Dev.fn (d : Dev) (k : Nat) : Fn := Map.getD d.hif.fns k {}

/-- Change a function. -/
def Dev.onFn (k : Nat) (f : Fn → Fn) (d : Dev) : Dev :=
  { d with hif := { d.hif with fns := Map.modify d.hif.fns k {} f } }

/-- Change a host port. -/
def Dev.onHp (n : Nat) (f : HostPort → HostPort) (d : Dev) : Dev :=
  { d with hif := { d.hif with ports := Map.modify d.hif.ports n {} f } }

/-- The host port numbered n. -/
def Dev.hp (d : Dev) (n : Nat) : HostPort := Map.getD d.hif.ports n {}

/-- The number of a queue pair's function. -/
def Qp.fnKey (q : Qp) : Nat := 8 * q.port + q.fn

/-- A queue pair's function is in D0 with its link in L0 or L1, or its owner is a capstan (R441, R448). -/
def Dev.reachable (d : Dev) (q : Qp) : Bool :=
  q.capstan || (!(d.fn q.fnKey).d3 && (d.hp q.port).link != .down && !(d.hp q.port).perst)

/-! ## Slices (R450, R455, R460, R465) -/

/-- Slice s, if it is enabled. -/
def Dev.slice (d : Dev) (s : Nat) : Option Slice := Map.find d.slc s

/-- Change an enabled slice. -/
def Dev.onSlice (s : Nat) (f : Slice → Slice) (d : Dev) : Dev :=
  match d.slice s with
  | some x => { d with slc := Map.put d.slc s (f x) }
  | none => d

/-- The current generation of a slice; 0 when disabled. -/
def Dev.sliceGen (d : Dev) (s : Nat) : Nat := ((d.slice s).map (·.gen)).getD 0

/-- The first bucket of a queue kind's service: NET, STORE, CRYPTO or OTHER, reads (Table 15.2, R465). -/
def kindBucket (kind : Nat) : Nat := if kind ≤ 1 then 0 else if kind = 2 then 2 else if kind = 3 then 4 else 6

/-- A bucket with rate 0 is never debited or tested (R465). -/
def Slice.limits (x : Slice) (b : Nat) : Bool := ((x.cfg.rates[b]?).getD (0, 0)).1 != 0

/-- A transfer of n bytes for a slice debits its bucket (R465). -/
def Dev.debitSlice (s b n : Nat) : Dev → Dev :=
  Dev.onSlice s fun x => if x.limits b then { x with levels := Map.modify x.levels b {} fun k => { k with level := k.level - n } } else x

/-- The PASID a slice's accesses carry, as 2^20 + PASID, or 0 (R431, R455). -/
def Dev.pasidOf (d : Dev) (s : Nat) : Nat := (((d.slice s).bind (·.pasid)).map (2 ^ 20 + ·)).getD 0

/-- Bytes written to memory of a queue pair's owner: its queue pair, the address, the PASID (R431, R455, R465). A capstan owner's goes to its physical memory (R395); a host write is discarded while the outputs are gated (R580). -/
def Dev.ownerWrite (q addr : Nat) (bytes : List Byte) (d : Dev) : Dev :=
  let x := d.qp q
  if d.boot.gated && !x.capstan then d.bump Reg.bootGatedWrites
  else
    let d := (d.debitSlice x.slice (kindBucket x.kind + 1) bytes.length).send .hostWrite [q, addr, d.pasidOf x.slice] bytes
    if x.capstan then d.physWrite addr bytes else d

/-! ## Tags (R41) -/

/-- The tag service of a queue kind (Table 14.2): 0 storage, 1 RDMA, 2 lookaside, 3 host DMA. -/
def tagService (kind : Nat) : Nat := if kind = 2 then 0 else if kind = 3 then 2 else 3

/-- Tags of the shared 49,152 in use: what each service holds beyond its reserve of 4,096 (R41). -/
def Dev.sharedTags (d : Dev) : Nat :=
  ((List.range 4).map fun s => Map.getD d.hif.tags s 0 - 4096).sum

/-- Who waits for a tag beside the queue pairs: the logline archive and the RDMA responder. -/
def archiveWaits : Nat := 65536
/-- The RDMA responder's READ requests. -/
def rdmaWaits : Nat := 65537

/-- The service a waiting requester takes its tags from. -/
def Dev.waitService (w : Nat) (d : Dev) : Nat := if w = archiveWaits then 0 else if w = rdmaWaits then 1 else tagService (d.qp w).kind

/-- A requester noted as waiting still waits for a shared tag (R41): it has a request, and no tag of its service's reserve is free. -/
def Dev.stillWaits (w : Nat) (d : Dev) : Bool :=
  (if w = archiveWaits then d.log.pages != [] else if w = rdmaWaits then d.rdm.rx != []
    else (d.qp w).st == .active && (d.qp w).fetched < (d.qp w).prod)
    && 4096 ≤ Map.getD d.hif.tags (d.waitService w) 0

/-- Tags a requester may take of a service (R41): those of the reserve, and the shared ones, which go in order of request. -/
def Dev.tagsFor (d : Dev) (w s : Nat) : Nat :=
  let first := match d.hif.tagWait.find? fun x => d.stillWaits x with | some x => x == w | none => true
  (4096 - Map.getD d.hif.tags s 0) + (if first then 49152 - d.sharedTags else 0)

/-- A wait for a tag is counted once (R41). -/
def Dev.tagWait (w : Nat) (d : Dev) : Dev :=
  if d.hif.tagWait.contains w then d else ({ d with hif := { d.hif with tagWait := d.hif.tagWait ++ [w] } } : Dev).bump Reg.glbTagWait

/-- A requester has its tag. -/
def Dev.tagTaken (w : Nat) (d : Dev) : Dev := { d with hif := { d.hif with tagWait := d.hif.tagWait.filter (· != w) } }

/-- Take n tags of a service. -/
def Dev.takeTags (s n : Nat) (d : Dev) : Dev :=
  { d with hif := { d.hif with tags := Map.modify d.hif.tags s 0 (· + n) } }

/-- Return n tags of a service. -/
def Dev.freeTags (s n : Nat) (d : Dev) : Dev :=
  { d with hif := { d.hif with tags := Map.modify d.hif.tags s 0 (· - n) } }

/-! ## Completions (R428 to R430) -/

/-- The descriptor of queue pair q with a number, among those fetched. -/
def Dev.desc (d : Dev) (q id : Nat) : Option Desc := (d.qp q).descs.find? (·.id == id)

/-- The first descriptor of a queue pair not yet handed to its service. -/
def Qp.nextDesc (q : Qp) : Option Desc := q.descs.find? fun x => !x.started

/-- Mark a fetched descriptor as handed to its service. -/
def Dev.startDesc (q id : Nat) : Dev → Dev :=
  Dev.onQp q fun x => { x with descs := x.descs.map fun e => if e.id = id then { e with started := true } else e }

/-- The work of a fetched descriptor has ended: its completion waits to be written (R428, R437). -/
def Dev.complete (q id status : Nat) (dws : List Nat) (d : Dev) : Dev :=
  match d.desc q id with
  | none => d
  | some e =>
    if e.done then d
    else
      d.onQp q fun x => { x with
        descs := x.descs.map fun y => if y.id = id then { y with started := true, done := true } else y
        held := x.held ++ [{ tag := field e.bytes 2 2, status, gen := e.gen, dws, desc := some id }] }

/-- The 32 bytes of a completion (R428). -/
def Cpl.bytes (c : Cpl) (fetched : Nat) (phase : Bool) : List Byte :=
  le 4 (c.tag % 65536 + c.status % 256 * 65536 + c.gen % 256 * 2 ^ 24)
    ++ ((c.dws ++ List.replicate 6 0).take 6).flatMap (le 4)
    ++ le 4 (fetched % 65536 + ofBit phase * 2 ^ 31)

/-- Send the message of a due vector, or set its pending bit (R446 to R448). -/
def Dev.message (q : Nat) (d : Dev) : Dev :=
  let x := d.qp q
  let sent (d : Dev) : Dev :=
    (d.onQp q fun x => { x with unsig := 0, timerAt := none, due := false }).bump (Reg.hifQpMsg q)
  if x.capstan then sent (d.send .capInterrupt [x.lidx, q] [])
  else
    let f := d.fn x.fnKey
    let pendIt (d : Dev) : Dev :=
      (d.onFn x.fnKey fun f => { f with pend := if f.pend.contains x.lidx then f.pend else f.pend ++ [x.lidx] }).onQp q
        fun x => { x with due := true }
    if f.d3 then
      let d := pendIt d
      if f.pmeSent then d
      else ((d.onFn x.fnKey fun f => { f with pmeSent := true }).send .pme [x.port, x.fn] []).bump Reg.hifPmeSent
    else if f.masked.contains x.lidx then pendIt d
    else if (d.hp x.port).link = .down then pendIt d
    else
      let d := d.onHp x.port fun h => if h.link = .l1 then { h with link := .l0 } else h
      let d := d.onFn x.fnKey fun f => { f with pend := f.pend.filter (· != x.lidx) }
      sent (if d.boot.gated then d.bump Reg.bootGatedWrites else d.send .msix [x.port, x.fn, x.lidx] [])

/-- A queue pair with nothing outstanding leaves QUIESCING or ABORTING for IDLE (Table 14.10). -/
def Qp.settle (x : Qp) : Qp :=
  if (x.st = .quiescing ∨ (x.st = .aborting ∧ !x.reset)) ∧ x.descs = [] ∧ x.held = [] then { x with st := .idle } else x

/-- A store command whose completion has been written or discarded is gone (R474). -/
def Dev.dropCmd (q : Nat) (desc : Option Nat) (d : Dev) : Dev :=
  { d with sto := { d.sto with cmds := d.sto.cmds.filter fun c => !(c.q == some q && some c.desc == desc) } }

/-- A completion that is never written: its tag is free, its descriptor gone. -/
def Dev.discardCpl (q : Nat) (c : Cpl) (rest : List Cpl) (d : Dev) : Dev :=
  let x := d.qp q
  let d := if c.desc.isSome then d.freeTags (tagService x.kind) 1 else d
  (d.onQp q fun x => Qp.settle { x with held := rest, descs := x.descs.filter fun e => some e.id != c.desc }).dropCmd q c.desc

/-- The completion to write next and those behind it: the oldest; in ABORTING the one of the earliest descriptor fetched, then those of descriptors never fetched (R443). -/
def Qp.nextHeld (x : Qp) : Option (Cpl × List Cpl) :=
  match x.held with
  | [] => none
  | c :: rest =>
    if x.st != .aborting then some (c, rest)
    else
      let want := x.descs.head?.map (·.id)
      (x.held.find? fun c => c.desc == want).map fun c => (c, x.held.erase c)

/-- Write the next held completion of a queue pair into its ring (R429, R430, R437, R446), or count the wait for a slot; one of an old generation of the slice is discarded (R462), as is one of a queue pair reset since (R445). -/
def Dev.writeCompletion (q : Nat) (d : Dev) : Dev :=
  let x := d.qp q
  match x.nextHeld with
  | none => d
  | some (c, rest) =>
    if c.gen != d.sliceGen x.slice then (d.discardCpl q c rest).bump Reg.slcLateDiscard
    else if x.st = .disabled ∨ x.st = .idle then d.discardCpl q c rest
    else if x.reset ∨ !d.reachable x then d
    else if x.cqDepth ≤ x.cqWr - x.cqHead then
      if x.waited then d else (d.onQp q fun x => { x with waited := true }).bump Reg.hifCqWait
    else
      let phase := x.cqWr / x.cqDepth % 2 = 0
      let d := d.ownerWrite q (x.cqBase + 32 * (x.cqWr % x.cqDepth)) (c.bytes x.fetched phase)
      let d := if c.desc.isSome then d.freeTags (tagService x.kind) 1 else d
      let d := (d.bump (Reg.hifQpDesc q)).dropCmd q c.desc
      let unsig := x.unsig + 1
      let d := d.onQp q fun x => Qp.settle { x with
        held := rest
        descs := x.descs.filter fun e => some e.id != c.desc
        cqWr := x.cqWr + 1
        waited := false
        unsig
        timerAt := x.timerAt.or (if x.modTimer = 0 then none else some (d.turn + x.modTimer)) }
      if x.modTimer = 0 ∨ x.modCount ≤ unsig then d.message q else d

/-! ## Events (R440, R441) -/

/-- An event with its 8-byte header, padded to a multiple of 8 (R440). -/
def eventBytes (code : Nat) (body : List Byte) : List Byte :=
  let n := 8 + body.length
  padTo (ceilDiv n 8 * 8) (le 2 n ++ le 1 code ++ le 5 0 ++ body)

/-- Outcome of offering an event to a queue pair's buffers. -/
inductive Took where
  | packed (addr : Nat) | oversize | full
  deriving DecidableEq, Repr

/-- Offer an event of n bytes to the oldest buffer: buffers that close, buffers left, outcome (R440, R441). -/
def packInto (n turn : Nat) : List Buf → List Buf × List Buf × Took
  | [] => ([], [], .full)
  | b :: t =>
    if b.used + n ≤ b.len then
      ([], { b with used := b.used + n, count := b.count + 1, first := b.first.or (some turn) } :: t, .packed (b.addr + b.used))
    else if b.used = 0 then ([], b :: t, .oversize)
    else
      let r := packInto n turn t
      (b :: r.1, r.2.1, r.2.2)

/-- An event buffer closes: its completion carries the bytes used and the events (Table 14.6). -/
def Dev.closeBuf (q : Nat) (b : Buf) (d : Dev) : Dev := d.complete q b.desc 0x00 [b.used, b.count]

/-- Offer an event to one queue pair; the answer says whether it was left without room. A buffer it does not fit in closes either way (R441). -/
def Dev.offer (q : Nat) (ev : List Byte) (d : Dev) : Dev × Bool :=
  let r := packInto ev.length d.turn (d.qp q).bufs
  match r.2.2 with
  | .packed a =>
    ((r.1.foldl (fun d b => d.closeBuf q b) (d.onQp q fun x => { x with bufs := r.2.1 })).ownerWrite q a ev, false)
  | .oversize =>
    ((r.1.foldl (fun d b => d.closeBuf q b) (d.onQp q fun x => { x with bufs := r.2.1 })).bump Reg.hifEvtOversize, false)
  | .full =>
    if r.1 = [] then (d, true)
    else (r.1.foldl (fun d b => d.closeBuf q b) (d.onQp q fun x => { x with bufs := r.2.1 }), true)

/-- Whether a queue pair subscribes to a source (Table 14.4, Table 14.9); sources 1 to 3 also select lays. -/
def Qp.subscribes (x : Qp) (src lay : Nat) : Bool :=
  x.kind = 5 && x.st != .disabled && bit x.word5.toNat src && (src = 0 || src = 4 || bit x.word5.toNat (32 + lay))

/-- The queue pairs that subscribe to a source. -/
def Dev.subscribers (d : Dev) (src lay : Nat) : List Nat :=
  Map.keysWhere d.hif.qps fun _ x => x.subscribes src lay

/-- A queue that can be waited for: ACTIVE, in D0 with its link up (R441). -/
def Dev.waitable (d : Dev) (q : Nat) : Bool := (d.qp q).st = .active && d.reachable (d.qp q)

/-- Emit an event of a discarding source: every subscribed queue takes a copy, misses it, or drops it (R440, R441). The answer says whether one had no room. -/
def Dev.emit (src lay : Nat) (body : List Byte) (d : Dev) : Dev × Bool :=
  (d.subscribers src lay).foldl
    (fun (a : Dev × Bool) q =>
      if a.1.waitable q then
        let r := a.1.offer q (eventBytes (src + 1) body)
        (r.1, a.2 || r.2)
      else (a.1.bump Reg.hifEvtMiss, a.2))
    (d, false)

/-- Whether a queue pair has room for an event, or would discard it as oversize. -/
def Dev.hasRoom (d : Dev) (n q : Nat) : Bool :=
  match (packInto n d.turn (d.qp q).bufs).2.2 with
  | .full => false
  | _ => true

/-! ## The splice log (R152 to R154) -/

/-- The 32 bytes of a record (Table 4.8). -/
def LogRec.bytes (r : LogRec) : List Byte :=
  le 8 r.time ++ le 2 (r.who % 4096 + r.kind % 4 * 4096) ++ le 1 r.op ++ le 1 r.status ++ le 4 r.seq ++ le 2 r.idx
    ++ le 2 r.qp ++ le 4 r.shade ++ le 8 r.digest.toNat

/-- Records appended since reset (Table 4.10). -/
def Dev.logHead (d : Dev) : Nat := (d.count Reg.glbSpliceLogHead).toNat

/-- The records the log holds, oldest first: the DRAM ring and, behind it, the staging ring (R153). -/
def Splice.log (s : Splice) : List LogRec := s.ring ++ s.stage

/-- Records move in order from the staging ring of 8,192 to the DRAM ring of 1,048,576 once DRAM is ready (R153). -/
def Dev.moveLog (d : Dev) : Dev :=
  let n := if d.dmc.ready then 1048576 - d.spl.ring.length else 0
  { d with spl := { d.spl with ring := d.spl.ring ++ d.spl.stage.take n, stage := d.spl.stage.drop n } }

/-- Hand one queue the next record it has not taken, if it has room; one that DRAM has lost is passed by (R534). -/
def Dev.logTake1 (q : Nat) (d : Dev) : Dev :=
  let tail := d.logHead - d.spl.log.length
  let pos := (d.qp q).logPos
  match d.spl.log[pos - tail]? with
  | none => d
  | some r =>
    let next (d : Dev) : Dev := d.onQp q fun x => { x with logPos := pos + 1 }
    if r.lost then next d
    else
    let a := d.offer q (eventBytes 1 r.bytes)
    if a.2 then a.1 else next a.1

/-- Hand every waitable subscriber what it has room for, drop what every one of them has taken, and move the rest on (R153, R154). -/
def Dev.pumpLog (d : Dev) : Dev :=
  let qs := (d.subscribers 0 0).filter d.waitable
  let d := qs.foldl (fun d q => (List.range d.spl.log.length).foldl (fun d _ => d.logTake1 q) d) d
  let head := d.logHead
  let low := qs.foldl (fun m q => min m (d.qp q).logPos) head
  let n := low - (head - d.spl.log.length)
  ({ d with spl := { d.spl with ring := d.spl.ring.drop n, stage := d.spl.stage.drop (n - d.spl.ring.length) } } : Dev).moveLog

/-- Records the staging ring has room for, with what can move on to the DRAM ring once DRAM is ready (R153). -/
def Dev.room (d : Dev) : Nat := 8192 - d.spl.stage.length + (if d.dmc.ready then 1048576 - d.spl.ring.length else 0)

/-- Append a record: subscribers that are not waitable miss it (R441), the others take it when they have room. -/
def Dev.append (r : LogRec) (d : Dev) : Dev :=
  let missed := (d.subscribers 0 0).filter fun q => !d.waitable q
  let d : Dev := { d with spl := { d.spl with stage := d.spl.stage ++ [r] } }
  let d := d.bump Reg.glbSpliceLogHead
  let head := d.logHead
  let d := missed.foldl (fun d q => (d.bump Reg.hifEvtMiss).onQp q fun x => { x with logPos := head }) d
  d.pumpLog

end Sys2Proof.Machine
end

