-- ==== Sys2Proof/Machine/Coil.lean ====
section
/-! DEFINITION. Ports and the coil: port constants (Table 5.1), accounts, headroom, back-pressure (07_coil.md). -/
namespace Sys2Proof.Machine

/-! ## Braid headers and control messages (Table 11.2, Table 11.3) -/

/-- CRC-8 with polynomial 0x07 and initial value 0 (Table 11.2). -/
def crc8 (bs : List Byte) : Nat :=
  bs.foldl (fun c b => (List.range 8).foldl
    (fun c _ => if 128 ≤ c then (2 * c) % 256 ^^^ 0x07 else 2 * c) (c ^^^ b.toNat)) 0

/-- The 16 bytes of a braid header, most significant byte first (Table 11.2, Table 11.3). -/
def braidHeader (kind : Nat) (h : BraidHdr) (word1 : Nat) : List Byte :=
  let w0 := kind * 2 ^ 60 + h.cls % 8 * 2 ^ 57 + ofBit h.knotIn * 2 ^ 56 + h.dest % 2 ^ 24 * 2 ^ 32
    + h.src % 2 ^ 24 * 2 ^ 8 + h.epoch % 4 * 64 + h.ttl % 64
  let bs := be 8 w0 ++ be 7 word1
  bs ++ be 1 (crc8 bs)

/-- A DATA header carries HASH and ORIG in word 1 (Table 11.3). -/
def dataHeader (h : BraidHdr) : List Byte := braidHeader 0 h (h.hash % 2 ^ 32 * 2 ^ 24 + h.orig % 2 ^ 24)

/-- Send a control message on a link with a given origin: kind, destination, body; it ends with a CRC-32 (R339, R340). -/
def Dev.controlFrom (p kind src dest word1 : Nat) (body : List Byte) (d : Dev) : Dev :=
  let bs := braidHeader kind { cls := 0, knotIn := false, dest, src, epoch := 0, ttl := 63, hash := 0, orig := 0 } word1 ++ body
  d.sendGated .braidControl [p, kind] (bs ++ le 4 (crc32 bs))

/-- Send a control message of this node on a link (R339, R340). -/
def Dev.control (p kind dest word1 : Nat) (body : List Byte) (d : Dev) : Dev := d.controlFrom p kind d.brd.node dest word1 body

/-! ## Ports -/

/-- The port numbered p, an absent one reading as not configured. -/
def Dev.port (d : Dev) (p : Nat) : Port := Map.getD d.path.ports p {}

/-- Change port p. -/
def Dev.onPort (p : Nat) (f : Port → Port) (d : Dev) : Dev :=
  { d with path := { d.path with ports := Map.modify d.path.ports p {} f } }

/-- Change the packet-path state. -/
def Dev.onPath (f : Path → Path) (d : Dev) : Dev := { d with path := f d.path }

/-- A port's speed in Gb/s (Table 5.1): lanes times the lane rate. -/
def Port.speed (c : Port) : Nat := c.lanes * (200 / 2 ^ c.rate)

/-- Pclk a frame of n bytes takes on a port, rounded up (R175). -/
def Port.wirePclk (f : Port) (n : Nat) : Nat := if f.speed = 0 then 0 else ceilDiv (96 * n) (5 * f.speed)

/-- L_rx and L_tx of a lane count, lane rate code and FEC code (Table 5.1). -/
def portConst (lanes rate fec : Nat) : Option (Nat × Nat) :=
  match lanes, rate, fec with
  | 8, 0, 0 => some (400, 172)
  | 4, 0, 0 => some (420, 180)
  | 8, 1, 0 => some (436, 180)
  | 2, 0, 0 => some (460, 196)
  | 4, 1, 0 => some (472, 196)
  | 8, 2, 0 => some (500, 196)
  | 1, 0, 0 => some (540, 228)
  | 2, 1, 0 => some (552, 228)
  | 4, 2, 0 => some (580, 228)
  | 8, 3, 1 => some (610, 228)
  | 8, 3, 2 => some (530, 212)
  | 1, 1, 0 => some (712, 292)
  | 2, 2, 0 => some (740, 292)
  | 4, 3, 1 => some (780, 292)
  | 4, 3, 2 => some (700, 276)
  | 1, 2, 0 => some (1060, 420)
  | 2, 3, 1 => some (1100, 420)
  | 2, 3, 2 => some (1020, 404)
  | 1, 3, 1 => some (1640, 676)
  | 1, 3, 2 => some (1560, 660)
  | _, _, _ => none

/-- L_rx of a port (R158). -/
def Port.lRx (c : Port) : Nat := ((portConst c.lanes c.rate c.fec).getD (0, 0)).1

/-- L_tx of a port (R158). -/
def Port.lTx (c : Port) : Nat := ((portConst c.lanes c.rate c.fec).getD (0, 0)).2

/-- A fence of a kind and target stands (R149). -/
def Dev.fenced (d : Dev) (kind target : Nat) : Bool := d.spl.fences.contains (kind, target)

/-- A port that carries frames: enabled, its link up, and not under the removal of R252. -/
def Dev.portUp (d : Dev) (p : Nat) : Bool := (d.port p).enable && (d.port p).link && !(d.port p).removing

/-- A port that copies may be linked to (R169, R171, R252, R254). -/
def Dev.portTakes (d : Dev) (p : Nat) : Bool := d.portUp p && !d.fenced 0 p

/-- The live shade indexes (R177). -/
def Dev.live (d : Dev) : List Nat := (List.range 4).filter fun n => (Map.getD d.shd n {}).st != .free

/-- The shade at an index. -/
def Dev.shade (d : Dev) (n : Nat) : Shade := Map.getD d.shd n {}

/-- Change the shade at an index. -/
def Dev.onShade (n : Nat) (f : Shade → Shade) (d : Dev) : Dev := { d with shd := Map.modify d.shd n {} f }

/-- The index of the CURRENT shade (R177). -/
def Dev.current (d : Dev) : Nat := ((List.range 4).find? fun n => (d.shade n).st == .current).getD 0

/-- The program set a shade holds for a lay (R81). -/
def Dev.progSet (d : Dev) (shade lay : Nat) : ProgSet := Map.getD (d.shade shade).sets lay {}

/-- The largest envelope of a direction over the live shades on a lay (R237, R263). -/
def Dev.eMax (d : Dev) (lay : Nat) (side : ProgSet → Option Entry) : Nat :=
  (d.live.map fun n => ((side (d.progSet n lay)).map (·.e)).getD 0).foldl max 0

/-! ## Accounts (R230) -/

/-- Account numbers: arrival of a port, ingress of (port, class), injection. -/
def arrAcct (p : Nat) : Nat := p
/-- The ingress account of a port and class. -/
def ingAcct (p c : Nat) : Nat := 256 + 8 * p + c
/-- The injection account. -/
def injAcct : Nat := 4096

/-- The account numbered k. -/
def Dev.acct (d : Dev) (k : Nat) : Acct := Map.getD d.path.accts k {}

/-- Change account k. -/
def Dev.onAcct (k : Nat) (f : Acct → Acct) (d : Dev) : Dev :=
  d.onPath fun p => { p with accts := Map.modify p.accts k {} f }

/-- Cells an account holds in all tiers (Table 7.9). -/
def Acct.held (a : Acct) : Nat := a.res + a.shared + a.hr + a.past

/-- Sum of all reservations (R241): every minimum, reserve and headroom, and the overdraft. -/
def Dev.reserved (d : Dev) : Nat := (d.path.accts.map fun e => e.2.rsv + e.2.h).sum + 16384

/-- The shared pool: cells no reservation holds (R230). -/
def Dev.poolSize (d : Dev) : Nat := 1048576 - d.reserved

/-- Free cells of the pool. -/
def Dev.poolFree (d : Dev) : Nat := d.poolSize - (d.path.accts.map (·.2.shared)).sum

/-- Overdraft cells held. -/
def Dev.overUsed (d : Dev) : Nat := (d.path.accts.map (·.2.past)).sum

/-- Cells in use. -/
def Dev.cellsUsed (d : Dev) : Nat := (d.path.accts.map (·.2.held)).sum

/-- An ingress account is lossless (R232). -/
def Dev.lossless (d : Dev) (p c : Nat) : Bool := (d.port p).braid || bit (d.port p).pfc c || (d.port p).pause

/-- A port with a lossless ingress account (Table 7.1). -/
def Dev.anyLossless (d : Dev) (p : Nat) : Bool := (d.port p).braid || (d.port p).pfc != 0 || (d.port p).pause

/-- An account may draw on the overdraft (Table 7.1). -/
def Dev.stops (d : Dev) (k : Nat) : Bool :=
  if k < 256 then d.anyLossless k else if k < 2304 then d.lossless ((k - 256) / 8) ((k - 256) % 8) else false

/-- The port of an account. -/
def acctPort (k : Nat) : Nat := if k < 256 then k else (k - 256) / 8

/-- The pause or PFC frame of an account with quanta (Table 7.5): class vector 0 stands for 802.3x. A port that is down or under a removal transmits none (R252). -/
def Dev.sendPause (k quanta : Nat) (d : Dev) : Dev :=
  let p := acctPort k
  let c := d.port p
  if c.braid || !d.portUp p then d
  else if c.pfc != 0 then
    let v := if k < 256 then c.pfc else 2 ^ ((k - 256) % 8)
    d.sendGated .macControl [p, 0x0101, v, quanta] []
  else if c.pause then d.sendGated .macControl [p, 0x0001, 0, quanta] []
  else d

/-- The receiving side of a braid link grants the sender cells of a class (R244, R355). -/
def Dev.grant (p c n : Nat) (d : Dev) : Dev :=
  { d with brd := { d.brd with links := Map.modify d.brd.links p {} fun l =>
      { l with myGrant := Map.modify l.myGrant c 0 fun g => (g + n) % 2 ^ 32 } } }

/-- The CREDIT message of a link (Table 11.7). -/
def Dev.sendCredit (p : Nat) (d : Dev) : Dev :=
  let l := Map.getD d.brd.links p {}
  let xo := ((List.range 8).map fun c => ofBit (d.acct (ingAcct p c)).xoff * 2 ^ c).sum
  d.control p 1 0xFFFFFF 0 ((List.range 8).flatMap (fun c => le 4 (Map.getD l.myGrant c 0)) ++ le 8 l.rxUp
    ++ le 4 (xo + ofBit (d.acct (arrAcct p)).xoff * 256))

/-- Return n credits of an account, less those a lowered H still takes back (R244, R357). -/
def Dev.giveCredits (k n : Nat) (d : Dev) : Dev :=
  let debt := (d.acct k).debt
  (d.onAcct k fun a => { a with debt := debt - n }).grant (acctPort k) ((k - 256) % 8) (n - debt)

/-- The credit of a cell charged to a braid ingress account: returned, or withheld while it or the link's arrival account is in XOFF (R244, R357). -/
def Dev.creditBack (k : Nat) (d : Dev) : Dev :=
  if k < 256 ∨ 2304 ≤ k ∨ !(d.port (acctPort k)).braid then d
  else if (d.acct k).xoff ∨ (d.acct (acctPort k)).xoff then d.onAcct k fun a => { a with withheld := a.withheld + 1 }
  else d.giveCredits k 1

/-- An arrival or lossless ingress account enters XOFF (R242, R243). -/
def Dev.enterXoff (k : Nat) (d : Dev) : Dev :=
  if (d.acct k).xoff || (256 ≤ k && !d.stops k) then d
  else
    let d := d.onAcct k fun a => { a with xoff := true, xTurns := 0 }
    let d := d.bump (if k < 256 then Reg.coilArrXoff k else Reg.coilIngXoff (k - 256))
    d.sendPause k 0xFFFF

/-- The classes of a port whose ingress accounts are in XOFF. -/
def Dev.xoffClasses (d : Dev) (p : Nat) : Nat := ((List.range 8).map fun c => ofBit (d.acct (ingAcct p c)).xoff * 2 ^ c).sum

/-- The XON frame of an account (R243, Table 7.5): quanta 0 for the classes, or the port, that no other account holds in XOFF. -/
def Dev.sendXon (k : Nat) (d : Dev) : Dev :=
  let p := acctPort k
  let f := d.port p
  if (d.acct p).xoff || !d.portUp p then d
  else if f.pfc != 0 then
    let v := (if k < 256 then f.pfc else 2 ^ ((k - 256) % 8)) &&& (255 - d.xoffClasses p)
    if v = 0 then d else d.sendGated .macControl [p, 0x0101, v, 0] []
  else if d.xoffClasses p = 0 then d.sendPause k 0
  else d

/-- An account in XOFF leaves it when it holds no headroom or overdraft, its pool holding leaves 64 cells, and it is within its reservation (R239, R242, R243, R244). -/
def Dev.tryXon (k : Nat) (d : Dev) : Dev :=
  let a := d.acct k
  if a.xoff && a.hr == 0 && a.past == 0 && a.shared + 64 ≤ d.poolFree && a.res ≤ a.rsv then
    let d := d.onAcct k fun a => { a with xoff := false, withheld := 0 }
    if (d.port (acctPort k)).braid then
      let d :=
        if k < 256 then
          (List.range 8).foldl
            (fun d c =>
              let b := d.acct (ingAcct k c)
              if b.xoff then d else (d.onAcct (ingAcct k c) fun b => { b with withheld := 0 }).giveCredits (ingAcct k c) b.withheld) d
        else if (d.acct (acctPort k)).xoff then d.onAcct k fun b => { b with withheld := a.withheld }
        else d.giveCredits k a.withheld
      d.sendCredit (acctPort k)
    else d.sendXon k
  else d

/-- Test every account in XOFF, after cells came free. -/
def Dev.xonAll (d : Dev) : Dev :=
  (Map.keysWhere d.path.accts fun _ a => a.xoff).foldl (fun d k => d.tryXon k) d

/-- Where a cell is drawn from (R230). -/
inductive Tier where
  | reserve | pool | headroom | overdraft
  deriving DecidableEq, Repr

/-- The tier an account draws its next cell from, none for an admission failure (R230 to R233, R246): an ingress account in XOFF draws on its headroom (R242). `share` divides the pool limit: 1, or 2 for a yellow frame. -/
def Dev.tier (d : Dev) (k share : Nat) : Option Tier :=
  let a := d.acct k
  if a.res < (if k < 256 then a.rsv else if k < 2304 then a.rsv else 0) then some .reserve
  else if share * a.shared < d.poolFree ∧ (k ≠ injAcct ∨ a.shared < 65536) ∧ !(256 ≤ k && a.xoff) then some .pool
  else if 256 ≤ k ∧ k < 2304 ∧ a.hr < a.h then some .headroom
  else if d.stops k ∧ d.overUsed < 16384 then some .overdraft
  else none

/-- Charge one cell to a tier of an account (R230, R242, R244). -/
def Dev.charge (k : Nat) (t : Tier) (d : Dev) : Dev :=
  let d := if t = .headroom ∨ t = .overdraft then d.enterXoff k else d
  let d := d.onAcct k fun a =>
    match t with
    | .reserve => { a with res := a.res + 1 }
    | .pool => { a with shared := a.shared + 1 }
    | .headroom => { a with hr := a.hr + 1 }
    | .overdraft => { a with past := a.past + 1 }
  let d := d.creditBack k
  d.onPath fun p => { p with peak := max p.peak d.cellsUsed }

/-- What a draw of several cells came to: how many were placed, whether a yellow frame was refused the pool (R233), whether the overdraft was drawn. -/
structure Drawn where
  placed : Nat := 0
  yellow : Bool := false
  past   : Bool := false
  deriving DecidableEq, Repr

/-- Charge up to n cells, stopping at the first that cannot be placed (R230, R233, R246, R247). -/
def Dev.takeCells (k share : Nat) : Nat → Dev → Dev × Drawn
  | 0, d => (d, {})
  | n + 1, d =>
    match d.tier k share with
    | none => (d.enterXoff k, { yellow := share == 2 })
    | some t =>
      let lim := share == 2 && t == .headroom
      let r := Dev.takeCells k share n (d.charge k t)
      (r.1, { placed := r.2.placed + 1, yellow := r.2.yellow || lim, past := r.2.past || t == .overdraft })

/-- The counters of a draw (R233, R247): the yellow limit and the overdraft at most once a frame, as `yellow` and `past` say. -/
def Dev.countDraw (k : Nat) (w : Drawn) (yellow past : Bool) (n : Nat) (d : Dev) : Dev :=
  ((d.bumpIf (w.yellow && !yellow) Reg.coilYellowLimit).bumpIf (w.past && !past && 256 ≤ k) Reg.coilOverdraftTake).bumpIf (w.placed < n)
    (if k < 256 then Reg.coilArrOverflow k else Reg.coilIngOverflow (k - 256))

/-- Return n cells in the reverse order: overdraft, headroom, pool, reserve (R229, R250). -/
def Acct.give (n : Nat) (a : Acct) : Acct :=
  let o := min n a.past
  let h := min (n - o) a.hr
  let s := min (n - o - h) a.shared
  let r := min (n - o - h - s) a.res
  { a with past := a.past - o, hr := a.hr - h, shared := a.shared - s, res := a.res - r }

/-- Return n cells to an account, and let accounts leave XOFF (R242, R250). -/
def Dev.giveCells (k n : Nat) (d : Dev) : Dev :=
  if n = 0 then d else (d.onAcct k (Acct.give n)).xonAll

/-! ## Headroom (R236 to R241) -/

/-- The link delay in use for a port: ns, whether measured, whether provisional (Table 7.2). -/
def Dev.linkDelay (d : Dev) (p : Nat) : Nat × Bool × Bool :=
  match Map.find d.path.delayNs p with
  | some x => x
  | none => (if (d.port p).delay = 0 then 1000 else (d.port p).delay, false, false)

/-- L_rx + 96 + E_in,max of a port (R237, R238). -/
def Dev.rxSegment (d : Dev) (p : Nat) : Nat := (d.port p).lRx + 96 + d.eMax (p / 8) (·.ingress)

/-- H of an ingress account before scaling (R236, R240). -/
def Dev.headroomOf (d : Dev) (p c : Nat) : Nat :=
  let f := d.port p
  if d.lossless p c then
    let dl := d.linkDelay p
    let a := if f.allow = 0 then 16384 else f.allow
    let h := ceilDiv (f.speed * (12 * dl.1 + 5 * d.rxSegment p) + 48 * a) 4032 + 74
    if dl.2.2 then ceilDiv (11 * h) 10 else h
  else 74

/-- A_arr of a port (R238). -/
def Dev.arrivalOf (d : Dev) (p : Nat) : Nat := ceilDiv (d.rxSegment p * (d.port p).speed * 10) 16128 + 37

/-- The enabled ports. -/
def Dev.enabledPorts (d : Dev) : List Nat := Map.keysWhere d.path.ports fun _ c => c.enable

/-- An account over a lowered limit is in XOFF until it is within it (R239). -/
def Dev.overLimit (k : Nat) (d : Dev) : Dev :=
  let a := d.acct k
  if (a.rsv < a.res || a.h < a.hr) && (d.port (acctPort k)).enable && k < 2304 then d.enterXoff k else d

/-- An account's new H of `v`: a braid account grants its peer what it gains, or takes back what it loses (R244, R357). -/
def Dev.changeH (k v : Nat) (d : Dev) : Dev :=
  let h := (d.acct k).h
  if k < 256 ∨ 2304 ≤ k ∨ !(d.port (acctPort k)).braid then d
  else if h < v then d.giveCredits k (v - h)
  else d.onAcct k fun a => { a with debt := a.debt + (h - v) }

/-- The new H, A_arr and E_out,max values take effect (R239, R263; order 3 of Table 2.5). -/
def Dev.applyHeadroom (d : Dev) : Dev :=
  let d := d.path.accts.foldl (fun x e => match e.2.hNext with | some v => x.changeH e.1 v | none => x) d
  let d := d.onPath fun p => { p with
    eOut := p.eOutNext.foldl (fun m e => Map.put m e.1 e.2) p.eOut
    eOutNext := []
    accts := p.accts.map fun e =>
      (e.1, { e.2 with h := e.2.hNext.getD e.2.h, rsv := e.2.rsvNext.getD e.2.rsv, hNext := none, rsvNext := none }) }
  ((d.path.accts.map (·.1)).foldl (fun x k => x.overLimit k) d).xonAll

/-- Recompute every H and A_arr (R239, R241) and E_out,max (R263), for the next turn boundary. -/
def Dev.recompute (d : Dev) : Dev :=
  let ps := d.enabledPorts
  let pc := ps.flatMap fun p => (List.range 8).map fun c => (p, c)
  let fixed := ps.length * 8 * 40 + (ps.map d.arrivalOf).sum + 16384
    + ((pc.filter fun x => !d.lossless x.1 x.2).map fun x => d.headroomOf x.1 x.2).sum
  let ll := ((pc.filter fun x => d.lossless x.1 x.2).map fun x => d.headroomOf x.1 x.2).sum
  let short := 917504 < fixed + ll
  let room := 917504 - fixed
  let h (p c : Nat) : Nat :=
    if short ∧ d.lossless p c then d.headroomOf p c * room / ll else d.headroomOf p c
  let d' := ps.foldl
    (fun x p =>
      let x := (x.onAcct (arrAcct p) fun a => { a with rsvNext := some (d.arrivalOf p) }).onPath fun q => { q with
        eOutNext := Map.put q.eOutNext p (d.eMax (p / 8) (·.egress)) }
      (List.range 8).foldl
        (fun x c => x.onAcct (ingAcct p c) fun a => { a with hNext := some (h p c), rsvNext := some 40 }) x)
    d
  let d' := d'.onPath fun q => { q with scale := if short then room * 65536 / ll else 65536, short }
  d'.bumpIf short Reg.coilShortCount

/-- A PORTSET's recomputation (R239): what it gives, for its port and for those whose share it changes, is in force at once; a disabled port holds no reservation. -/
def Dev.recomputeNow (p : Nat) (d : Dev) : Dev :=
  let d := d.recompute
  let none' (k : Nat) (d : Dev) : Dev := d.onAcct k fun a => { a with hNext := some 0, rsvNext := some 0 }
  let d := if (d.port p).enable then d else (List.range 8).foldl (fun x c => none' (ingAcct p c) x) (none' (arrAcct p) d)
  d.applyHeadroom

/-! ## Coil bandwidth (R255 to R258) -/

/-- The copies of an egress line in the order of their picks, each with the pclk at which it begins to be passed to transmit and the one by which its last byte has been, where known: one copy follows another (R263). -/
def lineTimes (f : Port) : Nat → List LineEnt → List (LineEnt × Option Nat × Option Nat)
  | _, [] => []
  | t, l :: ls =>
    match l.ready with
    | none => (l :: ls).map fun x => (x, none, none)
    | some r =>
      match l.len with
      | none => (l, some (max t r), none) :: ls.map fun x => (x, none, none)
      | some n =>
        let out := max (max t r + f.wirePclk n) l.least
        (l, some (max t r), some out) :: lineTimes f out ls

/-- The times of a port's egress line. -/
def Dev.lineOf (port : Nat) (d : Dev) : List (LineEnt × Option Nat × Option Nat) :=
  lineTimes (d.port port) (Map.getD d.path.txFree port 0) (Map.getD d.path.lines port [])

/-- A copy's last byte has been passed to transmit by a pclk. -/
def passed (out : Option Nat) (t : Nat) : Bool := match out with | some o => o ≤ t | none => false

/-- Bytes per pclk of a port at line rate, in 96ths. -/
def Port.bytes96 (f : Port) : Nat := 5 * f.speed

/-- What arrival writes and reads of copies in transmit leave of the 6,144 B per pclk, in 96ths: frames being received and copies on their way out move at their ports' rates (R255). -/
def Dev.bwLeft (d : Dev) : Nat :=
  let rx := (d.path.pkts.map fun e => if e.2.whole then 0 else (d.port (e.2.iport % 256)).bytes96).sum
  let tx := (d.path.ports.map fun e =>
    if (d.lineOf e.1).any (fun l => passed l.2.1 d.pclk && !passed l.2.2 d.pclk) then e.2.bytes96 else 0).sum
  96 * 6144 - (rx + tx)

/-- A write-back or window fill of n bytes: the pclk it waits for the coil, and the device with it moved; one that waits is counted (R255, R258). -/
def Dev.moveBytes (n : Nat) (d : Dev) : Nat × Dev :=
  let left := max 1 d.bwLeft
  let used := if d.path.bwAt < d.pclk then 0 else d.path.bwUsed
  let at' := max d.path.bwAt d.pclk
  let more := if used + 96 * n ≤ left then 0 else ceilDiv (used + 96 * n) left - 1
  let wait := at' + more - d.pclk
  (wait, (d.onPath fun p => { p with bwAt := at' + more, bwUsed := used + 96 * n - more * left }).bumpIf (0 < wait) Reg.coilBwWait)

end Sys2Proof.Machine
end

