-- ==== Sys2Proof/Machine/Fate.lean ====
section
/-! DEFINITION. Fates, their counters, and the records, pages, gaps and views of the logline (09_logline.md). -/
namespace Sys2Proof.Machine

/-- Fate codes of Table 9.1 that the device gives itself. -/
def fForwarded : Nat := 0x00
/-- TRAPPED. -/
def fTrapped : Nat := 0x01
/-- TRAP_FAULT. -/
def fTrapFault : Nat := 0x02
/-- MIRRORED. -/
def fMirrored : Nat := 0x03
/-- RUNT. -/
def fRunt : Nat := 0x10
/-- OVERSIZE. -/
def fOversize : Nat := 0x11
/-- FCS_ERROR. -/
def fFcs : Nat := 0x12
/-- MACSEC_FAIL. -/
def fMacsec : Nat := 0x13
/-- INGRESS_HOLD_OVERFLOW. -/
def fHoldOverflow : Nat := 0x14
/-- NO_PROGRAM. -/
def fNoProgram : Nat := 0x15
/-- NO_DEST. -/
def fNoDest : Nat := 0x16
/-- POLICE_RED. -/
def fPoliceRed : Nat := 0x17
/-- EGRESS_DOWN. -/
def fEgressDown : Nat := 0x18
/-- SLOW_LINE_FULL. -/
def fSlowLineFull : Nat := 0x19
/-- WIRE_LOSS. -/
def fWireLoss : Nat := 0x1A
/-- TX_GATED. -/
def fTxGated : Nat := 0x1B
/-- NO_ROUTE. -/
def fNoRoute : Nat := 0x1C

/-- A DROP may use the code (Table 9.1, R131). -/
def dropAllowed (code : Nat) : Bool := code = 0x17 || (0x40 ≤ code && code ≤ 0xEF)

/-- Change the logline. -/
def Dev.onLog (f : Log → Log) (d : Dev) : Dev := { d with log := f d.log }

/-- The counter row of an ingress port field: injected packets use 256 (R287). -/
def fateRow (iport : Nat) : Nat := if iport = 0x1FF then 256 else iport % 256

/-- FATE(p, f) (Table 9.6). -/
def Reg.fate (p f : Nat) : Nat := Reg.logFate (256 * p + f)

/-- EG(e, f) (Table 9.6). -/
def Reg.egFate (e f : Nat) : Nat := Reg.logEgFate (256 * e + f)

/-! ## Pages (R294, R295, R300) -/

/-- Slots of 16 bytes a page has used. -/
def Page.slots (p : Page) : Nat := p.recs.length / 16

/-- The page records go to now: open, of the current block, of the kind. -/
def Page.isOpen (anchor : Nat) (gap : Bool) (p : Page) : Bool := !p.closed && p.gapPage == gap && p.anchor == anchor

/-- Whether a staging page of the kind is free: two of the 512 are reserved for gap records and SNAP marks (R299). -/
def Log.pageFree (l : Log) (gap : Bool) : Bool :=
  if gap then l.pages.length < 512 else (l.pages.filter fun p => !p.gapPage).length < 510 && l.pages.length < 512

/-- The open page of a kind with room for n slots. -/
def Log.roomy (l : Log) (gap : Bool) (n : Nat) : Option Page := l.pages.find? fun p => p.isOpen l.anchor gap && p.slots + n ≤ 4092

/-- Append a record of a reel time to the open page, closing a page it does not fit in and opening a new one; none when no page is free (R294, R295). -/
def Dev.stage (gap : Bool) (ns : Nat) (bytes : List Byte) (d : Dev) : Option Dev :=
  let l := d.log
  match l.roomy gap (bytes.length / 16) with
  | some q =>
    some (d.onLog fun l => { l with pages := l.pages.map fun p => if p.seq = q.seq then { p with recs := p.recs ++ bytes } else p })
  | none =>
    if l.pageFree gap then
      some (d.onLog fun l => { l with
        pages := (l.pages.map fun p => if p.isOpen l.anchor gap then { p with closed := true } else p) ++
          [{ seq := l.seq, first := l.newBlock, gapPage := gap, anchor := l.anchor, era := l.era, eraOff := l.eraOff
             turn := ns / 1024, recs := bytes, vol := l.archVol
             m48 := (l.archive.map (·.2.1)).getD 0, m112 := (l.archive.map (·.2.2)).getD 0 }]
        seq := l.seq + 1
        newBlock := false })
    else none

/-- The logline block ends and a new one starts at an anchor (R61, R64, R295). -/
def Dev.newBlock (anchor : Nat) : Dev → Dev :=
  Dev.onLog fun l => { l with pages := l.pages.map fun p => { p with closed := true }, anchor, newBlock := true }

/-! ## Records (R290 to R293) -/

/-- DWELL: mantissa of 12 bits and the smallest exponent, rounded down, saturating (R291). -/
def dwell (ns : Nat) : Nat :=
  match (List.range 16).find? fun e => ns / 2 ^ e < 4096 with
  | some e => ns / 2 ^ e + e * 4096
  | none => 0xFFFF

/-- The 16 bytes of a record with a block anchor (Table 9.2). -/
def RecFields.bytes (r : RecFields) (anchor : Nat) : List Byte :=
  le 8 (bits (r.time - anchor) 0 22 + bits r.iport 0 9 * 2 ^ 22 + bits r.eport 0 9 * 2 ^ 31 + bits r.fate 0 8 * 2 ^ 40
      + bits r.len 0 14 * 2 ^ 48 + bits r.shade 0 2 * 2 ^ 62)
    ++ le 8 (bits r.hash 0 32 + ofBit r.stale * 2 ^ 32 + ofBit r.suspect * 2 ^ 33 + ofBit r.cut * 2 ^ 34
      + ofBit r.mirror * 2 ^ 35 + bits r.cls 0 3 * 2 ^ 36 + bits r.code 0 8 * 2 ^ 39 + ofBit r.copy * 2 ^ 47
      + dwell (r.time - r.ref) * 2 ^ 48)

/-- Count a packet or copy refused a slot or a page (R298). -/
def Dev.gap (iport fate : Nat) (d : Dev) : Dev :=
  let key (f : Nat) : Nat := iport * 256 + f
  let pairs := (d.log.gaps.filter fun e => e.1 % 256 != 0xFF).length
  let k := if (Map.find d.log.gaps (key fate)).isSome ∨ pairs < 1024 then key fate else key 0xFF
  (d.onLog fun l => { l with gaps := Map.modify l.gaps k (0, 1) fun x => (x.1 + 1, x.2) }).bump Reg.logGapPkts

/-- Whether a view takes a record (R304): a port of its map, or one of its domains. -/
def View.takes (v : View) (iport eport domain : Nat) : Bool :=
  (iport < 0x1FF && bit v.ports (iport % 256)) || (eport < 0x1FF && bit v.ports (eport % 256))
    || (domain != 0 && v.domains.contains domain)

/-- A view's queue pair takes its records now: an ACTIVE EVENT queue pair of the view's slice (R303). -/
def Dev.viewReady (v : View) (d : Dev) : Bool := d.waitable v.qp && (d.qp v.qp).kind == 5 && (d.qp v.qp).slice == v.slice

/-- Write a view's event, or withhold it (R305). -/
def Dev.toView (n : Nat) (v : View) (body : List Byte) (d : Dev) : Dev :=
  let hold (d : Dev) : Dev :=
    (d.onLog fun l => { l with views := Map.modify l.views n {} fun v => { v with held := v.held + 1 } }).bump Reg.logViewGap
  if d.viewReady v then
    let r := d.offer v.qp (eventBytes 6 body)
    if r.2 then hold r.1 else r.1
  else hold d

/-- Give a staged record to the views that take it, whole or in the 16-byte form (R303, R304). -/
def Dev.toViews (iport eport domain : Nat) (bytes : List Byte) (d : Dev) : Dev :=
  d.log.views.foldl
    (fun d e => if e.2.takes iport eport domain then d.toView e.1 e.2 (if e.2.header then bytes else bytes.take 16) else d) d

/-- Header bytes a record carries (R293): by the port maps of the binding its page opened under (R303), at least 48 when MIRROR is 1; none in a copy record. -/
def headerLen (m48 m112 : Nat) (r : RecFields) : Nat :=
  if r.copy then 0
  else if r.iport < 0x1FF ∧ bit m112 (r.iport % 256) then 112
  else if (r.iport < 0x1FF ∧ bit m48 (r.iport % 256)) ∨ r.mirror then 48 else 0

/-- Header bytes a record carries now: on the open page where it fits there, otherwise on the page it opens. -/
def Dev.headerNow (r : RecFields) (d : Dev) : Nat :=
  let open' := (d.log.roomy false 1).bind fun p =>
    let h := headerLen p.m48 p.m112 r
    if p.slots + 1 + h / 16 ≤ 4092 then some h else none
  open'.getD (headerLen ((d.log.archive.map (·.2.1)).getD 0) ((d.log.archive.map (·.2.2)).getD 0) r)

/-- A record that takes only what is left to records of its kind within the turn: FORWARDED without MIRROR (R297). -/
def RecFields.plain (r : RecFields) : Bool := r.fate = fForwarded ∧ !r.copy ∧ !r.mirror

/-- Stage a record's bytes, and give them to the views. -/
def Dev.putRecord (r : RecFields) (bytes : List Byte) (d : Dev) : Option Dev :=
  (d.stage false r.time bytes).map fun d =>
    let n := bytes.length / 16
    ((d.onLog fun l => { l with used := l.used + n, usedFwd := if r.plain then l.usedFwd + n else l.usedFwd }).bump
      Reg.logRec).toViews r.iport r.eport r.domain bytes

/-- Write a packet or copy record within the turn's budget, in the 16-byte form where its header finds no slots, or count it in the gap accumulator (R297, R298). -/
def Dev.record (r : RecFields) (frame : List Byte) (d : Dev) : Dev :=
  let h := d.headerNow r
  let body := r.bytes d.log.anchor
  let full := body ++ padTo h frame
  let ok (n : Nat) : Bool := d.log.used + n ≤ 12800 && (!r.plain || d.log.usedFwd < 9600)
  match if ok (full.length / 16) then d.putRecord r full else none with
  | some d => d
  | none =>
    match if h ≠ 0 ∧ ok 1 then d.putRecord r body else none with
    | some d => d.bump Reg.logHdrShed
    | none => (if ok 1 then d else d.onLog fun l => { l with hit := true }).gap r.iport r.fate

/-- The 16 bytes of a gap record (Table 9.4). -/
def gapBytes (off iport fate count span : Nat) (view : Bool) : List Byte :=
  le 8 (bits off 0 22 + bits iport 0 9 * 2 ^ 22 + bits span 24 8 * 2 ^ 31 + ofBit view * 2 ^ 39 + 0xFE * 2 ^ 40
      + bits fate 0 8 * 2 ^ 48 + bits span 16 8 * 2 ^ 56)
    ++ le 8 (bits count 0 48 + bits span 0 16 * 2 ^ 48)

/-- Put a gap record or SNAP mark of a reel time in the open page, or in a reserved page (R299). -/
def Dev.stageGap (ns : Nat) (bytes : List Byte) (d : Dev) : Option Dev :=
  match d.stage false ns bytes with
  | some d => some d
  | none => d.stage true ns bytes

/-- Emit one accumulator pair at the turn boundary of a reel time; without a slot it stays and its span grows (R298, R299). -/
def Dev.emitGap (at' k : Nat) (count span : Nat) (d : Dev) : Dev :=
  let iport := k / 256
  let bytes := gapBytes (at' - d.log.anchor) iport (k % 256) count span false
  match d.stageGap at' bytes with
  | some d =>
    let d := d.onLog fun l => { l with gaps := Map.del l.gaps k, used := l.used + 1 }
    d.log.views.foldl
      (fun d e => if iport < 0x1FF ∧ bit e.2.ports (iport % 256) then d.toView e.1 e.2 bytes else d) d
  | none => d.onLog fun l => { l with gaps := Map.put l.gaps k (count, min (span + 1) (2 ^ 32 - 1)) }

/-- A view's gap record, at the boundary of a reel time, for the records withheld in the turn (R305). -/
def Dev.emitViewGap (at' n : Nat) (v : View) (d : Dev) : Dev :=
  if v.held = 0 then d
  else
    let bytes := gapBytes (at' - d.log.anchor) 0x1FF 0xFF v.held (min (v.span + 1) (2 ^ 32 - 1)) true
    let wait (d : Dev) : Dev :=
      d.onLog fun l => { l with views := Map.modify l.views n {} fun v => { v with span := min (v.span + 1) (2 ^ 32 - 1) } }
    if d.viewReady v then
      let r := d.offer v.qp (eventBytes 6 bytes)
      if r.2 then wait r.1
      else r.1.onLog fun l => { l with views := Map.modify l.views n {} fun v => { v with held := 0, span := 0 } }
    else wait d

/-- The logline's part of turn t's boundary: the block's end at a multiple of 4,096 turns, then the gap records (order 2, R64, R295, R297, R298). -/
def Dev.logTurn (t : Nat) (d : Dev) : Dev :=
  let d := if t % 4096 = 0 ∧ d.log.anchor < t * 1024 then d.newBlock (t * 1024) else d
  let d := d.onLog fun l => { l with used := 0, usedFwd := 0, hitLast := l.hit, hit := false }
  let d := d.log.gaps.foldl (fun d e => d.emitGap (t * 1024) e.1 e.2.1 e.2.2) d
  d.log.views.foldl (fun d e => d.emitViewGap (t * 1024) e.1 e.2) d

/-- A SNAP mark (R296), given to the views as its IPORT and EPORT of 0 select them (R304, log 72). -/
def Dev.logMark (turn : Nat) (d : Dev) : Dev :=
  let bytes := le 8 (bits (turn * 1024 - d.log.anchor) 0 22 + 0xFD * 2 ^ 40) ++ le 8 (turn % 2 ^ 54)
  match d.stageGap (turn * 1024) bytes with
  | some d => (d.onLog fun l => { l with used := l.used + 1 }).toViews 0 0 0 bytes
  | none => d

/-! ## The order of the logline (R294, R296, R297) -/

/-- The reel time an item of the logline stands at. -/
def LogItem.time : LogItem → Nat
  | .turn t => t * 1024
  | .block a _ _ => a
  | .mark t => t * 1024
  | .entry r _ => r.time

/-- Items of one time: a boundary before a mark, and a mark before the records. -/
def LogItem.rank : LogItem → Nat
  | .turn _ => 0
  | .block _ _ _ => 0
  | .mark _ => 1
  | .entry _ _ => 2

/-- Item a stands before item b. -/
def LogItem.before (a b : LogItem) : Bool := a.time < b.time || (a.time == b.time && a.rank < b.rank)

/-- What an item comes to when its place is reached. -/
def Dev.logItem (i : LogItem) (d : Dev) : Dev :=
  match i with
  | .turn t => d.logTurn t
  | .block a era off => (d.newBlock a).onLog fun l => { l with era, eraOff := off }
  | .mark t => d.logMark t
  | .entry r frame => d.record r frame

/-- The fate time a packet that is still incomplete will have if its frame ends without a fault now: none while something of it is undecided (R286). -/
def Pkt.openTime (p : Pkt) : Option Nat :=
  if p.whole ∨ p.fault ∨ p.final ∨ (p.fate.isNone ∧ p.copies = []) then none
  else if p.copies.all fun e => e.2.fate.isSome || e.2.txNs.isSome then
    some (p.copies.foldl (fun t e => max t (e.2.txNs.getD 0)) p.fateNs)
  else none

/-- The reel time before which nothing more can be recorded: no packet's fate, no boundary and no SNAP that is still to come falls before it. -/
def Dev.logLimit (d : Dev) : Nat :=
  let l := d.path.pkts.foldl (fun t e => match e.2.openTime with | some x => min t (x + 1) | none => t) ((d.reel.served + 1) * 1024)
  d.spl.snaps.foldl (fun t x => min t (x.turn * 1024)) l

/-- The items whose place is reached take effect, in their order. -/
def Dev.flushLog (d : Dev) : Dev :=
  let now := d.log.items.filter fun i => i.time < d.logLimit || (i.time == d.logLimit && i.rank < 2)
  now.foldl (fun d i => d.logItem i) (d.onLog fun l => { l with items := l.items.drop now.length })

/-- An item takes its place in the logline. -/
def Dev.log' (i : LogItem) (d : Dev) : Dev :=
  (d.onLog fun l => { l with items := (l.items.filter fun j => !i.before j) ++ i :: l.items.filter fun j => i.before j }).flushLog

/-! ## Packets and copies -/

/-- The packet with an identity. -/
def Dev.pkt (d : Dev) (k : Nat) : Option Pkt := Map.find d.path.pkts k

/-- Change a packet that is in the device. -/
def Dev.onPkt (k : Nat) (f : Pkt → Pkt) (d : Dev) : Dev :=
  match d.pkt k with
  | some p => d.onPath fun x => { x with pkts := Map.put x.pkts k (f p) }
  | none => d

/-- Change a copy of a packet. -/
def Pkt.onCopy (c : Nat) (f : Copy → Copy) (p : Pkt) : Pkt :=
  match Map.find p.copies c with
  | some x => { p with copies := Map.put p.copies c (f x) }
  | none => p

/-- A copy of a packet in the device. -/
def Dev.copy (d : Dev) (k c : Nat) : Option Copy := (d.pkt k).bind fun p => Map.find p.copies c

/-- Change a copy of a packet in the device. -/
def Dev.onCopy (k c : Nat) (f : Copy → Copy) : Dev → Dev := Dev.onPkt k (Pkt.onCopy c f)

/-- A packet enters a shade (R183). -/
def Dev.enterShade (n : Nat) : Dev → Dev := Dev.onShade n fun s => { s with resident := s.resident + 1 }

/-- A packet leaves its shade (R183). -/
def Dev.leaveShade (n : Nat) : Dev → Dev := Dev.onShade n fun s => { s with resident := s.resident - 1 }

/-- The record fields a packet gives at its terminal, with a fate time (R286); LENGTH saturates (log 72). -/
def Pkt.fields (p : Pkt) (fate eport code : Nat) (cut copy : Bool) (time : Nat) : RecFields :=
  { iport := p.iport, eport, fate, len := min p.rxLen 0x3FFF, shade := p.shade, hash := p.hash, stale := p.stale
    suspect := p.suspect, cut, mirror := p.mirror, cls := p.cls, code, copy, ref := p.refNs, domain := p.domain, time }

/-- A packet's fate by R285, none while it is open: its own fate, or by its copies once each has one. -/
def Pkt.outcome (p : Pkt) : Option Nat :=
  if (p.copies.all fun e => e.2.fate.isSome) ∧ (p.whole ∨ p.fault) then
    match p.fate with
    | some f => some f
    | none =>
      if p.copies = [] then none
      else if p.txd ≠ 0 then some fForwarded
      else p.lastFate
  else none

/-- A packet is still held by its program, in a fibre or the release line (Table 5.3). -/
def Pkt.held (p : Pkt) : Bool :=
  match p.place with
  | .ingress _ => true
  | .releaseLine _ => true
  | .slow _ => true
  | _ => false

/-- A packet whose fate is final leaves the device once its frame has ended and no program holds it. -/
def Dev.leave (k : Nat) (d : Dev) : Dev :=
  match d.pkt k with
  | none => d
  | some p =>
    if p.whole && !p.held then d.onPath fun x => { x with pkts := Map.del x.pkts k }
    else d.onPkt k fun p => { p with final := true, counted := false }

/-- The counts and the record of a packet whose fate is final (R183, R285 to R290). -/
def Dev.settle (k : Nat) (d : Dev) : Dev :=
  match d.pkt k with
  | none => d
  | some p =>
    if p.final then d.leave k
    else
      match p.outcome with
      | none => d
      | some f =>
        let row := fateRow p.iport
        let d := (d.bump (Reg.fate row f)).sub (Reg.logResident row) 1
        let code := if f = fForwarded then min p.txd 255 else p.code
        let d := (if p.counted then d.leaveShade p.shade else d).leave k
        d.log' (.entry (p.fields f p.eport code p.lastCut false p.fateNs) p.hdr)

/-- The packet takes a fate of its own, decided now; it is final at the frame's end (R165, R285, R286). A fault replaces what the programs decided. -/
def Dev.giveFate (k fate code : Nat) (d : Dev) : Dev :=
  (d.onPkt k fun p => { p with fate := some fate, code, fateNs := max p.fateNs d.ns }).settle k

/-- Free the cells of a packet that every copy has passed (R249, R250): n counts the head and body cells passed by all. -/
def Dev.freePassed (k : Nat) (d : Dev) : Dev :=
  match d.pkt k with
  | none => d
  | some p =>
    let low := (p.copies.map (·.2.read)).foldl min p.cells
    let n := min low p.cells
    if n ≤ p.freed then d
    else
      let px := if p.pfx then 1 else 0
      (d.onPkt k fun p => { p with freed := n, pfx := false }).giveCells p.acct (n - p.freed + px)

/-- Free every cell of a packet that has no further reader; no further byte is written (R251). -/
def Dev.freeAll (k : Nat) (d : Dev) : Dev :=
  match d.pkt k with
  | none => d
  | some p =>
    let px := if p.pfx then 1 else 0
    (d.onPkt k fun p => { p with freed := p.cells, pfx := false, stop := true }).giveCells p.acct (p.cells - p.freed + px)

/-- All copies have ended: the packet has no further reader (R251). One that has no copy yet is still with its program. -/
def Dev.freeIfDone (k : Nat) (d : Dev) : Dev :=
  match d.pkt k with
  | some p => if p.copies = [] then d else if p.copies.all fun e => e.2.fate.isSome then d.freeAll k else d.freePassed k
  | none => d

/-- A packet that no program will read again: its cells are free but for what its copies still read (R250, R251). -/
def Dev.freeUnread (k : Nat) (d : Dev) : Dev :=
  if (d.pkt k).any fun p => p.copies == [] then d.freeAll k else d.freeIfDone k

/-- A copy that ends before its transmission leaves the egress line (R263). -/
def Dev.unline (k c port : Nat) (d : Dev) : Dev :=
  d.onPath fun x => { x with
    lines := Map.modify x.lines port [] fun l => l.filter fun e => !(e.pkt == k && e.copy == c) || e.sent }

/-- A copy takes its fate: counters, its record where the packet has several copies, its cells and its packet's fate (R251, R285, R287, R292). -/
def Dev.endCopy (k c fate code : Nat) (d : Dev) : Dev :=
  match d.pkt k, d.copy k c with
  | some p, some x =>
    if x.fate.isSome then d
    else
      let fate := if fate = fForwarded ∧ x.mirror then fMirrored else fate
      let time := (if fate = fForwarded ∨ fate = fMirrored then x.txNs else none).getD d.ns
      let eport := x.port + ofBit (d.port x.port).braid * 256
      let d := d.onPkt k fun p => (Pkt.onCopy c (fun y => { y with fate := some fate, code, pos := .gone, read := p.cells }) p)
      let d := d.onPkt k fun p =>
        let last : Bool := p.fateNs ≤ time
        { p with
          eport := if last then eport else p.eport
          lastCut := if last then x.cut else p.lastCut
          fateNs := max p.fateNs time
          lastFate := if x.mirror || !last then p.lastFate.or (if x.mirror then none else some fate) else some fate
          txd := if fate = fForwarded then p.txd + 1 else p.txd
          code := if p.fate.isNone && !x.mirror && last then code else p.code }
      let d := (d.bump (Reg.egFate x.port fate)).sub (Reg.logEgQueued x.port) 1
      let d := if fate = fForwarded then d.bump (Reg.logCopiesTx (fateRow p.iport)) else d
      let d := ((d.unline k c x.port).freeIfDone k).settle k
      if 1 < p.copies.length ∧ fate ≠ fForwarded ∧ fate ≠ fMirrored then
        d.log' (.entry (p.fields fate eport code x.cut true time) p.hdr)
      else d
  | _, _ => d

end Sys2Proof.Machine
end

