-- ==== Sys2Proof/Machine/Route.lean ====
section
/-! DEFINITION. Braid routes: what a destination resolves to, and the next hop taken (R350 to R354), links and their fields. -/
namespace Sys2Proof.Machine

/-- The braid link of a port. -/
def Dev.link (d : Dev) (p : Nat) : Link := Map.getD d.brd.links p {}

/-- Change the braid state. -/
def Dev.onBrd (f : Braid → Braid) (d : Dev) : Dev := { d with brd := f d.brd }

/-- Change the braid link of a port. -/
def Dev.onLink (p : Nat) (f : Link → Link) (d : Dev) : Dev :=
  d.onBrd fun b => { b with links := Map.modify b.links p {} f }

/-- The route of an identifier in a shade index. -/
def routeIn (rs : List Route) (shade id : Nat) : Option Route := rs.find? fun r => r.id == id && bit r.mask shade

/-- The membership of this node in a knot, in a shade index. -/
def Dev.member (d : Dev) (shade id : Nat) : Option Member := d.brd.members.find? fun m => m.id == id && bit m.mask shade

/-- An identifier is provisional (Table 11.1); its lender and slot. -/
def provisional (id : Nat) : Bool := 0xF00000 ≤ id && id ≤ 0xFFFFEF

/-- The lender of a provisional identifier. -/
def lender (id : Nat) : Nat := (id - 0xF00000) / 16

/-- What a destination resolves to (R353). -/
inductive Resolved where
  | deliver
  | route (r : Route) (dest : Nat) (knotIn : Bool)
  | onLink (port dest : Nat) (knotIn : Bool)
  | none
  deriving DecidableEq, Repr

/-- Resolution of a destination at this node, by the first step that applies, with at most 64 rewrites (R353). Of step 3's cases a lease of this node's own links comes first (log 19). -/
def Dev.resolve (d : Dev) (shade orig : Nat) : Nat → Nat → Bool → Resolved
  | 0, _, _ => .none
  | fuel + 1, dest, knotIn =>
    if dest = d.brd.node ∧ d.brd.node ≠ 0 then .deliver
    else
      match d.member shade dest with
      | some m =>
        if m.face then .deliver
        else
          match routeIn d.brd.knots shade dest with
          | some r => Dev.resolve d shade orig fuel r.face true
          | none => .none
      | none =>
        if provisional dest then
          match d.brd.links.find? fun e => e.2.lease == some orig with
          | some e => .onLink e.1 dest knotIn
          | none =>
            if lender dest = d.brd.node then
              match Map.find d.brd.slots ((dest - 0xF00000) % 16) with
              | some n => Dev.resolve d shade orig fuel n knotIn
              | none => .none
            else
              match routeIn d.brd.nodes shade (lender dest) with
              | some r => .route r dest knotIn
              | none => .none
        else
          match routeIn d.brd.nodes shade dest with
          | some r => .route r dest knotIn
          | none =>
            match routeIn d.brd.knots shade dest with
            | some r => .route r dest knotIn
            | none => .none

/-- A link may carry frames of a route at all: UP, not fenced, its peer not provisional (R354). -/
def Dev.linkBase (d : Dev) (p : Nat) : Bool :=
  (d.link p).st = .up && !(d.link p).lost && !d.fenced 1 p && !(d.link p).peerProv && d.portUp p

/-- The usable next hops of a route (R354): a FENCED peer only for a route to itself, or when nothing else is usable. -/
def Dev.usable (d : Dev) (r : Route) : List Nat :=
  let base := r.hops.filter d.linkBase
  let free := base.filter fun p => !(d.link p).peerFenced || (d.link p).peer == r.id
  if free = [] then base else free

/-- Cells of the queue of a port and class, prefix cells among them (R228, R248). -/
def Dev.queueCells (d : Dev) (q : Nat) : Nat :=
  ((Map.getD d.path.queues q {}).copies.map fun x => ((d.pkt x.1).map fun p => p.cells + ofBit p.pfx).getD 0).sum

/-- The next hop of a route for a hash and class, with the flowlet table rewritten (R354): none when no hop is usable. -/
def Dev.nextHop (r : Route) (hash cls : Nat) (d : Dev) : Option Nat × Dev :=
  let us := d.usable r
  match us with
  | [] => (none, d)
  | h0 :: _ =>
    let i0 := hash * us.length / 2 ^ 32
    if !r.adaptive then (us[i0]?, d)
    else
      let ix := hash % 65536
      let keep : Option Nat := (Map.find d.brd.flowlets ix).bind fun f =>
        if f.route = r.id ∧ us.contains f.hop ∧ d.turn - f.turn < r.gap then some f.hop else none
      let best := us.foldl (fun a p => if d.queueCells (8 * p + cls) < d.queueCells (8 * a + cls) then p else a) h0
      let hop := keep.getD best
      (some hop, d.onBrd fun b => { b with flowlets := Map.put b.flowlets ix ⟨r.id, hop, d.turn⟩ })

/-- The braid links that are UP. -/
def Dev.upLinks (d : Dev) : List Nat := Map.keysWhere d.brd.links fun _ l => l.st == .up

/-- The lead of global operations in turns (R363). -/
def Dev.lead (d : Dev) : Nat :=
  ceilDiv (d.brd.h * d.brd.hopNs + (if d.reel.st = .holdover then d.reel.holdNs else 0)) 1024 + 2

end Sys2Proof.Machine
end

