-- ==== Sys2Proof/Machine/Share.lean ====
section
/-! DEFINITION. Fibres and cores as holders: access to a fibre's and a core's registers, and the cleats and lanyards
both share (R403 to R411). -/
namespace Sys2Proof.Machine

/-! ## Fibre and lay access -/

/-- Fibre number f (8 x strand + fibre). -/
def Dev.fibre (d : Dev) (f : Nat) : Fibre := Map.getD d.lay.fibres f {}

/-- Change fibre f. -/
def Dev.onFibre (f : Nat) (g : Fibre → Fibre) (d : Dev) : Dev :=
  { d with lay := { d.lay with fibres := Map.modify d.lay.fibres f {} g } }

/-- The lay numbered l. -/
def Dev.layOf (d : Dev) (l : Nat) : Lay := Map.getD d.lay.lays l {}

/-- Change lay l. -/
def Dev.onLay (l : Nat) (g : Lay → Lay) (d : Dev) : Dev :=
  { d with lay := { d.lay with lays := Map.modify d.lay.lays l {} g } }

/-- The lay of a fibre (R13). -/
def fibreLay (f : Nat) : Nat := f / 128

/-- Write a general register. -/
def Arch.setW (a : Arch) (r : Nat) (v : W) : Arch := { a with w := Map.put a.w r v }

/-- Read a general register. -/
def Arch.getW (a : Arch) (r : Nat) : W := Map.getD a.w r 0

/-- Write a metadata register. -/
def Arch.setM (a : Arch) (n : Nat) (v : W) : Arch := { a with m := Map.put a.m n v }

/-- Read a metadata register. -/
def Arch.getM (a : Arch) (n : Nat) : W := Map.getD a.m n 0

/-- Write a predicate; p0 always reads 1 and a write to it is ignored (R84). -/
def Arch.setP (a : Arch) (n : Nat) (v : Bool) : Arch :=
  if n = 0 then a
  else { a with p := if v then a.p ||| (1#8 <<< n) else a.p &&& ~~~(1#8 <<< n) }

/-- Read a predicate (R84). -/
def Arch.getP (a : Arch) (n : Nat) : Bool := n = 0 || a.p.getLsbD n

/-- Write m15[7:0], the status of the latest arrival (R128). -/
def Arch.setStatus (a : Arch) (st : Nat) : Arch :=
  a.setM 15 ((a.getM 15 &&& ~~~(0xFF#64)) ||| BitVec.ofNat 64 (st % 256))

/-- Change the registers of a fibre. -/
def Dev.onArch (f : Nat) (g : Arch → Arch) : Dev → Dev := Dev.onFibre f fun x => { x with arch := g x.arch }

/-- A TRY or a granted wait writes pd and m15 (Table 4.3). -/
def Arch.answer (pd : Nat) (ok : Bool) (st : Nat) (a : Arch) : Arch := (a.setP pd ok).setStatus st

/-! ## Core access (R386) -/

/-- Core c. -/
def Dev.core (d : Dev) (c : Nat) : Core := Map.getD d.cap.cores c {}

/-- Change the capstan complex. -/
def Dev.onCap (f : Cap → Cap) (d : Dev) : Dev := { d with cap := f d.cap }

/-- Change core c. -/
def Dev.onCore (c : Nat) (f : Core → Core) : Dev → Dev :=
  Dev.onCap fun x => { x with cores := Map.modify x.cores c {} f }

/-- Read x[n]; x0 reads 0 (RV64). -/
def Core.getX (c : Core) (n : Nat) : W := if n = 0 then 0 else Map.getD c.x n 0

/-- Write x[n]; a write to x0 has no effect (RV64). -/
def Core.setX (n : Nat) (v : W) (c : Core) : Core := if n = 0 then c else { c with x := Map.put c.x n v }

/-- Write cap_xstat[7:0] (R402). -/
def Core.setStat (st : Nat) (c : Core) : Core := { c with xstat := st % 256 }

/-! ## Cleats (R403 to R407) -/

/-- Cleat n. -/
def Dev.cleat (d : Dev) (n : Nat) : Cleat := Map.getD d.cap.cleats n {}

/-- Change cleat n. -/
def Dev.onCleat (n : Nat) (f : Cleat → Cleat) : Dev → Dev :=
  Dev.onCap fun x => { x with cleats := Map.modify x.cleats n {} f }

/-- Results of these keys are available from a pclk on (R93). -/
def Fibre.after (t : Nat) (keys : List Nat) (x : Fibre) : Fibre := { x with avail := keys.foldl (fun m k => Map.put m k t) x.avail }

/-- A waiting take succeeds: the waiter's instruction ends DONE, for a fibre 12 pclk later (R405). -/
def Dev.granted (h : Holder) (d : Dev) : Dev :=
  match h with
  | .fibre f =>
    match (d.fibre f).block with
    | some (.cleat _ pd) => d.onFibre f fun x => { x.after (d.pclk + 12) [32 + pd, 64] with block := none, arch := x.arch.answer pd true 0x00 }
    | _ => d
  | .core c =>
    match (d.core c).wait with
    | some (.cleat _ rd _) => (d.onCore c fun x => Core.setX rd 0 { x with wait := none }).bump (Reg.capCRetired c)
    | _ => d

/-- Pass a cleat on: to the first waiter, in the same pclk, or to nobody (R405). -/
def Dev.passCleat (n : Nat) (d : Dev) : Dev :=
  match (d.cleat n).waiters with
  | [] => d.onCleat n fun c => { c with holder := none }
  | h :: t => (d.onCleat n fun _ => { holder := some h, waiters := t }).granted h

/-- A TRY take: taken, or FULL with CAP_CLEAT_FAIL (R405). -/
def Dev.tryCleat (n : Nat) (h : Holder) (d : Dev) : Dev × Nat :=
  match (d.cleat n).holder with
  | none => (d.onCleat n fun c => { c with holder := some h }, 0x00)
  | some _ => (d.bump Reg.capCleatFail, 0x04)

/-- A release: passed on, or NOT_FOUND when the releaser does not hold it (R405). -/
def Dev.relCleat (n : Nat) (h : Holder) (d : Dev) : Dev × Nat :=
  if (d.cleat n).holder = some h then (d.passCleat n, 0x00) else (d, 0x0A)

/-- A waiter leaves every cleat's and lanyard's waiters (R406, R410). -/
def Dev.leaveWaits (h : Holder) : Dev → Dev :=
  Dev.onCap fun x => { x with
    cleats := x.cleats.map fun e => (e.1, { e.2 with waiters := e.2.waiters.filter (· != h) })
    lanyards := x.lanyards.map fun e => (e.1, { e.2 with
      puts := e.2.puts.filter (·.1 != h), gets := e.2.gets.filter (· != h) }) }

/-- The cleats a holder holds. -/
def Dev.heldCleats (d : Dev) (h : Holder) : List Nat := Map.keysWhere d.cap.cleats fun _ c => c.holder == some h

/-- Release every cleat a holder holds (R132, R407). -/
def Dev.dropCleats (h : Holder) (d : Dev) : Dev := (d.heldCleats h).foldl (fun d n => d.passCleat n) d

/-! ## Lanyards (R408 to R411) -/

/-- Lanyard n. -/
def Dev.lanyard (d : Dev) (n : Nat) : Lanyard := Map.getD d.cap.lanyards n {}

/-- Change lanyard n. -/
def Dev.onLanyard (n : Nat) (f : Lanyard → Lanyard) : Dev → Dev :=
  Dev.onCap fun x => { x with lanyards := Map.modify x.lanyards n {} f }

/-- An enabled lanyard that goes from empty to non-empty notifies its core (R411, Table 13.11). -/
def Dev.notify (n : Nat) (d : Dev) : Dev :=
  let e := Map.getD d.cap.notify n 0
  if bit e 5 then (d.onCore (e % 32) fun c => { c with lnyInt := true }).send .capInterrupt [e % 32, 1024 + n] [] else d

/-- A waiting put ends DONE (R410). -/
def Dev.putDone (h : Holder) (d : Dev) : Dev :=
  match h with
  | .fibre f =>
    match (d.fibre f).block with
    | some (.put _ _ pd) => d.onFibre f fun x => { x.after (d.pclk + 12) [32 + pd, 64] with block := none, arch := x.arch.answer pd true 0x00 }
    | _ => d
  | .core c =>
    match (d.core c).wait with
    | some (.put _ rd) => (d.onCore c fun x => Core.setX rd 0 { x with wait := none }).bump (Reg.capCRetired c)
    | _ => d

/-- A waiting get ends with a word, n pclk from now (R409, R410). -/
def Dev.getDone (n : Nat) (h : Holder) (w : W) (d : Dev) : Dev :=
  match h with
  | .fibre f =>
    match (d.fibre f).block with
    | some (.get _ rd pd) =>
      d.onFibre f fun x => { x.after (d.pclk + n + 12) [rd, 32 + pd, 64] with block := none, arch := (x.arch.setW rd w).answer pd true 0x00 }
    | _ => d
  | .core c =>
    match (d.core c).wait with
    | some (.get _ rd) => (d.onCore c fun x => (Core.setX rd w { x with wait := none }).setStat 0x00).bump (Reg.capCRetired c)
    | _ => d

/-- The words of a lanyard put in this pclk, which no get takes before the next (R409). -/
def Dev.freshWords (l : Lanyard) (d : Dev) : Nat := if l.fresh.1 = d.pclk then l.fresh.2 else 0

/-- A word is put at the end of a lanyard. -/
def Dev.pushWord (n : Nat) (w : W) (d : Dev) : Dev :=
  d.onLanyard n fun l => { l with words := l.words ++ [w], fresh := (d.pclk, d.freshWords l + 1) }

/-- Serve the waiting gets, then the waiting puts, of a lanyard (R409, R410): one word moves per step of fuel. A waiting get that takes a word put in this pclk has it from the next. -/
def Dev.serveLanyard (n : Nat) : Nat → Dev → Dev
  | 0, d => d
  | fuel + 1, d =>
    let l := d.lanyard n
    match l.words, l.gets, l.puts with
    | w :: ws, h :: hs, _ =>
      let late : Nat := if ws.length < d.freshWords l then 1 else 0
      Dev.serveLanyard n fuel ((d.onLanyard n fun l => { l with words := ws, gets := hs, fresh := (d.pclk, min (d.freshWords l) ws.length) }).getDone late h w)
    | ws, [], (h, w) :: ps =>
      if ws.length < 8 then
        let d := ((d.onLanyard n fun l => { l with puts := ps }).pushWord n w).putDone h
        Dev.serveLanyard n fuel (if ws = [] then d.notify n else d)
      else d
    | [], _ :: _, (h, w) :: ps =>
      Dev.serveLanyard n fuel ((((d.onLanyard n fun l => { l with puts := ps }).pushWord n w).putDone h).notify n)
    | _, _, _ => d

/-- Serve whatever can move now. -/
def Dev.serve (n : Nat) (d : Dev) : Dev :=
  let l := d.lanyard n
  d.serveLanyard n (l.words.length + l.puts.length + l.gets.length)

/-- A put: done, or FULL with CAP_LNY_FULL (R408). Waiting puts go first (R410). -/
def Dev.tryPut (n : Nat) (w : W) (d : Dev) : Dev × Nat :=
  let ws := (d.lanyard n).words
  if ws.length < 8 then
    let d := d.pushWord n w
    ((if ws = [] then d.notify n else d).serve n, 0x00)
  else (d.bump Reg.capLnyFull, 0x04)

/-- A get: the oldest word, or NOT_FOUND with CAP_LNY_EMPTY (R408) when there is none but those put in this pclk (R409). -/
def Dev.tryGet (n : Nat) (d : Dev) : Dev × Option W :=
  match (d.lanyard n).words with
  | w :: ws =>
    if d.freshWords (d.lanyard n) ≤ ws.length then ((d.onLanyard n fun l => { l with words := ws }).serve n, some w)
    else (d.bump Reg.capLnyEmpty, none)
  | [] => (d.bump Reg.capLnyEmpty, none)

end Sys2Proof.Machine
end

