-- ==== Sys2Proof/Machine/Macsec.lean ====
section
/-! DEFINITION. MACsec on a port (R161, R561, R562, R565): the receive checks and the choice of the transmit association. -/
namespace Sys2Proof.Machine

/-- The secure associations of a port: key 32 port + index. -/
def Dev.sasOf (d : Dev) (port : Nat) : List (Nat × Sa) := d.she.sas.filter fun e => e.1 / 32 == port

/-- Change a secure association. -/
def Dev.onSa (k : Nat) (f : Sa → Sa) (d : Dev) : Dev :=
  match Map.find d.she.sas k with
  | some s => { d with she := { d.she with sas := Map.put d.she.sas k (f s) } }
  | none => d

/-- The lowest acceptable PN of a receive association (R561). -/
def Sa.lowest (s : Sa) : Nat := max s.pn (s.top - s.window)

/-- The receive check of a frame on a MACsec port: the device, and whether it passes (R561). It runs under the associations `sas` that stood when the frame's SecTAG reached the engine (R562), whose keys a tamper alarm has taken since (R565). A frame without a SecTAG fails with no counter of its own (log 16). -/
def Dev.macsecRx (port : Nat) (sas : Map Sa) (sec : Option SecTag) (d : Dev) : Dev × Bool :=
  match sec with
  | none => (d, false)
  | some t =>
    if !t.ec then (d.bump (Reg.shePNoTag port), false)
    else
      match sas.find? fun e => e.2.rx && e.2.keyed && d.she.rng != .stopped && e.2.sci == t.sci && e.2.an == t.an with
      | none => (d.bump (Reg.shePSaMiss port), false)
      | some (k, s0) =>
        let s : Sa := { s0 with top := match Map.find d.she.sas k with | some x => x.top | none => s0.top }
        if !t.icvOk then (d.bump (Reg.shePIcvFail port), false)
        else if t.pn < s.lowest then (d.bump (Reg.shePReplay port), false)
        else (d.onSa k fun s => { s with top := max s.top t.pn }, true)

/-- The outcome of protecting a frame that starts on a port: sent under an association and PN, or the copy ends EGRESS_DOWN. -/
inductive MacTx where
  | plain | sent (sa pn : Nat) | down
  deriving DecidableEq, Repr

/-- A frame starts on a port (R562, R565): on a MACsec port it takes the next PN of the active transmit association; without one that has its key, or at PN 2^64 - 1, the copy ends EGRESS_DOWN (log 16). -/
def Dev.macsecTx (port : Nat) (d : Dev) : Dev × MacTx :=
  if !(d.port port).macsec then (d, .plain)
  else
    match (d.sasOf port).find? fun e => !e.2.rx && e.2.active && e.2.keyed with
    | none => (d.bump (Reg.shePSaMiss port), .down)
    | some (k, s) =>
      if 2 ^ 64 - 1 ≤ s.pn then (d.bump (Reg.shePPnExhaust port), .down)
      else (d.onSa k fun s => { s with pn := s.pn + 1 }, .sent (k % 32) s.pn)

end Sys2Proof.Machine
end

