-- ==== Sys2Proof/Machine/Frames.lean ====
section
/-! DEFINITION. What happens to a packet's frame: head adjustment (R86), admission and linking (R169, R234, R248), the trap
and injection queues, release at ingress and at egress, and end-of-frame faults (05_packet_path.md, 07_coil.md). -/
namespace Sys2Proof.Machine

/-! ## The outgoing frame (R86) -/

/-- The outgoing frame of a packet after its ingress program. -/
def Pkt.out (p : Pkt) : List Byte := p.head ++ p.bytes.drop p.skip

/-- The outgoing frame of a copy after its egress program. -/
def Copy.frame (c : Copy) (p : Pkt) : List Byte := c.head ++ p.out.drop c.skip

/-- The packet was incomplete at its dispatch: m5 reads 0x3FFF, which no frame length is (R162). -/
def Pkt.late (p : Pkt) : Bool := Map.getD p.m 5 0 == 0x3FFF#64

/-- The copy was incomplete at its egress dispatch (R162). -/
def Copy.late (c : Copy) : Bool := Map.getD c.m 5 0 == 0x3FFF#64

/-- PRE_LEN of m7 (Table 3.3). -/
def preLen (a : Arch) : Nat := bits (a.getM 7).toNat 0 7

/-- HEAD_SKIP of m7. -/
def headSkip (a : Arch) : Nat := bits (a.getM 7).toNat 8 8

/-- The adjusted head: the last PRE_LEN prefix bytes, then the window from HEAD_SKIP to the bytes the frame has of it. -/
def headOf (a : Arch) (have' : Nat) : List Byte :=
  Memory.readBytes a.win (64 - preLen a) (preLen a) ++ Memory.readBytes a.win (64 + headSkip a) (min 256 have' - headSkip a)

/-- The bytes of the frame that the head stands for. -/
def headSpan (a : Arch) (have' : Nat) : Nat := max (min 256 have') (headSkip a)

/-- The fault of an adjusted length at a frame's end (R164), none within 64 to 9,416 B. -/
def sizeFault (len : Nat) : Option Nat :=
  if 9416 < len then some fOversize else if len < 64 then some fRunt else none

/-- The fault of a received frame (Table 5.2), the first that applies. -/
def rxFault (rxLen : Nat) (fcsBad macOk : Bool) : Option Nat :=
  if rxLen < 64 then some fRunt else if 9416 < rxLen then some fOversize else if fcsBad then some fFcs
  else if macOk then none else some fMacsec

/-- Bytes 12 and 13 of a frame are the EAPOL EtherType (R161). -/
def isEapol (bs : List Byte) : Bool := (bs.drop 12).take 2 == [0x88#8, 0x8E#8]

/-- Bytes 12 and 13 of a frame are the EtherType of MAC control frames (R160). -/
def isMacControl (bs : List Byte) : Bool := (bs.drop 12).take 2 == [0x88#8, 0x08#8]

/-- The MACsec check of a frame: passes off a MACsec port, and for EAPOL without a SecTAG (Table 5.2, R161). -/
def Dev.macsecOk (port : Nat) (sas : Map Sa) (sec : Option SecTag) (bytes : List Byte) (d : Dev) : Dev × Bool :=
  if !(d.port port).macsec ∨ (sec.isNone ∧ isEapol bytes) then (d, true) else d.macsecRx port sas sec

/-! ## Frames to host queues (R131, R426, R438, R439) -/

/-- Queue an event body on a lay's trap line, or lose it (R80, R115). -/
def Dev.toTrapLine (lay : Nat) (body : List Byte) (d : Dev) : Dev :=
  if (d.layOf lay).trapLine.length < 64 then d.onLay lay fun l => { l with trapLine := l.trapLine ++ [body] }
  else d.bump (Reg.layTrapLost lay)

/-- Write a frame into consecutive posted buffers of a NET_RECV queue pair (R439, Table 14.6). -/
def Dev.recvInto (q sub shade hash total : Nat) : List Buf → List Byte → Bool → Dev → Dev
  | [], _, _, d => d
  | b :: t, bs, start, d =>
    let now := bs.take b.len
    let rest := bs.drop b.len
    let fin := rest.isEmpty
    let dw1 := now.length % 65536 + ofBit start * 65536 + ofBit fin * 2 ^ 17 + sub % 256 * 2 ^ 18 + shade % 4 * 2 ^ 26
    let d := d.ownerWrite q b.addr now
    let d := d.complete q b.desc 0x00 [dw1, hash % 2 ^ 32, if start then total else 0, 0, d.ns % 2 ^ 32, d.ns / 2 ^ 32]
    let d := d.onQp q fun x => { x with bufs := x.bufs.drop 1 }
    if fin then d else Dev.recvInto q sub shade hash total t rest false d

/-- A TRAP terminal copies the frame to the host: steered buffers, the RDMA engine, or the TRAP event source (R131, R426, R439, Table 14.9). -/
def Dev.trapFrame (strand sub hash shade : Nat) (frame : List Byte) (d : Dev) : Dev :=
  if d.rdm.set ∧ (sub = d.rdm.plain ∨ sub = d.rdm.enc) then
    if (d.rdm.rx.map (·.2)).sum + frame.length ≤ 4194304 then
      { d with rdm := { d.rdm with rx := d.rdm.rx ++ [(sub == d.rdm.enc, frame.length)] } }
    else d.bump Reg.rdmRxNobuf
  else
    match Map.find d.hif.steer sub with
    | some (q0, k) =>
      let q := q0 + hash % 2 ^ k
      let x := d.qp q
      if x.st = .active ∧ x.kind = 1 ∧ frame.length ≤ (x.bufs.map (·.len)).sum then
        d.recvInto q sub shade hash frame.length x.bufs frame true
      else d.bump Reg.hifRxNobuf
    | none => d.toTrapLine (strand / 16) (le 2 strand ++ le 1 sub ++ le 5 0 ++ le 8 d.ns ++ frame)

/-! ## Cells of a packet -/

/-- The peaks of the queues that hold copies of a packet follow the cells it now has (R248). -/
def Dev.peaks (k : Nat) (d : Dev) : Dev :=
  match d.pkt k with
  | none => d
  | some p => p.copies.foldl
      (fun d e =>
        let q := 8 * e.2.port + e.2.cls
        if e.2.pos = .queued ∧ e.2.fate.isNone then
          d.onPath fun y => { y with queues := Map.modify y.queues q {} fun x => { x with peak := max x.peak (d.queueCells q) } }
        else d) d

/-- Charge n more cells of a packet to its account; false on an admission failure (R246), counted on the account (R247). -/
def Dev.takeIn (k n share : Nat) (d : Dev) : Dev × Bool :=
  match d.pkt k with
  | none => (d, false)
  | some p =>
    let r := d.takeCells p.acct share n
    (((r.1.countDraw p.acct r.2 p.yellowSeen p.pastSeen n).onPkt k fun p => { p with
      cells := p.cells + r.2.placed, yellowSeen := p.yellowSeen || r.2.yellow, pastSeen := p.pastSeen || (r.2.past && 256 ≤ p.acct) }).peaks k,
     r.2.placed == n)

/-- The colour share of a packet's ingress draw: a yellow frame on a lossy account draws half (R233). -/
def Dev.shareOf (d : Dev) (p : Pkt) : Nat :=
  if 256 ≤ p.acct ∧ p.acct < 2304 ∧ !d.lossless (acctPort p.acct) ((p.acct - 256) % 8) ∧ bits (Map.getD p.m 2 0).toNat 0 2 = 1
  then 2 else 1

/-! ## End-of-frame faults (R165, Table 5.3) -/

/-- A queued copy leaves its queue (R266). -/
def Dev.unqueue (k c : Nat) (x : Copy) (d : Dev) : Dev :=
  let q := 8 * x.port + x.cls
  let cs := (Map.getD d.path.queues q {}).copies
  if cs.contains (k, c) then
    d.onPath fun y => { y with
      queues := Map.modify y.queues q {} fun e =>
        let cs := e.copies.filter (· != (k, c))
        if cs = [] then { e with copies := [], deficit := 0, awarded := false } else { e with copies := cs }
      rrNext := if cs = [(k, c)] then Map.put y.rrNext x.port ((x.cls + 1) % 8) else y.rrNext }
  else d

/-- A fault found on one copy: discarded at the coil, stomped in transmit, or left to its egress release (Table 5.3). -/
def Dev.faultCopy (k fate : Nat) (c : Nat) (d : Dev) : Dev :=
  match d.copy k c with
  | none => d
  | some x =>
    match x.pos with
    | .queued | .picked => (d.unqueue k c x).endCopy k c fate 0
    | .transmit => d.endCopy k c fate 0
    | .sending =>
      (d.onCopy k c fun y => { y with stomp := true }).endCopy k c fate 0
    | _ => d

/-- The fault fate replaces whatever the programs decided (R165, R246, Table 5.3). A packet still with its ingress program runs on; one not yet dispatched is not dispatched. -/
def Dev.fault (k fate : Nat) (d : Dev) : Dev :=
  match d.pkt k with
  | none => d
  | some p =>
    if p.fault ∨ p.final then d
    else
      let d := d.onPkt k fun p => { p with fault := true, fate := some fate, code := 0, fateNs := max p.fateNs d.ns }
      let d := p.copies.foldl (fun d e => d.faultCopy k fate e.1) d
      match p.place with
      | .arrival | .waiting =>
        ((d.onPkt k fun p => { p with place := .gone }).freeAll k).settle k
      | .linked | .slowLine => (d.freeUnread k).settle k
      | _ => d.settle k

/-! ## Linking (R169 to R171, R174, R234, R248, R306) -/

/-- A copy is cut through (R174): the class is in the ingress port's mask and the egress rate is at most the ingress rate. -/
def Dev.cutThrough (d : Dev) (p : Pkt) (port cls : Nat) : Bool :=
  p.iport != 0x1FF && p.inj.isNone && bit (d.port (p.iport % 256)).ctMask cls
    && (d.port port).speed ≤ (d.port (p.iport % 256)).speed

/-- Link one copy to queue (port, class), its mode decided (R171, R174, R248, R287); to a port that takes none it is only made, to end at once. -/
def Dev.linkCopy (k port : Nat) (mirror : Bool) (dest : Nat) (d : Dev) : Dev :=
  match d.pkt k with
  | none => d
  | some p =>
    let cls := bits (Map.getD p.m 1 0).toNat 0 3
    let c := p.copies.length
    let x : Copy := { port, cls, mirror, cut := d.cutThrough p port cls, m := p.m, dest, wait := p.wait }
    let d := d.onPkt k fun p => { p with copies := Map.put p.copies c x }
    let d := ((d.bump (Reg.logEgLinked port)).bump (Reg.logEgQueued port)).bumpIf mirror (Reg.logEgMirror port)
    if d.portTakes port then
      let q := 8 * port + cls
      let d := d.onPath fun y => { y with queues := Map.modify y.queues q {} fun e => { e with copies := e.copies ++ [(k, c)] } }
      let n := d.queueCells q
      d.onPath fun y => { y with queues := Map.modify y.queues q {} fun e => { e with peak := max e.peak n } }
    else d.onCopy k c fun y => { y with dead := true }

/-- The copies of a packet that a port took none of end EGRESS_DOWN, once every copy is linked (R171). -/
def Dev.endUnlinked (k : Nat) (d : Dev) : Dev :=
  match d.pkt k with
  | none => d
  | some p => p.copies.foldl (fun d e => if e.2.dead && e.2.pos == .queued then d.endCopy k e.1 fEgressDown 0 else d) d

/-- The ports of a port map that a frame may be replicated to: configured, and not its ingress port (R15, R171). -/
def Dev.groupPorts (d : Dev) (p : Pkt) (map : Nat) : List Nat :=
  (bitList map d.lanes).filter fun e => (Map.find d.path.ports e).isSome && (p.iport == 0x1FF || e != p.iport % 256)

/-- Where a FWD goes (Table 5.4): a drop fate, or the destination ports with the braid destination a DATA header names. -/
inductive Forward where
  | drop (fate : Nat) (port : Nat)
  | to (ports : List Nat) (dest : Nat)
  deriving DecidableEq, Repr

/-- Table 5.4, in its order. -/
def Dev.forward (k : Nat) (d : Dev) : Forward × Dev :=
  match d.pkt k with
  | none => (.drop fNoDest 0x1FF, d)
  | some p =>
    let m3 := (Map.getD p.m 3 0).toNat
    let kind := bits m3 24 2
    let t := bits m3 0 24
    let cls := bits (Map.getD p.m 1 0).toNat 0 3
    if kind = 0 then (.drop fNoDest 0x1FF, d)
    else if bits (Map.getD p.m 2 0).toNat 0 2 = 2 then (.drop fPoliceRed 0x1FF, d)
    else if kind = 1 then
      let e := t % 256
      if d.lanes ≤ e ∨ (Map.find d.path.ports e).isNone then (.drop fNoDest 0x1FF, d)
      else if !d.portTakes e then (.drop fEgressDown e, d)
      else (.to [e] 0, d)
    else if kind = 2 then
      match Map.find (d.shade p.shade).groups t with
      | none => (.drop fNoDest 0x1FF, d)
      | some map =>
        match d.groupPorts p map with
        | [] => (.drop fNoDest 0x1FF, d)
        | ps => (.to ps 0, d)
    else if d.brd.node = 0 ∨ d.brd.prov then (.drop fNoRoute 0x1FF, d)
    else
      match d.resolve p.shade t 65 t false with
      | .deliver | .none => (.drop fNoRoute 0x1FF, d)
      | .onLink e _ _ => (.to [e] t, d)
      | .route r _ _ =>
        match d.nextHop r (Map.getD p.m 9 0).toNat cls with
        | (some e, d) => (.to [e] t, d)
        | (none, d) => (.drop fEgressDown 0x1FF, d)

/-- The mirror ports of a frame whose m6[3] is 1 (R306): none, counted, when the group is not defined. -/
def Dev.mirrorPorts (k : Nat) (d : Dev) : List Nat × Dev :=
  match d.pkt k with
  | none => ([], d)
  | some p =>
    if bit (Map.getD p.m 6 0).toNat 3 then
      match Map.find (d.shade p.shade).groups (bits (Map.getD p.m 11 0).toNat 0 16) with
      | some map => (d.groupPorts p map, d)
      | none => ([], d.bump Reg.logMirrorMiss)
    else ([], d)

/-- The cells of a released frame move from the arrival account to the ingress account of (m0 port, m1 class), with one more for a prefix (R228, R234, R235); false on an admission failure. -/
def Dev.moveCells (k : Nat) (pre : Nat) (d : Dev) : Dev × Bool :=
  match d.pkt k with
  | none => (d, false)
  | some p =>
    if p.acct = injAcct then
      if pre = 0 then ((d.onPkt k fun p => { p with pfx := false }).giveCells injAcct (if p.pfx then 1 else 0), true) else (d, true)
    else if 256 ≤ p.acct then (d, true)
    else
      let n := p.cells - p.freed
      let k' := ingAcct (p.iport % 256) (bits (Map.getD p.m 1 0).toNat 0 3)
      let d := (d.onAcct p.acct (Acct.give n)).onPkt k fun p => { p with acct := k', freed := 0, cells := n }
      let m := n + (if pre = 0 then 0 else 1)
      let r := d.takeCells k' (d.shareOf { p with acct := k' }) m
      let d := (r.1.countDraw k' r.2 p.yellowSeen p.pastSeen m).onPkt k fun p => { p with
        yellowSeen := p.yellowSeen || r.2.yellow, pastSeen := p.pastSeen || r.2.past }
      if r.2.placed = m then ((d.onPkt k fun p => { p with pfx := pre != 0 }).xonAll, true)
      else ((d.onPkt k fun p => { p with cells := r.2.placed }).xonAll, false)

/-! ## Injected frames (R235, R438) -/

/-- Cells an injected frame needs, the one for the prefix cell among them (R235). -/
def Inject.cells (j : Inject) : Nat := ceilDiv j.bytes.length 256 + 1

/-- Take an injected frame to the coil and its lay's injection queue, if its cells are available (R235). -/
def Dev.admitInject (lay : Nat) (j : Inject) (d : Dev) : Option Dev :=
  let r := d.takeCells injAcct 1 j.cells
  if r.2.placed = j.cells then some (r.1.onLay lay fun l => { l with inject := l.inject ++ [j] }) else none

/-- The first waiting frame of each queue pair: a frame waits in its own queue (R235). -/
def injectHeads (l : List (Nat × Inject)) : List (Nat × Inject) :=
  l.foldl (fun a e => if a.any fun x => x.2.qp == e.2.qp then a else a ++ [e]) []

/-- A frame at the head of its queue that waits for cells, admitted; none where nothing that waits fits. -/
def Dev.retryOne (d : Dev) : Option Dev :=
  (injectHeads d.path.injWait).findSome? fun e =>
    (d.admitInject e.1 e.2).map fun d => d.onPath fun y => { y with injWait := y.injWait.erase e }

/-- Frames that wait for cells are admitted, those of one queue in order, until none fits (R235). -/
def Dev.retryInject : Nat → Dev → Dev
  | 0, d => d
  | n + 1, d =>
    match d.retryOne with
    | some d => Dev.retryInject n d
    | none => d

/-- A frame is injected: at once, or behind those of its queue that wait, its wait counted (R235). -/
def Dev.injectFrame (lay : Nat) (j : Inject) (d : Dev) : Dev :=
  let d := d.retryInject 4096
  match if d.path.injWait.any (fun e => e.2.qp == j.qp) then none else d.admitInject lay j with
  | some d => d
  | none => (d.onPath fun y => { y with injWait := y.injWait ++ [(lay, j)] }).bump Reg.coilInjectWait

end Sys2Proof.Machine
end

