-- ==== Sys2Proof/Machine/Release.lean ====
section
/-! DEFINITION. Release of a packet from its ingress or slow-path program and of a copy from its egress program (R101,
R169 to R173), fibres taken up and freed, traps (R99 to R117). -/
namespace Sys2Proof.Machine

/-! ## Charges at the end of a frame (R163, R267, R269, R276, R281) -/

/-- Debit a bucket, never below -2^40 (R276). -/
def Bucket.debit (n : Int) (b : Bucket) : Bucket := { b with level := max (-(2 ^ 40)) (b.level - n) }

/-- Add packets and bytes to counter i of the lookup fabric (R163). -/
def Dev.addCounter (i pk by' : Nat) (d : Dev) : Dev :=
  { d with tbl := { d.tbl with counters := Map.modify d.tbl.counters i (0, 0) fun c =>
      (c.1 + BitVec.ofNat 64 pk, c.2 + BitVec.ofNat 64 by') } }

/-- At the end of an incomplete frame: the bytes of its COUNTs, and the remainders of its POLICEs (R163, R276). -/
def Dev.endCharges (k : Nat) (d : Dev) : Dev :=
  match d.pkt k with
  | none => d
  | some p =>
    let n (off : Int) : Nat := (p.bytes.length + off).toNat
    let d := p.counts.foldl (fun d e => d.addCounter e.1 0 (n e.2)) d
    let d := p.polices.foldl
      (fun d e => d.onPath fun y => { y with
        polC := if e.2.1 then Map.modify y.polC e.1 {} (Bucket.debit ((n e.2.2.2 : Int) - 256)) else y.polC
        polP := if e.2.2.1 then Map.modify y.polP e.1 {} (Bucket.debit ((n e.2.2.2 : Int) - 256)) else y.polP }) d
    d.onPkt k fun p => { p with counts := [], polices := [] }

/-- A pick made while the frame was incomplete: the queue, shaper and credit of that pick are corrected by LENGTH - 256 (R267, R269, R281). -/
def Dev.settlePick (len : Nat) (e : Nat × Option Nat × Nat) (d : Dev) : Dev :=
  let more : Int := (len : Int) - 256
  let d := d.onPath fun y => { y with
    queues := if (Map.getD y.queues e.1 {}).copies = [] then y.queues
      else Map.modify y.queues e.1 {} fun x => { x with deficit := x.deficit - more }
    shapers := match e.2.1 with
      | some s => Map.modify y.shapers s {} fun b => { b with level := b.level - more }
      | none => y.shapers }
  let d : Dev := { d with ctr := Map.modify d.ctr (Reg.schedQTxBytes e.1) 0 fun v => v + BitVec.ofInt 64 more }
  if e.2.2 = 0 then d
  else d.onLink (e.1 / 8) fun l => { l with
    sent := Map.modify l.sent (e.1 % 8) 0 fun s => (s + 2 ^ 32 + ceilDiv len 256 - e.2.2) % 2 ^ 32 }

/-- The picks of a copy made while its frame was incomplete are settled at the frame's end (R267, R269, R281). -/
def Dev.endCopyCharge (k c : Nat) (d : Dev) : Dev :=
  match d.pkt k, d.copy k c with
  | some p, some x => (x.owed.foldl (fun d e => d.settlePick p.out.length e) d).onCopy k c fun y => { y with owed := [] }
  | _, _ => d

/-- The frame of a packet is complete: the entries of its copies in egress lines have their lengths, and a stored transit copy its time (R263, R344). -/
def Dev.lineEnd (k : Nat) (d : Dev) : Dev :=
  match d.pkt k with
  | none => d
  | some p => p.copies.foldl
      (fun d e =>
        let s := (d.port (p.iport % 256)).wirePclk (p.rxLen + 16)
        let fill (l : LineEnt) : LineEnt :=
          if l.pkt = k ∧ l.copy = e.1 then
            { l with
              len := l.ready.map fun _ => (e.2.frame p).length
              least := d.pclk }
          else l
        let stored (l : LineEnt) : LineEnt :=
          if l.pkt = k ∧ l.copy = e.1 ∧ p.transit.isSome ∧ e.2.pos = .transmit ∧ !e.2.cut then
            { l with
              ready := some (e.2.due + s - (d.port e.2.port).lTx)
              len := some (e.2.frame p).length }
          else l
        d.onPath fun y => { y with lines := Map.modify y.lines e.2.port [] fun ls => ls.map fun l => stored (fill l) }) d

/-! ## Release (R101, R169 to R173, R306) -/

/-- Finish an ingress packet by a drop fate: its cells are freed; nothing is linked but mirror copies. -/
def Dev.dropIngress (k fate code : Nat) (d : Dev) : Dev :=
  let d := d.onPkt k fun p => if p.fault then p else { p with fate := some fate, code, place := .linked, fateNs := max p.fateNs d.ns }
  (d.freeUnread k).settle k

/-- The write-back of a released frame moves through the coil, and what it waits grows segment 4 of its copies (R256, R258). -/
def Dev.writeBack (k : Nat) (d : Dev) : Dev :=
  match d.pkt k with
  | none => d
  | some p =>
    if p.wback = 0 then d
    else
      let r := d.moveBytes p.wback
      r.2.onPkt k fun p => { p with wback := 0, wait := r.1 }

/-- Link every copy, mirror copies beside what the terminal did (R306); the cells move first when anything is linked (R234), and copies to ports that take none end last (R171). -/
def Dev.linkAll (k : Nat) (ports : List Nat) (dest : Nat) (mirrors : List Nat) (pre : Nat) (d : Dev) : Dev × Bool :=
  if ports = [] ∧ mirrors = [] then (d, true)
  else
    let r := (d.writeBack k).moveCells k pre
    if r.2 then
      let d := ports.foldl (fun d e => d.linkCopy k e false dest) r.1
      ((mirrors.foldl (fun d e => d.linkCopy k e true 0) d).endUnlinked k, true)
    else (r.1, false)

/-- Link one copy, to end EGRESS_DOWN where its port takes none. -/
def Dev.linkAll1 (k port dest : Nat) (d : Dev) : Dev := (d.linkCopy k port false dest).endUnlinked k

/-- Copies of a frame for a host queue, each with its strand, sub-code, hash and, at egress, its copy, are delivered (R131, R172). -/
def Dev.giveHost (k : Nat) (es : List (Nat × Nat × Nat × Option Nat)) (d : Dev) : Dev :=
  match d.pkt k with
  | none => d
  | some p => es.foldl
      (fun d e =>
        let frame := match e.2.2.2 with | none => p.out | some c => ((Map.find p.copies c).map (·.frame p)).getD []
        d.trapFrame e.1 e.2.1 e.2.2.1 p.shade frame) d

/-- A TRAP terminal's copy for a host queue: of a complete frame at once, of an incomplete one at its end if that shows no fault (R165). -/
def Dev.toHostQueue (k strand sub hash : Nat) (copy : Option Nat) (d : Dev) : Dev :=
  if (d.pkt k).any (·.whole) then d.giveHost k [(strand, sub, hash, copy)]
  else d.onPkt k fun p => { p with toHost := p.toHost ++ [(strand, sub, hash, copy)] }

/-- The end of a frame without a fault: the copies kept for host queues are delivered (R165). -/
def Dev.hostAtEnd (k : Nat) (d : Dev) : Dev :=
  match d.pkt k with
  | none => d
  | some p => (d.giveHost k p.toHost).onPkt k fun p => { p with toHost := [] }

/-- The terminal of an ingress or slow-path program takes effect at its release (R101, R109, Table 5.4, R306, Table 5.3 row 1). -/
def Dev.release (k : Nat) (d : Dev) : Dev :=
  match d.pkt k with
  | none => d
  | some p =>
    if p.fault then ((d.onPkt k fun p => { p with place := .gone }).freeAll k).settle k
    else
      let d := d.onPkt k fun p => { p with place := .linked }
      let pre := bits (Map.getD p.m 7 0).toNat 0 7
      match p.term with
      | none => d
      | some .slow => d
      | some .fwd =>
        match if p.whole ∧ p.late then sizeFault p.out.length else none with
        | some f => d.fault k f
        | none =>
          let r := d.forward k
          let m := r.2.mirrorPorts k
          match r.1 with
          | .drop f e =>
            let d := m.2.onPkt k fun p => { p with eport := e }
            let l := d.linkAll k [] 0 m.1 pre
            if l.2 then l.1.dropIngress k f 0 else l.1.fault k fHoldOverflow
          | .to ps dest =>
            let l := m.2.linkAll k ps dest m.1 pre
            if l.2 then (l.1.freeIfDone k).settle k else l.1.fault k fHoldOverflow
      | some (.drop f) =>
        let m := d.mirrorPorts k
        let l := m.2.linkAll k [] 0 m.1 pre
        if l.2 then l.1.dropIngress k f 0 else l.1.fault k fHoldOverflow
      | some (.trap sub) =>
        let m := d.mirrorPorts k
        let l := m.2.linkAll k [] 0 m.1 pre
        if l.2 then
          (l.1.toHostQueue k p.strand sub (Map.getD p.m 9 0).toNat none).dropIngress k fTrapped sub
        else l.1.fault k fHoldOverflow

/-- A packet ended by the slow terminal enters its lay's slow line, its adjusted head written back, or is dropped (R107, R173). A frame that ended since its dispatch is checked now (R164). -/
def Dev.toSlowLine (k lay : Nat) (d : Dev) : Dev :=
  match d.pkt k with
  | none => d
  | some p =>
    if p.fault then d.release k
    else if p.whole && p.late && (sizeFault p.out.length).isSome then
      (d.onPkt k fun p => { p with place := .linked }).fault k ((sizeFault p.out.length).getD fRunt)
    else if (d.layOf lay).slowLine.length < 64 then
      (d.onPkt k fun p =>
        let by' : Int := (p.bytes.length : Int) - p.out.length
        { p with
          place := .slowLine, lay, bytes := p.out, head := [], skip := 0
          counts := p.counts.map fun e => (e.1, e.2 + by')
          polices := p.polices.map fun e => (e.1, e.2.1, e.2.2.1, e.2.2.2 + by') }).onLay lay
        fun l => { l with slowLine := l.slowLine ++ [k] }
    else (d.bump (Reg.laySlowFull lay)).dropIngress k fSlowLineFull 0

/-- A copy released by its egress program: transmitted, dropped, trapped, or ended by what befell it meanwhile (R172, R253, Table 5.3 row 2). -/
def Dev.releaseCopy (k c : Nat) (d : Dev) : Dev :=
  match d.pkt k, d.copy k c with
  | some p, some x =>
    if x.fate.isSome then d
    else if x.dead then d.endCopy k c fEgressDown 0
    else if p.fault then d.endCopy k c (p.fate.getD fFcs) 0
    else
      match x.term with
      | some (.drop f) => d.endCopy k c f 0
      | some (.trap sub) =>
        (d.toHostQueue k x.strand sub (Map.getD x.m 9 0).toNat (some c)).endCopy k c fTrapped sub
      | some .fwd =>
        if bits (Map.getD x.m 2 0).toNat 0 2 = 2 then d.endCopy k c fPoliceRed 0
        else
          match if p.whole ∧ x.late then sizeFault (x.frame p).length else none with
          | some f => d.fault k f |>.endCopy k c f 0
          | none =>
            (d.onCopy k c fun y => { y with pos := .transmit, due := d.pclk }).onPath fun y => { y with
              lines := Map.modify y.lines x.port [] fun ls => ls.map fun l =>
                if l.pkt = k ∧ l.copy = c then
                  { l with
                    ready := some d.pclk
                    len := if p.whole then some (x.frame p).length else none }
                else l }
      | _ => d
  | _, _ => d

/-! ## Fibres taken up and freed (R83, R99, R101, R132) -/

/-- Fibre f runs fast-path work of shade n: below 8 - X, in a strand in service, by the shade's fibre map (R105, R106, R181). -/
def Dev.fastPath (n f : Nat) (d : Dev) : Bool :=
  let s := d.progSet n (fibreLay f)
  f % 8 < 8 - s.x && bit s.strands (f / 8 % 16)

/-- Fibre f is an exception fibre for work of shade n (R105, R181). -/
def Dev.exception (n f : Nat) (d : Dev) : Bool :=
  let s := d.progSet n (fibreLay f)
  8 - s.x ≤ f % 8 && bit s.strands (f / 8 % 16)

/-- Fibre f is free. -/
def Dev.freeFibre (d : Dev) (f : Nat) : Bool := (d.fibre f).run.isNone

/-- The header window and prefix area of a dispatched frame: its first 256 bytes, zeros beyond it and before it (Table 3.2). -/
def windowOf (bs : List Byte) : List Host.Cell := Memory.writeBytes [] 64 (bs.take 256)

/-- m5 and m6[0] of a frame: its length and CUT (R162). -/
def lengthOf (whole : Bool) (n : Nat) : W := if whole then BitVec.ofNat 64 n else 0x3FFF#64

/-- Set m6[0] CUT, keeping the other flags. -/
def withCut (m6 : W) (cut : Bool) : W := (m6 &&& ~~~(1#64)) ||| BitVec.ofNat 64 (ofBit cut)

/-- The guaranteed slot of fibre f in the 8 pclk that end at a pclk (R90, R99). -/
def slotBy (f t : Nat) : Nat := t - (t + 8 - f % 8) % 8

/-- Start a run on fibre f with registers as Table 3.2 gives them (R83); a dispatched fibre issues its first bundle in its guaranteed slot of the 8 pclk ending at D (R99), a slow-path one from its start on. -/
def Dev.start (f : Nat) (r : Run) (entry : Entry) (m : Map W) (window : List Host.Cell) (d : Dev) : Dev :=
  let a : Arch := { m, win := window }
  d.onFibre f fun x => { x with
    arch := a, iss := a, undo := [], slot := 0, pc := entry.pc, run := some r, ended := none, parked := false
    trapped := none, block := none, subs := [], waits := [], autUnits := [], hits := [], hitTabs := [], avail := []
    fetch := if r.role = .slow then r.d else slotBy f r.d }

/-- A fibre is freed, from the next pclk on: every cleat it still holds is released (R101, R132). Posts still under way stay, dead. -/
def Dev.freeF (f : Nat) (d : Dev) : Dev :=
  (d.onFibre f fun x => { x with
    run := none, ended := none, parked := false, trapped := none, block := none, subs := [], waits := [], slot := 0, freeAt := d.pclk + 1
    posts := x.posts.map fun p => { p with dead := true } }).dropCleats (.fibre f)

/-- Entries of a lay's release line (R80, R101). -/
def Dev.releaseLine (d : Dev) (lay : Nat) : Nat :=
  (d.path.pkts.map fun e =>
    (match e.2.place with | .releaseLine _ => if e.2.lay = lay then 1 else 0 | _ => 0)
      + (e.2.copies.filter fun c => match c.2.pos with | .egressLine _ => c.2.port / 8 == lay | _ => false).length).sum

/-- Bytes a write-back at ingress release writes: 64 for each 64-byte segment of the window stored into that lies within the new frame, 64 for a prefix (R256). -/
def writeBytes (a : Arch) (n : Nat) : Nat :=
  64 * ((List.range 4).filter fun j => bit a.dirt j && headSkip a < 64 * (j + 1) && 64 * j < n).length + (if preLen a = 0 then 0 else 64)

/-- What the terminal leaves to its packet or copy: the metadata, the adjusted head and how the program ended (R26, R86). -/
def Dev.stash (f : Nat) (t : Term) (d : Dev) : Dev :=
  let x := d.fibre f
  match x.run with
  | none => d
  | some r =>
    let a := x.arch
    match r.role with
    | .vector => d
    | .egress =>
      d.onPkt r.pkt fun p =>
        let n := p.out.length
        let p := Pkt.onCopy r.copy (fun c => { c with m := a.m, head := headOf a n, skip := headSpan a n, term := some t, strand := f / 8 }) p
        { p with stale := p.stale || bit (a.getM 6).toNat 1, suspect := p.suspect || bit (a.getM 6).toNat 2 }
    | _ =>
      d.onPkt r.pkt fun p =>
        let n := p.bytes.length
        { p with
          m := a.m, head := headOf a n, skip := headSpan a n, term := some t, strand := f / 8
          hash := bits (a.getM 9).toNat 0 32, mirror := bit (a.getM 6).toNat 3, cls := bits (a.getM 1).toNat 0 3
          domain := bits (a.getM 10).toNat 0 16, wback := writeBytes a n
          stale := p.stale || bit (a.getM 6).toNat 1, suspect := p.suspect || bit (a.getM 6).toNat 2 }

/-- A program that has ended, with no lane operation outstanding: the packet enters the release line and the fibre is free, or the fibre holds it while the line is full; a slow or vector run frees its fibre (R101, R109, R116). -/
def Dev.park (f : Nat) (d : Dev) : Dev :=
  let x := d.fibre f
  match x.run, x.ended with
  | some r, some _ =>
    if x.parked ∨ x.posts.any (!·.dead) then d
    else
      match r.role with
      | .slow | .vector => d.freeF f
      | _ =>
        let lay := fibreLay f
        if d.releaseLine lay < 256 then
          let d := if r.role = .egress then d.onCopy r.pkt r.copy fun c => { c with pos := .egressLine (r.d + r.e) }
            else d.onPkt r.pkt fun p => { p with place := .releaseLine (r.d + r.e), lay }
          d.freeF f
        else (d.bump (Reg.layReleaseHold lay)).onFibre f fun x => { x with parked := true }
  | _, _ => d

/-! ## Traps (R111 to R117) -/

/-- Bit of each lane with a post outstanding (Table 3.9). -/
def Fibre.laneBits (x : Fibre) : Nat :=
  ((List.range 4).map fun l => if x.posts.any fun p => p.lane == l && !p.dead then 2 ^ l else 0).sum

/-- The 32 bytes of a trap record before the registers (Table 3.9); t - D of a trap before D is negative, in two's complement (log 72). -/
def trapHead (f : Nat) (x : Fibre) (r : Run) (cause slot ns t len : Nat) (whole : Bool) : List Byte :=
  let exc : Bool := r.role == .slow
  le 1 cause ++ le 1 (ofBit (r.role == .egress) + 2 * ofBit exc + 4 * ofBit (!whole))
    ++ le 2 (f / 8 + f % 8 * 512 + r.shade % 4 * 4096) ++ le 2 x.pc ++ le 1 slot ++ le 1 0 ++ le 8 ns
    ++ le 4 (if exc then 0 else r.e) ++ le 4 (unsigned 32 ((t : Int) - r.d)) ++ le 4 (len % 16384) ++ le 4 0

/-- The registers, predicates and lane bits of a trap record (Table 3.9). -/
def trapRegs (x : Fibre) : List Byte :=
  (List.range 32).flatMap (fun n => le 8 (x.arch.getW n).toNat) ++ (List.range 16).flatMap (fun n => le 8 (x.arch.getM n).toNat)
    ++ le 8 (x.arch.p.toNat + x.laneBits * 256) ++ List.replicate 24 0

/-- The trap record and frame of Table 3.9, from the state the trap leaves. -/
def trapRecord (f : Nat) (x : Fibre) (r : Run) (cause slot ns t : Nat) (frame : List Byte) (whole : Bool) : List Byte :=
  trapHead f x r cause slot ns t frame.length whole ++ trapRegs x
    ++ Memory.readBytes x.arch.win 0 64 ++ Memory.readBytes x.arch.win 64 256 ++ frame

/-- Automaton results not yet taken are abandoned (R320): those already delivered count now, the others when they arrive. -/
def Dev.abandonSubs (f : Nat) (d : Dev) : Dev :=
  let n := ((d.fibre f).subs.filter (·.word.isSome)).length
  (d.onFibre f fun x => { x with subs := [], waits := [] }).add Reg.autResultAbandon n

/-- Undo the bundle that is issuing: registers as they stood at its issue, and the strand-scratch bytes it stored (R113). -/
def Dev.undoBundle (f : Nat) (d : Dev) : Dev :=
  let x := d.fibre f
  if x.slot = 0 then d
  else
    ({ d with mem := { d.mem with scratch := x.undo.foldl (fun m e => Memory.write m e.1 e.2) d.mem.scratch } } : Dev).onFibre f
      fun x => { x with arch := x.iss, undo := [] }

/-- A trap of fibre f at the present pclk (R113 to R117): the bundle has no effect, results outstanding are discarded, the record is queued, the packet or copy takes TRAP_FAULT. In a trap vector the fibre is freed at once. -/
def Dev.trapF (f cause : Nat) (d : Dev) : Dev :=
  let slot := (d.fibre f).slot
  let d := d.undoBundle f
  let x := d.fibre f
  match x.run with
  | none => d
  | some r =>
    let lay := fibreLay f
    let d := (d.bump (Reg.layTrap lay)).onLay lay fun l => { l with lastTrap := cause + f / 8 * 256 + f % 8 * 2 ^ 17 }
    if r.role = .vector then d.freeF f
    else
      let (frame, whole) : List Byte × Bool := match d.pkt r.pkt with
        | some p => (if r.role = Role.egress then p.out else p.bytes, p.whole)
        | none => ([], true)
      let d := d.toTrapLine lay (trapRecord f x r cause slot d.ns d.pclk frame whole)
      let d := d.onFibre f fun x => { x with
        run := some { r with role := Role.vector }, ended := none, parked := false, block := none, slot := 0
        trapped := some ⟨cause, d.pclk⟩
        posts := x.posts.map fun p => { p with dead := true } }
      let d := (d.abandonSubs f).leaveWaits (.fibre f)
      let d := d.onPkt r.pkt fun p => { p with
        stale := p.stale || bit (x.arch.getM 6).toNat 1, suspect := p.suspect || bit (x.arch.getM 6).toNat 2 }
      if r.role = Role.egress then
        match d.copy r.pkt r.copy, d.pkt r.pkt with
        | some c, some p =>
          if c.dead then d.endCopy r.pkt r.copy fEgressDown 0
          else if p.fault then d.endCopy r.pkt r.copy (p.fate.getD fFcs) 0
          else d.endCopy r.pkt r.copy fTrapFault cause
        | _, _ => d
      else
        let d := d.onPkt r.pkt fun p => if p.fault then { p with place := .linked }
          else { p with place := .linked, code := cause, fate := some fTrapFault, fateNs := max p.fateNs d.ns }
        (d.freeAll r.pkt).settle r.pkt

end Sys2Proof.Machine
end

