-- ==== Sys2Proof/Machine/Packet.lean ====
section
/-! DEFINITION. Frames on the wire side: arrival, frame end, transmit, ports going down (R160 to R165, R176, R252, R253, R286). -/
namespace Sys2Proof.Machine

/-! ## Arrival (R161, R162, R228, R284, R287) -/

/-- A new ingress packet: counted in IN and RESIDENT of its row (R284, R287). -/
def Dev.newPkt (p : Pkt) (d : Dev) : Dev :=
  ((d.onPath fun x => { x with pkts := Map.put x.pkts x.nextPkt p, nextPkt := x.nextPkt + 1 }).bump
    (Reg.logIn (fateRow p.iport))).bump (Reg.logResident (fateRow p.iport))

/-- A frame's reference point passes a port: its cells are charged as its bytes arrive, and a complete frame is checked (R161, Table 5.2, R246). -/
def Dev.arrive (port : Nat) (bytes : List Byte) (rxLen : Nat) (fcsBad : Bool) (sec : Option SecTag) (d : Dev) : Dev :=
  let k := d.path.nextPkt
  let f := d.port port
  let whole : Bool := rxLen ≤ 256
  let bytes := bytes.take 9416
  let d := d.newPkt {
    iport := port + ofBit f.braid * 256, bytes, sas := d.sasOf port, whole, rxLen, refNs := d.ns, refPclk := d.pclk
    rxBytes := bytes.length, due := d.pclk + f.lRx + 96, lay := port / 8, acct := arrAcct port, hdr := bytes.take 112, cls := f.defCls, domain := f.domain }
  let a := d.takeIn k (ceilDiv bytes.length 256) 1
  if !a.2 then a.1.fault k fHoldOverflow
  else if whole then
    let r := a.1.macsecOk port (d.sasOf port) sec bytes
    match rxFault rxLen fcsBad r.2 with
    | some e => r.1.fault k e
    | none => r.1
  else a.1

/-- What an arrival brings fits its length: a frame of at most 256 B is complete; a longer one is still incomplete, and brings at least the 256 bytes its window holds (R161, R162). Of a MACsec frame those are the bytes its SecTAG and ICV leave (log 16). -/
def Dev.arrivalOk (port : Nat) (bytes : List Byte) (whole : Bool) (rxLen : Nat) (d : Dev) : Bool :=
  port < d.lanes && whole == (rxLen ≤ 256) && (whole || 256 ≤ bytes.length || (d.port port).macsec)

/-- FRAME_ARRIVAL (R161): the frame enters if its port is up; a MAC control frame is consumed, and is no packet (R160). -/
def execFrameArrival (port : Nat) (bytes : List Byte) (whole : Bool) (rxLen : Nat) (fcsBad : Bool) (sec : Option SecTag)
    (s : State) : Host.Outcome State Fault Refusal :=
  s.run (port < 256) fun d =>
    d.when (d.portUp port && !(d.port port).braid && d.arrivalOk port bytes whole rxLen && !isMacControl bytes) (Dev.arrive port bytes rxLen fcsBad sec)

/-! ## Transmit (R162, R172, R176, R286, R342, R562) -/

/-- The bytes a frame's FCS covers, as they are sent: protected on a MACsec port (R176). -/
def Dev.sealed (port : Nat) (mac : MacTx) (frame : List Byte) (d : Dev) : List Byte :=
  let body := frame.dropLast.dropLast.dropLast.dropLast
  match mac with
  | .sent sa pn =>
    match Map.find d.she.sas (32 * port + sa) with
    | some s => Config.macsecFrame (((Map.find d.she.slots s.slot).map (·.key)).getD []) s.salt s.sci s.ssci s.an pn body
    | none => body
  | _ => body

/-- A frame with its FCS computed over the bytes sent; a stomped one is cut at 9,416 B and ends with the inverse of its FCS (R176). -/
def Dev.withFcs (port : Nat) (mac : MacTx) (stomp : Bool) (frame : List Byte) (d : Dev) : List Byte :=
  let body := d.sealed port mac (if stomp then frame.take 9416 else frame)
  body ++ le 4 (if stomp then 0xFFFFFFFF - crc32 body else crc32 body)

/-- The braid header of a copy sent on a braid link (R342, R344): a transit frame's own, otherwise that of an originating DATA frame. -/
def Dev.txHeader (d : Dev) (p : Pkt) : BraidHdr :=
  match p.transit with
  | some h => h
  | none =>
    let t := bits (Map.getD p.m 3 0).toNat 0 24
    { cls := bits (Map.getD p.m 1 0).toNat 0 3, knotIn := false, dest := t, src := d.brd.node
      epoch := (d.shade p.shade).epoch, ttl := 63, hash := bits (Map.getD p.m 9 0).toNat 0 32, orig := t }

/-- Put a copy's frame on the wire of its port (R342, R176), with the association and PN that protect it: on a braid link behind its header. -/
def Dev.sendCopy (p : Pkt) (x : Copy) (mac : MacTx) (stomp : Bool) (d : Dev) : Dev :=
  let frame := d.withFcs x.port mac stomp (x.frame p)
  let how := match mac with | .sent sa pn => [sa, pn] | _ => []
  if (d.port x.port).braid then d.send .braidFrame (x.port :: how) (dataHeader (d.txHeader p) ++ frame)
  else d.send .frame (x.port :: how) frame

/-- A DATA frame starts on a braid link (R339, R355, R370). -/
def Dev.countData (port : Nat) (d : Dev) : Dev :=
  if (d.port port).braid then
    (d.onLink port fun l => { l with txUp := l.txUp + 1 }).bump (Reg.brdLnkTxFrames port)
  else d

/-- The pclk at which a copy begins to be passed to transmit, none while it is behind another in its port's line or not released (R263). -/
def Dev.beginsAt (k c : Nat) (x : Copy) (d : Dev) : Option Nat :=
  ((d.lineOf x.port).find? fun e => e.1.pkt == k && e.1.copy == c).bind fun e => e.2.1

/-- A copy's reference point has crossed the lands: its entry in the line stays until its last byte is passed (R263). -/
def Dev.lineSent (k c port : Nat) : Dev → Dev := Dev.onPath fun y => { y with
  lines := Map.modify y.lines port [] fun ls => ls.map fun l => if l.pkt = k ∧ l.copy = c then { l with sent := true } else l }

/-- A copy's reference point crosses the transmit lands (R156, R286), where it takes TX_GATED while the outputs are gated (R580): a complete frame's copy takes FORWARDED, or MIRRORED; an incomplete one is then under way and takes its fate at the frame's end. -/
def Dev.transmit (k c : Nat) (p : Pkt) (x : Copy) (d : Dev) : Dev :=
  if d.boot.gated then d.endCopy k c fTxGated 0 else
  let m := d.macsecTx x.port
  match m.2 with
  | .down => m.1.endCopy k c fEgressDown 0
  | mac =>
    let d := (m.1.countData x.port).lineSent k c x.port
    if p.whole then (d.sendCopy p x mac false).endCopy k c fForwarded 0
    else
      (d.onCopy k c fun y => { y with pos := .sending, txNs := some d.ns, read := p.cells
                                      mac := match mac with | .sent sa pn => some (sa, pn) | _ => none }).freePassed k

/-- COPY_TRANSMIT (R263, R286): in the order of the picks, L_tx after the copy began to be passed to transmit. -/
def execCopyTransmit (pkt copy : Nat) (s : State) : Host.Outcome State Fault Refusal :=
  s.run true fun d =>
    match d.pkt pkt, d.copy pkt copy with
    | some p, some x =>
      d.with' (d.beginsAt pkt copy x) fun t d =>
        d.when (x.pos == .transmit && !(d.link x.port).lost) fun d =>
          (d.due (t + (d.port x.port).lTx)).transmit pkt copy p x
    | _, _ => d

/-- Finish the copies that were under way when the frame ended without a fault. -/
def Dev.finishSending (k : Nat) (d : Dev) : Dev :=
  match d.pkt k with
  | none => d
  | some p => p.copies.foldl
      (fun d e =>
        if e.2.pos = .sending then
          (d.sendCopy p e.2 (match e.2.mac with | some (sa, pn) => .sent sa pn | none => .plain) false).endCopy k e.1 fForwarded 0
        else d) d

/-- A copy has begun at transmit, though its reference point has not crossed the lands. -/
def Dev.begun (d : Dev) (k c : Nat) (x : Copy) : Bool := x.pos == .transmit && passed (d.beginsAt k c x) d.pclk

/-- Stomp the copies begun at transmit when the frame ends with a fault (Table 5.3, R176); nothing leaves while the outputs are gated. -/
def Dev.sendStomped (k : Nat) (d : Dev) : Dev :=
  match d.pkt k with
  | none => d
  | some p => p.copies.foldl
      (fun d e =>
        if e.2.pos = .sending then
          d.sendCopy p e.2 (match e.2.mac with | some (sa, pn) => .sent sa pn | none => .plain) true
        else if d.begun k e.1 e.2 && !d.boot.gated then
          let m := d.macsecTx e.2.port
          match m.2 with
          | .down => m.1
          | mac => ((m.1.countData e.2.port).lineSent k e.1 e.2.port).sendCopy p e.2 mac true
        else d) d

/-! ## Frame end (R163 to R165, R267, R276, R281) -/

/-- The fault of the adjusted length of a frame that was incomplete at a dispatch, if any (R164). -/
def Pkt.lateFault (p : Pkt) : Option Nat :=
  let ingress := match p.term with
    | some .fwd | some .slow => if p.late then sizeFault p.out.length else none
    | _ => none
  ingress.or (p.copies.findSome? fun e =>
    match e.2.term with
    | some .fwd => if e.2.late ∧ e.2.fate.isNone then sizeFault (e.2.frame p).length else none
    | _ => none)

/-- The rest of an incomplete frame arrives: its cells are charged unless the packet has no further reader (R234, R251), and the frame's end settles byte counts and debits and shows any fault. The answer says whether it showed none. -/
def Dev.frameEnd (k : Nat) (bytes : List Byte) (rxLen : Nat) (fcsBad : Bool) (sec : Option SecTag) (d : Dev) : Dev × Bool :=
  match d.pkt k with
  | none => (d, false)
  | some p =>
    let d := d.onPkt k fun p => { p with bytes := (p.bytes ++ bytes).take (9416 + 256), rxLen, hdr := (p.hdr ++ bytes).take 112 }
    let n := ceilDiv (min 9416 (p.rxBytes + bytes.length)) 256
    let a := if p.stop ∨ p.final then (d, true) else d.takeIn k (n - p.cells) (d.shareOf p)
    let d := if a.2 then a.1 else (a.1.sendStomped k).fault k fHoldOverflow
    let d := d.onPkt k fun p => { p with whole := true, rxBytes := p.rxBytes + bytes.length }
    let r := d.macsecOk (p.iport % 256) p.sas sec (p.hdr ++ bytes)
    let d := r.1.endCharges k
    let d := (p.copies.foldl (fun d e => d.endCopyCharge k e.1) d).lineEnd k
    let late : Option Nat := (d.pkt k).bind Pkt.lateFault
    match (rxFault rxLen fcsBad r.2).or late with
    | some f => ((((d.sendStomped k).fault k f).settle k).flushLog, false)
    | none => (((((d.hostAtEnd k).finishSending k).freeIfDone k).settle k).flushLog, a.2)

/-- What a frame's end counts at fate times before it (R286, R287): reel time, counter, and the change. A copy under way takes its fate at the time its reference point crossed the lands, and a packet at the latest of its own and its copies'. -/
def Pkt.lateCounts (p : Pkt) : List (Nat × Nat × W) :=
  let row := fateRow p.iport
  let sent := p.copies.filter fun e => e.2.pos == .sending
  let own : List (Nat × Nat × W) := match p.openTime with
    | some t =>
      let f := p.fate.getD (if p.txd ≠ 0 ∨ sent.any (fun e => !e.2.mirror) then fForwarded else p.lastFate.getD fForwarded)
      [(t, Reg.fate row f, 1), (t, Reg.logResident row, -1)]
    | none => []
  own ++ sent.flatMap fun e =>
    let t := e.2.txNs.getD 0
    [(t, Reg.egFate e.2.port (if e.2.mirror then fMirrored else fForwarded), 1), (t, Reg.logEgQueued e.2.port, -1)]
      ++ (if e.2.mirror then [] else [(t, Reg.logCopiesTx row, 1)])

/-- The LOG_ image of a SNAP turn counts what has a fate time before that turn, though it became known after the capture (R287 to R289). -/
def State.amend (l : List (Nat × Nat × W)) (s : State) : State := { s with
  snaps := s.snaps.map fun e =>
    if e.1 = 6 then
      (6, { e.2 with dev := l.foldl (fun d c =>
        if c.1 < e.2.turn * 1024 then { d with ctr := Map.modify d.ctr c.2.1 0 (· + c.2.2) } else d) e.2.dev })
    else e }

/-- FRAME_END (R163, R165). -/
def execFrameEnd (pkt : Nat) (bytes : List Byte) (rxLen : Nat) (fcsBad : Bool) (sec : Option SecTag) (s : State) :
    Host.Outcome State Fault Refusal :=
  s.runState true fun s =>
    match s.dev.pkt pkt with
    | some p =>
      if p.whole then s
      else
        let r := s.dev.frameEnd pkt bytes rxLen fcsBad sec
        let s := s.onDev fun _ => r.1
        if r.2 then s.amend p.lateCounts else s
    | none => s

/-! ## MAC control frames and received pause (R160, R278, R280) -/

/-- MAC_CONTROL_FRAME (R160): consumed by the port block; it is no packet and takes no fate. -/
def execMacControlFrame (port op : Nat) (s : State) : Host.Outcome State Fault Refusal :=
  s.run (port < 256 && op < 65536) fun d => d

/-- Set or clear the pause timer of a class: quanta x 512 bit times at the port rate (R278). -/
def Dev.pauseClass (port c quanta : Nat) (d : Dev) : Dev :=
  d.onPath fun x => { x with
    pauseEnd := if quanta = 0 then Map.del x.pauseEnd (8 * port + c)
      else Map.put x.pauseEnd (8 * port + c) (d.pclk + (d.port port).wirePclk (64 * quanta)) }

/-- PFC_FRAME_RECEIVE (R278, R280). -/
def execPfcFrameReceive (port vec : Nat) (quanta : List Nat) (s : State) : Host.Outcome State Fault Refusal :=
  s.run (port < 256 && vec < 256 && quanta.length == 8 && quanta.all (· < 65536)) fun d =>
    d.when (d.portUp port) fun d =>
      let cs := (List.range 8).filter fun c => bit vec c && bit (d.port port).pfc c && !(d.port port).braid
      if cs = [] then d.bump Reg.schedPauseIgnored
      else (cs.foldl (fun d c => d.pauseClass port c (quanta.getD c 0)) d).bump Reg.schedPauseRx

/-- PAUSE_FRAME_RECEIVE (R278, R280). -/
def execPauseFrameReceive (port quanta : Nat) (s : State) : Host.Outcome State Fault Refusal :=
  s.run (port < 256 && quanta < 65536) fun d =>
    d.when (d.portUp port) fun d =>
      if (d.port port).pause ∧ !(d.port port).braid then
        ((List.range 8).foldl (fun d c => d.pauseClass port c quanta) d).bump Reg.schedPauseRx
      else d.bump Reg.schedPauseIgnored

/-- PAUSE_TIMER_EXPIRY (R278): the timer runs out at its time, and the class is no longer paused. -/
def execPauseTimerExpiry (port cls : Nat) (s : State) : Host.Outcome State Fault Refusal :=
  s.run (port < 256 && cls < 8) fun d =>
    d.with' (Map.find d.path.pauseEnd (8 * port + cls)) fun t d =>
      (d.due t).onPath fun x => { x with pauseEnd := Map.del x.pauseEnd (8 * port + cls) }

/-! ## A port goes down (R252, R253, R282) -/

/-- The copies linked to a port. -/
def Dev.copiesOf (d : Dev) (port : Nat) : List (Nat × Nat × Copy) :=
  d.path.pkts.flatMap fun e => (e.2.copies.filter fun c => c.2.port == port && c.2.fate.isNone).map fun c => (e.1, c.1, c.2)

/-- The last byte of a copy in transmit was passed before now (R253). -/
def Dev.passedOut (d : Dev) (k c : Nat) (x : Copy) : Bool :=
  match d.pkt k with
  | some p => p.whole && ((d.lineOf x.port).any fun e => e.1.pkt == k && e.1.copy == c && passed e.2.2 d.pclk)
  | none => false

/-- One copy of a port that goes down: in transmit it ends at once, in its egress program it is discarded afterwards (R253). -/
def Dev.downCopy (k c : Nat) (x : Copy) (d : Dev) : Dev :=
  match x.pos with
  | .transmit => if d.passedOut k c x then d else d.endCopy k c fEgressDown 0
  | .sending => d.endCopy k c fEgressDown 0
  | .egress _ | .egressLine _ => d.onCopy k c fun y => { y with dead := true }
  | _ => d

/-- A port goes down at t_d: linking stops, pause timers clear, copies in transmit end (R252, R253, R282). -/
def Dev.portDown (port : Nat) (d : Dev) : Dev :=
  let d := d.onPort port fun f => { f with removing := true }
  let d := d.onPath fun x => { x with pauseEnd := x.pauseEnd.filter fun e => e.1 / 8 != port }
  (d.copiesOf port).foldl (fun d e => d.downCopy e.1 e.2.1 e.2.2) d

/-- Every copy still owed by a down port takes EGRESS_DOWN; its queues are empty and reset (R252, R282). -/
def Dev.removeResidue (port : Nat) (d : Dev) : Dev :=
  let d := (d.copiesOf port).foldl
    (fun d e =>
      match e.2.2.pos with
      | .queued | .picked => ((d.unqueue e.1 e.2.1 e.2.2).endCopy e.1 e.2.1 fEgressDown 0).bump Reg.coilDownCopy
      | _ => d) d
  (d.onPort port fun f => { f with removing := false }).onPath fun x => { x with
    queues := x.queues.map fun e => if e.1 / 8 = port then (e.1, { e.2 with deficit := 0, awarded := false }) else e
    rrNext := Map.put x.rrNext port 0 }

/-- RESIDUE_REMOVAL_DONE (R252): within 8,192 pclk of t_d the removal ends. -/
def execResidueRemovalDone (port : Nat) (s : State) : Host.Outcome State Fault Refusal :=
  s.run (port < 256) fun d => d.when ((d.port port).removing) (Dev.removeResidue port)

end Sys2Proof.Machine
end

