-- ==== Sys2Proof/Machine/Fibre.lean ====
section
/-! DEFINITION. Fibres: dispatch, release, envelopes, trap vectors, the slow path (R99 to R117, R162, R173, R180, R249, R438). -/
namespace Sys2Proof.Machine

/-- The shade CURRENT at a pclk at or after now: the PENDING shade of the latest commit turn reached by then, otherwise the CURRENT one (R180). -/
def Dev.shadeAt (t : Nat) (d : Dev) : Nat :=
  let turn := d.nsAt t / 1024
  let due := (List.range 4).filter fun n => (d.shade n).st == .pending && (d.shade n).turn ≤ turn
  due.foldl (fun a n => if (d.shade a).st != .pending || (d.shade a).turn < (d.shade n).turn then n else a) d.current

/-- D of a dispatch to fibre f: the due pclk, or 7 after the pclk at which a freed fibre takes the packet (R99, R100, R101). -/
def Dev.dispatchAt (f due : Nat) (d : Dev) : Nat := max due (max d.pclk (d.fibre f).freeAt + 7)

/-- Metadata at ingress dispatch (Table 3.3). -/
def Pkt.ingressMeta (p : Pkt) (shade : Nat) : Map W :=
  [(0, BitVec.ofNat 64 p.iport), (1, BitVec.ofNat 64 p.cls), (2, 0), (3, 0), (4, BitVec.ofNat 64 shade), (5, lengthOf p.whole p.bytes.length),
    (6, BitVec.ofNat 64 (ofBit !p.whole)), (7, 0), (8, BitVec.ofNat 64 p.refNs), (9, 0), (10, BitVec.ofNat 64 p.domain),
    (11, 0), (12, 0), (13, 0), (14, 0), (15, 0)]

/-- Carried metadata at a slow-path or egress dispatch, with the length and CUT of the frame then (R162, R173, Table 3.3). -/
def carriedMeta (m : Map W) (whole : Bool) (len : Nat) : Map W :=
  Map.put (Map.put (Map.put (Map.put m 5 (lengthOf whole len)) 6 (withCut (Map.getD m 6 0) !whole)) 7 0) 15 0

/-- A packet takes a drop fate before any program runs (R107, R178). -/
def Dev.noProgram (k : Nat) (d : Dev) : Dev := d.dropIngress k fNoProgram 0

/-- A packet is dropped NO_PROGRAM at D where its shade has no ingress program for the lay, whatever fibres are free; otherwise a free fast-path fibre of the shade takes it (R99, R100, R178, R180, R183). -/
def Dev.dispatch (k f : Nat) (p : Pkt) (d : Dev) : Dev :=
  let now := d.due (p.due - 7)
  let at' := now.dispatchAt f p.due
  let n := now.shadeAt at'
  let enter (d : Dev) : Dev := (d.enterShade n).onPkt k fun p => { p with shade := n, counted := true, waited := true }
  match (now.progSet n p.lay).ingress with
  | none => ((enter now).due p.due).noProgram k
  | some e =>
    d.when (d.fastPath n f && d.freeFibre f) fun _ =>
    let d := enter (now.bumpIf (p.due < at' && !p.waited) (Reg.layDispatchWait p.lay))
    ((d.onPkt k fun p => { p with place := .ingress f }).start f { role := .ingress, pkt := k, shade := n, e := e.e, d := at' } e
      (p.ingressMeta n) (windowOf p.bytes)).bump (Reg.layDispatch p.lay)

/-- PACKET_DISPATCH (R99): a free fast-path fibre of the packet's lay takes it. -/
def execPacketDispatch (pkt f : Nat) (s : State) : Host.Outcome State Fault Refusal :=
  s.run (f < 4096) fun d =>
    d.with' (d.pkt pkt) fun p d =>
      d.when ((p.place == .arrival || p.place == .waiting) && !p.fault && p.transit.isNone && fibreLay f == p.lay) (Dev.dispatch pkt f p)

/-- Segment 4 of a copy ends: 120 pclk from its pick, S more when it is stored, and what coil bandwidth adds (R157, R159, R175, R258). -/
def Dev.copyDue (d : Dev) (p : Pkt) (x : Copy) : Nat :=
  x.due + x.wait + (if x.cut ∨ p.inj.isSome then 0 else (d.port (p.iport % 256)).wirePclk p.rxLen)

/-- A picked copy is dispatched to a free egress fibre, its window filled, and passes its head cell and the prefix cell (R99, R162, R178, R249, R255); without an egress program in its shade it ends NO_PROGRAM. -/
def Dev.egressDispatch (k c f : Nat) (p : Pkt) (x : Copy) (d : Dev) : Dev :=
  let lay := x.port / 8
  match (d.progSet p.shade lay).egress with
  | none => (d.due (d.copyDue p x)).endCopy k c fNoProgram 0
  | some e =>
    d.when (d.fastPath p.shade f && d.freeFibre f) fun d =>
    let b := (d.due (d.copyDue p x - 7)).moveBytes (min 256 p.out.length)
    let due := d.copyDue p x + b.1
    let d := b.2.due (due - 7)
    let at' := d.dispatchAt f due
    let d := d.bumpIf (due < at') (Reg.layDispatchWait lay)
    let out := p.out
    let m := carriedMeta (Map.put x.m 3 (BitVec.ofNat 64 (x.port + 2 ^ 24))) p.whole out.length
    (((d.onCopy k c fun y => { y with pos := .egress f, m, read := max 1 y.read }).freePassed k).start f
      { role := .egress, pkt := k, copy := c, shade := p.shade, e := e.e, d := at', out := true } e m (windowOf out)).bump (Reg.layDispatch lay)

/-- COPY_EGRESS_DISPATCH (R249): a stored copy only once its frame is complete (R175), an incomplete one once the coil has the 256 bytes its window holds (R162). -/
def execCopyEgressDispatch (pkt copy f : Nat) (s : State) : Host.Outcome State Fault Refusal :=
  s.run (f < 4096) fun d =>
    match d.pkt pkt, d.copy pkt copy with
    | some p, some x =>
      d.when (x.pos == .picked && !(d.port x.port).removing && (p.whole || (x.cut && 256 ≤ p.out.length)) && fibreLay f == x.port / 8) (Dev.egressDispatch pkt copy f p x)
    | _, _ => d

/-! ## Release (R101, R117) -/

/-- The fibre that keeps a packet or copy past its program while the release line is full (R101). -/
def Dev.keeper (d : Dev) (pkt : Nat) (copy : Option Nat) : Option (Nat × Run) :=
  d.lay.fibres.findSome? fun e =>
    match e.2.run with
    | some r =>
      let mine : Bool := match copy with
        | some c => r.role == Role.egress && r.copy == c
        | none => r.role == Role.ingress
      if e.2.parked && r.pkt == pkt && mine then some (e.1, r)
      else none
    | none => none

/-- An ingress packet leaves at D + E: to the slow line, or by its terminal (R101, R107, R169). -/
def Dev.releaseNow (k : Nat) (p : Pkt) (d : Dev) : Dev :=
  match p.term with
  | some .slow => d.toSlowLine k p.lay
  | _ => d.release k

/-- PACKET_RELEASE (R101): at exactly D + E, of a packet or of a copy. -/
def execPacketRelease (pkt : Nat) (copy : Option Nat) (s : State) : Host.Outcome State Fault Refusal :=
  s.run true fun d =>
    let kept := d.keeper pkt copy
    let held (d : Dev) : Dev := match kept with | some (f, _) => d.freeF f | none => d
    let due? : Option Nat := match copy with
      | none => (d.pkt pkt).bind fun p => match p.place with | .releaseLine t => some t | _ => none
      | some c => (d.copy pkt c).bind fun x => match x.pos with | .egressLine t => some t | _ => none
    d.with' (due?.or (kept.map fun e => e.2.d + e.2.e)) fun t d =>
      let d := held (d.due t)
      match copy with
      | none => d.with' (d.pkt pkt) fun p d => d.releaseNow pkt p
      | some c => d.releaseCopy pkt c

/-! ## Envelopes, trap vectors, slow limits (R104, R109, R116) -/

/-- ENVELOPE_EXPIRY (R104): at D + E with the terminal not issued, or a lane operation outstanding, the fibre traps. A trap vector that outlasts its envelope is a trap inside it (R116). -/
def execEnvelopeExpiry (f : Nat) (s : State) : Host.Outcome State Fault Refusal :=
  s.run (f < 4096) fun d =>
    let x := d.fibre f
    d.with' x.run fun r d =>
      d.when (r.role != .slow && x.trapped.isNone && !x.parked && (x.ended.isNone || x.posts.any (!·.dead)))
        fun d => (d.due (r.d + r.e)).trapF f 0x01

/-- The fibre restarts at its shade's trap vector with m15[15:8] the cause, or is freed when there is none (R116). -/
def Dev.vectorStart (f : Nat) (t : TrapAt) (r : Run) (d : Dev) : Dev :=
  let d := d.due (t.t + 16)
  match (d.progSet r.shade (fibreLay f)).vector with
  | none => d.freeF f
  | some e =>
    d.onFibre f fun x =>
      let a := x.arch.setM 15 ((x.arch.getM 15 &&& 0xFF#64) ||| BitVec.ofNat 64 (t.cause % 256 * 256))
      { x with arch := a, iss := a, undo := [], slot := 0, pc := e.pc, trapped := none
               run := some { r with role := Role.vector, d := d.pclk, e := e.e }, fetch := d.pclk, avail := [] }

/-- TRAP_VECTOR_START (R116). -/
def execTrapVectorStart (f : Nat) (s : State) : Host.Outcome State Fault Refusal :=
  s.run (f < 4096) fun d =>
    match (d.fibre f).trapped, (d.fibre f).run with
    | some t, some r => d.vectorStart f t r
    | _, _ => d

/-- Deliver an event of a waiting source once every queue that can be waited for has room; the others miss it (R441). -/
def Dev.deliver (src lay : Nat) (body : List Byte) (d : Dev) : Dev × Bool :=
  let ev := eventBytes (src + 1) body
  let qs := (d.subscribers src lay).filter d.waitable
  if qs.all fun q => d.hasRoom ev.length q then ((d.emit src lay body).1, true)
  else ((qs.filter fun q => !d.hasRoom ev.length q).foldl (fun d q => (d.offer q ev).1) d, false)

/-- TRAP_RECORD_DELIVER (R115, R441): the head of the trap line goes to the trap event queues, or waits. -/
def execTrapRecordDeliver (lay : Nat) (s : State) : Host.Outcome State Fault Refusal :=
  s.run (lay < 32) fun d =>
    match (d.layOf lay).trapLine with
    | [] => d
    | body :: rest =>
      let r := d.deliver 1 lay body
      if r.2 then r.1.onLay lay fun l => { l with trapLine := rest } else r.1

/-- SLOW_TIMEOUT (R109): 1,048,576 pclk after its start a slow-path program still running traps. -/
def execSlowTimeout (f : Nat) (s : State) : Host.Outcome State Fault Refusal :=
  s.run (f < 4096) fun d =>
    let x := d.fibre f
    d.with' x.run fun r d =>
      d.when (r.role == .slow && x.ended.isNone) fun d => (d.due (r.d + 1048576)).trapF f 0x09

/-! ## The slow line and injections (R107, R173, R438) -/

/-- Start the slow-path program of a packet on an exception fibre (R107, R173). -/
def Dev.startSlow (k f : Nat) (shade : Nat) (e : Entry) (d : Dev) : Dev :=
  match d.pkt k with
  | none => d
  | some p =>
    ((d.onPkt k fun p => { p with place := .slow f }).start f { role := .slow, pkt := k, shade, d := d.pclk } e
      (carriedMeta p.m p.whole p.bytes.length) (windowOf p.bytes)).bump (Reg.laySlowDispatch (fibreLay f))

/-- Whether a lay runs slow-path work of a shade: X of its fibre map is not 0 and it has a program (R107, R181). -/
def Dev.slowEntry (d : Dev) (lay shade : Nat) : Option Entry :=
  if (d.progSet shade lay).x = 0 then none else (d.progSet shade lay).slowPath

/-- SLOW_LINE_TAKE (R107): the head of the slow line is taken by a free exception fibre once the coil has the bytes of its window (R162), or dropped NO_PROGRAM. -/
def execSlowLineTake (f : Nat) (s : State) : Host.Outcome State Fault Refusal :=
  s.run (f < 4096) fun d =>
    let lay := fibreLay f
    match (d.layOf lay).slowLine with
    | [] => d
    | k :: rest =>
      let pop (d : Dev) : Dev := d.onLay lay fun l => { l with slowLine := rest }
      match d.pkt k with
      | none => pop d
      | some p =>
        if p.fault then (pop d).release k
        else
          match d.slowEntry lay p.shade with
          | none => (pop d).noProgram k
          | some e => d.when (d.exception p.shade f && d.freeFibre f && (p.whole || 256 ≤ p.bytes.length)) fun d => (pop d).startSlow k f p.shade e

/-- An injected frame becomes a packet: row 256, CURRENT shade, m0, m1, m10 and m12 as the descriptor gives them (R438). The spec gives no timestamp point: m8 is a free value (log 17). -/
def Dev.takeInjection (j : Inject) (lay : Nat) (d : Dev) : Nat × Dev :=
  let k := d.path.nextPkt
  let n := d.current
  let ref := d.freeW
  let m : Map W := [(0, 0x1FF#64), (1, BitVec.ofNat 64 (j.cls % 8)), (4, BitVec.ofNat 64 n), (8, ref),
    (10, BitVec.ofNat 64 (j.domain % 65536)), (12, j.user0)]
  let p : Pkt := {
    iport := 0x1FF, bytes := j.bytes, whole := true, rxLen := j.bytes.length, rxBytes := j.bytes.length, refNs := ref.toNat
    refPclk := d.pclk, lay, shade := n, counted := true, place := .slowLine, m, acct := injAcct
    cells := ceilDiv j.bytes.length 256, pfx := true, hdr := j.bytes.take 112, inj := some (j.qp, j.desc)
    cls := j.cls % 8, domain := j.domain % 65536 }
  (k, ((d.useFree.newPkt p).enterShade n).complete j.qp j.desc 0x00 [])

/-- INJECTION_TAKE (R107, R438): the head of the lay's injection queue is taken by a free exception fibre, or dropped NO_PROGRAM; either ends its descriptor DONE. -/
def execInjectionTake (f : Nat) (s : State) : Host.Outcome State Fault Refusal :=
  s.run (f < 4096) fun d =>
    let lay := fibreLay f
    let d := d.retryInject 4096
    match (d.layOf lay).inject with
    | [] => d
    | j :: rest =>
      let take (d : Dev) : Nat × Dev := (d.onLay lay fun l => { l with inject := rest }).takeInjection j lay
      match d.slowEntry lay d.current with
      | none => let r := take d; r.2.noProgram r.1
      | some e =>
        d.when (d.exception d.current f && d.freeFibre f) fun d =>
          let r := take d
          r.2.startSlow r.1 f d.current e

end Sys2Proof.Machine
end

