-- ==== Sys2Proof/Machine/Sched.lean ====
section
/-! DEFINITION. The scheduler: eligibility, deficit round robin, buckets (08_scheduling.md). -/
namespace Sys2Proof.Machine

/-! ## Buckets (R270, R273) -/

/-- One turn's refill of a bucket of rate r (b/s) and cap (B) (R270). -/
def Bucket.refill (rate cap : Nat) (b : Bucket) : Bucket :=
  let num := b.rho + rate * 1024
  { level := min (b.level + (num / 8000000000 : Nat)) cap, rho := num % 8000000000 }

/-- A turn's refill of every bucket that holds anything or has a setting; one without a setting has rate 0 and cap 0 (R261, R270). -/
def refillAll {α : Type} (cfg : Map α) (rate cap : α → Nat) (m : Map Bucket) : Map Bucket :=
  ((m.map (·.1)) ++ cfg.map (·.1)).eraseDups.foldl
    (fun m k => Map.modify m k {} (Bucket.refill (((Map.find cfg k).map rate).getD 0) (((Map.find cfg k).map cap).getD 0))) m

/-- FILL at a commit: full, or both the level and the remainder 0 (R272, R274). -/
def Bucket.fill (full : Bool) (cap : Nat) (b : Bucket) : Bucket := if full then { b with level := cap } else {}

/-! ## Eligibility (Table 8.2) -/

/-- Egress queue q = 8 port + class. -/
def Dev.queue (d : Dev) (q : Nat) : Queue := Map.getD d.path.queues q {}

/-- The head copy of a queue. -/
def Dev.headCopy (d : Dev) (q : Nat) : Option (Nat × Nat × Pkt × Copy) :=
  match (d.queue q).copies with
  | [] => none
  | (k, c) :: _ =>
    match d.pkt k, d.copy k c with
    | some p, some x => some (k, c, p, x)
    | _, _ => none

/-- The charge of a copy: LENGTH after ingress adjustment, 256 while its frame is incomplete (R266). -/
def Pkt.charge (p : Pkt) : Nat := if p.whole then p.out.length else 256

/-- Credits a head copy needs (R281). -/
def Pkt.creditNeed (p : Pkt) : Nat := if p.whole then ceilDiv p.out.length 256 else 37

/-- The class of a queue is not paused (R278). -/
def Dev.notPaused (d : Dev) (q : Nat) : Bool :=
  match Map.find d.path.pauseEnd q with
  | some t => t ≤ d.pclk
  | none => true

/-- The queue's shaper, if any, has a level of at least 0. -/
def Dev.shaperOk (d : Dev) (q : Nat) : Bool :=
  match (d.queue q).shaper with
  | some s => 0 ≤ (Map.getD d.path.shapers s {}).level
  | none => true

/-- The peer of a braid link has granted the head copy's credits (R281, R356). -/
def Dev.creditOk (d : Dev) (q : Nat) (p : Pkt) : Bool :=
  let l := d.link (q / 8)
  !(d.port (q / 8)).braid || (l.gotCredit && p.creditNeed ≤ ahead 32 (Map.getD l.grants (q % 8) 0) (Map.getD l.sent (q % 8) 0))

/-- Bytes in a port's egress line: of the copies picked and not yet fully passed to transmit (R263). -/
def Dev.lineBytes (d : Dev) (port : Nat) : Nat :=
  ((d.lineOf port).map fun e => if passed e.2.2 d.pclk then 0 else e.1.bytes).sum

/-- Q_line of a port, with the E_out,max in force (R263). -/
def Dev.qLine (d : Dev) (port : Nat) : Nat :=
  ceilDiv ((120 + Map.getD d.path.eOut port 0) * (d.port port).speed * 10) 192 + 9416

/-- A queue is eligible for a pick (Table 8.2). -/
def Dev.eligible (d : Dev) (q : Nat) : Bool :=
  match d.headCopy q with
  | none => false
  | some (_, _, p, _) => d.notPaused q && d.shaperOk q && d.creditOk q p && d.lineBytes (q / 8) < d.qLine (q / 8) && d.portUp (q / 8)

/-! ## The pick (R266) -/

/-- What a pick works on: the eight queues' deficits and awards. -/
abbrev DrrState := List (Int × Bool)

/-- One visit to the k-th queue: award, then the test of its head's charge. -/
def drrVisit (quantum charge : Nat) (e : Int × Bool) : Bool × (Int × Bool) :=
  let e : Int × Bool := if e.2 then e else (e.1 + quantum, true)
  if (charge : Int) ≤ e.1 then (true, (e.1 - charge, true)) else (false, (e.1, false))

/-- One round of the loop of R266 over the queues in service order: the class served, if any, and the new deficits. -/
def drrRound (elig : Nat → Bool) (quantum charge : Nat → Nat) : List Nat → DrrState → Option Nat × DrrState
  | [], st => (none, st)
  | k :: ks, st =>
    if elig k then
      let r := drrVisit (quantum k) (charge k) (st.getD k (0, false))
      if r.1 then (some k, st.set k r.2) else drrRound elig quantum charge ks (st.set k r.2)
    else drrRound elig quantum charge ks st

/-- Rounds until a copy is returned (R266). -/
def drrPick (elig : Nat → Bool) (quantum charge : Nat → Nat) (order : List Nat) : Nat → DrrState → Option Nat × DrrState
  | 0, st => (none, st)
  | fuel + 1, st =>
    let r := drrRound elig quantum charge order st
    match r.1 with
    | some k => (some k, r.2)
    | none => drrPick elig quantum charge order fuel r.2

/-- Rounds that certainly suffice: every round awards at least 1 B to each eligible queue. -/
def drrRounds (elig : Nat → Bool) (charge : Nat → Nat) (st : DrrState) : Nat :=
  (((List.range 8).filter elig).map fun k => ((charge k : Int) - (st.getD k (0, false)).1).toNat + 2).foldl max 0

/-- Count a head copy's first wait on its shaper (bit 0) or on credit (bit 1) (Table 8.5, R281). -/
def Dev.countHold (q : Nat) (d : Dev) : Dev :=
  match d.headCopy q with
  | none => d
  | some (k, c, p, x) =>
    if !d.notPaused q then d
    else if !d.shaperOk q then
      if bit x.hold 0 then d else (d.onCopy k c fun y => { y with hold := y.hold + 1 }).bump Reg.schedShapeHold
    else if !d.creditOk q p then
      if bit x.hold 1 then d else (d.onCopy k c fun y => { y with hold := y.hold + 2 }).bump Reg.schedCreditHold
    else d

/-- The copies at the front of a line that have been transmitted and whose last byte has been passed leave it (R263). -/
def Dev.trimLine (port : Nat) (d : Dev) : Dev :=
  let gone := (d.lineOf port).takeWhile fun e => e.1.sent && passed e.2.2 d.pclk
  d.onPath fun y => { y with
    lines := Map.modify y.lines port [] (List.drop gone.length)
    txFree := match gone.getLast? with | some e => Map.put y.txFree port (e.2.2.getD 0) | none => y.txFree }

/-- What a pick puts in the egress line: a transit copy goes to transmit at once, to cross the lands 720 pclk from its reference point plus its wait, and S more when it is stored (R263, R344). -/
def Dev.lineEntry (k c : Nat) (p : Pkt) (x : Copy) (d : Dev) : LineEnt :=
  let s := if x.cut then 0 else (d.port (p.iport % 256)).wirePclk (p.rxLen + 16)
  let go : Bool := p.transit.isSome && (x.cut || p.whole)
  { pkt := k, copy := c, bytes := p.charge
    ready := if go then some (d.pclk + 720 + s - (d.port x.port).lTx) else none
    len := if go && p.whole then some (x.frame p).length else none }

/-- Take the head copy of queue q: charges, credit, egress line (R263, R266, R269, R281). A transit copy runs no egress program (R344). -/
def Dev.takeHead (q : Nat) (d : Dev) : Dev :=
  match d.headCopy q with
  | none => d
  | some (k, c, p, x) =>
    let port := q / 8
    let n := p.charge
    let need := if (d.port port).braid then p.creditNeed else 0
    let d := match (d.queue q).shaper with
      | some s => d.onPath fun y => { y with shapers := Map.modify y.shapers s {} fun b => { b with level := b.level - n } }
      | none => d
    let d := if need = 0 then d else d.onLink port fun l => { l with sent := Map.modify l.sent (q % 8) 0 fun v => (v + need) % 2 ^ 32 }
    let d := d.onCopy k c fun y => { y with
      owed := if p.whole then y.owed else y.owed ++ [(q, (d.queue q).shaper, need)]
      pos := if p.transit.isSome then .transmit else .picked
      due := d.pclk + (if p.transit.isSome then 720 else 120) }
    let e := d.lineEntry k c p x
    let d := ((d.unqueue k c x).trimLine port).onPath fun y => { y with lines := Map.modify y.lines port [] (· ++ [e]) }
    (d.bump (Reg.schedQTxCopies q)).add (Reg.schedQTxBytes q) n

/-- One pick for a port (R266): the deficits and awards the rounds leave, port.next, and the copy taken. -/
def Dev.pick (port : Nat) (d : Dev) : Dev :=
  let q (k : Nat) : Nat := 8 * port + k
  let d := if d.lineBytes port < d.qLine port ∧ d.portUp port then (List.range 8).foldl (fun d k => d.countHold (q k)) d else d
  let next := Map.getD d.path.rrNext port 0
  let order := (List.range 8).map fun n => (next + n) % 8
  let elig (k : Nat) : Bool := d.eligible (q k)
  let charge (k : Nat) : Nat := ((d.headCopy (q k)).map fun e => e.2.2.1.charge).getD 0
  let st : DrrState := (List.range 8).map fun k => ((d.queue (q k)).deficit, (d.queue (q k)).awarded)
  let r := drrPick elig (fun k => (d.queue (q k)).quantum) charge order (drrRounds elig charge st) st
  match r.1 with
  | none => d
  | some k =>
    let put (d : Dev) (j : Nat) : Dev :=
      if elig j then d.onPath fun y => { y with queues := Map.modify y.queues (q j) {} fun e =>
        { e with deficit := (r.2.getD j (0, false)).1, awarded := (r.2.getD j (0, false)).2 } }
      else d
    let d := (List.range 8).foldl put d
    (d.onPath fun y => { y with rrNext := Map.put y.rrNext port k }).takeHead (q k)

/-- The refills of the turns reached have been applied (R270, R277). -/
def Dev.refilled (d : Dev) : Bool := d.turn ≤ d.reel.served

/-- SCHEDULER_PICK (R266): a port with no eligible queue picks nothing (R265); a turn's refill comes before its first pick. -/
def execSchedulerPick (port : Nat) (s : State) : Host.Outcome State Fault Refusal :=
  s.run (port < 256) fun d => d.when d.refilled fun d => d.pick port

end Sys2Proof.Machine
end

