-- ==== Sys2Proof/Machine/Tables.lean ====
section
/-! DEFINITION. The searched tables: placement, lookup, lookup caches, stale windows, repair, learning (06_tables.md). -/
namespace Sys2Proof.Machine

/-- Change the tables. -/
def Dev.onTbl (f : Tables → Tables) (d : Dev) : Dev := { d with tbl := f d.tbl }

/-! ## MAC and general exact tables (R195 to R201) -/

/-- The lines of the MAC (0) or general exact (1) table. -/
def Tables.lines (t : Tables) (tab : Nat) : Map Line := if tab = 0 then t.mac else t.exact

/-- Replace the lines of a table. -/
def Tables.setLines (tab : Nat) (m : Map Line) (t : Tables) : Tables := if tab = 0 then { t with mac := m } else { t with exact := m }

/-- The bytes of a key, most significant first: 8 for MAC, 12 for general (R199). -/
def keyBytes (tab key : Nat) : List Byte := be (if tab = 0 then 8 else 12) key

/-- First line of the bucket of a key on a side: H1 on side 0, H2 on side 1 (R199, R639). -/
def bucket (tab side key : Nat) : Nat :=
  let h := if side = 0 then crc32c (keyBytes tab key) else crc32 (keyBytes tab key)
  side * 524288 + bits h 0 17 * 4

/-- The eight lines a key may stand in (R199). -/
def ways (tab key : Nat) : List Nat :=
  (List.range 4).map (bucket tab 0 key + ·) ++ (List.range 4).map (bucket tab 1 key + ·)

/-- Lines of a table that hold a key for an index. -/
def Tables.holders (t : Tables) (tab n key : Nat) : List Nat :=
  (ways tab key).filter fun l =>
    match Map.find (t.lines tab) l with
    | some e => e.key == key && bit e.mask n
    | none => false

/-- A line of no index, or never written, is free (R195). -/
def Tables.freeLine (t : Tables) (tab l : Nat) : Bool := (Map.find (t.lines tab) l).all fun e => e.mask == 0

/-- The free line a new key takes: fewer occupied ways, side 0 on a tie, lowest way (R200). -/
def Tables.freeWay (t : Tables) (tab key : Nat) : Option Nat :=
  let side (s : Nat) : List Nat := (List.range 4).map (bucket tab s key + ·)
  let open' (s : Nat) : List Nat := (side s).filter (t.freeLine tab)
  if (open' 0).length < (open' 1).length then (open' 1).head? else (open' 0).head?.or (open' 1).head?

/-- Clear membership of a line in an index; a line of no index is free and keeps the rest of its content (R195, R197). -/
def clearLine (n l : Nat) (m : Map Line) : Map Line :=
  match Map.find m l with
  | none => m
  | some e => Map.put m l { e with mask := setBits e.mask n 1 0 }

/-- TSET of a key in index n (R197): none for FULL. -/
def Tables.setExact (tab n key : Nat) (result : W) (t : Tables) : Option Tables :=
  let old := (t.holders tab n key).head?
  match old.bind fun l => (Map.find (t.lines tab) l).map fun e => (l, e) with
  | some (l, e) =>
    if e.mask = 2 ^ n then some (t.setLines tab (Map.put (t.lines tab) l { e with result }))
    else (t.freeWay tab key).map fun w => t.setLines tab (Map.put (clearLine n l (t.lines tab)) w { key, result, mask := 2 ^ n })
  | none => (t.freeWay tab key).map fun w => t.setLines tab (Map.put (t.lines tab) w { key, result, mask := 2 ^ n })

/-- TDEL of a key in index n (R197): none for NOT_FOUND. -/
def Tables.delExact (tab n key : Nat) (t : Tables) : Option Tables :=
  (t.holders tab n key).head?.map fun l => t.setLines tab (clearLine n l (t.lines tab))

/-! ## LPM (R206 to R210) -/

/-- A prefix of length p of a key of `width` bits matches. -/
def prefixMask (width p : Nat) : Nat := 2 ^ width - 2 ^ (width - p)

/-- A row matches a key in an index. -/
def Row.hits (width n key : Nat) (r : Row) : Bool :=
  bit r.mask n && (key ^^^ r.key) &&& (r.tmask.getD (prefixMask width r.plen)) == 0

/-- One unit of a region: its band, and whether it is a hole (R210). -/
structure Band (α : Type) where
  plen : α → Nat
  hole : α → Bool

/-- Rows of the narrow region. -/
def narrowBand : Band Row := ⟨Row.plen, fun r => r.mask == 0⟩

/-- Quads of the wide region. -/
def wideBand : Band Quad :=
  ⟨Quad.plen, fun q => (q.lo.all fun r => r.mask == 0) && (q.hi.all fun r => r.mask == 0)⟩

/-- The units of a band, nearest the base first. -/
def Band.units {α : Type} (b : Band α) (k : Nat) (l : List α) : List α := l.filter fun u => b.plen u == k

/-- The non-empty bands shorter than k, longest first. -/
def Band.shorter {α : Type} (b : Band α) (k : Nat) (l : List α) : List Nat :=
  ((List.range k).reverse).filter fun j => l.any fun u => b.plen u == j

/-- The bands not shorter than k, in order: what stands before band k ends. -/
def Band.upTo {α : Type} (b : Band α) (k : Nat) (l : List α) : List α := l.filter fun u => k ≤ b.plen u

/-- Replace the first hole of a band's units by one unit. -/
def fillHole {α : Type} (hole : α → Bool) (u : α) : List α → List α
  | [] => []
  | x :: t => if hole x then u :: t else x :: fillHole hole u t

/-- First unit last: the move that frees a band's first place (R208). -/
def rotate {α : Type} : List α → List α
  | [] => []
  | x :: t => t ++ [x]

/-- Last unit first: the move of the reverse chain (R208). -/
def rotateBack {α : Type} (l : List α) : List α := l.drop (l.length - 1) ++ l.take (l.length - 1)

/-- The bands shorter than k after a place is freed before them: each rotates, down to the gap or to the first band with a hole (R208, R210). Also the moves made. -/
def Band.chain {α : Type} (b : Band α) (l : List α) : List Nat → List α × Nat
  | [] => ([], 0)
  | j :: js =>
    let us := b.units j l
    if us.any b.hole then
      let rest := js.flatMap fun i => b.units i l
      match us with
      | [] => (rest, 0)
      | x :: t => if b.hole x then (t ++ rest, 0) else (fillHole b.hole x t ++ rest, 1)
    else
      let r := b.chain l js
      (rotate us ++ r.1, r.2 + 1)

/-- Insert a unit into band k: the region, and the moves made (R208, R210). -/
def Band.insert {α : Type} (b : Band α) (k : Nat) (u : α) (l : List α) : List α × Nat :=
  if (b.units k l).any b.hole then
    (b.upTo (k + 1) l ++ fillHole b.hole u (b.units k l) ++ (b.shorter k l).flatMap fun i => b.units i l, 0)
  else
    let r := b.chain l (b.shorter k l)
    (b.upTo k l ++ [u] ++ r.1, r.2)

/-- A new unit fits: a hole in band k or a shorter band, or room in the gap (R209). -/
def Band.fits {α : Type} (b : Band α) (k : Nat) (room : Bool) (l : List α) : Bool :=
  room || l.any fun u => b.plen u ≤ k && b.hole u

/-- Remove the i-th unit of band k: the last unit of the band takes its place, then the reverse chain closes the space (R208). -/
def Band.remove {α : Type} (b : Band α) (k i : Nat) (l : List α) : List α × Nat :=
  let us := b.units k l
  let last := us.length - 1
  let kept := if i = last then us.take last else
    match us[last]? with
    | some u => (us.set i u).take last
    | none => us
  let sh := b.shorter k l
  (b.upTo (k + 1) l ++ kept ++ sh.flatMap (fun j => rotateBack (b.units j l)), sh.length + (if i = last then 0 else 1))

/-- Room for one more narrow row in the gap (R209). -/
def Tables.narrowRoom (t : Tables) : Bool := t.narrow.length + 4 * t.wide.length < 1572864

/-- Room for one more aligned quad in the gap (R209). -/
def Tables.wideRoom (t : Tables) : Bool := t.narrow.length + 4 * (t.wide.length + 1) ≤ 1572864

/-- Position within its band of the unit that holds an entry of an index. -/
def bandIndex {α : Type} (p : α → Bool) : List α → Option Nat
  | [] => none
  | x :: t => if p x then some 0 else (bandIndex p t).map (· + 1)

/-- A row holds the prefix for an index. -/
def Row.isEntry (plen key n : Nat) (r : Row) : Bool := r.plen == plen && r.key == key && bit r.mask n

/-- Clear one index's membership in the row of a prefix. -/
def clearRow (plen key n : Nat) (r : Row) : Row :=
  if r.isEntry plen key n then { r with mask := setBits r.mask n 1 0 } else r

/-- TSET of a narrow prefix (R197, R206 to R210): none for FULL; the moves made. -/
def Tables.setNarrow (n plen key : Nat) (result : W) (t : Tables) : Option (Tables × Nat) :=
  let e : Row := { plen, key, result, mask := 2 ^ n }
  match t.narrow.find? (Row.isEntry plen key n) with
  | some r =>
    if r.mask = 2 ^ n then
      some ({ t with narrow := t.narrow.map fun r => if r.isEntry plen key n then { r with result } else r }, 0)
    else if narrowBand.fits plen t.narrowRoom t.narrow then
      let x := narrowBand.insert plen e (t.narrow.map (clearRow plen key n))
      some ({ t with narrow := x.1 }, x.2)
    else none
  | none =>
    if narrowBand.fits plen t.narrowRoom t.narrow then
      let x := narrowBand.insert plen e t.narrow
      some ({ t with narrow := x.1 }, x.2)
    else none

/-- TDEL of a narrow prefix (R197, R208): none for NOT_FOUND. -/
def Tables.delNarrow (n plen key : Nat) (t : Tables) : Option (Tables × Nat) :=
  match t.narrow.find? (Row.isEntry plen key n) with
  | none => none
  | some r =>
    if r.mask = 2 ^ n then
      match bandIndex (Row.isEntry plen key n) (narrowBand.units plen t.narrow) with
      | some i => let x := narrowBand.remove plen i t.narrow; some ({ t with narrow := x.1 }, x.2)
      | none => none
    else some ({ t with narrow := t.narrow.map (clearRow plen key n) }, 0)

/-- The entries of a quad. -/
def Quad.rows (q : Quad) : List Row := q.lo.toList ++ q.hi.toList

/-- A quad holds the prefix for an index. -/
def Quad.isEntry (plen key n : Nat) (q : Quad) : Bool := q.rows.any (Row.isEntry plen key n)

/-- Change the rows of a quad. -/
def Quad.mapRows (f : Row → Row) (q : Quad) : Quad := { q with lo := q.lo.map f, hi := q.hi.map f }

/-- A free half: none, or an entry of no index. -/
def freeHalf (o : Option Row) : Bool := o.all fun r => r.mask == 0

/-- A quad of length 0 to 64 with one half free and one not (R208). -/
def Quad.half (q : Quad) : Bool := q.plen ≤ 64 && (freeHalf q.lo != freeHalf q.hi)

/-- Put an entry into the free half of a quad. -/
def Quad.fillHalf (r : Row) (q : Quad) : Quad := if freeHalf q.lo then { q with lo := some r } else { q with hi := some r }

/-- Change the first element that passes a test. -/
def mapFirst {α : Type} (p : α → Bool) (f : α → α) : List α → List α
  | [] => []
  | x :: t => if p x then f x :: t else x :: mapFirst p f t

/-- Place a new wide entry: a half-filled quad of its band, or a new quad (R206, R208): none for FULL. -/
def Tables.placeWide (r : Row) (t : Tables) : Option (Tables × Nat) :=
  let halfOf (q : Quad) : Bool := q.plen == r.plen && q.half
  if t.wide.any halfOf then some ({ t with wide := mapFirst halfOf (Quad.fillHalf r) t.wide }, 0)
  else if wideBand.fits r.plen t.wideRoom t.wide then
    let x := wideBand.insert r.plen { plen := r.plen, lo := some r } t.wide
    some ({ t with wide := x.1 }, x.2)
  else none

/-- TSET of a wide prefix (R197, R206 to R210). -/
def Tables.setWide (n plen key : Nat) (result : W) (t : Tables) : Option (Tables × Nat) :=
  match t.wide.findSome? fun q => q.rows.find? (Row.isEntry plen key n) with
  | some r =>
    if r.mask = 2 ^ n then
      some ({ t with wide := t.wide.map (Quad.mapRows fun r => if r.isEntry plen key n then { r with result } else r) }, 0)
    else ({ t with wide := t.wide.map (Quad.mapRows (clearRow plen key n)) }).placeWide { plen, key, result, mask := 2 ^ n }
  | none => t.placeWide { plen, key, result, mask := 2 ^ n }

/-- Remove an entry from its quad: another half-filled quad of the band gives it its entry, and an emptied quad leaves the band (R208). -/
def Tables.dropWide (n plen key : Nat) (t : Tables) : Tables × Nat :=
  let gone (o : Option Row) : Option Row := o.filter fun r => !r.isEntry plen key n
  let w := t.wide.map fun q => if q.isEntry plen key n then { q with lo := gone q.lo, hi := gone q.hi } else q
  let us := wideBand.units plen w
  match bandIndex (Quad.isEntry plen key n) (wideBand.units plen t.wide) with
  | none => (t, 0)
  | some i =>
    match us[i]? with
    | none => (t, 0)
    | some q =>
      if wideBand.hole q then
        let x := wideBand.remove plen i w
        ({ t with wide := x.1 }, x.2)
      else
        match (List.range us.length).find? fun j => j != i && ((us[j]?).map Quad.half).getD false with
        | none => ({ t with wide := w }, 0)
        | some j =>
          let moved := (us[j]?).bind fun q => q.rows.find? fun r => r.mask != 0
          let us' := (us.modify i fun q => match moved with | some r => q.fillHalf r | none => q).modify j fun q =>
            { q with lo := none, hi := none }
          let w' := wideBand.upTo (plen + 1) w ++ us' ++ (wideBand.shorter plen w).flatMap fun k => wideBand.units k w
          let x := wideBand.remove plen j w'
          ({ t with wide := x.1 }, x.2 + 1)

/-- TDEL of a wide prefix (R197, R208). -/
def Tables.delWide (n plen key : Nat) (t : Tables) : Option (Tables × Nat) :=
  match t.wide.findSome? fun q => q.rows.find? (Row.isEntry plen key n) with
  | none => none
  | some r =>
    if r.mask = 2 ^ n then some (t.dropWide n plen key)
    else some ({ t with wide := t.wide.map (Quad.mapRows (clearRow plen key n)) }, 0)

/-- Rows written raw into the gap that a region has grown over hold what the region put there (R206, R218). -/
def Tables.trimRaw (t : Tables) : Tables :=
  { t with rawLpm := t.rawLpm.filter fun e => t.narrow.length ≤ e.1 && e.1 < 1572864 - 4 * t.wide.length }

/-- Holes of both regions (Table 6.9). -/
def Tables.holes (t : Tables) : Nat := (t.narrow.filter narrowBand.hole).length + (t.wide.filter wideBand.hole).length

/-- Close the hole of a region nearest its base, by the moves a deletion of it makes (R210). -/
def Tables.closeHole (wide : Bool) (t : Tables) : Tables × Nat :=
  if wide then
    match t.wide.find? wideBand.hole with
    | none => (t, 0)
    | some q =>
      match bandIndex wideBand.hole (wideBand.units q.plen t.wide) with
      | some i => let x := wideBand.remove q.plen i t.wide; ({ t with wide := x.1 }, x.2)
      | none => (t, 0)
  else
    match t.narrow.find? narrowBand.hole with
    | none => (t, 0)
    | some r =>
      match bandIndex narrowBand.hole (narrowBand.units r.plen t.narrow) with
      | some i => let x := narrowBand.remove r.plen i t.narrow; ({ t with narrow := x.1 }, x.2)
      | none => (t, 0)

/-! ## ACL (R193, R213, R214) -/

/-- The lowest free ACL row (log 18). -/
def Tables.freeAcl (t : Tables) : Option Nat := (List.range 65536).find? fun r => (Map.find t.acl r).all fun e => e.mask == 0

/-- The row of a position in an index. -/
def Tables.aclAt (t : Tables) (n pos : Nat) : Option (Nat × AclRow) := t.acl.find? fun e => e.2.pos == pos && bit e.2.mask n

/-- Clear an index's membership in an ACL row. -/
def clearAcl (n l : Nat) (m : Map AclRow) : Map AclRow :=
  match Map.find m l with
  | none => m
  | some e => Map.put m l { e with mask := setBits e.mask n 1 0 }

/-- TSET of an ACL position (R197, R214). -/
def Tables.setAcl (n pos key cmask : Nat) (action : W) (t : Tables) : Option Tables :=
  let e : AclRow := { pos, key, cmask, action, mask := 2 ^ n }
  match t.aclAt n pos with
  | some (l, old) =>
    if old.mask = 2 ^ n then some { t with acl := Map.put t.acl l e }
    else (t.freeAcl).map fun w => { t with acl := Map.put (clearAcl n l t.acl) w e }
  | none => (t.freeAcl).map fun w => { t with acl := Map.put t.acl w e }

/-- TDEL of an ACL position (R197, R214). -/
def Tables.delAcl (n pos : Nat) (t : Tables) : Option Tables :=
  (t.aclAt n pos).map fun e => { t with acl := clearAcl n e.1 t.acl }

/-! ## Membership of a whole index (R196) -/

/-- SHADEOPEN copies mask bit b into bit n on every line (R196). -/
def Tables.openIndex (b n : Nat) (t : Tables) : Tables :=
  let g (m : Nat) : Nat := setBits m n 1 (bits m b 1)
  let r (x : Row) : Row := { x with mask := g x.mask }
  { t with
    mac := t.mac.map fun e => (e.1, { e.2 with mask := g e.2.mask })
    exact := t.exact.map fun e => (e.1, { e.2 with mask := g e.2.mask })
    narrow := t.narrow.map r
    wide := t.wide.map (Quad.mapRows r)
    rawLpm := t.rawLpm.map fun e => (e.1, r e.2)
    acl := t.acl.map fun e => (e.1, { e.2 with mask := g e.2.mask }) }

/-- Retirement or discard clears bit n on every line; LPM rows left with no index are holes (R196, R210). -/
def Tables.closeIndex (n : Nat) (t : Tables) : Tables :=
  let g (m : Nat) : Nat := setBits m n 1 0
  let r (x : Row) : Row := { x with mask := g x.mask }
  { t with
    mac := t.mac.map fun e => (e.1, { e.2 with mask := g e.2.mask })
    exact := t.exact.map fun e => (e.1, { e.2 with mask := g e.2.mask })
    narrow := t.narrow.map r
    wide := t.wide.map (Quad.mapRows r)
    rawLpm := t.rawLpm.map fun e => (e.1, r e.2)
    acl := t.acl.map fun e => (e.1, { e.2 with mask := g e.2.mask }) }

/-! ## Lookup (R195, R201, R207, R213, R215) -/

/-- A lookup's table for caches: 0 MAC, 1 general exact, 2 LPM narrow, 3 ACL, 4 LPM wide; the table of a line identity is 2 for both LPM regions. -/
def lineTable (tab : Nat) : Nat := if tab = 4 then 2 else tab

/-- Row number of the i-th quad's first row (R206). -/
def quadRow (i : Nat) : Nat := 1572860 - 4 * i

/-- The row that names the line an LPM row belongs to: itself, or the first row of the wide entry it is of (R206). -/
def Tables.headRow (t : Tables) (l : Nat) : Nat :=
  if l < t.narrow.length then l
  else
    match t.wide[(1572863 - l) / 4]? with
    | some q => if 64 < q.plen then l - l % 4 else l - l % 2
    | none => l

/-- The line a line identity of a table belongs to. -/
def Tables.headLine (t : Tables) (tab l : Nat) : Nat := if tab = 2 then t.headRow l else l

/-- Every line that answers a key in an index, best first: line number and result; an LPM line under reload does not (R224). -/
def Tables.matching (t : Tables) (tab n key : Nat) : List (Nat × W) :=
  if tab = 0 ∨ tab = 1 then
    (t.holders tab n key).filterMap fun l => (Map.find (t.lines tab) l).map fun e => (l, e.result)
  else if tab = 2 then
    ((List.range t.narrow.length).zip t.narrow ++ t.rawLpm).filterMap fun e =>
      if e.2.hits 64 n key && e.2.fix.isNone then some (e.1, e.2.result) else none
  else if tab = 4 then
    ((List.range t.wide.length).zip t.wide).flatMap fun e =>
      ((e.2.lo.map fun r => (quadRow e.1, r)).toList ++ (e.2.hi.map fun r => (quadRow e.1 + 2, r)).toList).filterMap fun x =>
        if x.2.hits 128 n key && x.2.fix.isNone then some (x.1, x.2.result) else none
  else
    let hits := t.acl.filter fun e => bit e.2.mask n && (key ^^^ e.2.key) &&& e.2.cmask == 0
    let low := hits.foldl (fun a e => min a e.2.pos) 65536
    (hits.filter fun e => e.2.pos == low).map fun e => (e.1, BitVec.ofNat 64 (e.2.action.toNat * 65536 + e.2.pos))

/-- The LPM entry whose line is row l. -/
def Tables.rowAt (t : Tables) (l : Nat) : Option Row :=
  if l < t.narrow.length then t.narrow[l]?
  else
    match t.wide[(1572863 - l) / 4]? with
    | some q => if 64 < q.plen || l % 4 < 2 then q.lo else q.hi
    | none => Map.find t.rawLpm l

/-- A line is out of matching while it is reloaded (R224); an LPM entry wherever its moves have put it (R211). -/
def Dev.reloading (d : Dev) (tab line : Nat) : Bool :=
  if tab = 2 then (d.tbl.rowAt line).any fun r => r.fix.isSome else d.tbl.reload.any fun e => e.1 == tab && e.2.1 == line

/-- Some line of a table is being reloaded (R224). -/
def Dev.anyReload (d : Dev) (tab : Nat) : Bool := d.tbl.reload.any fun e => e.1 == tab

/-- The answer of the arrays: the matching line; raw writes can leave several of equal rank, and then the spec does not say which answers (log 8). LPM answers by position. -/
def Dev.arrayLookup (tab n key : Nat) (d : Dev) : Option (Nat × W) × Dev :=
  let ms := (d.tbl.matching tab n key).filter fun e => lineTable tab == 2 || !d.reloading (lineTable tab) e.1
  match ms with
  | [] => (none, d)
  | [x] => (some x, d)
  | x :: y :: t =>
    if tab = 2 ∨ tab = 4 then (some x, d)
    else ((x :: y :: t)[d.freeW.toNat % (t.length + 2)]?, d.useFree)

/-- Bytes of the lookup cache an entry takes: its key and a word (log 73). -/
def CacheEnt.size (c : CacheEnt) : Nat := (match c.table with | 0 | 2 => 8 | 1 => 12 | 4 => 16 | _ => 80) + 8

/-- A cache within its 64 KiB: the oldest entries go first (Table 3.1, log 73). -/
def trimCache : List CacheEnt → List CacheEnt
  | [] => []
  | c :: t => if ((c :: t).map CacheEnt.size).sum ≤ 65536 then c :: t else trimCache t

/-- A cached result of a key that may still be used (R215). -/
def Dev.cached (lay tab n key : Nat) (d : Dev) : Option CacheEnt :=
  (d.layOf lay).cache.find? fun c => c.table == tab && c.shade == n && c.key == key && d.pclk < c.fill + 65536

/-- A lookup from a lay: its cache, then the arrays; a hit fills the cache (R80, R215). -/
def Dev.lookup (lay tab n key : Nat) (d : Dev) : Option (Nat × W) × Dev :=
  match d.cached lay tab n key with
  | some c => (some (c.line, c.value), d)
  | none =>
    let r := d.arrayLookup tab n key
    match r.1 with
    | some (l, v) => (r.1, r.2.onLay lay fun y => { y with
        cache := trimCache ((y.cache.filter fun c => d.pclk < c.fill + 65536) ++ [⟨tab, n, key, v, l, d.pclk⟩]) })
    | none => r

/-- Drop cached results of an index from every lay (R216, R217): of one key, or all of a table. -/
def Dev.invalidate (p : CacheEnt → Bool) (d : Dev) : Dev :=
  { d with lay := { d.lay with lays := d.lay.lays.map fun e => (e.1, { e.2 with cache := e.2.cache.filter fun c => !p c }) } }

/-! ## What a result leaves on the fibre (R219, R224, R225) -/

/-- Metadata with bit i of m6 set. -/
def setFlag (i : Nat) (m : Map W) : Map W := Map.put m 6 (Map.getD m 6 0 ||| (1#64 <<< i))

/-- The fibre holds a packet: not in a trap vector, and on the slow path until its terminal (R109, R116, R225). -/
def Fibre.holdsPacket (x : Fibre) : Bool :=
  match x.run with
  | some r => r.role != .vector && !(r.role == .slow && x.ended.isSome)
  | none => false

/-- Set a read-only flag of m6, STALE (1) or SUSPECT (2) (R85): it stays set whatever the program does, and of a program that has ended while its fibre waits it reaches what the terminal left to the packet (R101, R225). -/
def Dev.flag (f i : Nat) (d : Dev) : Dev :=
  let x := d.fibre f
  let d := d.onFibre f fun x => { x with arch := { x.arch with m := setFlag i x.arch.m }, iss := { x.iss with m := setFlag i x.iss.m } }
  match x.run, x.ended.isSome && x.holdsPacket with
  | some r, true =>
    d.onPkt r.pkt fun p =>
      let p := { p with stale := p.stale || i == 1, suspect := p.suspect || i == 2 }
      if r.role = .egress then Pkt.onCopy r.copy (fun c => { c with m := setFlag i c.m }) p else { p with m := setFlag i p.m }
  | _, _ => d

/-- A SUSPECT result or marking of a fibre (R225). -/
def Dev.suspect (f : Nat) (d : Dev) : Dev := (d.flag f 2).bump Reg.tblSuspectResult

/-- Record the line of a hit: the first 16 by line, later ones by table (R225). -/
def Fibre.recordHit (tab line : Nat) (x : Fibre) : Fibre :=
  if x.hits.length < 16 then { x with hits := x.hits ++ [(tab, line)] } else { x with hitTabs := x.hitTabs ++ [tab] }

/-- A stale window stands open on a line, on any row of it for a wide LPM entry (R219). -/
def Dev.isStale (d : Dev) (tab line : Nat) : Bool :=
  d.tbl.stale.any fun w => w.table == tab && d.tbl.headLine tab w.line == line && d.pclk < w.close

/-- Key of the region of a scrub pass that holds a line: TCAM regions of 256 rows, exact regions of 1,024 lines (Table 6.7). -/
def scrubRegion (tab line : Nat) : Nat :=
  if tab = 2 then line / 256 else if tab = 3 then 6144 + line / 256
  else 2 ^ 20 + (if tab = 0 then line / 1024 else 1024 + line / 1024)

/-- The line of a table, among those of all tables. -/
def lineKey (tab line : Nat) : Nat := tab * 2 ^ 24 + line

/-- The turn of a line's last good compare (Table 6.8). -/
def Dev.lastGood (d : Dev) (tab line : Nat) : Nat :=
  (Map.find d.tbl.lastGood (lineKey tab line)).getD (Map.getD d.tbl.goodTurn (scrubRegion tab line) 0)

/-- The LPM entry of row l with its row under reload (R211, R224). -/
def Tables.setFix (l : Nat) (t : Tables) : Tables :=
  let g (r : Row) : Row := { r with fix := some l }
  if l < t.narrow.length then { t with narrow := t.narrow.modify l g }
  else if (1572863 - l) / 4 < t.wide.length then
    { t with wide := t.wide.modify ((1572863 - l) / 4) fun q =>
        if 64 < q.plen || l % 4 < 2 then { q with lo := q.lo.map g } else { q with hi := q.hi.map g } }
  else { t with rawLpm := t.rawLpm.map fun e => if e.1 = l then (e.1, g e.2) else e }

/-- The LPM entry found corrupt at row l matches again (R224). -/
def Tables.endFix (l : Nat) (t : Tables) : Tables :=
  let g (r : Row) : Row := if r.fix = some l then { r with fix := none } else r
  { t with narrow := t.narrow.map g, wide := t.wide.map (Quad.mapRows g), rawLpm := t.rawLpm.map fun e => (e.1, g e.2) }

/-- A line is found corrupt at t_d: it leaves matching until reloaded, and every fibre that holds a packet which used it is marked (R224, R225). -/
def Dev.startRepair (tab line : Nat) (d : Dev) : Dev :=
  if d.reloading tab line || d.tbl.reload.any fun e => e.1 == tab && e.2.1 == line then d
  else
    let age := min (d.turn - d.lastGood tab line) (2 ^ 32 - 1)
    let head := d.tbl.headLine tab line
    let d := d.onTbl fun t => { (if tab = 2 then t.setFix line else t) with reload := t.reload ++ [(tab, line, age)] }
    (Map.keysWhere d.lay.fibres fun _ x =>
      x.holdsPacket && (x.hits.contains (tab, head) || x.hitTabs.contains tab)).foldl (fun d f => d.suspect f) d

/-! ## Learning (R203 to R205) -/

/-- The 16 bytes of a learn notice (Table 6.3). -/
def learnNotice (key iport kind shade old turn : Nat) : List Byte :=
  le 8 key ++ le 1 iport ++ le 1 (bits iport 8 1 + kind * 2 + shade % 4 * 4) ++ le 2 (old % 512) ++ le 4 turn

/-- Post a learn notice unless the filter holds its key from the last 64 turns (R204). -/
def Dev.learn (lay key iport kind shade old : Nat) (d : Dev) : Dev :=
  if d.tbl.learned.any fun e => e.1 == key && d.turn < e.2 + 64 then d.bump Reg.tblLearnFiltered
  else
    let r := d.emit 2 lay (learnNotice key iport kind shade old d.turn)
    if r.2 then d.bump Reg.tblLearnDrop
    else
      ((if r.1.tbl.learned.length < 4096 then r.1 else r.1.onTbl fun t => { t with learned := t.learned.drop 1 }).onTbl
        fun t => { t with learned := (t.learned.filter fun e => e.1 != key) ++ [(key, d.turn)] }).bump Reg.tblLearnNotice

end Sys2Proof.Machine
end

