-- ==== Sys2Proof/Machine/Autom.lean ====
section
/-! DEFINITION. Automaton units: admission, results, reports, and the match chain (10_automata.md). -/
namespace Sys2Proof.Machine

/-- Change the automaton state. -/
def Dev.onAut (f : Aut → Aut) (d : Dev) : Dev := { d with aut := f d.aut }

/-- Automaton unit u. -/
def Dev.unit (d : Dev) (u : Nat) : AutUnit := Map.getD d.aut.units u {}

/-- Change unit u. -/
def Dev.onUnit (u : Nat) (f : AutUnit → AutUnit) : Dev → Dev :=
  Dev.onAut fun a => { a with units := Map.modify a.units u {} f }

/-- The unit set of a lay (R312). -/
def Dev.unitSet (d : Dev) (lay : Nat) : List Nat :=
  if d.variant24 then [2 * lay, 2 * lay + 1, 2 * lay + 32, 2 * lay + 33] else [2 * lay, 2 * lay + 1]

/-- The lay whose set holds a unit (R312). -/
def Dev.unitLay (d : Dev) (u : Nat) : Nat := if d.variant24 then u % 32 / 2 else u / 2

/-- Scan time of a segment of n bytes (R313). -/
def scanTime (n : Nat) : Nat := ceilDiv (48 * n) 125 + 10

/-- F_u: when a unit's accepted segments end, or a when it is idle (R318). -/
def AutUnit.free (x : AutUnit) (a : Nat) : Nat := max a (x.segs.map (·.finish)).getLast?.toList.sum

/-- The unit a request is offered to (R318): the least finish time, the lower number on a tie; units under repair are out (R326). -/
def Dev.bestUnit (d : Dev) (lay a : Nat) : Option Nat :=
  ((d.unitSet lay).filter fun u => (d.unit u).fix.isEmpty).foldl
    (fun b u =>
      match b with
      | none => some u
      | some v => if (d.unit u).free a < (d.unit v).free a then some u else some v) none

/-- Accept a segment at this pclk, or refuse it (R318). -/
def Dev.admitSeg (lay : Nat) (g : Seg) (d : Dev) : Option Dev :=
  match d.bestUnit lay d.pclk with
  | none => none
  | some u =>
    let fin := (d.unit u).free d.pclk + scanTime g.bytes.length
    if fin ≤ d.pclk + 512 then some (d.onUnit u fun x => { x with segs := x.segs ++ [{ g with finish := fin }] }) else none

/-! ## Result words (Table 10.2) -/

/-- The word of a winner, if any, with the flags of Table 10.2. -/
def resultWord (winner : Option (Nat × Nat)) (slot matches' : Nat) (chain suspect noSet partial' trunc : Bool) : W :=
  let w := winner.getD (0, 0)
  BitVec.ofNat 64 (bits w.1 0 24 + bits w.2 0 16 * 2 ^ 24 + bits slot 0 8 * 2 ^ 40 + min matches' 15 * 2 ^ 48
    + ofBit winner.isSome * 2 ^ 52 + ofBit chain * 2 ^ 53 + ofBit suspect * 2 ^ 54 + ofBit noSet * 2 ^ 55
    + ofBit partial' * 2 ^ 56 + ofBit trunc * 2 ^ 57 + 2 ^ 63)

/-- Take a result word into m14 and pd, with its status; a SUSPECT one also sets m6[2] (R130, R323). -/
def Dev.takeResult (f pd : Nat) (s : Sub) (w : W) (d : Dev) : Dev :=
  let sus := w.getLsbD 54
  let got (a : Arch) : Arch := ((a.setM 14 w).setP pd true).setStatus (if sus then 0x12 else 0x00)
  let d := d.onFibre f fun x => { x with
    arch := got x.arch
    iss := got x.iss
    subs := x.subs.filter fun y => y.id != s.id
    avail := if s.from' = 0 then x.avail else (x.after s.from' [32 + pd, 64, 65]).avail
    autUnits := if x.autUnits.contains s.unit then x.autUnits else x.autUnits ++ [s.unit] }
  if sus then d.flag f 2 else d

/-- A waiting AUTWAIT takes the fibre's oldest submission once its word is there (R320). -/
def Dev.feedWait (f : Nat) (d : Dev) : Dev :=
  let x := d.fibre f
  match x.waits, x.subs with
  | (pd, _) :: ws, s :: _ =>
    match s.word with
    | some w => (d.takeResult f pd s w).onFibre f fun x => { x with waits := ws }
    | none => d
  | _, _ => d

/-- A result word reaches its fibre: taken by a wait, kept for one, or discarded when its submission was abandoned (R314, R320). -/
def Dev.toFibre (f id : Nat) (w : W) (d : Dev) : Dev :=
  if (d.fibre f).subs.any fun s => s.id == id then
    (d.onFibre f fun x => { x with subs := x.subs.map fun s => if s.id = id then { s with word := some w } else s }).feedWait f
  else d.bump Reg.autResultAbandon

/-! ## The match chain (R328 to R334) -/

/-- The chain settings a shade holds for a lay (R329). -/
def Dev.chainOf (d : Dev) (shade lay : Nat) : Option Chain := (d.progSet shade lay).chain

/-- The chain settings in force: those of the CURRENT shade (Table 10.9). -/
def Dev.chainNow (d : Dev) : Option Chain := (d.shade d.current).sets.findSome? fun e => e.2.chain

/-- A chain word (Table 10.5): a match, or no match with NO_SET, SUSPECT and BUSY. -/
def chainWord (tag : Nat) (winner : Option (Nat × Nat)) (noSet suspect busy : Bool) : W :=
  match winner with
  | some (r, p) => BitVec.ofNat 64 (bits r 0 24 + bits p 0 16 * 2 ^ 24 + bits tag 0 24 * 2 ^ 40)
  | none => BitVec.ofNat 64 (0xFFFFFF + (ofBit noSet + 2 * ofBit suspect + 4 * ofBit busy) * 2 ^ 24 + bits tag 0 24 * 2 ^ 40)

/-- Rule, priority and tag of a chain word. -/
def wordRule (w : W) : Nat := bits w.toNat 0 24
/-- Priority, or flags, of a chain word. -/
def wordPrio (w : W) : Nat := bits w.toNat 24 16
/-- Tag of a chain word. -/
def wordTag (w : W) : Nat := bits w.toNat 40 24

/-- The merge rule of R332, with the comparison of R321. -/
def mergeWords (a b : W) : W :=
  let no (w : W) : Bool := wordRule w == 0xFFFFFF
  if no a && no b then a ||| b
  else if no a then b
  else if no b then a
  else if wordPrio a > wordPrio b then a
  else if wordPrio b > wordPrio a then b
  else if wordRule a ≤ wordRule b then a else b

/-- Send a control message toward a node over its route (R353, R354): nothing is sent without one. -/
def Dev.toNode (shade dest kind : Nat) (body : List Byte) (d : Dev) : Dev :=
  match d.resolve shade dest 65 dest false with
  | .onLink p _ _ => d.control p kind dest 0 body
  | .route r _ _ =>
    match d.nextHop r 0 0 with
    | (some p, d) => d.control p kind dest 0 body
    | (none, d) => d
  | _ => d

/-- The origin delivers a chain's global result with CHAIN = 1 (R333). MATCHES is a free value: the word does not carry it (log 8). -/
def Dev.deliverGlobal (w : W) (partial' : Bool) (d : Dev) : Dev :=
  match d.aut.mine.find? fun e => e.1 == wordTag w with
  | none => d
  | some (tag, owner, id, slot, trunc) =>
    let d := d.onAut fun a => { a with mine := a.mine.filter fun e => e.1 != tag }
    let no := wordRule w == 0xFFFFFF
    let fl := wordPrio w
    let m := if no then 0 else d.freeW.toNat % 16
    let word := resultWord (if no then none else some (wordRule w, wordPrio w)) slot m true (no && bit fl 1) (no && bit fl 0)
      (partial' || (no && bit fl 2)) trunc
    let d := d.useFree
    match owner with
    | .fibre f => ((d.bumpIf (!no) Reg.autHit).bumpIf (no && bit fl 1) Reg.autSuspectResult).toFibre f id word
    | _ => d

/-- A merged word leaves a position: on MCH_OUT, which loses it while it is down (R334), or at position N - 1 to the origin (R332, R333). -/
def Dev.chainOut (c : Chain) (w : W) (partial' : Bool) (d : Dev) : Dev :=
  if c.pos + 1 < c.n then (if d.aut.outUp then d.sendGated .mchWord [w.toNat] [] else d).bump Reg.autChainSent
  else if wordTag w / 2 ^ 21 = c.pos then d.deliverGlobal w partial'
  else
    let w := if partial' ∧ wordRule w = 0xFFFFFF then w ||| BitVec.ofNat 64 (4 * 2 ^ 24) else w
    d.toNode d.current (c.ids.getD (wordTag w / 2 ^ 21) 0) 5 (le 8 w.toNat)

/-- A position's own result of a tag (R332). -/
def Dev.chainLocal (c : Chain) (w : W) (d : Dev) : Dev :=
  if c.pos = 0 then d.chainOut c w false
  else
    match d.aut.tags.find? fun t => t.tag == wordTag w with
    | some t =>
      match t.up with
      | some u => (d.onAut fun a => { a with tags := a.tags.filter fun x => x.tag != t.tag }).chainOut c (mergeWords u w) false
      | none => d
    | none =>
      if d.aut.tags.length < 4096 then
        d.onAut fun a => { a with
          tags := a.tags ++ [{ tag := wordTag w, mine := some w, since := d.pclk, chain := c }], gone := a.gone.filter (· != wordTag w) }
      else d.bump Reg.autChainDrop

/-- An upstream word (R328, R332, R334). -/
def Dev.chainUp (c : Chain) (w : W) (d : Dev) : Dev :=
  if d.aut.gone.contains (wordTag w) then
    (d.onAut fun a => { a with gone := a.gone.filter (· != wordTag w) }).bump Reg.autChainLate
  else
    match d.aut.tags.find? fun t => t.tag == wordTag w with
    | some t =>
      match t.mine with
      | some m => (d.onAut fun a => { a with tags := a.tags.filter fun x => x.tag != t.tag }).chainOut t.chain (mergeWords w m) false
      | none => d
    | none =>
      if d.aut.tags.length < 4096 then
        d.onAut fun a => { a with tags := a.tags ++ [{ tag := wordTag w, up := some w, chain := c }] }
      else d.bump Reg.autChainDrop

/-- MCH_WORD_RECEIVE (R328, R332): an unchained device ignores MCH_IN. -/
def execMchWordReceive (word : W) (crcOk : Bool) (s : State) : Host.Outcome State Fault Refusal :=
  s.run true fun d =>
    match d.chainNow with
    | none => d
    | some c =>
      if !d.aut.inUp then d
      else if crcOk then d.chainUp c word else d.bump Reg.autMchCrc

/-- CHAIN_RETURN_RECEIVE (R333). -/
def execChainReturnReceive (word : W) (s : State) : Host.Outcome State Fault Refusal :=
  s.run true fun d => d.deliverGlobal word false

/-- CHAIN_TAG_TIMEOUT (R334): 8,192 pclk after the local result the tag is abandoned; position N - 1 delivers its own with PARTIAL. -/
def execChainTagTimeout (tag : Nat) (s : State) : Host.Outcome State Fault Refusal :=
  s.run (tag < 2 ^ 24) fun d =>
    match d.aut.tags.find? fun t => t.tag == tag with
    | none => d
    | some t =>
      match t.mine with
      | none => d
      | some w =>
        let d := ((d.due (t.since + 8192)).onAut fun a => { a with
          tags := a.tags.filter fun x => x.tag != tag, gone := a.gone ++ [tag] }).bump Reg.autChainTimeout
        if t.chain.pos + 1 < t.chain.n then d else d.chainOut t.chain w true

/-- CHAIN_SEGMENT_RECEIVE (R331, R360): the link has been heard; scanned with the newest live shade that holds the generation, on the unit set of the link's lay. -/
def execChainSegmentReceive (port gen set tag : Nat) (bytes : List Byte) (s : State) : Host.Outcome State Fault Refusal :=
  s.run (port < 256) fun d =>
    let d := if (d.port port).braid then d.onLink port fun l => { l with heard := true } else d
    let lay := port / 8
    let having := d.live.filter fun n => ((d.chainOf n lay).map (·.gen)) == some gen
    let newest := having.foldl (fun (a : Option Nat) n =>
      match a with
      | none => some n
      | some m => if serialGt (d.shade n).num (d.shade m).num then some n else some m) none
    match newest with
    | none =>
      let d := d.bump Reg.autChainNoset
      d.with' d.chainNow fun c d => d.chainLocal c (chainWord tag none true false false)
    | some n =>
      d.with' (d.chainOf n lay) fun c d =>
        let g : Seg := { id := d.aut.nextSeg, owner := .chain tag, shade := n, set, bytes
                         noSet := !(d.progSet n lay).autSets.contains set, tag := some tag }
        match d.admitSeg lay g with
        | some d => d.onAut fun a => { a with nextSeg := a.nextSeg + 1 }
        | none => d.chainLocal c (chainWord tag none false false true)

/-! ## Submission by a fibre (R315 to R318, R330) -/

/-- An accepted submission is the fibre's and is counted (R317, R401); that of a post whose fibre has trapped is abandoned (R113, R320). -/
def Dev.accepted (f : Nat) (g : Seg) (unit from' : Nat) (dead : Bool) (d : Dev) : Dev :=
  (if dead then d else d.onFibre f fun x => { x with subs := x.subs ++ [{ id := g.id, unit, from' }] }).bump Reg.autSubmit

/-- The packet of a post's work: none in a trap vector (R116). -/
def Dev.postPkt (o : Post) (d : Dev) : Option Pkt := if o.run.role = .vector then none else d.pkt o.run.pkt

/-- An AUTSUB reaches the lay's unit set: the device, and whether it is accepted (R315 to R318, R330); one without a packet is FULL (log 72). -/
def Dev.submit (f tag word : Nat) (o : Post) (d : Dev) : Dev × Bool :=
  let x := d.fibre f
  match (d.postPkt o).map fun p => (o.run, p) with
  | none => (d.bump Reg.autSubmitFull, false)
  | some (r, p) =>
    let frame := if r.role = Role.egress then p.out else p.bytes
    let off := bits word 0 16
    let n := bits word 16 8 + 1
    let set := bits word 24 16
    let lay := fibreLay f
    if !p.whole && frame.length < off + n then (d.bump Reg.autSubmitEarly, false)
    else if !o.dead && 4 ≤ x.subs.length then (d.bump Reg.autSubmitFull, false)
    else
      let id := d.aut.nextSeg
      let d := d.onAut fun a => { a with nextSeg := a.nextSeg + 1 }
      let noSet := !(d.progSet r.shade lay).autSets.contains set
      let g : Seg := {
        id, owner := .fibre f, slot := tag, shade := r.shade, set, bytes := (frame.drop off).take n
        trunc := frame.length < off + n, noSet, m0 := o.m0 }
      let unit := (d.bestUnit lay d.pclk).getD 64
      if frame.length ≤ off then
        ((d.accepted f g 64 (d.pclk + 8) o.dead).toFibre f id (resultWord none tag 0 false false false false true), true)
      else
        match d.chainOf r.shade lay with
        | some c =>
          if bit word 40 ∧ c.sets.contains set then
            let t := c.pos % 8 * 2 ^ 21 + d.aut.seq % 2 ^ 21
            match d.admitSeg lay { g with tag := some t } with
            | none => (d.bump Reg.autSubmitFull, false)
            | some d =>
              let d := d.onAut fun a => { a with seq := a.seq + 1, mine := a.mine ++ [(t, .fibre f, id, tag, g.trunc)] }
              let body := le 4 c.gen ++ le 2 set ++ le 3 t ++ g.bytes
              let others := (List.range c.n).filter (· != c.pos)
              let d := others.foldl (fun d k => d.toNode r.shade (c.ids.getD k 0) 4 body) d
              (d.accepted f g unit 0 o.dead, true)
          else
            match d.admitSeg lay g with
            | none => (d.bump Reg.autSubmitFull, false)
            | some d => (d.accepted f g unit 0 o.dead, true)
        | none =>
          match d.admitSeg lay g with
          | none => (d.bump Reg.autSubmitFull, false)
          | some d => (d.accepted f g unit 0 o.dead, true)

/-! ## Results and reports (R314, R322, R324, R326) -/

/-- Strand, fibre and index of a segment's submitter, for reports. -/
def Seg.place (g : Seg) : Nat × Nat := match g.owner with | .fibre f => (f / 8, f % 8) | _ => (0, 0)

/-- The report of a scan (Table 10.3). -/
def report (ns : Nat) (g : Seg) (rs : List (Nat × Nat × Nat)) : List Byte :=
  let far := match g.owner with | .chain _ => true | _ => false
  let e := (rs.take 8).flatMap fun r => le 6 (bits r.1 0 24 + bits r.2.1 0 8 * 2 ^ 24 + bits r.2.2 0 16 * 2 ^ 32)
  le 8 ns ++ le 2 (g.place.1 + g.place.2 * 512 + g.shade % 4 * 4096 + (if far then 2 else 0) * 2 ^ 14) ++ le 1 g.slot
    ++ le 1 ((rs.take 8).length + ofBit (8 < rs.length) * 16 + ofBit g.trunc * 32) ++ le 2 g.set
    ++ le 2 (if far then g.tag.getD 0 / 2 ^ 21 else g.m0 % 512) ++ padTo 48 e

/-- Write a report to the lay's report queues, or drop it (R324). -/
def Dev.writeReport (lay : Nat) (body : List Byte) (d : Dev) : Dev :=
  let r := d.emit 3 lay body
  if r.2 then d.bump Reg.autReportDrop else r.1.bump Reg.autReport

/-- The local result of a segment goes to its owner (R314, R322, R330, R332). -/
def Dev.finishSeg (lay : Nat) (g : Seg) (scan : Scan) (suspect : Bool) (d : Dev) : Dev :=
  let win := if g.noSet then none else scan.winner
  let d := d.bumpIf suspect Reg.autSuspectResult
  match g.tag with
  | some t =>
    d.with' (d.chainOf g.shade lay) fun c d => d.chainLocal c (chainWord t win g.noSet suspect false)
  | none =>
    let w := resultWord win g.slot (if g.noSet then 0 else scan.count) false suspect g.noSet false g.trunc
    match g.owner with
    | .fibre f => (d.bumpIf win.isSome Reg.autHit).toFibre f g.id w
    | .query c k => d.onCore c fun x => { x with slots := if (Map.find x.slots k).isSome then Map.put x.slots k (some w) else x.slots }
    | .chain _ => d

/-- The line of a unit, among those of all units. -/
def unitLine (unit line : Nat) : Nat := unit * 4096 + line

/-- The turn of the last good compare of a unit's line (R326). -/
def Dev.unitGood (d : Dev) (unit line : Nat) : Nat :=
  (Map.find d.aut.lastGood (unitLine unit line)).getD (Map.getD d.aut.goodTurn (unit * 256 + line / 16) 0)

/-- A line of a unit is found corrupt at t_d: the unit leaves admission, its segments end as SUSPECT no-match words, and fibres that used it for a packet they hold are marked (R326, R327). -/
def Dev.startUnitRepair (unit line : Nat) (d : Dev) : Dev :=
  if (d.unit unit).fix.any fun e => e.1 == line then d
  else
    let lay := d.unitLay unit
    let segs := (d.unit unit).segs
    let age := min (d.turn - d.unitGood unit line) (2 ^ 32 - 1)
    let d := d.onUnit unit fun x => { x with segs := [], fix := x.fix ++ [(line, age)] }
    let d := segs.foldl (fun d g => d.finishSeg lay g { winner := none, count := 0, reports := [], suspect := true } true) d
    (Map.keysWhere d.lay.fibres fun _ x => x.holdsPacket && x.autUnits.contains unit).foldl
      (fun d f => (d.flag f 2).bump Reg.autSuspectResult) d

/-- AUTOMATON_RESULT_DELIVERY (R314, R325): the unit's oldest scan ends, single-bit errors it met corrected, a report is written, and 8 pclk later its word is with its owner; a double-bit error it met starts the unit's repair instead (R326). -/
def execAutomatonResultDelivery (unit : Nat) (scan : Scan) (s : State) : Host.Outcome State Fault Refusal :=
  s.run (unit < 64 && scan.hard.all (· < 4096)) fun d =>
    match (d.unit unit).segs with
    | [] => d
    | g :: rest =>
      let lay := d.unitLay unit
      let d := (d.due g.finish).add Reg.autEccCorrect scan.fixed
      match scan.hard with
      | some line => d.startUnitRepair unit line
      | none =>
        let d := (d.onUnit unit fun x => { x with segs := rest }).bump (Reg.autUScanned unit)
        let d := if scan.reports = [] ∨ g.noSet then d else d.writeReport lay (report d.ns g scan.reports)
        (if g.tag.isNone then d.due (g.finish + 8) else d).finishSeg lay g scan scan.suspect

/-- AUT_LINE_RELOAD_DONE (R326): the unit's oldest reload ends; AUT_FIX_LAST is written and a repair report made, and with none left the unit rejoins admission. -/
def execAutLineReloadDone (unit : Nat) (s : State) : Host.Outcome State Fault Refusal :=
  s.run (unit < 64) fun d =>
    match (d.unit unit).fix with
    | [] => d
    | (line, age) :: rest =>
      let v : W := BitVec.ofNat 64 (unit % 64 + line % 4096 * 256 + age % 2 ^ 32 * 2 ^ 32)
      let d := (d.onUnit unit fun x => { x with fix := rest }).onAut fun a => { a with fixLast := v }
      (d.bump Reg.autScrubFix).writeReport (d.unitLay unit)
        (le 8 d.ns ++ le 2 (1 * 2 ^ 14) ++ le 6 0 ++ padTo 48 (le 8 v.toNat))

/-- MCH_LANE_UP (R328, R580): a lane locks, or completes training. -/
def execMchLaneUp (out : Bool) (s : State) : Host.Outcome State Fault Refusal :=
  s.run true fun d => d.onAut fun a => if out then { a with outUp := !d.boot.gated } else { a with inUp := true }

/-- MCH_LANE_DOWN (R334): a lane loses lock or training. -/
def execMchLaneDown (out : Bool) (s : State) : Host.Outcome State Fault Refusal :=
  s.run true fun d => d.onAut fun a => if out then { a with outUp := false } else { a with inUp := false }

end Sys2Proof.Machine
end

