-- ==== Sys2Proof/Machine/Flags.lean ====
section
/-! DEFINITION. Statuses (Table 0.4), compare conditions (R127), predicate functions (Table 4.2) and policer decisions (Table 8.4). -/
namespace Sys2Proof.Machine

/-! ## Status codes (Table 0.4) -/

/-- Completed as requested. -/
def stDone : Nat := 0x00
/-- Queued behind a conflicting activity. -/
def stDeferred : Nat := 0x01
/-- Ended by an abort before completion. -/
def stAborted : Nat := 0x02
/-- No free entry or bucket. -/
def stFull : Nat := 0x04
/-- The resource is not yet initialised. -/
def stNotReady : Nat := 0x05
/-- Authentication or signature check failed. -/
def stAuthFail : Nat := 0x06
/-- Ended by a tamper alarm. -/
def stTamper : Nat := 0x07
/-- Access width, alignment or permission rule broken. -/
def stAccessErr : Nat := 0x08
/-- Storage medium error. -/
def stMediaErr : Nat := 0x09
/-- The named entry does not exist. -/
def stNotFound : Nat := 0x0A
/-- An operand is out of range or malformed. -/
def stBadOperand : Nat := 0x0B
/-- Four shades already live. -/
def stShadeBusy : Nat := 0x0C
/-- The target is fenced. -/
def stFenced : Nat := 0x0D
/-- The time bound expired. -/
def stTimeout : Nat := 0x0E
/-- The abort reached the command. -/
def stCaught : Nat := 0x10
/-- The abort found the command already finished. -/
def stMissed : Nat := 0x11
/-- The result used a line since found corrupt. -/
def stSuspect : Nat := 0x12
/-- The output is gated during boot verification. -/
def stGated : Nat := 0x13
/-- The image cannot read the settings store. -/
def stIncompatible : Nat := 0x14

/-! ## Conditions and predicates -/

/-- The condition of CMP and CMPI (R127); 7 is reserved and never reaches here. -/
def condHolds (cond : BitVec 3) (a b : W) : Bool :=
  match cond.toNat with
  | 0 => a == b
  | 1 => a != b
  | 2 => a < b
  | 3 => b ≤ a
  | 4 => a.slt b
  | 5 => b.sle a
  | _ => a &&& b != 0

/-- Positions of 64 bits, the most significant first. -/
def leadingZeros (n : Nat) (x : W) : Nat :=
  match n with
  | 0 => 0
  | k + 1 => if x.getLsbD k then 0 else leadingZeros k x + 1

/-- The bits set among the lowest n (POPC). -/
def popCount (n : Nat) (x : W) : Nat :=
  match n with
  | 0 => 0
  | k + 1 => (if x.getLsbD k then 1 else 0) + popCount k x

/-! ## Policer decisions (Table 8.4) -/

/-- Colour, and whether the C bucket and the P or E bucket are debited, for levels c and p and a charge b. -/
def policeDecide (cfg : PolCfg) (colour : Nat) (c p b : Int) : Nat × Bool × Bool :=
  let input := if cfg.aware then colour else 0
  if 2 ≤ input then (2, false, false)
  else if input = 1 then (if p < b then (2, false, false) else (1, false, true))
  else if cfg.rfc4115 then
    (if b ≤ c then (0, true, false) else if b ≤ p then (1, false, true) else (2, false, false))
  else if p < b then (2, false, false)
  else if c < b then (1, false, true)
  else (0, true, true)

end Sys2Proof.Machine
end

