-- ==== Sys2Proof/Machine/Operands.lean ====
section
/-! DEFINITION. How a packet operation issues: guards, readiness, the bundle's slots, operand forms, window and
strand-store addressing, metadata writes, lane posts (R84 to R98, R120 to R131). -/
namespace Sys2Proof.Machine

/-! ## Guards and readiness (R91, R120) -/

/-- The guard holds on the registers at issue (R120). -/
def guardHolds (g : BitVec 4) (a : Arch) : Bool := a.getP (g.toNat % 8) != g.getLsbD 3

/-- The predicate a guard names. -/
def guardPred (g : BitVec 4) : Nat := g.toNat % 8

/-- Registers a post writes when its result arrives (Table 4.3). -/
def Post.regs (p : Post) : List Nat :=
  match p.op with
  | .count _ _ _ | .automaton _ _ => []
  | .group _ => [p.rd, p.rd + 1, p.rd + 2, p.rd + 3]
  | _ => [p.rd]

/-- Every register and predicate read has its result (R91): no live post, and for m14 and predicates no AUTWAIT, still owes one. -/
def Fibre.ready (x : Fibre) (regs preds : List Nat) (m14 : Bool) : Bool :=
  let preds := preds.filter (· != 0)
  (x.posts.all fun p => p.dead || (!(p.regs.any regs.contains) && !preds.contains p.pd))
    && x.waits.all fun w => !m14 && !preds.contains w.1

/-- The fibre issues: it holds work, its program has neither ended nor trapped, and it is not blocked (R91, R108). -/
def Fibre.issues (x : Fibre) : Bool :=
  x.run.isSome && x.ended.isNone && x.trapped.isNone && x.block.isNone && !x.parked

/-! ## One slot of a bundle (R92, R113, R121, R122, log 5) -/

/-- What an operation comes to: its effect, a branch, the end of the program, a trap, or a stall (R95). -/
inductive Act where
  | done (d : Dev)
  | jump (d : Dev) (target : Nat)
  | ended (d : Dev) (t : Term)
  | trap (cause : Nat)
  | stall

/-- The first slot of a bundle fixes the pclk of its issue and what its operations read (R92). -/
def Fibre.begin (t : Nat) (x : Fibre) : Fibre := if x.slot = 0 then { x with iss := x.arch, undo := [], at' := t } else x

/-- After an operation: the next slot, or the next bundle; the target of a branch is in the fetch buffer 4 pclk after its issue (R96). -/
def Fibre.next (jump : Option Nat) (x : Fibre) : Fibre :=
  if x.slot < 3 then { x with slot := x.slot + 1 }
  else
    { x with
      slot := 0, pc := jump.getD ((x.pc + 1) % 16384), iss := x.arch, undo := []
      fetch := if jump.isSome then x.at' + 4 else x.fetch }

/-- The end of a program (R101, R109, R320): what it leaves is kept, results not taken are abandoned, a slow-path packet is released at once (one that SLOW ends goes into the slow line again: DEDUCED, log 72), and the fibre waits for its lane operations. -/
def Dev.finish (f : Nat) (t : Term) (d : Dev) : Dev :=
  let d := ((d.onFibre f fun x => { x with ended := some t }).stash f t).abandonSubs f
  match (d.fibre f).run with
  | none => d
  | some r =>
    (if r.role = .slow then
      match d.pkt r.pkt with
      | some p => d.releaseNow r.pkt p
      | none => d
     else d).park f

/-- pclk from leaving the queue to the result (Table 1.3). -/
def LaneOp.latency : LaneOp → Nat
  | .exact _ | .mac _ _ _ => 24
  | .lpm _ _ => 32
  | .acl _ _ => 40
  | .count _ _ _ => 8
  | .police _ _ _ _ _ => 16
  | .group _ => 24
  | .automaton _ _ => 12

/-! ## When a bundle issues (R90, R91, R96, R99, log 5, log 11) -/

/-- The general registers, with 64 for m15 and 65 for m14, and the predicates an operation reads beside its guard, and whether it reads m14. -/
def opReads : Instr → List Nat × List Nat × Bool
  | .aluAdd _ _ _ ra rb | .aluSub _ _ _ ra rb | .aluAnd _ _ _ ra rb | .aluOr _ _ _ ra rb | .aluXor _ _ _ ra rb
  | .aluAndn _ _ _ ra rb | .aluShl _ _ _ ra rb | .aluShr _ _ _ ra rb | .aluSar _ _ _ ra rb | .aluMinu _ _ _ ra rb
  | .aluMaxu _ _ _ ra rb | .aluMul _ _ _ ra rb => ([ra.toNat, rb.toNat], [], false)
  | .aluMov _ _ _ ra _ | .aluPopc _ _ _ ra _ | .aluClz _ _ _ ra _ => ([ra.toNat], [], false)
  | .addi _ _ _ ra _ | .andi _ _ _ ra _ | .ori _ _ _ ra _ | .xori _ _ _ ra _ | .shli _ _ _ ra _ | .shri _ _ _ ra _
  | .sari _ _ _ ra _ => ([ra.toNat], [], false)
  | .movk _ _ _ rd _ => ([rd.toNat], [], false)
  | .cmp _ _ _ _ ra rb _ => ([ra.toNat, rb.toNat], [], false)
  | .cmpi _ _ _ _ ra _ => ([ra.toNat], [], false)
  | .plogAnd _ _ _ pa pb _ | .plogOr _ _ _ pa pb _ | .plogXor _ _ _ pa pb _ | .plogAndn _ _ _ pa pb _ => ([], [pa.toNat, pb.toNat], false)
  | .plogNot _ _ _ pa _ _ => ([], [pa.toNat], false)
  | .ext _ _ _ ra _ _ => ([ra.toNat], [], false)
  | .ins _ _ rd ra _ _ => ([rd.toNat, ra.toNat], [], false)
  | .mrd _ _ _ n _ => (if n = 15 then [64] else if n = 14 then [65] else [], [], n == 14)
  | .mwr _ _ ra _ _ => ([ra.toNat], [], false)
  | .wld _ _ _ _ indexed ra _ _ => (if indexed = 1#1 then [ra.toNat] else [], [], false)
  | .wst _ _ rd _ indexed ra _ => (rd.toNat :: (if indexed = 1#1 then [ra.toNat] else []), [], false)
  | .sld _ _ _ _ _ ra _ _ => ([ra.toNat], [], false)
  | .sst _ _ rd _ _ ra _ => ([rd.toNat, ra.toNat], [], false)
  | .lkx _ _ _ ra _ _ => ([ra.toNat, ra.toNat + 1], [], false)
  | .lkl _ _ _ ra _ v => (if v = 1 then [ra.toNat, ra.toNat + 1] else [ra.toNat], [], false)
  | .lka _ _ _ ra _ _ => ((List.range 10).map (ra.toNat + ·), [], false)
  | .count _ _ rd ra _ v => (if v.getLsbD 8 then [ra.toNat, rd.toNat] else [ra.toNat], [], false)
  | .lkxMac _ _ _ ra _ _ | .police _ _ _ ra _ _ | .mcrd _ _ _ ra _ _ | .autsub _ _ _ ra _ _ | .cltry _ _ _ ra _ _ | .clrel _ _ _ ra _ _
  | .clwait _ _ _ ra _ _ | .lnget _ _ _ ra _ _ | .lngetw _ _ _ ra _ _ => ([ra.toNat], [], false)
  | .lnput _ _ rd ra _ _ | .lnputw _ _ rd ra _ _ => ([rd.toNat, ra.toNat], [], false)
  | _ => ([], [], false)

/-- The lane an operation posts to (R30). -/
def opLane : Instr → Option Nat
  | .lkx _ _ _ _ _ _ | .lkxMac _ _ _ _ _ _ => some 0
  | .lkl _ _ _ _ _ _ => some 1
  | .lka _ _ _ _ _ _ => some 2
  | .count _ _ _ _ _ _ | .police _ _ _ _ _ _ | .mcrd _ _ _ _ _ _ | .autsub _ _ _ _ _ _ => some 3
  | _ => none

/-- What a word reads, its guard's predicate included. -/
def wordReads (w : BitVec 32) : List Nat × List Nat × Bool :=
  let r := ((decodeNamed 0 w).map opReads).getD ([], [], false)
  (r.1, guardPred (wordGuard w) :: r.2.1, r.2.2)

/-- The bundle at a fibre's program counter, in the set of its packet's shade; none where the store holds none there. Bundle addresses are those of the set (R81, R119, log 72). -/
def Dev.bundle (f : Nat) (d : Dev) : Option (BitVec 128) :=
  let x := d.fibre f
  x.run.bind fun r => (d.progSet r.shade (fibreLay f)).code[x.pc]?

/-- What a fibre's next bundle needs (R91): registers, predicates, m14, and the lane it posts to; of a bundle the store does not hold, what the operation at hand reads (log 24). -/
def Dev.needs (f : Nat) (regs preds : List Nat) (m14 : Bool) (d : Dev) : List Nat × List Nat × Bool × Option Nat :=
  match d.bundle f with
  | none => (regs, preds, m14, none)
  | some b =>
    let rs := (List.range 4).map fun n => wordReads (slotWord b n)
    let last := slotWord b 3
    (rs.flatMap (·.1), rs.flatMap (·.2.1), rs.any (·.2.2),
      if guardHolds (wordGuard last) (d.fibre f).arch then (decodeNamed 0 last).bind opLane else none)

/-- The pclk from which a fibre's next bundle is ready: it is fetched, what it reads is there, and no post of the fibre waits in the lane it posts to (R91, R93, R95, R96). -/
def Dev.readyFrom (f : Nat) (regs preds : List Nat) (m14 : Bool) (d : Dev) : Option Nat :=
  let x := d.fibre f
  let n := d.needs f regs preds m14
  if x.issues && x.ready n.1 n.2.1 n.2.2.1 then
    let regsAt := (n.1 ++ (n.2.1.filter (· != 0)).map (32 + ·)).foldl (fun t k => max t (Map.getD x.avail k 0)) x.fetch
    some (x.posts.foldl (fun t p => if n.2.2.2 = some p.lane then max t (p.due - p.op.latency) else t) regsAt)
  else none

/-- Fibre f is ready at a pclk with a bundle its program store holds, none of which has issued. -/
def Dev.storeReady (f t : Nat) (d : Dev) : Bool :=
  (d.fibre f).slot == 0 && (d.bundle f).isSome && (d.readyFrom f [] [] false).any (· ≤ t)

/-- At a pclk at which it is ready fibre f issues: in its guaranteed slot, or in that of a fibre that is not ready when it is the next ready one after the fibre that borrowed last (R90). -/
def Dev.wins (f t : Nat) (d : Dev) : Bool :=
  let s := f / 8
  let last := Map.getD d.lay.borrowed s 7
  t % 8 == f % 8
    || (!d.storeReady (8 * s + t % 8) t
      && ((List.range 8).map fun k => (last + 1 + k) % 8).find? (fun g => g == f % 8 || d.storeReady (8 * s + g) t) == some (f % 8))

/-- The last pclk at which a fibre's program may issue: the end of its envelope, or of its time on the slow path (R104, R109). -/
def Run.until (r : Run) : Nat := if r.role = .slow then r.d + 1048576 else r.d + r.e

/-- The pclk at which a fibre's next bundle issues; none where it cannot, or another fibre of the strand is in the midst of its own. A strand issues one bundle per pclk (R90). -/
def Dev.issueAt (f : Nat) (regs preds : List Nat) (m14 : Bool) (d : Dev) : Option Nat :=
  let s := f / 8
  if (List.range 8).any fun g => 8 * s + g != f && (d.fibre (8 * s + g)).slot != 0 then none
  else
    match d.readyFrom f regs preds m14, (d.fibre f).run with
    | some t0, some r =>
      let t0 := max (max d.pclk (Map.getD d.lay.issued s 0)) t0
      let t := (((List.range 8).map (t0 + ·)).find? fun t => d.wins f t).getD t0
      if t ≤ r.until then some t else none
    | _, _ => none

/-- The pclk at which an operation of fibre f issues: that of its bundle. -/
def Dev.opens (f : Nat) (regs preds : List Nat) (m14 : Bool) (d : Dev) : Option Nat :=
  let x := d.fibre f
  if x.slot = 0 then d.issueAt f regs preds m14 else if x.issues && x.ready regs preds m14 then some x.at' else none

/-- A bundle issues: time passes to its pclk, which the strand has used (R90). -/
def Dev.openBundle (f t : Nat) (d : Dev) : Dev :=
  if (d.fibre f).slot ≠ 0 then d
  else
    let d := d.due t
    ({ d with lay := { d.lay with
        issued := Map.put d.lay.issued (f / 8) (t + 1)
        borrowed := if t % 8 = f % 8 then d.lay.borrowed else Map.put d.lay.borrowed (f / 8) (f % 8) } } : Dev).onFibre f (Fibre.begin t)

/-- Results of a fixed latency above 1 are available that many pclk after the bundle's issue (R93, Table 3.5). -/
def Dev.late (f lat : Nat) (keys : List Nat) : Dev → Dev :=
  Dev.onFibre f fun x => x.after (x.at' + lat) keys

/-- Issue one operation in the fibre's next slot. `last` marks an operation that only slot 3 takes; `illegal` one that R122 traps whatever its guard; `regs`, `preds` and `m14` what it reads. Of several operations of a bundle that fault, the one in the lowest slot gives the cause (log 72). -/
def Dev.issue (f : Nat) (g : BitVec 4) (last illegal : Bool) (regs preds : List Nat) (m14 : Bool) (act : Fibre → Dev → Act)
    (d : Dev) : Dev :=
  match d.opens f regs (guardPred g :: preds) m14 with
  | none => d
  | some t =>
    let d := d.openBundle f t
    let x := d.fibre f
    if illegal || (last && x.slot != 3) then d.trapF f 0x04
    else if !guardHolds g x.iss then d.onFibre f (Fibre.next none)
    else
      match act x d with
      | .done d => d.onFibre f (Fibre.next none)
      | .jump d t => d.onFibre f (Fibre.next (some t))
      | .ended d t => (d.onFibre f (Fibre.next none)).finish f t
      | .trap c => d.trapF f c
      | .stall => d

/-- Whether the major opcode and function of a word name an operation (Table 4.2). -/
def namesOp (w : BitVec 32) : Bool := (decodeNamed 0 w).isSome

/-- The word in a fibre's next slot (R81, R119); none where the store holds no bundle there. A shade's bundles are addressed from 0 (DEDUCED, log 72). -/
def Dev.storeWord (f : Nat) (d : Dev) : Option (BitVec 32) := (d.bundle f).map fun b => slotWord b (d.fibre f).slot

/-- A fibre executes what its program store holds (log 24): the operation of another word there does not happen. -/
def Dev.fetches (f : Nat) (i : Instr) (d : Dev) : Bool := (d.storeWord f).all fun w => operationWord i == some w

/-- The fibre of an operation. -/
def opFibre : Instr → Nat
  | .nop f _ _ => f
  | .aluAdd f _ _ _ _ => f
  | .aluSub f _ _ _ _ => f
  | .aluAnd f _ _ _ _ => f
  | .aluOr f _ _ _ _ => f
  | .aluXor f _ _ _ _ => f
  | .aluAndn f _ _ _ _ => f
  | .aluShl f _ _ _ _ => f
  | .aluShr f _ _ _ _ => f
  | .aluSar f _ _ _ _ => f
  | .aluMov f _ _ _ _ => f
  | .aluMinu f _ _ _ _ => f
  | .aluMaxu f _ _ _ _ => f
  | .aluPopc f _ _ _ _ => f
  | .aluClz f _ _ _ _ => f
  | .aluMul f _ _ _ _ => f
  | .addi f _ _ _ _ => f
  | .andi f _ _ _ _ => f
  | .ori f _ _ _ _ => f
  | .xori f _ _ _ _ => f
  | .shli f _ _ _ _ => f
  | .shri f _ _ _ _ => f
  | .sari f _ _ _ _ => f
  | .movz f _ _ _ _ => f
  | .movk f _ _ _ _ => f
  | .cmp f _ _ _ _ _ _ => f
  | .cmpi f _ _ _ _ _ => f
  | .plogAnd f _ _ _ _ _ => f
  | .plogOr f _ _ _ _ _ => f
  | .plogXor f _ _ _ _ _ => f
  | .plogAndn f _ _ _ _ _ => f
  | .plogNot f _ _ _ _ _ => f
  | .plogSet f _ _ _ _ _ => f
  | .plogClr f _ _ _ _ _ => f
  | .ext f _ _ _ _ _ => f
  | .ins f _ _ _ _ _ => f
  | .mrd f _ _ _ _ => f
  | .mwr f _ _ _ _ => f
  | .mwri f _ _ _ _ => f
  | .wld f _ _ _ _ _ _ _ => f
  | .wst f _ _ _ _ _ _ => f
  | .sld f _ _ _ _ _ _ _ => f
  | .sst f _ _ _ _ _ _ => f
  | .br f _ _ _ => f
  | .lkx f _ _ _ _ _ => f
  | .lkxMac f _ _ _ _ _ => f
  | .lkl f _ _ _ _ _ => f
  | .lka f _ _ _ _ _ => f
  | .count f _ _ _ _ _ => f
  | .police f _ _ _ _ _ => f
  | .mcrd f _ _ _ _ _ => f
  | .autsub f _ _ _ _ _ => f
  | .cltry f _ _ _ _ _ => f
  | .clrel f _ _ _ _ _ => f
  | .clwait f _ _ _ _ _ => f
  | .lnput f _ _ _ _ _ => f
  | .lnget f _ _ _ _ _ => f
  | .lnputw f _ _ _ _ _ => f
  | .lngetw f _ _ _ _ _ => f
  | .autwait f _ _ _ _ => f
  | .autwaitu f _ _ _ _ => f
  | .fwd f _ _ _ => f
  | .drop f _ _ _ => f
  | .trap f _ _ _ => f
  | .slow f _ _ _ => f
  | _ => 0

/-- Run an operation where its fibre's program store holds it. -/
def Dev.fromStore (i : Instr) (act : Dev → Dev) (d : Dev) : Dev := d.when (d.fetches (opFibre i) i) act

/-! ## Writes of an operation -/

/-- An operation that writes one general register from what it reads. -/
def Dev.toReg (f : Nat) (g : BitVec 4) (illegal : Bool) (regs : List Nat) (rd : BitVec 5) (v : Arch → W) : Dev → Dev :=
  Dev.issue f g false illegal regs [] false fun x d => .done (d.onArch f fun a => a.setW rd.toNat (v x.iss))

/-- An operation that writes one predicate from what it reads. -/
def Dev.toPred (f : Nat) (g : BitVec 4) (illegal : Bool) (regs preds : List Nat) (pd : BitVec 3) (v : Arch → Bool) : Dev → Dev :=
  Dev.issue f g false illegal regs preds false fun x d => .done (d.onArch f fun a => a.setP pd.toNat (v x.iss))

/-- An ALU operation of two registers (format R). -/
def Dev.alu (f : Nat) (g : BitVec 4) (rd ra rb : BitVec 5) (op : W → W → W) : Dev → Dev :=
  Dev.toReg f g false [ra.toNat, rb.toNat] rd fun a => op (a.getW ra.toNat) (a.getW rb.toNat)

/-- An ALU operation of one register (format R). -/
def Dev.alu1 (f : Nat) (g : BitVec 4) (rd ra : BitVec 5) (op : W → W) : Dev → Dev :=
  Dev.toReg f g false [ra.toNat] rd fun a => op (a.getW ra.toNat)

/-- An operation of a register and an immediate (format I). -/
def Dev.aluImm (f : Nat) (g : BitVec 4) (illegal : Bool) (rd ra : BitVec 5) (op : W → W) : Dev → Dev :=
  Dev.toReg f g illegal [ra.toNat] rd fun a => op (a.getW ra.toNat)

/-! ## Header window and prefix (R125) -/

/-- The address of a format W operand: w[ra], as a signed value, plus the offset when indexed, else the offset alone. -/
def windowAddr (a : Arch) (indexed : BitVec 1) (ra : BitVec 5) (off : BitVec 9) : Int :=
  (if indexed = 1#1 then (a.getW ra.toNat).toInt else 0) + off.toInt

/-- The whole access lies within offsets -64 to 255. -/
def inWindow (addr : Int) (n : Nat) : Bool := -64 ≤ addr && addr + n ≤ 256

/-- Bytes of a size code. -/
def sizeBytes (size : BitVec 2) : Nat := 2 ^ size.toNat

/-- Registers a format W operand reads. -/
def windowRegs (indexed : BitVec 1) (ra : BitVec 5) : List Nat := if indexed = 1#1 then [ra.toNat] else []

/-! ## Strand store (R87, R125, Table 3.4) -/

/-- Bytes of a strand's scratch as the issuing bundle reads them: before any store of the same bundle (R92). -/
def Dev.scratchBefore (x : Fibre) (d : Dev) : List Host.Cell :=
  x.undo.foldl (fun m e => Memory.write m e.1 e.2) d.mem.scratch

/-- A fibre's strand's scratch starts here among the strand scratches. -/
def scratchBase (f : Nat) : Nat := 24576 * (f / 8)

/-- The address within its region of a format S operand. -/
def storeAddr (a : Arch) (size : BitVec 2) (ra : BitVec 5) (imm : BitVec 8) : Nat :=
  (a.getW ra.toNat).toNat + imm.toNat * sizeBytes size

/-- Bytes of a region (Table 3.4). -/
def regionSize (region : BitVec 2) : Nat := if region = 0#2 then 704 else 24576

/-- n bytes of a region at an address: fibre scratch, the shade's bank, or strand scratch. -/
def Dev.loadStore (f : Nat) (x : Fibre) (region : BitVec 2) (addr n : Nat) (d : Dev) : List Byte :=
  match region.toNat with
  | 0 => Memory.readBytes x.iss.scr addr n
  | 1 => padTo n (((d.progSet ((x.run.map (·.shade)).getD 0) (fibreLay f)).data.drop addr).take n)
  | _ => Memory.readBytes (d.scratchBefore x) (scratchBase f + addr) n

/-- Store bytes to fibre scratch or strand scratch, keeping what the bundle may have to undo. -/
def Dev.storeStore (f : Nat) (region : BitVec 2) (addr : Nat) (bs : List Byte) (d : Dev) : Dev :=
  if region = 0#2 then d.onArch f fun a => { a with scr := Memory.writeBytes a.scr addr bs }
  else
    let base := scratchBase f + addr
    let old := (List.range bs.length).map fun i => (base + i, Memory.read d.mem.scratch (base + i))
    ({ d with mem := { d.mem with scratch := Memory.writeBytes d.mem.scratch base bs } } : Dev).onFibre f fun x =>
      { x with undo := old ++ x.undo }

/-! ## Metadata writes (R85, Table 3.3) -/

/-- The bits of a metadata register that a direction may write. -/
def metaRw (out : Bool) (n : Nat) : Nat :=
  if n = 2 then 0x3
  else if n = 7 then 0xFF7F
  else if n = 9 then 0xFFFFFFFF
  else if out then 0
  else if n = 1 then 0x7
  else if n = 3 then 0x3FFFFFF
  else if n = 6 then 0x8
  else if n = 10 ∨ n = 11 then 0xFFFF
  else if n = 12 ∨ n = 13 then 0xFFFFFFFFFFFFFFFF
  else 0

/-- The read-only bits of a register that has writable ones: m6[2:0] at ingress. -/
def metaRo (n : Nat) : Nat := if n = 6 then 0x7 else 0

/-- A write of v to m[n] that held `old` at its issue traps META_WRITE (R85). -/
def metaTraps (out : Bool) (n : Nat) (old v : W) : Bool :=
  metaRw out n = 0
    || v &&& BitVec.ofNat 64 (metaRo n) != old &&& BitVec.ofNat 64 (metaRo n)
    || v.toNat ||| metaRw out n ||| metaRo n != metaRw out n ||| metaRo n
    || (n = 2 && 2 < v.toNat) || (n = 7 && 64 < bits v.toNat 0 7)

/-- MWR and MWRI: the writable fields take v, the others keep the device's value (R85). -/
def Dev.metaWrite (f : Nat) (g : BitVec 4) (illegal : Bool) (regs : List Nat) (n : BitVec 4) (v : Arch → W) : Dev → Dev :=
  Dev.issue f g false illegal regs [] false fun x d =>
    let out := (x.run.map (·.out)).getD false
    let i := n.toNat
    if metaTraps out i (x.iss.getM i) (v x.iss) then .trap 0x05
    else
      let rw := BitVec.ofNat 64 (metaRw out i)
      .done (d.onArch f fun a => a.setM i ((a.getM i &&& ~~~rw) ||| (v x.iss &&& rw)))

/-! ## Lane posts (R30, R95) -/

/-- The first slot of a strand in a lane at or after a pclk (R30). -/
def laneSlot (strand t : Nat) : Nat := t + (strand % 8 + 8 - t % 8) % 8

/-- Post a lane operation: it stalls while the fibre has a post waiting in that lane; it leaves in the strand's first slot of the lane behind the posts that wait there, and is counted when it waits behind one (R30, R95). -/
def Dev.post (f lane : Nat) (op : LaneOp) (rd pd : Nat) (x : Fibre) (d : Dev) : Act :=
  match x.run with
  | none => .stall
  | some run =>
    if x.posts.any fun p => p.lane == lane && x.at' < p.due - p.op.latency then .stall
    else
      let k := 4 * (f / 8) + lane
      let free := Map.getD d.lay.laneFree k 0
      let leave := laneSlot (f / 8) (max x.at' free)
      let d := d.bumpIf (x.at' + 8 < free) (Reg.layLaneWait (fibreLay f))
      let d : Dev := { d with lay := { d.lay with laneFree := Map.put d.lay.laneFree k (leave + 8) } }
      .done (d.onFibre f fun x => { x with
        posts := x.posts ++ [{ lane, op, rd, pd, due := leave + op.latency, run, m0 := bits (x.iss.getM 0).toNat 0 9 }] })

/-- Issue a lane operation (format K) with its key or index built from what it reads. -/
def Dev.lane (f : Nat) (g : BitVec 4) (illegal : Bool) (regs : List Nat) (lane : Nat) (rd : BitVec 5) (pd : BitVec 3)
    (op : Fibre → Dev → LaneOp) : Dev → Dev :=
  Dev.issue f g true illegal regs [] false fun x d => d.post f lane (op x d) rd.toNat pd.toNat x

/-- LENGTH as an operation charges it (R163): the length, or none for a packet still incomplete when its program was dispatched, whose remainder is charged at its end. -/
def Dev.chargeOf (x : Fibre) (d : Dev) : Nat × Option (Nat × Int) :=
  let len := (x.iss.getM 5).toNat
  if len != 0x3FFF then (len, none)
  else
    match x.run with
    | none => (0, none)
    | some r =>
      if r.role = .vector then (0, none)
      else
        let off : Int := if r.out then ((d.pkt r.pkt).map fun p => (p.out.length : Int) - p.bytes.length).getD 0 else 0
        (0, some (r.pkt, off))

/-- A run of n consecutive registers from r ends by w31 (R123). -/
def runsPast (r : BitVec 5) (n : Nat) : Bool := 32 < r.toNat + n

/-! ## Blocking (R108, R110) -/

/-- Blocking and unbounded operations are for exception fibres. -/
def Dev.mayBlock (f : Nat) (x : Fibre) (d : Dev) : Bool :=
  match x.run with
  | some r => r.role == .slow || (r.role == .vector && d.exception r.shade f)
  | none => false

/-- The cleat a fibre's operand names: of its own lay's shard (R403). -/
def fibreCleat (f : Nat) (v : W) : Nat := 2048 * fibreLay f + v.toNat % 2048

/-- The lanyard an operand names. -/
def lanyardOf (v : W) : Nat := v.toNat % 1024

end Sys2Proof.Machine
end

