-- ==== Sys2Proof/Machine/EnetteAlu.lean ====
section
/-! DEFINITION. The packet operations on registers, predicates and metadata (Table 4.2). -/
namespace Sys2Proof.Machine

/-- NOP (R122), and the program-store check of the bundle at issue (R112): `ecc` 1 a corrected error, 2 an uncorrectable one; a non-zero word that names no operation traps. -/
def execNop (f : Nat) (word : BitVec 32) (ecc : Nat) (s : State) : Host.Outcome State Fault Refusal :=
  s.run (f < 4096 && ecc < 3) fun d =>
    let x := d.fibre f
    if ecc = 0 then
      d.when (d.fetches f (.nop f word 0)) fun d =>
        if word = 0 then d.issue f 0 false false [] [] false fun _ d => .done d
        else if namesOp word then d
        else d.issue f 0 false true [] [] false fun _ d => .done d
    else d.when (x.slot == 0) fun d =>
      d.with' (d.opens f [] [] false) fun t d =>
        if ecc = 1 then d.bump (Reg.layPstoreCorrect (fibreLay f)) else (d.openBundle f t).trapF f 0x06

/-- ALU ADD: rd ← ra + rb, modulo 2^64 (Table 4.2). -/
def execAluAdd (f : Nat) (g : BitVec 4) (rd ra rb : BitVec 5) (s : State) : Host.Outcome State Fault Refusal :=
  s.run (f < 4096) (Dev.fromStore (.aluAdd f g rd ra rb) (Dev.alu f g rd ra rb fun a b => a + b))

/-- ALU SUB: rd ← ra - rb, modulo 2^64 (Table 4.2). -/
def execAluSub (f : Nat) (g : BitVec 4) (rd ra rb : BitVec 5) (s : State) : Host.Outcome State Fault Refusal :=
  s.run (f < 4096) (Dev.fromStore (.aluSub f g rd ra rb) (Dev.alu f g rd ra rb fun a b => a - b))

/-- ALU AND: rd ← ra AND rb (Table 4.2). -/
def execAluAnd (f : Nat) (g : BitVec 4) (rd ra rb : BitVec 5) (s : State) : Host.Outcome State Fault Refusal :=
  s.run (f < 4096) (Dev.fromStore (.aluAnd f g rd ra rb) (Dev.alu f g rd ra rb fun a b => a &&& b))

/-- ALU OR: rd ← ra OR rb (Table 4.2). -/
def execAluOr (f : Nat) (g : BitVec 4) (rd ra rb : BitVec 5) (s : State) : Host.Outcome State Fault Refusal :=
  s.run (f < 4096) (Dev.fromStore (.aluOr f g rd ra rb) (Dev.alu f g rd ra rb fun a b => a ||| b))

/-- ALU XOR: rd ← ra XOR rb (Table 4.2). -/
def execAluXor (f : Nat) (g : BitVec 4) (rd ra rb : BitVec 5) (s : State) : Host.Outcome State Fault Refusal :=
  s.run (f < 4096) (Dev.fromStore (.aluXor f g rd ra rb) (Dev.alu f g rd ra rb fun a b => a ^^^ b))

/-- ALU ANDN: rd ← ra AND NOT rb (Table 4.2). -/
def execAluAndn (f : Nat) (g : BitVec 4) (rd ra rb : BitVec 5) (s : State) : Host.Outcome State Fault Refusal :=
  s.run (f < 4096) (Dev.fromStore (.aluAndn f g rd ra rb) (Dev.alu f g rd ra rb fun a b => a &&& ~~~b))

/-- ALU SHL: rd ← ra << rb[5:0] (Table 4.2). -/
def execAluShl (f : Nat) (g : BitVec 4) (rd ra rb : BitVec 5) (s : State) : Host.Outcome State Fault Refusal :=
  s.run (f < 4096) (Dev.fromStore (.aluShl f g rd ra rb) (Dev.alu f g rd ra rb fun a b => a <<< (b.toNat % 64)))

/-- ALU SHR: rd ← ra >> rb[5:0], logical (Table 4.2). -/
def execAluShr (f : Nat) (g : BitVec 4) (rd ra rb : BitVec 5) (s : State) : Host.Outcome State Fault Refusal :=
  s.run (f < 4096) (Dev.fromStore (.aluShr f g rd ra rb) (Dev.alu f g rd ra rb fun a b => a >>> (b.toNat % 64)))

/-- ALU SAR: rd ← ra >> rb[5:0], arithmetic (Table 4.2). -/
def execAluSar (f : Nat) (g : BitVec 4) (rd ra rb : BitVec 5) (s : State) : Host.Outcome State Fault Refusal :=
  s.run (f < 4096) (Dev.fromStore (.aluSar f g rd ra rb) (Dev.alu f g rd ra rb fun a b => a.sshiftRight (b.toNat % 64)))

/-- ALU MOV: rd ← ra (Table 4.2); rb is ignored (DEDUCED, log 72). -/
def execAluMov (f : Nat) (g : BitVec 4) (rd ra rb : BitVec 5) (s : State) : Host.Outcome State Fault Refusal :=
  s.run (f < 4096) (Dev.fromStore (.aluMov f g rd ra rb) (Dev.alu1 f g rd ra fun a => a))

/-- ALU MINU: rd ← the unsigned minimum (Table 4.2). -/
def execAluMinu (f : Nat) (g : BitVec 4) (rd ra rb : BitVec 5) (s : State) : Host.Outcome State Fault Refusal :=
  s.run (f < 4096) (Dev.fromStore (.aluMinu f g rd ra rb) (Dev.alu f g rd ra rb fun a b => if a ≤ b then a else b))

/-- ALU MAXU: rd ← the unsigned maximum (Table 4.2). -/
def execAluMaxu (f : Nat) (g : BitVec 4) (rd ra rb : BitVec 5) (s : State) : Host.Outcome State Fault Refusal :=
  s.run (f < 4096) (Dev.fromStore (.aluMaxu f g rd ra rb) (Dev.alu f g rd ra rb fun a b => if a ≤ b then b else a))

/-- ALU POPC: rd ← the count of ones of ra (Table 4.2); rb is ignored (DEDUCED, log 72). -/
def execAluPopc (f : Nat) (g : BitVec 4) (rd ra rb : BitVec 5) (s : State) : Host.Outcome State Fault Refusal :=
  s.run (f < 4096) (Dev.fromStore (.aluPopc f g rd ra rb) (Dev.alu1 f g rd ra fun a => BitVec.ofNat 64 (popCount 64 a)))

/-- ALU CLZ: rd ← the count of leading zeros of ra, 64 for 0 (Table 4.2); rb is ignored (DEDUCED, log 72). -/
def execAluClz (f : Nat) (g : BitVec 4) (rd ra rb : BitVec 5) (s : State) : Host.Outcome State Fault Refusal :=
  s.run (f < 4096) (Dev.fromStore (.aluClz f g rd ra rb) (Dev.alu1 f g rd ra fun a => BitVec.ofNat 64 (leadingZeros 64 a)))

/-- ALU MUL: rd ← the low 64 bits of ra x rb (Table 4.2). -/
def execAluMul (f : Nat) (g : BitVec 4) (rd ra rb : BitVec 5) (s : State) : Host.Outcome State Fault Refusal :=
  s.run (f < 4096) (Dev.fromStore (.aluMul f g rd ra rb) (Dev.issue f g false false [ra.toNat, rb.toNat] [] false fun x d =>
    .done ((d.onArch f fun a => a.setW rd.toNat (x.iss.getW ra.toNat * x.iss.getW rb.toNat)).late f 3 [rd.toNat])))

/-- ADDI: rd ← ra + the sign-extended immediate (Table 4.2, R122). -/
def execAddi (f : Nat) (g : BitVec 4) (rd ra : BitVec 5) (imm : BitVec 12) (s : State) : Host.Outcome State Fault Refusal :=
  s.run (f < 4096) (Dev.fromStore (.addi f g rd ra imm) (Dev.aluImm f g false rd ra fun a => a + imm.signExtend 64))

/-- ANDI: rd ← ra AND the zero-extended immediate (Table 4.2, R122). -/
def execAndi (f : Nat) (g : BitVec 4) (rd ra : BitVec 5) (imm : BitVec 12) (s : State) : Host.Outcome State Fault Refusal :=
  s.run (f < 4096) (Dev.fromStore (.andi f g rd ra imm) (Dev.aluImm f g false rd ra fun a => a &&& imm.zeroExtend 64))

/-- ORI: rd ← ra OR the zero-extended immediate (Table 4.2, R122). -/
def execOri (f : Nat) (g : BitVec 4) (rd ra : BitVec 5) (imm : BitVec 12) (s : State) : Host.Outcome State Fault Refusal :=
  s.run (f < 4096) (Dev.fromStore (.ori f g rd ra imm) (Dev.aluImm f g false rd ra fun a => a ||| imm.zeroExtend 64))

/-- XORI: rd ← ra XOR the zero-extended immediate (Table 4.2, R122). -/
def execXori (f : Nat) (g : BitVec 4) (rd ra : BitVec 5) (imm : BitVec 12) (s : State) : Host.Outcome State Fault Refusal :=
  s.run (f < 4096) (Dev.fromStore (.xori f g rd ra imm) (Dev.aluImm f g false rd ra fun a => a ^^^ imm.zeroExtend 64))

/-- SHLI: rd ← ra << imm[5:0]; imm[11:6] must be 0 (Table 4.2, R122). -/
def execShli (f : Nat) (g : BitVec 4) (rd ra : BitVec 5) (imm : BitVec 12) (s : State) : Host.Outcome State Fault Refusal :=
  s.run (f < 4096) (Dev.fromStore (.shli f g rd ra imm) (Dev.aluImm f g (64 ≤ imm.toNat) rd ra fun a => a <<< imm.toNat))

/-- SHRI: logical right shift, as SHLI (Table 4.2, R122). -/
def execShri (f : Nat) (g : BitVec 4) (rd ra : BitVec 5) (imm : BitVec 12) (s : State) : Host.Outcome State Fault Refusal :=
  s.run (f < 4096) (Dev.fromStore (.shri f g rd ra imm) (Dev.aluImm f g (64 ≤ imm.toNat) rd ra fun a => a >>> imm.toNat))

/-- SARI: arithmetic right shift, as SHLI (Table 4.2, R122). -/
def execSari (f : Nat) (g : BitVec 4) (rd ra : BitVec 5) (imm : BitVec 12) (s : State) : Host.Outcome State Fault Refusal :=
  s.run (f < 4096) (Dev.fromStore (.sari f g rd ra imm) (Dev.aluImm f g (64 ≤ imm.toNat) rd ra fun a => a.sshiftRight imm.toNat))

/-- MOVZ: bits [16h+15:16h] of rd ← imm16, the others 0 (Table 4.2). -/
def execMovz (f : Nat) (g : BitVec 4) (h : BitVec 2) (rd : BitVec 5) (imm : BitVec 16) (s : State) : Host.Outcome State Fault Refusal :=
  s.run (f < 4096) (Dev.fromStore (.movz f g h rd imm) (Dev.toReg f g false [] rd fun _ => imm.zeroExtend 64 <<< (16 * h.toNat)))

/-- MOVK: bits [16h+15:16h] of rd ← imm16, the others unchanged (Table 4.2). -/
def execMovk (f : Nat) (g : BitVec 4) (h : BitVec 2) (rd : BitVec 5) (imm : BitVec 16) (s : State) : Host.Outcome State Fault Refusal :=
  s.run (f < 4096) (Dev.fromStore (.movk f g h rd imm) (Dev.toReg f g false [rd.toNat] rd fun a =>
    (a.getW rd.toNat &&& ~~~(0xFFFF#64 <<< (16 * h.toNat))) ||| (imm.zeroExtend 64 <<< (16 * h.toNat))))

/-- CMP: pd ← ra cond rb; condition 7 is reserved (R127). Bits [5:0] are ignored (DEDUCED, log 72). -/
def execCmp (f : Nat) (g : BitVec 4) (pd cond : BitVec 3) (ra rb : BitVec 5) (low : BitVec 6) (s : State) : Host.Outcome State Fault Refusal :=
  s.run (f < 4096) (Dev.fromStore (.cmp f g pd cond ra rb low) (Dev.toPred f g (cond == 7) [ra.toNat, rb.toNat] [] pd fun a =>
    condHolds cond (a.getW ra.toNat) (a.getW rb.toNat)))

/-- CMPI: pd ← ra cond the sign-extended imm11; condition 7 is reserved (R127). -/
def execCmpi (f : Nat) (g : BitVec 4) (pd cond : BitVec 3) (ra : BitVec 5) (imm : BitVec 11) (s : State) : Host.Outcome State Fault Refusal :=
  s.run (f < 4096) (Dev.fromStore (.cmpi f g pd cond ra imm) (Dev.toPred f g (cond == 7) [ra.toNat] [] pd fun a =>
    condHolds cond (a.getW ra.toNat) (imm.signExtend 64)))

/-- PLOG AND: pd ← pa AND pb; bits [9:0] must be 0 (Table 4.2, R122). -/
def execPlogAnd (f : Nat) (g : BitVec 4) (pd pa pb : BitVec 3) (low : BitVec 10) (s : State) : Host.Outcome State Fault Refusal :=
  s.run (f < 4096) (Dev.fromStore (.plogAnd f g pd pa pb low) (Dev.toPred f g (low != 0) [] [pa.toNat, pb.toNat] pd fun a => a.getP pa.toNat && a.getP pb.toNat))

/-- PLOG OR: pd ← pa OR pb; bits [9:0] must be 0 (Table 4.2, R122). -/
def execPlogOr (f : Nat) (g : BitVec 4) (pd pa pb : BitVec 3) (low : BitVec 10) (s : State) : Host.Outcome State Fault Refusal :=
  s.run (f < 4096) (Dev.fromStore (.plogOr f g pd pa pb low) (Dev.toPred f g (low != 0) [] [pa.toNat, pb.toNat] pd fun a => a.getP pa.toNat || a.getP pb.toNat))

/-- PLOG XOR: pd ← pa XOR pb; bits [9:0] must be 0 (Table 4.2, R122). -/
def execPlogXor (f : Nat) (g : BitVec 4) (pd pa pb : BitVec 3) (low : BitVec 10) (s : State) : Host.Outcome State Fault Refusal :=
  s.run (f < 4096) (Dev.fromStore (.plogXor f g pd pa pb low) (Dev.toPred f g (low != 0) [] [pa.toNat, pb.toNat] pd fun a => a.getP pa.toNat != a.getP pb.toNat))

/-- PLOG ANDN: pd ← pa AND NOT pb; bits [9:0] must be 0 (Table 4.2, R122). -/
def execPlogAndn (f : Nat) (g : BitVec 4) (pd pa pb : BitVec 3) (low : BitVec 10) (s : State) : Host.Outcome State Fault Refusal :=
  s.run (f < 4096) (Dev.fromStore (.plogAndn f g pd pa pb low) (Dev.toPred f g (low != 0) [] [pa.toNat, pb.toNat] pd fun a => a.getP pa.toNat && !a.getP pb.toNat))

/-- PLOG NOT: pd ← NOT pa; bits [9:0] must be 0 (Table 4.2, R122). -/
def execPlogNot (f : Nat) (g : BitVec 4) (pd pa pb : BitVec 3) (low : BitVec 10) (s : State) : Host.Outcome State Fault Refusal :=
  s.run (f < 4096) (Dev.fromStore (.plogNot f g pd pa pb low) (Dev.toPred f g (low != 0) [] [pa.toNat] pd fun a => !a.getP pa.toNat))

/-- PLOG SET: pd ← 1; bits [9:0] must be 0 (Table 4.2, R122). -/
def execPlogSet (f : Nat) (g : BitVec 4) (pd pa pb : BitVec 3) (low : BitVec 10) (s : State) : Host.Outcome State Fault Refusal :=
  s.run (f < 4096) (Dev.fromStore (.plogSet f g pd pa pb low) (Dev.toPred f g (low != 0) [] [] pd fun _ => true))

/-- PLOG CLR: pd ← 0; bits [9:0] must be 0 (Table 4.2, R122). -/
def execPlogClr (f : Nat) (g : BitVec 4) (pd pa pb : BitVec 3) (low : BitVec 10) (s : State) : Host.Outcome State Fault Refusal :=
  s.run (f < 4096) (Dev.fromStore (.plogClr f g pd pa pb low) (Dev.toPred f g (low != 0) [] [] pd fun _ => false))

/-- EXT: rd ← (ra >> position) AND (2^width - 1), width = len + 1 (R124). -/
def execExt (f : Nat) (g : BitVec 4) (rd ra : BitVec 5) (pos len : BitVec 6) (s : State) : Host.Outcome State Fault Refusal :=
  s.run (f < 4096) (Dev.fromStore (.ext f g rd ra pos len) (Dev.toReg f g (64 < pos.toNat + len.toNat + 1) [ra.toNat] rd fun a =>
    BitVec.ofNat 64 (bits (a.getW ra.toNat).toNat pos.toNat (len.toNat + 1))))

/-- INS: rd[position + width - 1 : position] ← ra[width - 1 : 0] (R124). -/
def execIns (f : Nat) (g : BitVec 4) (rd ra : BitVec 5) (pos len : BitVec 6) (s : State) : Host.Outcome State Fault Refusal :=
  s.run (f < 4096) (Dev.fromStore (.ins f g rd ra pos len) (Dev.toReg f g (64 < pos.toNat + len.toNat + 1) [rd.toNat, ra.toNat] rd fun a =>
    BitVec.ofNat 64 (setBits (a.getW rd.toNat).toNat pos.toNat (len.toNat + 1) (a.getW ra.toNat).toNat)))

/-- MRD: rd ← m[n]; bits [12:0] must be 0 (Table 4.2). -/
def execMrd (f : Nat) (g : BitVec 4) (rd : BitVec 5) (n : BitVec 4) (low : BitVec 13) (s : State) : Host.Outcome State Fault Refusal :=
  s.run (f < 4096) (Dev.fromStore (.mrd f g rd n low) (Dev.issue f g false (low != 0) (if n = 15 then [64] else if n = 14 then [65] else []) [] (n == 14) fun x d =>
    .done (d.onArch f fun a => a.setW rd.toNat (x.iss.getM n.toNat))))

/-- MWR: m[n] ← ra, under R85; bits [12:0] must be 0 (Table 4.2). -/
def execMwr (f : Nat) (g : BitVec 4) (ra : BitVec 5) (n : BitVec 4) (low : BitVec 13) (s : State) : Host.Outcome State Fault Refusal :=
  s.run (f < 4096) (Dev.fromStore (.mwr f g ra n low) (Dev.metaWrite f g (low != 0) [ra.toNat] n fun a => a.getW ra.toNat))

/-- MWRI: m[n] ← the zero-extended imm12, under R85; bits [17:12] must be 0 (Table 4.2). -/
def execMwri (f : Nat) (g : BitVec 4) (n : BitVec 4) (mid : BitVec 6) (imm : BitVec 12) (s : State) : Host.Outcome State Fault Refusal :=
  s.run (f < 4096) (Dev.fromStore (.mwri f g n mid imm) (Dev.metaWrite f g (mid != 0) [] n fun _ => imm.zeroExtend 64))

end Sys2Proof.Machine
end

