-- ==== Sys2Proof/Machine/EnetteMem.lean ====
section
/-! DEFINITION. The packet operations on the header window, the strand store, the program counter, and the terminals
(Table 4.2, R86, R87, R96, R125, R131). -/
namespace Sys2Proof.Machine

/-- The strand-store check of a load (R112): 1 a corrected error, 2 an uncorrectable one. -/
def Dev.storeCheck (f ecc : Nat) (d : Dev) : Dev := d.bumpIf (ecc == 1) (Reg.laySstoreCorrect (fibreLay f))

/-- WLD: a big-endian, zero-extended window or prefix load (R125). -/
def execWld (f : Nat) (g : BitVec 4) (rd : BitVec 5) (size : BitVec 2) (indexed : BitVec 1) (ra : BitVec 5) (off : BitVec 9)
    (ecc : Nat) (s : State) : Host.Outcome State Fault Refusal :=
  s.run (f < 4096 && ecc < 3) (Dev.fromStore (.wld f g rd size indexed ra off ecc) (Dev.issue f g false false (windowRegs indexed ra) [] false fun x d =>
    let addr := windowAddr x.iss indexed ra off
    let n := sizeBytes size
    if !inWindow addr n then .trap 0x02
    else if ecc = 2 then .trap 0x07
    else .done (((d.storeCheck f ecc).onArch f fun a =>
      a.setW rd.toNat (BitVec.ofNat 64 (ofBe (Memory.readBytes x.iss.win (addr + 64).toNat n)))).late f 2 [rd.toNat])))

/-- The 64-byte segments of the window that an access of n bytes touches, as a bit each (R256). -/
def segments (addr : Int) (n : Nat) : Nat :=
  ((List.range 4).map fun (j : Nat) => ofBit (addr < 64 * ((j : Int) + 1) && 64 * (j : Int) < addr + n) * 2 ^ j).sum

/-- WST: a big-endian window or prefix store of the low bytes of rs (R125). -/
def execWst (f : Nat) (g : BitVec 4) (rd : BitVec 5) (size : BitVec 2) (indexed : BitVec 1) (ra : BitVec 5) (off : BitVec 9)
    (s : State) : Host.Outcome State Fault Refusal :=
  s.run (f < 4096) (Dev.fromStore (.wst f g rd size indexed ra off) (Dev.issue f g false false (rd.toNat :: windowRegs indexed ra) [] false fun x d =>
    let addr := windowAddr x.iss indexed ra off
    let n := sizeBytes size
    if !inWindow addr n then .trap 0x02
    else .done (d.onArch f fun a =>
      { a with win := Memory.writeBytes a.win (addr + 64).toNat (be n (x.iss.getW rd.toNat).toNat), dirt := a.dirt ||| segments addr n })))

/-- SLD: a little-endian, zero-extended strand-store load; region 3 is illegal (R87, R125). -/
def execSld (f : Nat) (g : BitVec 4) (rd : BitVec 5) (size region : BitVec 2) (ra : BitVec 5) (imm : BitVec 8) (ecc : Nat)
    (s : State) : Host.Outcome State Fault Refusal :=
  s.run (f < 4096 && ecc < 3) (Dev.fromStore (.sld f g rd size region ra imm ecc) (Dev.issue f g false (region == 3) [ra.toNat] [] false fun x d =>
    let addr := storeAddr x.iss size ra imm
    let n := sizeBytes size
    if regionSize region < addr + n then .trap 0x03
    else if ecc = 2 then .trap 0x07
    else .done (((d.storeCheck f ecc).onArch f fun a =>
      a.setW rd.toNat (BitVec.ofNat 64 (ofLe (d.loadStore f x region addr n)))).late f 3 [rd.toNat])))

/-- SST: a little-endian strand-store store; to a shade bank it traps STORE_RANGE, and region 3 is illegal (R87, R125). -/
def execSst (f : Nat) (g : BitVec 4) (rd : BitVec 5) (size region : BitVec 2) (ra : BitVec 5) (imm : BitVec 8) (s : State) :
    Host.Outcome State Fault Refusal :=
  s.run (f < 4096) (Dev.fromStore (.sst f g rd size region ra imm) (Dev.issue f g false (region == 3) [rd.toNat, ra.toNat] [] false fun x d =>
    let addr := storeAddr x.iss size ra imm
    let n := sizeBytes size
    if region = 1#2 ∨ regionSize region < addr + n then .trap 0x03
    else .done (d.storeStore f region addr (le n (x.iss.getW rd.toNat).toNat))))

/-- BR: the next bundle is the target; the bundles fetched past it are discarded, at most two, and counted (R96, R97, log 11). -/
def execBr (f : Nat) (g : BitVec 4) (target : BitVec 14) (low : BitVec 8) (s : State) : Host.Outcome State Fault Refusal :=
  s.run (f < 4096) (Dev.fromStore (.br f g target low) (Dev.issue f g true (low != 0) [] [] false fun _ d =>
    .jump (d.useFree.add (Reg.layFetchSquash (fibreLay f)) (d.freeW.toNat % 3)) target.toNat))

/-! ## Terminals (R86, R131) -/

/-- The adjusted length of a frame complete at dispatch, as the terminal's bundle leaves m7, is outside 64 to 9,416 B (R86, R164). -/
def badLength (x : Fibre) (a : Arch) : Bool :=
  let len := (a.getM 5).toNat
  let role := (x.run.map (·.role)).getD .vector
  role != .vector && len != 0x3FFF && (let n := len + preLen a - headSkip a; n < 64 || 9416 < n)

/-- A terminal operation: bits [21:8] must be 0; `sized` ones check FRAME_SIZE. -/
def Dev.terminal (f : Nat) (g : BitVec 4) (illegal sized : Bool) (t : Term) : Dev → Dev :=
  Dev.issue f g true illegal [] [] false fun x d =>
    if sized && badLength x (d.fibre f).arch then .trap 0x0A else .ended d t

/-- FWD: forward to m3 DEST (R131); the code is ignored (DEDUCED, log 72). -/
def execFwd (f : Nat) (g : BitVec 4) (high : BitVec 14) (code : BitVec 8) (s : State) : Host.Outcome State Fault Refusal :=
  s.run (f < 4096) (Dev.fromStore (.fwd f g high code) (Dev.terminal f g (high != 0) true .fwd))

/-- DROP: end the packet or copy with a fate that Table 9.1 permits to programs; any other code is illegal (R131). -/
def execDrop (f : Nat) (g : BitVec 4) (high : BitVec 14) (code : BitVec 8) (s : State) : Host.Outcome State Fault Refusal :=
  s.run (f < 4096) (Dev.fromStore (.drop f g high code) (Dev.terminal f g (high != 0 || !dropAllowed code.toNat) false (.drop code.toNat)))

/-- TRAP: the fate trapped with a sub-code, and a copy of the frame to the host (R131). -/
def execTrap (f : Nat) (g : BitVec 4) (high : BitVec 14) (code : BitVec 8) (s : State) : Host.Outcome State Fault Refusal :=
  s.run (f < 4096) (Dev.fromStore (.trap f g high code) (Dev.terminal f g (high != 0) false (.trap code.toNat)))

/-- SLOW: pass to the slow line; illegal in an egress program (R131); the code is ignored (DEDUCED, log 72). -/
def execSlow (f : Nat) (g : BitVec 4) (high : BitVec 14) (code : BitVec 8) (s : State) : Host.Outcome State Fault Refusal :=
  s.run (f < 4096) (Dev.fromStore (.slow f g high code) fun d =>
    d.terminal f g (high != 0 || ((d.fibre f).run.map (·.role)).getD .ingress == .egress) true .slow)

end Sys2Proof.Machine
end

