-- ==== Sys2Proof/Machine/EnetteLane.lean ====
section
/-! DEFINITION. The lane operations, the arrival of their results, automaton waits, cleats and lanyards of fibres
(R94, R95, R128 to R130, R163, R195 to R225, R274 to R277, R317 to R320, R403 to R410). -/
namespace Sys2Proof.Machine

/-! ## Posts (Table 4.3) -/

/-- The words of w[ra] upward as one key, the first the most significant (Table 6.1). -/
def keyOf (a : Arch) (ra n : Nat) : Nat := (List.range n).foldl (fun k i => k * 2 ^ 64 + (a.getW (ra + i)).toNat) 0

/-- LKX general: key w[ra], w[ra+1][31:0]; the variant must be 0 (R128). -/
def execLkx (f : Nat) (g : BitVec 4) (rd ra : BitVec 5) (pd : BitVec 3) (v : BitVec 9) (s : State) :
    Host.Outcome State Fault Refusal :=
  s.run (f < 4096 && !v.getLsbD 8) (Dev.fromStore (.lkx f g rd ra pd v) (Dev.lane f g (v != 0 || runsPast ra 2) [ra.toNat, ra.toNat + 1] 0 rd pd fun x _ =>
    .exact ((x.iss.getW ra.toNat).toNat * 2 ^ 32 + bits (x.iss.getW (ra.toNat + 1)).toNat 0 32)))

/-- LKX MAC: key w[ra]; variant bit 0 is LEARN, bit 1 DEST, bits [7:2] must be 0 (R128, R202). -/
def execLkxMac (f : Nat) (g : BitVec 4) (rd ra : BitVec 5) (pd : BitVec 3) (v : BitVec 9) (s : State) :
    Host.Outcome State Fault Refusal :=
  s.run (f < 4096 && v.getLsbD 8) (Dev.fromStore (.lkxMac f g rd ra pd v) (Dev.lane f g (bits v.toNat 2 6 != 0) [ra.toNat] 0 rd pd fun x _ =>
    .mac (v.getLsbD 0) (v.getLsbD 1) (x.iss.getW ra.toNat).toNat))

/-- LKL: variant 0 a narrow key w[ra], 1 a wide key w[ra], w[ra+1] (R128, R190). -/
def execLkl (f : Nat) (g : BitVec 4) (rd ra : BitVec 5) (pd : BitVec 3) (v : BitVec 9) (s : State) :
    Host.Outcome State Fault Refusal :=
  s.run (f < 4096) (Dev.fromStore (.lkl f g rd ra pd v) (Dev.lane f g (1 < v.toNat || (v == 1 && runsPast ra 2))
    (if v = 1 then [ra.toNat, ra.toNat + 1] else [ra.toNat]) 1 rd pd fun x _ =>
    .lpm (v == 1) (keyOf x.iss ra.toNat (if v = 1 then 2 else 1))))

/-- LKA: a key of ten words, its bits [639:636] replaced by the profile (R128, R193). -/
def execLka (f : Nat) (g : BitVec 4) (rd ra : BitVec 5) (pd : BitVec 3) (v : BitVec 9) (s : State) :
    Host.Outcome State Fault Refusal :=
  s.run (f < 4096) (Dev.fromStore (.lka f g rd ra pd v) (Dev.lane f g (15 < v.toNat || runsPast ra 10) ((List.range 10).map (ra.toNat + ·)) 2 rd pd fun x _ =>
    .acl (v.toNat % 16) (setBits (keyOf x.iss ra.toNat 10) 636 4 v.toNat)))

/-- COUNT: variant bit 8 set adds w[rd] bytes, clear adds LENGTH (R128, R129, R163). -/
def execCount (f : Nat) (g : BitVec 4) (rd ra : BitVec 5) (pd : BitVec 3) (v : BitVec 9) (s : State) :
    Host.Outcome State Fault Refusal :=
  s.run (f < 4096) (Dev.fromStore (.count f g rd ra pd v) (Dev.lane f g (v.toNat % 256 != 0) (if v.getLsbD 8 then [ra.toNat, rd.toNat] else [ra.toNat]) 3 rd pd
    fun x d =>
      let i := (x.iss.getW ra.toNat).toNat
      if v.getLsbD 8 then .count i (x.iss.getW rd.toNat).toNat none
      else let c := d.chargeOf x; .count i c.1 c.2))

/-- POLICE: charges LENGTH, or 256 B for an incomplete frame, under the policer of the packet's shade (R128, R163, R275). -/
def execPolice (f : Nat) (g : BitVec 4) (rd ra : BitVec 5) (pd : BitVec 3) (v : BitVec 9) (s : State) :
    Host.Outcome State Fault Refusal :=
  s.run (f < 4096) (Dev.fromStore (.police f g rd ra pd v) (Dev.lane f g (v != 0) [ra.toNat] 3 rd pd fun x d =>
    let c := d.chargeOf x
    .police (x.iss.getW ra.toNat).toNat ((x.run.map (·.shade)).getD 0) (bits (x.iss.getM 2).toNat 0 2)
      (if (x.iss.getM 5).toNat = 0x3FFF then 256 else c.1) c.2))

/-- MCRD: the port map of a multicast group into w[rd] to w[rd+3] (R128, R129). -/
def execMcrd (f : Nat) (g : BitVec 4) (rd ra : BitVec 5) (pd : BitVec 3) (v : BitVec 9) (s : State) :
    Host.Outcome State Fault Refusal :=
  s.run (f < 4096) (Dev.fromStore (.mcrd f g rd ra pd v) (Dev.lane f g (v != 0 || runsPast rd 4) [ra.toNat] 3 rd pd fun x _ => .group (x.iss.getW ra.toNat).toNat))

/-- AUTSUB: submit a segment of the frame; variant bits [7:0] are the result slot tag (R128, R315). -/
def execAutsub (f : Nat) (g : BitVec 4) (rd ra : BitVec 5) (pd : BitVec 3) (v : BitVec 9) (s : State) :
    Host.Outcome State Fault Refusal :=
  s.run (f < 4096) (Dev.fromStore (.autsub f g rd ra pd v) (Dev.lane f g (v.getLsbD 8) [ra.toNat] 3 rd pd fun x _ =>
    .automaton (v.toNat % 256) (x.iss.getW ra.toNat).toNat))

/-! ## Results (R128, R129) -/

/-- Change the registers of a fibre, those its issuing bundle reads included: a result that arrives is there for both (log 5). -/
def Dev.onBoth (f : Nat) (h : Arch → Arch) : Dev → Dev :=
  Dev.onFibre f fun x => { x with arch := h x.arch, iss := h x.iss }

/-- A result arrives: result registers, pd, and m15[7:0] (R128). -/
def Dev.giveResult (f : Nat) (ws : List (Nat × W)) (pd : Nat) (ok : Bool) (st : Nat) : Dev → Dev :=
  Dev.onBoth f fun a => (ws.foldl (fun a e => a.setW e.1 e.2) a).answer pd ok st

/-- A result without a value: pd = 0 and a status; the result registers keep their contents (R129, R168, log 39). -/
def Dev.noResult (f pd st : Nat) : Dev → Dev := Dev.giveResult f [] pd false st

/-- What a lookup reads (R201, R215, R223, R224): the device, and the line and value of a hit, or nothing where a line it read has a double-bit error. `ecc` is the SEC-DED outcome of the eight exact lines it reads, 1 corrected, 2 double-bit, `way` the line of it; a cache hit reads none. -/
def Dev.readTable (lay tab key ecc way n : Nat) (d : Dev) : Dev × Option (Option (Nat × W)) :=
  let reads : Bool := tab < 2 && (d.cached lay tab n key).isNone
  if reads && ecc == 2 then (d.startRepair tab ((ways tab key).getD way 0), none)
  else
    let r := (d.bumpIf (reads && ecc == 1) Reg.tblEccCorrect).lookup lay tab n key
    (r.2, some r.1)

/-- A lookup's result on its fibre (R168, R191, R219, R223 to R225): the device, and the value of a hit. -/
def Dev.lookupResult (f tab rd pd : Nat) (r : Option (Option (Nat × W))) (d : Dev) : Dev :=
  let lt := lineTable tab
  match r with
  | none => (d.suspect f).noResult f pd stSuspect
  | some (some (line, v)) =>
    let d := d.onFibre f (Fibre.recordHit lt line)
    let d := if d.isStale lt line then (d.flag f 1).bump Reg.tblStaleResult else d
    let bad := d.reloading lt line
    let d := if bad then d.suspect f else d
    d.giveResult f [(rd, v)] pd true (if bad then stSuspect else stDone)
  | some none =>
    let bad := d.anyReload lt
    (if bad then d.suspect f else d).noResult f pd (if bad then stSuspect else stNotFound)

/-- What a MAC lookup teaches (R203 to R205, R223): the HIT bit, learn notices, the flood count. -/
def Dev.macLearned (lay m0 : Nat) (learn dest : Bool) (key shade : Nat) (r : Option (Option (Nat × W))) (d : Dev) : Dev :=
  match r with
  | none => d
  | some none => (if learn then d.learn lay key m0 0 shade 0 else d).bumpIf dest Reg.tblFloodUnknown
  | some (some (_, v)) =>
    if learn then
      let d := (d.tbl.holders 0 shade key).foldl (fun d l =>
        d.onTbl fun t => { t with mac := Map.modify t.mac l ⟨key, v, 0, true⟩ fun e => { e with hit := true } }) d
      let at' := bits v.toNat 0 9
      if !bit v.toNat 9 && at' != m0 then d.learn lay key m0 1 shade at' else d
    else d

/-- COUNT's update (R129, R163): none at or above 524,288. -/
def Dev.countNow (index by' : Nat) (atEnd : Option (Nat × Int)) (d : Dev) : Dev × Bool :=
  if 524288 ≤ index then (d, false)
  else
    let d := d.addCounter index 1 by'
    match atEnd with
    | none => (d, true)
    | some (k, off) =>
      match d.pkt k with
      | some p =>
        if p.whole then (d.addCounter index 0 (p.bytes.length + off).toNat, true)
        else (d.onPkt k fun p => { p with counts := p.counts ++ [(index, off)] }, true)
      | none => (d, true)

/-- POLICE's decision and debits (R274 to R277): none at or above 262,144. The colour, if any. -/
def Dev.policeNow (index shade colour charge : Nat) (atEnd : Option (Nat × Int)) (d : Dev) : Dev × Option Nat :=
  if 262144 ≤ index then (d, none)
  else
    let r := policeDecide (Map.getD (d.shade shade).policers index {}) colour
      (Map.getD d.path.polC index {}).level (Map.getD d.path.polP index {}).level charge
    let debit (n : Int) (d : Dev) : Dev := d.onPath fun y => { y with
      polC := if r.2.1 then Map.modify y.polC index {} (Bucket.debit n) else y.polC
      polP := if r.2.2 then Map.modify y.polP index {} (Bucket.debit n) else y.polP }
    let d := debit charge d
    match atEnd with
    | none => (d, some r.1)
    | some (k, off) =>
      match d.pkt k with
      | some p =>
        if p.whole then (debit (((p.bytes.length + off).toNat : Int) - 256) d, some r.1)
        else (d.onPkt k fun p => { p with polices := p.polices ++ [(index, r.2.1, r.2.2, off)] }, some r.1)
      | none => (d, some r.1)

/-- The four words of a port map, P0 in bit 0 of the first (Table 4.3). -/
def mapWords (rd map : Nat) : List (Nat × W) := (List.range 4).map fun i => (rd + i, BitVec.ofNat 64 (bits map (64 * i) 64))

/-- A lookup takes place; its result reaches a fibre that has not trapped since its post (R113). -/
def Dev.lookupFor (f ecc way tab key : Nat) (p : Post) (d : Dev) : Dev × Option (Option (Nat × W)) :=
  let r := d.readTable (fibreLay f) tab key ecc way p.run.shade
  (if p.dead then r.1 else r.1.lookupResult f tab p.rd p.pd r.2, r.2)

/-- The effect of a post at its arrival. Of a dead one only the fibre's result is discarded: the lookup fabric does what it was asked (R113). -/
def Dev.arrive' (f ecc way : Nat) (p : Post) (d : Dev) : Dev :=
  match p.op with
  | .exact key => (d.lookupFor f ecc way 1 key p).1
  | .mac learn dest key =>
    let r := d.lookupFor f ecc way 0 key p
    r.1.macLearned (fibreLay f) p.m0 learn dest key p.run.shade r.2
  | .lpm wide key => (d.lookupFor f ecc way (if wide then 4 else 2) key p).1
  | .acl _ key => (d.lookupFor f ecc way 3 key p).1
  | .count i by' atEnd =>
    let r := d.countNow i by' atEnd
    if p.dead then r.1 else r.1.giveResult f [] p.pd r.2 (if r.2 then stDone else stBadOperand)
  | .police i sh colour charge atEnd =>
    let r := d.policeNow i sh colour charge atEnd
    if p.dead then r.1
    else
      match r.2 with
      | some c => r.1.giveResult f [(p.rd, BitVec.ofNat 64 c)] p.pd true stDone
      | none => r.1.noResult f p.pd stBadOperand
  | .group n =>
    if p.dead then d
    else if 65536 ≤ n then d.noResult f p.pd stBadOperand
    else
      match Map.find (d.shade p.run.shade).groups n with
      | some m => d.giveResult f (mapWords p.rd m) p.pd true stDone
      | none => d.noResult f p.pd stNotFound
  | .automaton tag word =>
    let r := d.submit f tag word p
    if p.dead then r.1 else r.1.giveResult f [] p.pd r.2 (if r.2 then stDone else stFull)

/-- The post of a lane whose result is due first. -/
def Fibre.firstPost (x : Fibre) (lane : Nat) : Option Post :=
  (x.posts.filter (·.lane == lane)).foldl (fun (a : Option Post) p =>
    match a with
    | none => some p
    | some q => if p.due < q.due then some p else some q) none

/-- No other POLICE reaches the same policer first: in an earlier pclk, or in the same one from a lower lay (R277). -/
def Dev.policeFirst (f : Nat) (p : Post) (d : Dev) : Bool :=
  match p.op with
  | .police i _ _ _ _ =>
    d.lay.fibres.all fun e => e.2.posts.all fun q =>
      match q.op with
      | .police j _ _ _ _ => j != i || !(q.due < p.due || (q.due == p.due && fibreLay e.1 < fibreLay f))
      | _ => true
  | _ => true

/-- A POLICE decision comes after the refill of its turn (R277). -/
def Post.refilled (p : Post) (d : Dev) : Bool := match p.op with | .police _ _ _ _ _ => d.refilled | _ => true

/-- LANE_RESULT_ARRIVAL (R30, R95, R128, R277): the lane operation due first takes effect at its pclk. -/
def execLaneResultArrival (f lane : Nat) (ecc : EccRead) (s : State) : Host.Outcome State Fault Refusal :=
  s.run (f < 4096 && lane < 4 && ecc.ecc < 3 && ecc.way < 8) fun d =>
    d.with' ((d.fibre f).firstPost lane) fun p d =>
      let d' := d.due p.due
      if !d.policeFirst f p || !p.refilled d' then d
      else ((d'.onFibre f fun x => { x with posts := x.posts.erase p }).arrive' f ecc.ecc ecc.way p).park f

/-! ## Automaton waits (R130, R320) -/

/-- AUTWAIT: wait at most b pclk for the oldest result not taken; [18:12] must be 0 and b at least 1. -/
def execAutwait (f : Nat) (g : BitVec 4) (pd : BitVec 3) (mid : BitVec 7) (b : BitVec 12) (s : State) :
    Host.Outcome State Fault Refusal :=
  s.run (f < 4096) (Dev.fromStore (.autwait f g pd mid b) (Dev.issue f g true (mid != 0 || b == 0) [] [] false fun _ d =>
    .done ((d.onFibre f fun x => { x with waits := x.waits ++ [(pd.toNat, some (x.at' + b.toNat))] }).feedWait f)))

/-- AUTWAITU: wait without bound, on an exception fibre; [18:0] must be 0. -/
def execAutwaitu (f : Nat) (g : BitVec 4) (pd : BitVec 3) (mid : BitVec 7) (b : BitVec 12) (s : State) :
    Host.Outcome State Fault Refusal :=
  s.run (f < 4096) (Dev.fromStore (.autwaitu f g pd mid b) (Dev.issue f g true (mid != 0 || b != 0) [] [] false fun x d =>
    if d.mayBlock f x then .done ((d.onFibre f fun x => { x with waits := x.waits ++ [(pd.toNat, none)] }).feedWait f)
    else .trap 0x08))

/-- AUTWAIT_TIMEOUT (R130, R320): b pclk after issue, m14 = 0, pd = 0, TIMEOUT; the oldest submission is abandoned. -/
def execAutwaitTimeout (f : Nat) (s : State) : Host.Outcome State Fault Refusal :=
  s.run (f < 4096) fun d =>
    match (d.fibre f).waits with
    | (pd, some t) :: ws =>
      let d := d.due t
      (d.onFibre f fun x => { x with waits := ws, subs := x.subs.drop 1 }).onBoth f fun a => (a.setM 14 0).answer pd false stTimeout
    | _ => d

/-! ## Cleats and lanyards (R94, R403, R405, R408, R410) -/

/-- An operation on a cleat or lanyard named by w[ra] (format K, variant 0). -/
def Dev.shareOp (f : Nat) (g : BitVec 4) (v : BitVec 9) (regs : List Nat) (act : Fibre → Dev → Act) : Dev → Dev :=
  Dev.issue f g true (v != 0) regs [] false act

/-- CLTRY: take a free cleat, or FULL (R405). -/
def execCltry (f : Nat) (g : BitVec 4) (rd ra : BitVec 5) (pd : BitVec 3) (v : BitVec 9) (s : State) :
    Host.Outcome State Fault Refusal :=
  s.run (f < 4096) (Dev.fromStore (.cltry f g rd ra pd v) (Dev.shareOp f g v [ra.toNat] fun x d =>
    let r := d.tryCleat (fibreCleat f (x.iss.getW ra.toNat)) (.fibre f)
    .done ((r.1.onArch f fun a => a.answer pd.toNat (r.2 == stDone) r.2).late f 12 [32 + pd.toNat, 64])))

/-- CLREL: release a cleat this fibre holds, or NOT_FOUND (R405). -/
def execClrel (f : Nat) (g : BitVec 4) (rd ra : BitVec 5) (pd : BitVec 3) (v : BitVec 9) (s : State) :
    Host.Outcome State Fault Refusal :=
  s.run (f < 4096) (Dev.fromStore (.clrel f g rd ra pd v) (Dev.shareOp f g v [ra.toNat] fun x d =>
    let r := d.relCleat (fibreCleat f (x.iss.getW ra.toNat)) (.fibre f)
    .done ((r.1.onArch f fun a => a.answer pd.toNat (r.2 == stDone) r.2).late f 12 [32 + pd.toNat, 64])))

/-- CLWAIT: take a cleat, joining its waiters while it is held; slow path only (R108, R405). -/
def execClwait (f : Nat) (g : BitVec 4) (rd ra : BitVec 5) (pd : BitVec 3) (v : BitVec 9) (s : State) :
    Host.Outcome State Fault Refusal :=
  s.run (f < 4096) (Dev.fromStore (.clwait f g rd ra pd v) (Dev.shareOp f g v [ra.toNat] fun x d =>
    if !d.mayBlock f x then .trap 0x08
    else
      let n := fibreCleat f (x.iss.getW ra.toNat)
      let free := (d.cleat n).holder.isNone
      let d := (d.onFibre f fun x => { x with block := some (.cleat n pd.toNat) }).onCleat n fun c =>
        { c with waiters := c.waiters ++ [.fibre f] }
      .done (if free then d.passCleat n else d)))

/-- LNPUT: put w[rd] on a lanyard, or FULL (R408). -/
def execLnput (f : Nat) (g : BitVec 4) (rd ra : BitVec 5) (pd : BitVec 3) (v : BitVec 9) (s : State) :
    Host.Outcome State Fault Refusal :=
  s.run (f < 4096) (Dev.fromStore (.lnput f g rd ra pd v) (Dev.shareOp f g v [rd.toNat, ra.toNat] fun x d =>
    let r := d.tryPut (lanyardOf (x.iss.getW ra.toNat)) (x.iss.getW rd.toNat)
    .done ((r.1.onArch f fun a => a.answer pd.toNat (r.2 == stDone) r.2).late f 12 [32 + pd.toNat, 64])))

/-- LNGET: the oldest word of a lanyard into w[rd], or NOT_FOUND, w[rd] then keeping its contents (R408, log 39). -/
def execLnget (f : Nat) (g : BitVec 4) (rd ra : BitVec 5) (pd : BitVec 3) (v : BitVec 9) (s : State) :
    Host.Outcome State Fault Refusal :=
  s.run (f < 4096) (Dev.fromStore (.lnget f g rd ra pd v) (Dev.shareOp f g v [ra.toNat] fun x d =>
    let r := d.tryGet (lanyardOf (x.iss.getW ra.toNat))
    .done ((r.1.onArch f fun a =>
      match r.2 with
      | some w => (a.setW rd.toNat w).answer pd.toNat true stDone
      | none => a.answer pd.toNat false stNotFound).late f 12 [rd.toNat, 32 + pd.toNat, 64])))

/-- LNPUTW: put w[rd] on a lanyard, waiting for room; slow path only (R108, R410). -/
def execLnputw (f : Nat) (g : BitVec 4) (rd ra : BitVec 5) (pd : BitVec 3) (v : BitVec 9) (s : State) :
    Host.Outcome State Fault Refusal :=
  s.run (f < 4096) (Dev.fromStore (.lnputw f g rd ra pd v) (Dev.shareOp f g v [rd.toNat, ra.toNat] fun x d =>
    if !d.mayBlock f x then .trap 0x08
    else
      let n := lanyardOf (x.iss.getW ra.toNat)
      let w := x.iss.getW rd.toNat
      .done (((d.onFibre f fun x => { x with block := some (.put n w pd.toNat) }).onLanyard n fun l =>
        { l with puts := l.puts ++ [(.fibre f, w)] }).serve n)))

/-- LNGETW: the oldest word of a lanyard into w[rd], waiting for one; slow path only (R108, R410). -/
def execLngetw (f : Nat) (g : BitVec 4) (rd ra : BitVec 5) (pd : BitVec 3) (v : BitVec 9) (s : State) :
    Host.Outcome State Fault Refusal :=
  s.run (f < 4096) (Dev.fromStore (.lngetw f g rd ra pd v) (Dev.shareOp f g v [ra.toNat] fun x d =>
    if !d.mayBlock f x then .trap 0x08
    else
      let n := lanyardOf (x.iss.getW ra.toNat)
      .done (((d.onFibre f fun x => { x with block := some (.get n rd.toNat pd.toNat) }).onLanyard n fun l =>
        { l with gets := l.gets ++ [.fibre f] }).serve n)))

/-! ## Repair, stale windows and caches (R215, R219, R224) -/

/-- TABLE_LINE_RELOAD_DONE (R224): the line matches again, a SCRUB_FIX record is written, TBL_FIX_LAST holds its digest. -/
def Dev.reloadDone (tab line age : Nat) (d : Dev) : Dev :=
  let v : W := BitVec.ofNat 64 (tab % 16 + line % 2 ^ 24 * 256 + age % 2 ^ 32 * 2 ^ 32)
  (d.onTbl fun t => { (if tab = 2 then t.endFix line else t) with
    reload := t.reload.filter fun e => !(e.1 == tab && e.2.1 == line), fixLast := v }).bump Reg.tblScrubFix

/-- STALE_WINDOW_CLOSE (R219): 65,536 pclk after the raw write. -/
def execStaleWindowClose (table line : Nat) (s : State) : Host.Outcome State Fault Refusal :=
  s.run (table < 4) fun d =>
    d.with' (d.tbl.stale.find? fun w => w.table == table && w.line == line) fun w d =>
      (d.due w.close).onTbl fun t => { t with stale := t.stale.erase w }

/-- LOOKUP_CACHE_EXPIRY (R215): a cached result is discarded, by 65,536 pclk after its fill. -/
def execLookupCacheExpiry (lay table shade key : Nat) (s : State) : Host.Outcome State Fault Refusal :=
  s.run (lay < 32 && table < 5 && shade < 4) fun d =>
    d.onLay lay fun y => { y with cache := y.cache.filter fun c => !(c.table == table && c.shade == shade && c.key == key) }

end Sys2Proof.Machine
end

