-- ==== Sys2Proof/Machine/Arb.lean ====
section
/-! DEFINITION. The maintenance arbiter: tokens, conflicts, the wait (R373 to R378). -/
namespace Sys2Proof.Machine

/-- Change the calibration state. -/
def Dev.onCal (f : Cal → Cal) (d : Dev) : Dev := { d with cal := f d.cal }

/-- Two requests claim one token and at least one of them in X (Table 12.2). -/
def conflicts (a b : List (Token × Bool)) : Bool := a.any fun x => b.any fun y => x.1 == y.1 && (x.2 || y.2)

/-- Every token can be granted at once: no holder conflicts, and no request that waits ahead (R375, R376). -/
def Dev.grantable (ahead' : List Req) (r : Req) (d : Dev) : Bool :=
  !(d.cal.holds.any fun h => conflicts h.req.claims r.claims) && !(ahead'.any fun w => conflicts w.claims r.claims)

/-- Requests of splice instructions that wait (R377). -/
def Cal.spliceWaits (c : Cal) : Nat := (c.waiting.filter fun r => r.who != .device).length

/-- How a claim comes out: granted, waiting among the 64, or waiting to enter (R377). -/
inductive Claim where
  | granted | waits | placed
  deriving DecidableEq, Repr

/-- A request claims its tokens (R375 to R377). -/
def Dev.claim (r : Req) (d : Dev) : Claim × Dev :=
  if d.grantable d.cal.waiting r then (.granted, d.onCal fun c => { c with holds := c.holds ++ [{ req := r, start := d.pclk }] })
  else if r.who = .device ∨ d.cal.spliceWaits < 64 then (.waits, d.onCal fun c => { c with waiting := c.waiting ++ [r] })
  else (.placed, (d.onCal fun c => { c with placeQ := c.placeQ ++ [r] }).bump Reg.calQueueWait)

/-- Free the tokens of a holder. -/
def Dev.release' (p : Hold → Bool) : Dev → Dev := Dev.onCal fun c => { c with holds := c.holds.filter fun h => !p h }

/-- Withdraw every request a program has waiting (R140, R378). -/
def Dev.withdraw (seq : Nat) : Dev → Dev := Dev.onCal fun c => { c with
  waiting := c.waiting.filter fun r => r.who != .prog seq
  placeQ := c.placeQ.filter fun r => r.who != .prog seq
  asked := c.asked.filter fun r => r.who != .prog seq
  holds := c.holds.filter fun h => !(h.req.who == .prog seq && h.req.code == 0) }

/-- A program holds the tokens of its table instruction (code 0). -/
def Dev.holdsFor (d : Dev) (seq : Nat) : Bool := d.cal.holds.any fun h => h.req.who == .prog seq && h.req.code == 0

end Sys2Proof.Machine
end

