-- ==== Sys2Proof/Machine/Splice.lean ====
section
/-! DEFINITION. The splice sequencer: acceptance, the AT list, one instruction at a time, waits, the log (R36 to R38,
R73 to R76, R133 to R143, R152 to R154, R642). -/
namespace Sys2Proof.Machine

/-- Change the sequencer. -/
def Dev.onSpl (f : Splice → Splice) (d : Dev) : Dev := { d with spl := f d.spl }

/-! ## Words of a program (R133, R135) -/

/-- An instruction: its head word's fields and its operand words (R135). -/
structure Ins where
  head  : W
  op    : Nat
  len   : Nat
  cont  : Bool
  rsv   : Bool
  field : Nat
  a     : Nat
  ws    : List W
  deriving DecidableEq, Repr

/-- The instruction at the front of a list of words. -/
def insOf : List W → Option Ins
  | [] => none
  | h :: t =>
    let n := h.toNat
    let len := bits n 8 8
    some { head := h, op := bits n 0 8, len, cont := bit n 16, rsv := bits n 17 7 != 0, field := bits n 24 8
           a := bits n 32 32, ws := t.take (len - 1) }

/-- The i-th operand word after the head, as a number. -/
def Ins.w (i : Ins) (k : Nat) : Nat := ((i.ws[k]?).getD 0).toNat

/-- All the words of an instruction as they stand in memory (R641). -/
def Ins.bytes (i : Ins) : List Byte := (i.head :: i.ws).flatMap fun w => le 8 w.toNat

/-- The lengths of the instructions sum to the words there are, and COUNT matches (R134). -/
def lengthsOk : Nat → List W → Bool
  | 0, ws => ws == []
  | _ + 1, [] => false
  | n + 1, h :: t =>
    let len := bits h.toNat 8 8
    len != 0 && len - 1 ≤ t.length && lengthsOk n (t.drop (len - 1))

/-- The header keeps Table 4.5, and the instruction lengths agree with it (R134). -/
def headerOk (ws : List W) : Bool :=
  match ws with
  | w0 :: w1 :: w2 :: _ :: t =>
    let h := w0.toNat
    bits h 0 8 == 1 && bits h 10 6 == 0 && 1 ≤ bits h 16 16 && bits h 16 16 ≤ 4096 && 5 ≤ bits h 32 32
      && bits h 32 32 ≤ 65536 && bits h 32 32 == ws.length && bits w1.toNat 54 10 == 0 && (bit h 8 || w1 == 0)
      && bits w2.toNat 32 32 == 0 && (bit h 9 || w2 == 0) && lengthsOk (bits h 16 16) t
  | _ => false

/-! ## Cost and record times (R143) -/

/-- Sequencer time of an instruction in hclk (Table 4.6); an unknown opcode takes WAITTURN's 16, the least of the table (log 11). -/
def Ins.cost (i : Ins) : Nat :=
  match i.op with
  | 0x01 | 0x02 => if i.field = 2 then 160 else if i.field = 3 then 200 else if i.field = 4 then 40 else 96
  | 0x08 | 0x0A => 64
  | 0x09 | 0x11 | 0x12 | 0x13 => 32
  | 0x10 | 0x14 => 48
  | 0x18 => 2048
  | 0x20 | 0x22 | 0x28 | 0x2A => 32
  | 0x21 => 48
  | 0x29 => 16
  | 0x2B | 0x2C => 64
  | 0x30 | 0x33 => 48
  | 0x31 | 0x32 | 0x34 => 32
  | 0x35 | 0x36 => 64
  | 0x38 | 0x39 => 32
  | _ => 16

/-- The opcodes of Table 4.6. -/
def knownOps : List Nat :=
  [0x01, 0x02, 0x08, 0x09, 0x0A, 0x10, 0x11, 0x12, 0x13, 0x14, 0x18, 0x20, 0x21, 0x22, 0x28, 0x29, 0x2A, 0x2B, 0x2C, 0x30,
    0x31, 0x32, 0x33, 0x34, 0x35, 0x36, 0x38, 0x39]

/-- The opcodes marked shaded in Table 4.6. -/
def shadedOps : List Nat := [0x01, 0x02, 0x12, 0x13, 0x14, 0x18, 0x2B, 0x2C]

/-- When the sequencer starts its next instruction: now, or once the cost of the last is spent. -/
def Dev.seqFrom (d : Dev) : Nat := max d.pclk d.spl.busy

/-! ## Records (Table 4.8, R152 to R154) -/

/-- The shade field of an instruction's record: the number SHADEOPEN, TCOMMIT and SHADERETIRE name, a shaded instruction's target. -/
def Ins.shadeField (i : Ins) (p : Prog) : Nat :=
  if 0x08 ≤ i.op ∧ i.op ≤ 0x0A then i.a else if shadedOps.contains i.op ∧ p.shaded then p.shade else 0

/-- Append the record of an instruction with a status, at a reel time. -/
def Dev.logIns (p : Prog) (i : Ins) (st ns : Nat) (d : Dev) : Dev :=
  d.append { time := ns, who := p.slice, kind := ofBit p.capstan, op := i.op, status := st, seq := p.seq, idx := p.idx, qp := p.qp
             shade := i.shadeField p, digest := BitVec.ofNat 64 (crc64 i.bytes) }

/-- Append a device event record with a status, or count it lost when the reserve is full too (R154, Table 4.9). -/
def Dev.logEventSt (code st digest shade : Nat) (d : Dev) : Dev :=
  if d.room = 0 then d.bump Reg.glbSpliceEventLost
  else d.append { time := d.ns, who := 0, kind := 2, op := code, status := st, seq := d.spl.nextSeq, idx := 0xFFFF, qp := 0xFFFF
                  shade, digest := BitVec.ofNat 64 digest }

/-- Append a device event record (Table 4.9). -/
def Dev.logEvent (code digest shade : Nat) : Dev → Dev := Dev.logEventSt code stDone digest shade

/-- Records the log keeps room for: 256 for device events, and three for each program accepted and not completed, the most its instruction under way, a deferral of it and an abort write (R139, R140, R154). -/
def Dev.logKept (d : Dev) : Nat := 256 + 3 * (d.spl.atList.length + d.spl.progs.length)

/-- The log has room for the records of what has started, so that an instruction may start without ever taking the reserve of events (R154). -/
def Dev.seqRoom (d : Dev) : Bool := d.logKept ≤ d.room

/-! ## Programs -/

/-- The program with a sequence number among those in progress. -/
def Dev.prog (d : Dev) (p : Nat) : Option Prog := d.spl.progs.find? (·.seq == p)

/-- Change a program in progress. -/
def Dev.onProg (p : Nat) (f : Prog → Prog) : Dev → Dev :=
  Dev.onSpl fun s => { s with progs := s.progs.map fun x => if x.seq = p then f x else x }

/-- A program completes with a status and the index of the stopping instruction (Table 14.6). -/
def Dev.endProg (x : Prog) (st idx : Nat) (d : Dev) : Dev :=
  ((d.onSpl fun s => { s with
    progs := s.progs.filter (·.seq != x.seq)
    atList := s.atList.filter (·.seq != x.seq)
    cur := if s.cur = some x.seq then none else s.cur }).bumpIf (st != stDone) Reg.glbSpliceFail).complete x.qp x.desc st
      [idx, x.seq % 2 ^ 32, x.cookie.toNat % 2 ^ 32, x.cookie.toNat / 2 ^ 32]

/-- An instruction has its final status: the program stops, goes on, or completes (R136). -/
def Dev.advance (p st : Nat) (d : Dev) : Dev :=
  match d.prog p with
  | none => d
  | some x =>
    match insOf x.words with
    | none => d
    | some i =>
      let bad := if st = stDone then x.firstBad else x.firstBad.or (some (st, x.idx))
      if st != stDone && !i.cont then d.endProg x st x.idx
      else if x.left ≤ 1 then
        match bad with
        | some (s, n) => d.endProg x s n
        | none => d.endProg x stDone 0xFFFF
      else
        (d.onProg p fun x => { x with
          words := x.words.drop i.len, idx := x.idx + 1, left := x.left - 1, firstBad := bad, phase := .running }).onSpl
          fun s => { s with cur := some p }

/-- What an instruction comes to: a status with its extra cost in hclk, a wait of R37, a deferral, or a wait to enter the arbiter. -/
inductive SpRes where
  | done (st : Nat) (d : Dev) (extra : Nat)
  | wait (d : Dev) (w : SpWait) (expiry : Option Nat)
  | defer (d : Dev)
  | place (d : Dev) (w : SpWait)

/-- A program may run: it is at an instruction, and no other program runs alone (R37). -/
def Dev.mayRun (x : Prog) (d : Dev) : Bool :=
  (x.phase == .running) && (d.spl.cur == none || d.spl.cur == some x.seq)

/-- The sequencer is free of a program that waits. -/
def Dev.letGo (p : Nat) (ph : SpPhase) (d : Dev) : Dev :=
  (d.onProg p fun x => { x with phase := ph }).onSpl fun s => { s with cur := if s.cur = some p then none else s.cur }

/-- Table 15.1 lets a program of its queue pair's slice execute the instruction (R450, R451): a DIRECT slice's, only what concerns the slice itself. -/
def Dev.mayExec (x : Prog) (i : Ins) (d : Dev) : Bool :=
  let s := (d.qp x.qp).slice
  let own : Bool := (d.qp (i.a % 65536)).st != .disabled && (d.qp (i.a % 65536)).slice == s
  match (d.slice s).map (·.role) with
  | some 1 =>
    i.op == 0x29 || (i.op == 0x34 && i.a == s) || ((i.op == 0x31 || i.op == 0x32) && own)
      || (i.op == 0x30 && i.field ≤ 5 && (own || (d.qp (i.a % 65536)).st == .disabled) && (!bit (i.w 2) 32 || bits (i.w 2) 50 12 == s))
  | _ => true

/-- The sequencer starts nothing while the log lacks room; each wait is counted once (R154). -/
def Dev.awaitRoom (d : Dev) : Dev :=
  if d.spl.logWaited then d else (d.onSpl fun s => { s with logWaited := true }).bump Reg.glbSpliceLogWait

/-- Execute the next instruction of program p, if it is the row's (R136, R139, R141, R143, R154, R451). -/
def Dev.runIns (p : Nat) (row : Ins → Bool) (act : Prog → Ins → Dev → SpRes) (d : Dev) : Dev :=
  match d.prog p with
  | none => d
  | some x =>
    match insOf x.words with
    | none => d
    | some i =>
      if !d.mayRun x || !row i then d
      else if !d.seqRoom then d.awaitRoom
      else
        let t0 := d.seqFrom
        let t := t0 + 2 * i.cost
        match if i.rsv || !d.mayExec x i then SpRes.done stBadOperand d 0 else act x i d with
        | .done st d extra =>
          let t := t + 2 * extra
          ((d.onSpl fun s => { s with busy := t, logWaited := false }).logIns x i st (d.nsAt t)).advance p st
        | .wait d w e => (d.onSpl fun s => { s with busy := t, logWaited := false }).letGo p (.waiting w e)
        | .defer d => (((d.onSpl fun s => { s with logWaited := false }).logIns x i stDeferred (d.nsAt t0)).bump Reg.calDefer).letGo p .deferred
        | .place d w => (d.onSpl fun s => { s with logWaited := false }).letGo p (.waiting w none)

/-- A wait ends: the instruction's record is written, and the program may resume (R139). -/
def Dev.endWait (p st : Nat) (d : Dev) : Dev :=
  match d.prog p with
  | none => d
  | some x =>
    match insOf x.words with
    | none => d
    | some i => (d.logIns x i st d.ns).onProg p fun x => { x with phase := .ended st }

/-- What program p waits for. -/
def Dev.waitOf (d : Dev) (p : Nat) : Option (SpWait × Option Nat) :=
  (d.prog p).bind fun x => match x.phase with | .waiting w e => some (w, e) | _ => none

/-- Requests that wait to enter the arbiter take places that came free, with their DEFERRED records (R377). -/
def Dev.enterPlaces : Nat → Dev → Dev
  | 0, d => d
  | n + 1, d =>
    match d.cal.placeQ with
    | [] => d
    | r :: rest =>
      if d.cal.spliceWaits < 64 then
        let d := d.onCal fun c => { c with placeQ := rest, waiting := c.waiting ++ [r] }
        let d := match r.who with
          | .prog p =>
            match d.prog p with
            | some x =>
              match insOf x.words with
              | some i => ((d.logIns x i stDeferred d.ns).bump Reg.calDefer).onProg p fun x => { x with
                  phase := if r.code = 0 then .deferred else .waiting (.activity r.code r.res) none }
              | none => d
            | none => d
          | .device => d
        Dev.enterPlaces n d
      else d

/-! ## Abort of a program (R76, R140, R147, R378) -/

/-- What a wait had set in motion is abandoned: a retiring shade drains on (R147), a waiting request is withdrawn (R378), an SLCRESET is not made (R463). -/
def Dev.abandonWait (x : Prog) (d : Dev) : Dev :=
  let d := d.withdraw x.seq
  match x.phase with
  | .waiting (.retire n _) _ => d.onShade n fun s => { s with st := .draining }
  | .waiting (.sliceReset n) _ => d.onSlice n fun y => { y with resetWait := false }
  | _ => d

/-- ABORT of a program's control queue, or a reset of its slice: one ABORTED record, and the program completes ABORTED (R140). One whose instruction has ended with a stop completes with that status. -/
def Dev.abortProg (x : Prog) (d : Dev) : Dev :=
  let d := d.abandonWait x
  let d := match x.phase with | .ended st => d.advance x.seq st | _ => d
  match d.spl.progs.find? (·.seq == x.seq) |>.or (d.spl.atList.find? (·.seq == x.seq)) with
  | none => d
  | some y =>
    match insOf y.words with
    | some i => (d.logIns y i stAborted d.ns).endProg y stAborted y.idx
    | none => d.endProg y stAborted y.idx

/-- Abort every program, in progress or on the AT list, that passes a test. -/
def Dev.abortProgs (t : Prog → Bool) (d : Dev) : Dev :=
  let d := ((d.spl.atList ++ d.spl.progs).filter t).foldl (fun d x => d.abortProg x) d
  d.enterPlaces 64

/-! ## Acceptance (R36, R38, R73, R74, R134) -/

/-- A program that completes at acceptance: one record with opcode 0 and index 0xFFFF (R134, R73). -/
def Dev.refuseProg (x : Prog) (ws : List W) (st : Nat) (d : Dev) : Dev :=
  (d.append { time := d.ns, who := x.slice, kind := ofBit x.capstan, op := 0, status := st, seq := x.seq, idx := 0xFFFF, qp := x.qp
              shade := 0, digest := BitVec.ofNat 64 (crc64 ((ws.take 4).flatMap fun w => le 8 w.toNat)) }).endProg x st 0xFFFF

/-- The program a descriptor hands over. -/
def Dev.progOf (o : Offer) (ws : List W) (d : Dev) : Prog :=
  let q := d.qp o.qp
  let h := (ws.head?.getD 0).toNat
  { seq := d.spl.nextSeq + 1, qp := o.qp, desc := o.desc, capstan := q.capstan, slice := if q.capstan then q.lidx else q.slice
    turn := if bit h 8 then some ((ws[1]?.getD 0).toNat) else none
    shaded := bit h 9, shade := (ws[2]?.getD 0).toNat, cookie := ws[3]?.getD 0
    words := ws.drop 4, left := bits h 16 16 }

/-- An offer waits for an entry of the AT list or for one of the 16 places, and none is free (R38, R74). -/
def Dev.offerHeld (d : Dev) (o : Offer) : Bool :=
  match o.hold with
  | none => false
  | some true => 1024 ≤ d.spl.atList.length
  | some false => 16 ≤ d.spl.progs.length

/-- The offer to accept: the first of a queue that does not wait (R38, R74); none while the outputs are gated. -/
def Dev.nextOffer (d : Dev) : Option Offer :=
  if d.boot.gated then none
  else
    let held := d.spl.offers.filter d.offerHeld
    d.spl.offers.find? fun o => !(held.any fun h => h.qp == o.qp)

/-- An offer is found to wait for an entry of the AT list, which is counted once, or for a place. -/
def Dev.holdOffer (o : Offer) (forAt : Bool) (d : Dev) : Dev :=
  (d.onSpl fun s => { s with offers := s.offers.map fun y => if y = o then { o with hold := some forAt } else y }).bumpIf
    (forAt && o.hold != some true) Reg.reelAtWait

/-- SPLICE_PROGRAM_ACCEPT (R36, R73, R74, R134, R154): the next offered program, with the words its descriptor names, once the log has room for its records. -/
def execSpliceProgramAccept (words : List W) (s : State) : Host.Outcome State Fault Refusal :=
  s.run (words.length ≤ 65536) fun d =>
    match d.nextOffer with
    | none => d
    | some o =>
      if d.room < d.logKept + 3 then d.awaitRoom else
      let x := d.progOf o words
      let accept (d : Dev) : Dev := (d.onSpl fun s => { s with offers := s.offers.erase o, nextSeq := x.seq, logWaited := false }).bump Reg.glbSpliceAccept
      if !headerOk words then (accept d).refuseProg x words stBadOperand
      else
        match x.turn with
        | some t =>
          if t ≤ d.turn then ((accept d).bump Reg.reelAtLate).refuseProg x words stTimeout
          else if 2 ^ 32 < t - d.turn then (accept d).refuseProg x words stBadOperand
          else if 1024 ≤ d.spl.atList.length then d.holdOffer o true
          else (accept d).onSpl fun s => { s with atList := s.atList ++ [x] }
        | none => if 16 ≤ d.spl.progs.length then d.holdOffer o false else (accept d).onSpl fun s => { s with progs := s.progs ++ [x] }

/-- SPLICE_PROGRAM_RESUME (R37, R136, R141, R442, R443): a program whose wait or deferral has ended goes on; a QUIESCE or ABORT ends once its queue pair is IDLE; an opcode that Table 4.6 does not list completes BAD_OPERAND. -/
def execSpliceProgramResume (p : Nat) (s : State) : Host.Outcome State Fault Refusal :=
  s.run true fun d =>
    match d.prog p with
    | none => d
    | some x =>
      d.when (d.spl.cur == none || d.spl.cur == some p) fun d =>
        match x.phase with
        | .ended st => d.advance p st
        | .waiting (.quiesce q) _ | .waiting (.abort q) _ =>
          if (d.qp q).st = .idle then (d.endWait p stDone).advance p stDone else d
        | .running => d.runIns p (fun i => !knownOps.contains i.op) fun _ _ d => .done stBadOperand d 0
        | _ => d

/-! ## WAITTURN and BARRIER (R142, R367) -/

/-- WAITTURN (R142): at once when the turn has begun. -/
def execWaitturn (p : Nat) (s : State) : Host.Outcome State Fault Refusal :=
  s.run true (Dev.runIns p (fun i => i.op == 0x29) fun _ i d =>
    let t := i.w 0
    if i.field != 0 || i.a != 0 || i.len != 2 || 2 ^ 54 ≤ t || 2 ^ 32 < t - d.turn then .done stBadOperand d 0
    else if t ≤ d.turn then .done stDone d 0
    else .wait d (.turn t) none)

/-- WAITTURN_DONE (R72, R142): order 6 of Table 2.5. -/
def execWaitturnDone (p : Nat) (s : State) : Host.Outcome State Fault Refusal :=
  s.run true fun d =>
    match d.waitOf p with
    | some (.turn t, _) => d.when (d.reached t) fun d => d.toHclk.endWait p stDone
    | _ => d

/-- BARRIER without FABRIC (R367): the next turn boundary. -/
def execBarrier (p : Nat) (s : State) : Host.Outcome State Fault Refusal :=
  s.run true (Dev.runIns p (fun i => i.op == 0x2A && !bit i.field 0) fun _ i d =>
    if i.field != 0 || 2 ^ 16 ≤ i.a || i.len != 1 then .done stBadOperand d 0
    else .wait d (.barrier (max d.turn d.reel.served + 1) false false) none)

/-- BARRIER with FABRIC (R367): the first turn boundary at or after now plus 2 x H x h. -/
def execBarrierFabric (p : Nat) (s : State) : Host.Outcome State Fault Refusal :=
  s.run true (Dev.runIns p (fun i => i.op == 0x2A && bit i.field 0) fun _ i d =>
    if i.field != 1 || 2 ^ 16 ≤ i.a || i.len != 1 then .done stBadOperand d 0
    else .wait d (.barrier (ceilDiv (d.ns + 2 * d.brd.h * d.brd.hopNs) 1024) true (d.reel.st != .locked)) none)

end Sys2Proof.Machine
end

