-- ==== Sys2Proof/Machine/Shades.lean ====
section
/-! DEFINITION. Table instructions and the shade lifecycle: TSET, TDEL, SHADEOPEN, TCOMMIT, SHADERETIRE, SHAPE, POLSET,
MCSET, PROGLOAD, QSET, SNAP (R81, R103, R138, R144 to R148, R169, R177 to R186, R190 to R217, R262, R272, R274). -/
namespace Sys2Proof.Machine

/-! ## The target shade (R138) -/

/-- The live index that holds a shade number. -/
def Dev.shadeNamed (num : Nat) (d : Dev) : Option Nat := d.live.find? fun n => (d.shade n).num == num

/-- The OPEN index a shaded instruction acts on, or the status it completes with (R138). -/
def Dev.target (x : Prog) (d : Dev) : Nat ⊕ Nat :=
  if !x.shaded then .inr stBadOperand
  else
    match d.shadeNamed x.shade with
    | none => .inr stBadOperand
    | some n => if (d.shade n).st = .opened then .inl n else .inr stFenced

/-- A shaded instruction that takes no token: its operands, then its target, then its effect. -/
def Dev.shaded (ok : Bool) (x : Prog) (f : Nat → Dev → Dev) (d : Dev) : SpRes :=
  if !ok then .done stBadOperand d 0
  else
    match d.target x with
    | .inr st => .done st d 0
    | .inl n => .done stDone (f n d) 0

/-! ## TSET and TDEL (R144, R190 to R217) -/

/-- Key words of a table instruction: LPM is wide by operand A [8]. -/
def keyWords (i : Ins) : Nat :=
  match i.field with
  | 0 => 1
  | 1 => 2
  | 2 => if bit i.a 8 then 2 else 1
  | _ => 0

/-- The key the words after the head spell (Table 6.1, R191). -/
def tableKey (i : Ins) : Nat :=
  match i.field with
  | 0 => i.w 0
  | 1 => i.w 0 * 2 ^ 32 + bits (i.w 1) 0 32
  | 2 => if bit i.a 8 then i.w 0 * 2 ^ 64 + i.w 1 else i.w 0
  | _ => (List.range 10).foldl (fun k j => k * 2 ^ 64 + i.w j) 0

/-- The mask of an ACL TSET. -/
def aclMask (i : Ins) : Nat := (List.range 10).foldl (fun k j => k * 2 ^ 64 + i.w (10 + j)) 0

/-- Operand A and the key words are in range (R141, R191, R192): MAC and exact define no bit of operand A. -/
def keyOk (i : Ins) : Bool :=
  match i.field with
  | 0 => i.a == 0
  | 1 => i.a == 0 && bits (i.w 1) 32 32 == 0
  | 2 =>
    let width := if bit i.a 8 then 128 else 64
    let plen := i.a % 256
    i.a < 512 && plen ≤ width && tableKey i % 2 ^ (width - plen) == 0
  | 3 => i.a < 65536
  | 4 => i.a < 524288
  | _ => false

/-- The operands of a TSET. -/
def tsetOk (i : Ins) : Bool :=
  keyOk i &&
    (match i.field with
     | 0 => i.len == 3 && i.w 1 < 2 ^ 32
     | 1 => i.len == 4
     | 2 => i.len == keyWords i + 2 && i.w (keyWords i) < 2 ^ 32
     | 3 => i.len == 22 && i.w 20 < 2 ^ 48
     | _ => i.len == 3)

/-- The operands of a TDEL. -/
def tdelOk (i : Ins) : Bool := i.field != 4 && keyOk i && i.len == keyWords i + 1

/-- A TSET of the instruction's entry in index n: the tables and the moves made, none for FULL (R197, R200, R206 to R214). -/
def Tables.tset (i : Ins) (n : Nat) (t : Tables) : Option (Tables × Nat) :=
  let v := BitVec.ofNat 64 (i.w (keyWords i))
  match i.field with
  | 0 | 1 => (t.setExact i.field n (tableKey i) v).map (·, 0)
  | 2 => if bit i.a 8 then t.setWide n (i.a % 256) (tableKey i) v else t.setNarrow n (i.a % 256) (tableKey i) v
  | _ => (t.setAcl n i.a (tableKey i) (aclMask i) (BitVec.ofNat 64 (i.w 20))).map (·, 0)

/-- A TDEL of the instruction's entry in index n: none for NOT_FOUND (R197, R208, R214). -/
def Tables.tdel (i : Ins) (n : Nat) (t : Tables) : Option (Tables × Nat) :=
  match i.field with
  | 0 | 1 => (t.delExact i.field n (tableKey i)).map (·, 0)
  | 2 => if bit i.a 8 then t.delWide n (i.a % 256) (tableKey i) else t.delNarrow n (i.a % 256) (tableKey i)
  | _ => (t.delAcl n i.a).map (·, 0)

/-- The row of an LPM entry of an index: the first of its pair or quad for a wide one (R206). -/
def Tables.lpmLine (wide : Bool) (plen key n : Nat) (t : Tables) : Option Nat :=
  let is (r : Row) : Bool := r.isEntry plen key n
  if wide then
    t.wide.zipIdx.findSome? fun e =>
      if e.1.lo.any is then some (quadRow e.2) else if e.1.hi.any is then some (quadRow e.2 + 2) else none
  else t.narrow.findIdx? is

/-- The line of an instruction's entry in index n (Table 6.1). -/
def Tables.lineOf (i : Ins) (n : Nat) (t : Tables) : Option Nat :=
  match i.field with
  | 0 | 1 => (t.holders i.field n (tableKey i)).head?
  | 2 => t.lpmLine (bit i.a 8) (i.a % 256) (tableKey i) n
  | _ => (t.aclAt n i.a).map (·.1)

/-- The line a table instruction writes, whose shadow it writes too: where a TSET puts its entry, or where the entry stands; line 0 where there is neither (R373, log 13). -/
def Dev.shadowLine (i : Ins) (n : Nat) (d : Dev) : Nat :=
  let put : Option Nat := if i.op = 0x01 then (d.tbl.tset i n).bind fun r => r.1.lineOf i n else none
  (put.or (d.tbl.lineOf i n)).getD 0

/-- The tokens of a table instruction (R373): CHAN(c) S of its shadow line's channel, and TCAM X for LPM and ACL. -/
def Dev.tableClaims (i : Ins) (n : Nat) (d : Dev) : List (Token × Bool) :=
  (Token.chan (Config.shadowChannel i.field (d.shadowLine i n)), false) :: (if 2 ≤ i.field then [(Token.tcam, true)] else [])

/-- A table instruction runs with its tokens: at once, once granted, or after DEFERRED (R144 order 5, R375 to R377). -/
def Dev.withTokens (x : Prog) (claims : List (Token × Bool)) (f : Dev → SpRes) (d : Dev) : SpRes :=
  let fin (d : Dev) : SpRes :=
    let free (d : Dev) : Dev := d.release' fun h => h.req.who == .prog x.seq && h.req.code == 0
    match f d with
    | .done st d e => .done st ((free d).enterPlaces 64) e
    | r => r
  if d.holdsFor x.seq then fin d
  else
    let r := d.claim { who := .prog x.seq, code := 0, res := 0, claims }
    match r.1 with
    | .granted => fin r.2
    | .waits => .defer r.2
    | .placed => .place r.2 (.place 0 0)

/-- The order in which a table instruction reaches its outcome (R144, R48). -/
def Dev.tableIns (ok : Bool) (x : Prog) (i : Ins) (f : Nat → Dev → SpRes) (d : Dev) : SpRes :=
  if !ok then .done stBadOperand d 0
  else
    match d.target x with
    | .inr st => .done st d 0
    | .inl n =>
      if i.field = 4 then f n d
      else if !d.dmc.ready then .done stNotReady d 0
      else d.withTokens x (d.tableClaims i n) (f n)

/-- The cached results a table write discards in every lay: of the key and index, and for an LPM or ACL write of the whole region or table (R216). -/
def Dev.dropCached (tab n : Nat) (key : Option Nat) (d : Dev) : Dev :=
  d.invalidate fun c => c.table == tab && c.shade == n && (match key with | some k => c.key == k | none => true)

/-- Set the tables, counting the band moves (R208). -/
def Dev.moved (r : Tables × Nat) (d : Dev) : Dev := ({ d with tbl := r.1.trimRaw } : Dev).add Reg.tblLpmMove r.2

/-- The lookups whose cached results a table write discards (R216). -/
def Ins.region (i : Ins) : Nat := if i.field = 2 ∧ bit i.a 8 then 4 else i.field

/-- A table write in index n: the tables change, and every lay discards what it had cached of the key, of an LPM or ACL write of the whole region or table (R144, R208, R216). -/
def Dev.tableWrite (i : Ins) (n : Nat) (r : Tables × Nat) (d : Dev) : SpRes :=
  .done stDone ((d.moved r).dropCached i.region n (if i.field < 2 then some (tableKey i) else none)) (2 * r.2)

/-- The effect of a TSET in index n (R197, R200, R205 to R214). -/
def Dev.tsetIn (i : Ins) (n : Nat) (d : Dev) : SpRes :=
  if i.field = 4 then
    .done stDone (d.onShade n fun s => { s with ctrSet := Map.put s.ctrSet i.a (BitVec.ofNat 64 (i.w 0), BitVec.ofNat 64 (i.w 1)) }) 0
  else
    match d.tbl.tset i n with
    | some r => d.tableWrite i n r
    | none => .done stFull (d.bumpIf (i.field == 0) Reg.tblLearnFail) 0

/-- The effect of a TDEL in index n (R197, R208, R214). -/
def Dev.tdelIn (i : Ins) (n : Nat) (d : Dev) : SpRes :=
  match d.tbl.tdel i n with
  | some r => d.tableWrite i n r
  | none => .done stNotFound d 0

/-- TSET (R144, R190 to R214). -/
def execTset (p : Nat) (s : State) : Host.Outcome State Fault Refusal :=
  s.run true (Dev.runIns p (fun i => i.op == 0x01) fun x i d => d.tableIns (tsetOk i) x i (Dev.tsetIn i))

/-- TDEL (R144, R197). -/
def execTdel (p : Nat) (s : State) : Host.Outcome State Fault Refusal :=
  s.run true (Dev.runIns p (fun i => i.op == 0x02) fun x i d => d.tableIns (tdelOk i) x i (Dev.tdelIn i))

/-! ## SHADEOPEN, TCOMMIT, SHADERETIRE (R145 to R147, R177 to R186) -/

/-- Membership of braid route entries is copied with the rest (R145, R350). -/
def Dev.openRoutes (b n : Nat) : Dev → Dev :=
  Dev.onBrd fun x =>
    let g (m : Nat) : Nat := setBits m n 1 (bits m b 1)
    { x with
      nodes := x.nodes.map fun r => { r with mask := g r.mask }
      knots := x.knots.map fun r => { r with mask := g r.mask }
      members := x.members.map fun r => { r with mask := g r.mask } }

/-- Route entries of an index that becomes FREE (R350). -/
def Dev.closeRoutes (n : Nat) : Dev → Dev :=
  Dev.onBrd fun x =>
    let g (m : Nat) : Nat := setBits m n 1 0
    { x with
      nodes := (x.nodes.map fun r => { r with mask := g r.mask }).filter fun r => r.mask != 0
      knots := (x.knots.map fun r => { r with mask := g r.mask }).filter fun r => r.mask != 0
      members := (x.members.map fun r => { r with mask := g r.mask }).filter fun r => r.mask != 0 }

/-- An index becomes FREE: its lines, cached results, programs and routes go (R186, R196, R217), and E_in,max may change (R239). -/
def Dev.freeShade (n : Nat) (d : Dev) : Dev :=
  let d : Dev := { d with shd := Map.put d.shd n {} }
  (((d.onTbl (Tables.closeIndex n)).closeRoutes n).invalidate fun c => c.shade == n).recompute

/-- The new number is greater than that of every shade that passes a test (R145, R184). -/
def Dev.greater (num : Nat) (t : Shade → Bool) (d : Dev) : Bool :=
  d.live.all fun n => !t (d.shade n) || serialGt num (d.shade n).num

/-- SHADEOPEN's effect: index n copies the base b, but not its one-time settings (R145). -/
def Dev.openShade (num b n : Nat) (d : Dev) : Dev :=
  let s := d.shade b
  let d : Dev := { d with shd := Map.put d.shd n { s with
    st := .opened, num, turn := 0, resident := 0, fabric := false, shFill := [], polFill := [], ctrSet := [], dropSelf := false, joinSelf := none } }
  (d.onTbl (Tables.openIndex b n)).openRoutes b n

/-- SHADEOPEN (R145, R179). -/
def execShadeopen (p : Nat) (s : State) : Host.Outcome State Fault Refusal :=
  s.run true (Dev.runIns p (fun i => i.op == 0x08) fun _ i d =>
    if i.field != 0 || i.len != 2 || 2 ^ 32 ≤ i.w 0 || !d.greater i.a (fun _ => true) then .done stBadOperand d 0
    else
      match d.shadeNamed (i.w 0) with
      | none => .done stBadOperand d 0
      | some b =>
        match (List.range 4).find? fun n => (d.shade n).st == .free with
        | none => .done stShadeBusy (d.bump Reg.glbShadeBusy) 0
        | some n => .done stDone (d.openShade i.a b n) 0)

/-- R146 cases 1 to 3: the OPEN index a commit acts on, or the status. -/
def Dev.commitCheck3 (num t : Nat) (d : Dev) : Nat ⊕ Nat :=
  if 2 ^ 32 < t - d.turn then .inr stBadOperand
  else
    match d.shadeNamed num with
    | none => .inr stBadOperand
    | some n =>
      if (d.shade n).st ≠ .opened then .inr stBadOperand
      else if !d.greater num (fun s => s.st == .current || s.st == .pending)
          || d.live.any (fun k => (d.shade k).st == .pending && t ≤ (d.shade k).turn) then .inr stBadOperand
      else .inl n

/-- The index TCOMMIT acts on, or the status it completes with: R146 cases 1 to 4, with a lead in turns. -/
def Dev.commitCheck (num t lead : Nat) (d : Dev) : Nat ⊕ Nat :=
  match d.commitCheck3 num t with
  | .inl n => if t < d.turn + max 2 lead then .inr stTimeout else .inl n
  | .inr st => .inr st

/-- The commit of index n is scheduled for turn t (R146). -/
def Dev.pend (n t : Nat) (fabric : Bool) : Dev → Dev := Dev.onShade n fun s => { s with st := .pending, turn := t, fabric }

/-- TCOMMIT's operands: field 0, a turn, and FABRIC in bit 63. -/
def tcommitOk (i : Ins) : Bool := i.field == 0 && i.len == 2 && bits (i.w 0) 54 9 == 0

/-- TCOMMIT without FABRIC (R146, R184). -/
def execTcommit (p : Nat) (s : State) : Host.Outcome State Fault Refusal :=
  s.run true (Dev.runIns p (fun i => i.op == 0x09 && !bit (i.w 0) 63) fun _ i d =>
    if !tcommitOk i then .done stBadOperand d 0
    else
      match d.commitCheck i.a (bits (i.w 0) 0 54) 0 with
      | .inr st => .done st d 0
      | .inl n => .done stDone (d.pend n (bits (i.w 0) 0 54) false) 0)

/-- A GLOBAL message's body (Table 11.9). -/
def globalBody (op target seq turn arg : Nat) : List Byte :=
  le 1 op ++ le 3 target ++ le 4 seq ++ le 8 turn ++ le 8 arg ++ le 20 0

/-- The pairs of the last 256 GLOBAL messages (R364). -/
def Braid.saw (src seq : Nat) (b : Braid) : Braid := { b with seen := (b.seen ++ [(src, seq)]).drop (b.seen.length - 255) }

/-- Flood a GLOBAL message of this node on every UP link; a repeat that comes back is discarded (R364). -/
def Dev.flood (op target turn arg : Nat) (d : Dev) : Dev :=
  let seq := (d.brd.seq + 1) % 2 ^ 32
  let d := d.onBrd fun b => ({ b with seq } : Braid).saw b.node seq
  d.upLinks.foldl (fun d p => d.control p 7 0xFFFFFF 0 (globalBody op target seq turn arg)) d

/-- TCOMMIT with FABRIC (R146, R365): the commit is scheduled and COMMIT flooded to the whole braid. -/
def execTcommitFabric (p : Nat) (s : State) : Host.Outcome State Fault Refusal :=
  s.run true (Dev.runIns p (fun i => i.op == 0x09 && bit (i.w 0) 63) fun _ i d =>
    if !tcommitOk i then .done stBadOperand d 0
    else
      let t := bits (i.w 0) 0 54
      match d.commitCheck i.a t d.lead with
      | .inr st => .done st d 0
      | .inl n => .done stDone ((d.pend n t true).flood 1 0xFFFFFE t i.a) 0)

/-- The last packet of a retiring shade has its fate: the index is FREE and a RETIRED record written (R147, R186). -/
def Dev.retired (n asked : Nat) (d : Dev) : Dev :=
  let num := (d.shade n).num
  (d.freeShade n).logEvent 0x82 asked num

/-- SHADERETIRE (R147, R185). -/
def execShaderetire (p : Nat) (s : State) : Host.Outcome State Fault Refusal :=
  s.run true (Dev.runIns p (fun i => i.op == 0x0A) fun _ i d =>
    if i.field != 0 || i.len != 2 || i.w 0 = 0 || 2 ^ 32 ≤ i.w 0 then .done stBadOperand d 0
    else
      match d.shadeNamed i.a with
      | none => .done stBadOperand d 0
      | some n =>
        match (d.shade n).st with
        | .opened => .done stDone (d.freeShade n) 0
        | .draining =>
          let r := (d.shade n).resident
          if r = 0 then .done stDone (d.retired n 0) 0
          else .wait (d.onShade n fun s => { s with st := .retiring }) (.retire n r) (some (d.turn + i.w 0))
        | _ => .done stBadOperand d 0)

/-- SHADERETIRE_DRAIN_DONE (R147, R186): the awaited resident count is zero. -/
def execShaderetireDrainDone (p : Nat) (s : State) : Host.Outcome State Fault Refusal :=
  s.run true fun d =>
    match d.waitOf p with
    | some (.retire n asked, _) => d.when ((d.shade n).resident == 0) fun d => (d.retired n asked).endWait p stDone
    | _ => d

/-! ## Rates and groups (R169, R262, R272, R274) -/

/-- QSET (R262); a number inside another port, or of no configured port, ends DONE like any other (R15; DEDUCED, log 72). -/
def execQset (p : Nat) (s : State) : Host.Outcome State Fault Refusal :=
  s.run true (Dev.runIns p (fun i => i.op == 0x11) fun _ i d =>
    let quantum := bits (i.w 0) 0 16
    let sh := bits (i.w 0) 16 20
    if 8 ≤ i.field || i.len != 2 || d.lanes ≤ i.a || quantum = 0 || 2 ^ 36 ≤ i.w 0 || (4096 ≤ sh && sh != 0xFFFFF)
        || d.path.queues.any (fun e => e.2.shaper == some sh && e.1 / 8 != i.a) then .done stBadOperand d 0
    else .done stDone (d.onPath fun y => { y with queues := Map.modify y.queues (8 * i.a + i.field) {} fun q =>
      { q with quantum, shaper := if sh = 0xFFFFF then none else some sh } }) 0)

/-- SHAPE (Table 8.1, R272): rate, burst and FILL of a shaper in the target shade. -/
def execShape (p : Nat) (s : State) : Host.Outcome State Fault Refusal :=
  s.run true (Dev.runIns p (fun i => i.op == 0x12) fun x i d =>
    d.shaded (i.field < 2 && i.len == 3 && i.a < 4096 && i.w 0 ≤ 1600000000000 && i.w 1 < 2 ^ 32) x fun n =>
      Dev.onShade n fun s => { s with
        shapers := Map.put s.shapers i.a (i.w 0, i.w 1), shFill := Map.put s.shFill i.a (bit i.field 0) })

/-- POLSET (Table 8.1, R274): mode, rates, bursts and FILL of a policer in the target shade. -/
def execPolset (p : Nat) (s : State) : Host.Outcome State Fault Refusal :=
  s.run true (Dev.runIns p (fun i => i.op == 0x13) fun x i d =>
    let c : PolCfg := { rfc4115 := bit i.field 1, aware := bit i.field 2, cir := i.w 0, pir := i.w 1
                        cbs := bits (i.w 2) 0 32, pbs := bits (i.w 2) 32 32 }
    d.shaded (i.field < 8 && i.len == 4 && i.a < 262144 && i.w 0 ≤ 51200000000000 && i.w 1 ≤ 51200000000000 && (c.rfc4115 || c.cir ≤ c.pir)) x
      fun n => Dev.onShade n fun s => { s with
        policers := Map.put s.policers i.a c, polFill := Map.put s.polFill i.a (bit i.field 0) })

/-- The 256-bit map four words spell, P0 in bit 0 of the first. -/
def portMap (i : Ins) (k : Nat) : Nat := i.w k + i.w (k + 1) * 2 ^ 64 + i.w (k + 2) * 2 ^ 128 + i.w (k + 3) * 2 ^ 192

/-- MCSET (R169): a multicast group's port map in the target shade; on the QN9224-F a port beyond its range is BAD_OPERAND (R5). -/
def execMcset (p : Nat) (s : State) : Host.Outcome State Fault Refusal :=
  s.run true (Dev.runIns p (fun i => i.op == 0x14) fun x i d =>
    d.shaded (i.field == 0 && i.len == 5 && i.a < 65536 && portMap i 0 < 2 ^ d.lanes) x fun n =>
      Dev.onShade n fun s => { s with groups := Map.put s.groups i.a (portMap i 0) })

/-! ## PROGLOAD (R81, R82, R103, R105, R107, R311) -/

/-- The sets other live shades hold for a lay, each load once: a shade opened from a base shares its set, another PROGLOAD does not (R81, R145). -/
def Dev.otherSets (n lay : Nat) (d : Dev) : List ProgSet :=
  let m := (d.live.filter (· != n)).foldl (fun (m : Map ProgSet) k =>
    match Map.find (d.shade k).sets lay with
    | some s => Map.put m (Map.getD (d.shade k).loads lay 0) s
    | none => m) []
  m.map (·.2)

/-- An image fits beside the sets of the other live shades of a lay: 16,384 bundles, 24 KiB of strand data, 256 KiB of automata; the set it replaces counts as free unless another shade uses it (R81). -/
def Dev.fits (n lay : Nat) (set : ProgSet) (d : Dev) : Bool :=
  let o := d.otherSets n lay
  set.code.length + (o.map (·.code.length)).sum ≤ 16384 && set.data.length ≤ 24576
    && set.autBytes + (o.map (·.autBytes)).sum ≤ 262144

/-- The envelopes of an image are within R102 and R116. -/
def envelopesOk (s : ProgSet) : Bool :=
  s.ingress.all (·.e ≤ 4095) && s.egress.all (·.e ≤ 4095) && s.vector.all (·.e ≤ 64)

/-- Some bundle of a program holds an operation of these major opcodes (R103). -/
def setUses (s : ProgSet) (ops : List Nat) (e : Option Entry) : Bool :=
  e.any fun e => ((s.code.drop e.pc).take e.len).any fun b => (List.range 4).any fun n => ops.contains (wordMajor (slotWord b n)).toNat

/-- A blocking or unbounded operation, AUTWAITU, CLWAIT, LNPUTW or LNGETW, in a program that must be certified (R102, R103, R116). -/
def setBlocks (s : ProgSet) : Bool := [s.ingress, s.egress, s.vector].any (setUses s [0x30, 0x33, 0x36, 0x37])

/-- The image uses the slow terminal (R107). -/
def setSlows (s : ProgSet) : Bool := [s.ingress, s.egress, s.slowPath].any (setUses s [0x3B])

/-- The set of these lays is loaded into index n of the shades (R81, R88, R105). -/
def Dev.loadSet (n : Nat) (lays : List Nat) (set : ProgSet) (d : Dev) : Dev :=
  let id := d.lay.loads + 1
  let d : Dev := { d with lay := { d.lay with loads := id } }
  (d.onShade n fun s => { s with
    sets := lays.foldl (fun m l => Map.put m l set) s.sets
    loads := lays.foldl (fun m l => Map.put m l id) s.loads }).recompute

/-- PROGLOAD (R81, R103): the image replaces the whole program set of the named lays in the target shade. -/
def execProgload (p : Nat) (img : Image) (s : State) : Host.Outcome State Fault Refusal :=
  s.run true (Dev.runIns p (fun i => i.op == 0x18) fun x i d =>
    let lays := bitList i.a 32
    let extra := ceilDiv (bits (i.w 1) 0 32) 16
    let set := { img.set with x := i.field, strands := bits (i.w 1) 48 16 }
    if 4 < i.field || i.a = 0 || i.len != 3 || bits (i.w 1) 32 16 != 0 || (d.variant24 && 2 ^ 16 ≤ i.a) then
      .done stBadOperand d extra
    else
      match d.target x with
      | .inr st => .done st d extra
      | .inl n =>
        if !img.digestOk || ((bit d.she.policy 0 || img.header) && !img.signedOk) then .done stAuthFail d extra
        else if setBlocks img.set || !envelopesOk img.set || (setSlows img.set && i.field = 0) then .done stBadOperand d extra
        else if !(lays.all fun l => d.fits n l set) then .done stFull d extra
        else
          let load (d : Dev) : SpRes := .done stDone (d.loadSet n lays set) extra
          if img.set.autBytes = 0 then load d
          else d.withTokens x (lays.map fun l => (Token.aut l, true)) load)

/-! ## SNAP (R148, R366) -/

/-- SNAP's operands: a mask of the 19 blocks of Table 23.2 and a turn not too far ahead (R142). -/
def Dev.snapOk (i : Ins) (d : Dev) : Bool := i.field < 2 && i.len == 2 && i.a < 2 ^ 19 && i.w 0 < 2 ^ 54 && i.w 0 - d.turn ≤ 2 ^ 32

/-- SNAP without FABRIC (R148). -/
def execSnap (p : Nat) (s : State) : Host.Outcome State Fault Refusal :=
  s.run true (Dev.runIns p (fun i => i.op == 0x20 && !bit i.field 0) fun _ i d =>
    if !d.snapOk i then .done stBadOperand d 0
    else if i.w 0 ≤ d.turn then .done stTimeout d 0
    else if 4 ≤ d.spl.snaps.length then .done stFull d 0
    else .done stDone (d.onSpl fun s => { s with snaps := s.snaps ++ [⟨i.w 0, i.a, false⟩] }) 0)

/-- SNAP with FABRIC (R366): the lead of R363, and SNAP flooded to the whole braid. -/
def execSnapFabric (p : Nat) (s : State) : Host.Outcome State Fault Refusal :=
  s.run true (Dev.runIns p (fun i => i.op == 0x20 && bit i.field 0) fun _ i d =>
    if !d.snapOk i then .done stBadOperand d 0
    else if i.w 0 < d.turn + d.lead || i.w 0 ≤ d.turn then .done stTimeout d 0
    else if 4 ≤ d.spl.snaps.length then .done stFull d 0
    else .done stDone ((d.onSpl fun s => { s with snaps := s.snaps ++ [⟨i.w 0, i.a, true⟩] }).flood 2 0xFFFFFE (i.w 0) i.a) 0)

/-! ## Repair records (R224) -/

/-- TABLE_LINE_RELOAD_DONE (R224): the line matches again, a SCRUB_FIX record is written, TBL_FIX_LAST holds its digest. -/
def execTableLineReloadDone (table line : Nat) (s : State) : Host.Outcome State Fault Refusal :=
  s.run (table < 4) fun d =>
    d.with' (d.tbl.reload.find? fun e => e.1 == table && e.2.1 == line) fun e d =>
      let d := d.reloadDone table line e.2.2
      d.logEvent 0x83 d.tbl.fixLast.toNat 0

end Sys2Proof.Machine
end

