-- ==== Sys2Proof/Machine/Source.lean ====
section
/-! DEFINITION. The sources of the reel: which are present, which is selected, and its loss (R52 to R58, R65, R66). -/
namespace Sys2Proof.Machine

/-- Change the reel. -/
def Dev.onReel (f : Reel → Reel) (d : Dev) : Dev := { d with reel := f d.reel }

/-- A candidate entry. -/
def Dev.cand (d : Dev) (e : Nat) : Cand := Map.getD d.reel.cands e {}

/-- Change a candidate entry. -/
def Dev.onCand (e : Nat) (f : Cand → Cand) : Dev → Dev := Dev.onReel fun r =>
  match Map.find r.cands e with
  | some c => { r with cands := Map.put r.cands e (f c) }
  | none => r

/-- A candidate is present: SyncE while its port is up, TREF10M_IN while it is not lost, the system reference always, a time source since a message or an edge of it (R54, R56, R609). -/
def Dev.candPresent (c : Cand) (d : Dev) : Bool :=
  match c.kind with
  | 4 => (d.port c.port).enable && (d.port c.port).link
  | 5 => !d.reel.trefLost
  | 6 => true
  | _ => c.present

/-! ## Selection (R52, R54) -/

/-- What a dataset and a candidate are compared on, in order (R54). -/
def rank (c : Cand) (s : Dataset) (e : Nat) : List Nat :=
  [c.prio1, s.clockClass, s.accuracy, s.variance, c.prio2, s.identity, s.steps, c.selPrio, e]

/-- Smaller in the order of comparison. -/
def rankLt : List Nat → List Nat → Bool
  | a :: t, b :: u => a < b || (a == b && rankLt t u)
  | _, _ => false

/-- The best of ranked entries. -/
def bestOf (xs : List (List Nat × Nat)) : Option Nat :=
  (xs.foldl (fun (a : Option (List Nat × Nat)) x =>
    match a with
    | none => some x
    | some y => if rankLt x.1 y.1 then some x else some y) none).map (·.2)

/-- The best PTP candidate: enabled, present, its dataset received. -/
def Dev.bestPtp (d : Dev) : Option Nat :=
  bestOf (d.reel.cands.filterMap fun e =>
    if (e.2.kind = 1 ∨ e.2.kind = 2) ∧ e.2.present then e.2.dataset.map fun s => (rank e.2 s e.1, e.1) else none)

/-- The dataset a candidate is compared on: PPS_IN, once time of day is known from PTP, takes that of the PTP source that gives it (R52, R54). -/
def Dev.datasetOf (c : Cand) (d : Dev) : Option Dataset :=
  if c.kind = 3 then (if d.reel.tod.isSome then d.bestPtp.bind fun e => (d.cand e).dataset else none) else c.dataset

/-- The best eligible time source (R54). -/
def Dev.bestTime (d : Dev) : Option Nat :=
  bestOf (d.reel.cands.filterMap fun e =>
    if 1 ≤ e.2.kind ∧ e.2.kind ≤ 3 ∧ e.2.present then (d.datasetOf e.2).map fun s => (rank e.2 s e.1, e.1) else none)

/-- The best present frequency source: none for the system reference of no entry (R52, R54). -/
def Dev.bestFreq (d : Dev) : Option Nat :=
  bestOf (d.reel.cands.filterMap fun e =>
    if d.candPresent e.2 && (4 ≤ e.2.kind || d.reel.src == some e.1) && e.2.kind != 3 then some ([e.2.selPrio, e.1], e.1) else none)

/-! ## Hop distance and root (R55) -/

/-- The node is a time root: its reel is not FREE and its source, selected or lost into HOLDOVER, is no braid link (R55). -/
def Dev.isRoot (d : Dev) : Bool := d.reel.st != .free && !d.reel.follower

/-- Hops from the time root: 0 at the root and while the reel is FREE, one more than the upstream's for a follower (R55). -/
def Dev.hopDist (d : Dev) : Nat := if d.reel.st = .free ∨ !d.reel.follower then 0 else d.reel.hops

/-- The upstream, or a node toward the root, is in HOLDOVER (R58, Table 2.8). -/
def Dev.upHoldover (d : Dev) : Bool :=
  match d.reel.src with
  | some e => (d.cand e).kind == 2 && (d.cand e).upHold
  | none => false

/-- What the device knows of its source from the selected entry: its kind, hop distance and dataset (R54, R55). -/
def Dev.learnSource (d : Dev) : Dev :=
  match d.reel.src with
  | none => d
  | some e =>
    let c := d.cand e
    let set := d.datasetOf c
    d.onReel fun r => { r with
      follower := c.kind == 2, hops := if c.kind = 2 then min (c.hops + 1) 255 else 0, rootSet := set.or r.rootSet }

/-! ## The reference in holdover (R65, R66) -/

/-- Floor and ageing of the reference in use (Table 2.6, R66), in 0.001 ppb and 10^-7 ppb/s. -/
def Dev.refParams (d : Dev) : Nat × Nat :=
  match d.reel.freq with
  | some e => ((d.cand e).floorU, (d.cand e).ageA)
  | none => (10000, 1000)

/-- The measured uncertainty of the frequency memory in 0.001 ppb: the largest difference of a whole second's mean from the mean, 4,600 ppb or the floor without two whole seconds (R65). -/
def Dev.measuredU (d : Dev) : Nat :=
  let xs := d.reel.secMeans
  let n := xs.length
  if n < 2 then
    match d.reel.freq with
    | some e => if (d.cand e).kind = 6 then 4600000 else (d.cand e).floorU
    | none => 4600000
  else (xs.map fun x => (x * n - xs.sum).natAbs * 1000 / (nsUnits * n)).foldl max 0

/-- u and a are those of the reference in use (R65). -/
def Dev.takeParams (d : Dev) : Dev :=
  let p := d.refParams
  let u := max d.measuredU p.1
  d.onReel fun r => { r with uMilli := u, holdA := p.2 }

/-- Take the frequency from the best present source; in HOLDOVER u and a follow the reference (R52, R54, R65, log 15). -/
def Dev.pickFreq (d : Dev) : Dev :=
  let e := d.bestFreq
  let d := d.onReel fun r => { r with freq := e }
  if d.reel.st = .holdover then d.takeParams else d

/-! ## Taking and losing a source (R54, R56) -/

/-- Discard the held samples of a run (R60). -/
def Dev.dropHeld (d : Dev) : Dev := (d.add Reg.reelSampleReject d.reel.held.length).onReel fun r => { r with held := [] }

/-- Take the time from the best eligible source: from FREE or HOLDOVER the reel is ACQUIRING; a change of source keeps its state (R54, R56, Table 2.3). -/
def Dev.select (d : Dev) : Dev :=
  if d.reel.loss then d
  else
    match d.bestTime with
    | none => d
    | some e =>
      if d.reel.src = some e then d.learnSource
      else
        let d := d.dropHeld
        (d.onReel fun r => { r with
          src := some e, unapplied := 0
          st := if r.st = .free ∨ r.st = .holdover then .acquiring else r.st
          good := if r.st = .free ∨ r.st = .holdover then 0 else r.good
          holdNs := 0 }).learnSource.pickFreq

/-- A source is lost (R56): if it is the selected one, HOLDOVER follows at the next boundary. -/
def Dev.loseSource (e : Nat) (d : Dev) : Dev :=
  let d := d.onCand e fun c => { c with present := false }
  if d.reel.src = some e ∧ !d.reel.loss ∧ (d.reel.st = .acquiring ∨ d.reel.st = .locked) then
    d.onReel fun r => { r with loss := true, lossTurn := d.turn }
  else d.pickFreq

/-- A port's link has gone: the time source on it is lost, and a SyncE source on it is no longer present (R54, R56). -/
def Dev.portSources (p : Nat) (d : Dev) : Dev :=
  ((Map.keysWhere d.reel.cands fun _ c => (c.kind == 1 || c.kind == 2) && c.port == p && c.present).foldl
    (fun d e => d.loseSource e) d).pickFreq

/-! ## Time messages (R49, R58, R70) -/

/-- Reel time in sixteenths of a nanosecond at which a message now leaving a port's transmit side crosses the lands (R70): the fixed L_tx is removed. -/
def Dev.stampTx (p : Nat) (d : Dev) : Nat :=
  let c := d.port p
  d.reel.after ((portConst c.lanes c.rate c.fec).getD (0, 0)).2 / 1500

/-- A PTP timestamp (Table 2.1): 48-bit seconds and 32-bit ns of TAI, reel time less the era offset. -/
def ptpStamp (ns off : Nat) : Nat × Nat := ((ns - off) / 10 ^ 9 % 2 ^ 48, (ns - off) % 10 ^ 9)

/-- The numbers of a dataset, as a TIME message carries them; none received, none carried. -/
def datasetNums (s : Option Dataset) : List Nat :=
  match s with
  | some s => [s.clockClass, s.accuracy, s.variance, s.identity, s.steps]
  | none => []

/-- What a TIME message of a link carries (Table 11.3, R54, R58, R70): reel time at the lands, era, era offset, hop distance, holdover of this node or of one toward the root, the delay-exchange timestamps, and the root's dataset. -/
def Dev.timeNums (p : Nat) (l : Link) (d : Dev) : List Nat :=
  [d.stampTx p, d.reel.era, d.reel.eraOffset, d.hopDist, ofBit (d.reel.st == .holdover || d.upHoldover), l.peerTime, l.rxTime]
    ++ datasetNums d.reel.rootSet

end Sys2Proof.Machine
end

