-- ==== Sys2Proof/Machine/Braid.lean ====
section
/-! DEFINITION. The braid: fences, JOIN and LEAVE, transit, links, leases, global operations (R149, R337 to R369). -/
namespace Sys2Proof.Machine

/-! ## Fences (R149, R642) -/

/-- Packets resident in a fence's target: the copies a port or link owes, or the transit frames at this node (R149, R359). -/
def Dev.residentOf (kind target : Nat) (d : Dev) : Nat :=
  if kind = 2 then (d.path.pkts.filter fun e => e.2.transit.isSome && !e.2.final).length else (d.copiesOf target).length

/-- The target of a FENCE is one the device has: a configured port, a braid link; node transit names none (DEDUCED, log 20). -/
def Dev.fenceTarget (kind a : Nat) (d : Dev) : Bool :=
  match kind with
  | 0 => (Map.find d.path.ports a).isSome
  | 1 => (d.port a).braid
  | _ => true

/-- The target as fences are kept: node transit has one. -/
def fenceKey (kind a : Nat) : Nat × Nat := if kind = 2 then (2, 0) else (kind, a)

/-- FENCE of kinds 0 to 2 (R149, R642). -/
def execFence (p : Nat) (s : State) : Host.Outcome State Fault Refusal :=
  s.run true (Dev.runIns p (fun i => i.op == 0x28 && !bit i.field 2 && i.field % 4 != 3) fun _ i d =>
    if 4 ≤ i.field || i.len != 2 || i.w 0 = 0 || 2 ^ 32 ≤ i.w 0 || !d.fenceTarget i.field i.a then .done stBadOperand d 0
    else
      let k := fenceKey i.field i.a
      if d.spl.fences.contains k then .done stFenced d 0
      else
        let d := d.onSpl fun s => { s with fences := s.fences ++ [k] }
        if d.residentOf k.1 k.2 = 0 then .done stDone d 0 else .wait d (.fence k.1 k.2) (some (d.turn + i.w 0)))

/-- Every wait that passes a test ends with a status. -/
def Dev.endWaits (t : SpWait → Bool) (st : Nat) (d : Dev) : Dev :=
  (d.spl.progs.filter fun x => match x.phase with | .waiting w _ => t w | _ => false).foldl (fun d x => d.endWait x.seq st) d

/-- FENCE with CLEAR (R149, R359): the fence is lifted at once; a FENCE or LEAVE SELF that waits on it ends FENCED. -/
def execFenceClear (p : Nat) (s : State) : Host.Outcome State Fault Refusal :=
  s.run true (Dev.runIns p (fun i => i.op == 0x28 && bit i.field 2) fun _ i d =>
    let kind := i.field % 4
    if 8 ≤ i.field || kind = 3 || i.len != 2 || 2 ^ 32 ≤ i.w 0 || !d.fenceTarget kind i.a then .done stBadOperand d 0
    else
      let k := fenceKey kind i.a
      let d := d.onSpl fun s => { s with fences := s.fences.filter (· != k) }
      .done stDone (d.endWaits (fun w => w == .fence k.1 k.2 || (kind == 2 && w == .leaveSelf)) stFenced) 0)

/-- FENCE_DRAIN_DONE (R149). -/
def execFenceDrainDone (p : Nat) (s : State) : Host.Outcome State Fault Refusal :=
  s.run true fun d =>
    match d.waitOf p with
    | some (.fence k t, _) => d.when (d.residentOf k t == 0) (Dev.endWait p stDone)
    | _ => d

/-- What a wait with a turn timeout waits for holds (R642): no packet is resident, or the queue pair is IDLE. -/
def Dev.awaited (w : SpWait) (d : Dev) : Bool :=
  match w with
  | .retire n _ => (d.shade n).resident == 0
  | .fence k t => d.residentOf k t == 0
  | .leaveSelf => d.residentOf 2 0 == 0
  | .quiesce q => (d.qp q).st == .idle
  | _ => false

/-- A wait's turn timeout expires (R642): unless what it waits for holds, TIMEOUT, with what the instruction's own rule gives: a retiring shade returns to DRAINING (R147), a fence stays (R149), a queue pair stays QUIESCING (R442). -/
def execSpliceTimeoutExpiry (p : Nat) (s : State) : Host.Outcome State Fault Refusal :=
  s.run true fun d =>
    match d.waitOf p with
    | some (w, some e) =>
      d.when (d.reached e && !d.awaited w) fun d =>
        let d := d.toHclk
        let d := match w with
          | .retire n _ => d.onShade n fun s => { s with st := .draining }
          | _ => d
        d.endWait p stTimeout
    | _ => d

/-- This node lies in a target (R364). -/
def Dev.inTarget (target : Nat) (d : Dev) : Bool :=
  target == 0xFFFFFE || (target == d.brd.node && d.brd.node != 0) || (d.member d.current target).isSome

/-- A reset of a target is pending (R368). -/
def Dev.resetPending (target : Nat) (d : Dev) : Bool :=
  d.brd.resets.any fun e => e.1 == target && (d.turn < e.2 || d.inTarget target)

/-- A RESET is known at this node. -/
def Dev.addReset (target t : Nat) : Dev → Dev := Dev.onBrd fun b => { b with resets := b.resets ++ [(target, t)] }

/-- FENCE kind 3 (R368): TIMEOUT below the lead, FENCED when one is pending, otherwise RESET is flooded. -/
def execFenceReset (p : Nat) (s : State) : Host.Outcome State Fault Refusal :=
  s.run true (Dev.runIns p (fun i => i.op == 0x28 && !bit i.field 2 && i.field % 4 == 3) fun _ i d =>
    if i.field != 3 || i.len != 2 || 2 ^ 24 ≤ i.a || 2 ^ 32 ≤ i.w 0 then .done stBadOperand d 0
    else if i.w 0 < d.lead then .done stTimeout d 0
    else if d.resetPending i.a then .done stFenced d 0
    else .done stDone ((d.addReset i.a (d.turn + i.w 0)).flood 3 i.a (d.turn + i.w 0) 0) 0)

/-! ## JOIN and LEAVE (R350 to R352, R358, R359) -/

/-- A node identifier (Table 11.1). -/
def isNode (id : Nat) : Bool := 1 ≤ id && id ≤ 0xFFFF

/-- A knot identifier (Table 11.1). -/
def isKnot (id : Nat) : Bool := 0x10000 ≤ id && id ≤ 0xEFFFFF

/-- A shaded braid instruction: its operands, then its target, then its effect. -/
def Dev.inShade (ok : Bool) (x : Prog) (f : Nat → Dev → SpRes) (d : Dev) : SpRes :=
  if !ok then .done stBadOperand d 0
  else
    match d.target x with
    | .inr st => .done st d 0
    | .inl n => f n d

/-- JOIN SELF (R351, R358, R363), and a JOIN of a reserved role: the identifier, H and h take effect at the shade's commit. -/
def execJoinSelf (p : Nat) (s : State) : Host.Outcome State Fault Refusal :=
  s.run true (Dev.runIns p (fun i => i.op == 0x2B && !(1 ≤ i.field && i.field ≤ 3)) fun x i d =>
    let w := i.w 0
    d.inShade (i.field == 0 && i.len == 2 && isNode i.a && bits w 6 10 == 0 && bits w 32 32 == 0) x fun n d =>
      .done stDone (d.onShade n fun s => { s with joinSelf := some (i.a, bits w 0 6, bits w 16 16), dropSelf := false }) 0)

/-- The next hops a JOIN names. -/
def hopsOf (i : Ins) : List Nat := (List.range (i.w 0 % 8 + 1)).map fun k => bits (i.w 1) (8 * k) 8

/-- The operands of a JOIN of roles 1 and 2 (Table 11.6): G from 1 to 15, unused bytes 0, every port an enabled braid link. -/
def Dev.joinOk (i : Ins) (d : Dev) : Bool :=
  i.w 0 < 256 && 1 ≤ bits (i.w 0) 4 4 && i.w 1 < 256 ^ (i.w 0 % 8 + 1)
    && (hopsOf i).all fun p => (d.port p).braid && (d.port p).enable

/-- A shade's membership leaves the entries of an identifier. -/
def leaveRoutes (n id : Nat) (rs : List Route) : List Route :=
  (rs.map fun r => if r.id = id then { r with mask := setBits r.mask n 1 0 } else r).filter (·.mask != 0)

/-- A shade's membership leaves the member entry of a knot. -/
def leaveMembers (n id : Nat) (ms : List Member) : List Member :=
  (ms.map fun r => if r.id = id then { r with mask := setBits r.mask n 1 0 } else r).filter (·.mask != 0)

/-- The route entry a JOIN writes in index n. -/
def routeOf (i : Ins) (n face : Nat) : Route :=
  { id := i.a, mask := 2 ^ n, hops := hopsOf i, adaptive := bit (i.w 0) 3, gap := bits (i.w 0) 4 4, face }

/-- A next hop is fenced (R351). -/
def Dev.hopFenced (i : Ins) (d : Dev) : Bool := (hopsOf i).any fun p => d.fenced 1 p

/-- JOIN NODE (R350 to R352). -/
def execJoinNode (p : Nat) (s : State) : Host.Outcome State Fault Refusal :=
  s.run true (Dev.runIns p (fun i => i.op == 0x2B && i.field == 1) fun x i d =>
    d.inShade (i.len == 3 && isNode i.a && d.joinOk i) x fun n d =>
      if d.hopFenced i then .done stFenced d 0
      else
        let rs := leaveRoutes n i.a d.brd.nodes
        if 65536 ≤ rs.length then .done stBadOperand d 0
        else .done stDone (d.onBrd fun b => { b with nodes := rs ++ [routeOf i n 0] }) 0)

/-- JOIN KNOT (R350 to R352). -/
def execJoinKnot (p : Nat) (s : State) : Host.Outcome State Fault Refusal :=
  s.run true (Dev.runIns p (fun i => i.op == 0x2B && i.field == 2) fun x i d =>
    let face := i.w 2
    d.inShade (i.len == 4 && isKnot i.a && (isNode face || isKnot face) && d.joinOk i) x fun n d =>
      if d.hopFenced i then .done stFenced d 0
      else
        let rs := leaveRoutes n i.a d.brd.knots
        if 16384 ≤ rs.length + d.brd.members.length then .done stBadOperand d 0
        else .done stDone (d.onBrd fun b => { b with knots := rs ++ [routeOf i n face] }) 0)

/-- JOIN MEMBER (R350, R351): the knot needs a KNOT entry in the same shade. -/
def execJoinMember (p : Nat) (s : State) : Host.Outcome State Fault Refusal :=
  s.run true (Dev.runIns p (fun i => i.op == 0x2B && i.field == 3) fun x i d =>
    let w := i.w 0
    d.inShade (i.len == 2 && isKnot i.a && w < 8 && (bit w 0 || !bit w 2)) x fun n d =>
      let ms := leaveMembers n i.a d.brd.members
      if (routeIn d.brd.knots n i.a).isNone || 16384 ≤ d.brd.knots.length + ms.length then .done stBadOperand d 0
      else .done stDone (d.onBrd fun b => { b with
        members := ms ++ [{ id := i.a, mask := 2 ^ n, face := bit w 0, gateway := bit w 1, lender := bit w 2 }] }) 0)

/-- LEAVE SELF (R359), and a LEAVE of a reserved role. -/
def execLeaveSelf (p : Nat) (s : State) : Host.Outcome State Fault Refusal :=
  s.run true (Dev.runIns p (fun i => i.op == 0x2C && !(1 ≤ i.field && i.field ≤ 3)) fun x i d =>
    d.inShade (i.field == 0 && i.len == 2 && i.a < 2 ^ 24 && i.w 0 != 0 && i.w 0 < 2 ^ 32) x fun n d =>
      if d.fenced 2 0 then .done stFenced d 0
      else
        let d := d.onSpl fun s => { s with fences := s.fences ++ [(2, 0)] }
        if d.residentOf 2 0 = 0 then .done stDone (d.onShade n fun s => { s with dropSelf := true, joinSelf := none }) 0
        else .wait d .leaveSelf (some (d.turn + i.w 0)))

/-- LEAVE_SELF_DRAIN_DONE (R359): no transit frame is left; the identifier is dropped at the commit of the program's shade. -/
def execLeaveSelfDrainDone (p : Nat) (s : State) : Host.Outcome State Fault Refusal :=
  s.run true fun d =>
    match d.waitOf p, d.prog p with
    | some (.leaveSelf, _), some x =>
      d.when (d.residentOf 2 0 == 0) fun d =>
        let d := match d.shadeNamed x.shade with
          | some n => d.onShade n fun s => { s with dropSelf := true, joinSelf := none }
          | none => d
        d.endWait p stDone
    | _, _ => d

/-- A LEAVE of a role that names an entry (R350, R351). -/
def Dev.leaveBraid (x : Prog) (i : Ins) (has : Nat → Bool) (f : Nat → Braid → Braid) (d : Dev) : SpRes :=
  d.inShade (i.len == 1 && i.a < 2 ^ 24) x fun n d =>
    if has n then .done stDone (d.onBrd (f n)) 0 else .done stBadOperand d 0

/-- LEAVE NODE (R350, R351). -/
def execLeaveNode (p : Nat) (s : State) : Host.Outcome State Fault Refusal :=
  s.run true (Dev.runIns p (fun i => i.op == 0x2C && i.field == 1) fun x i d =>
    d.leaveBraid x i (fun n => (routeIn d.brd.nodes n i.a).isSome) fun n b => { b with nodes := leaveRoutes n i.a b.nodes })

/-- LEAVE KNOT (R350, R351). -/
def execLeaveKnot (p : Nat) (s : State) : Host.Outcome State Fault Refusal :=
  s.run true (Dev.runIns p (fun i => i.op == 0x2C && i.field == 2) fun x i d =>
    d.leaveBraid x i (fun n => (routeIn d.brd.knots n i.a).isSome) fun n b => { b with knots := leaveRoutes n i.a b.knots })

/-- LEAVE MEMBER (R350, R351). -/
def execLeaveMember (p : Nat) (s : State) : Host.Outcome State Fault Refusal :=
  s.run true (Dev.runIns p (fun i => i.op == 0x2C && i.field == 3) fun x i d =>
    d.leaveBraid x i (fun n => (d.member n i.a).isSome) fun n b => { b with members := leaveMembers n i.a b.members })

/-! ## BARRIER_COMPLETE (R367) -/

/-- A braid link is lost or the reel leaves LOCKED: fabric barriers under way will complete TIMEOUT. -/
def Dev.spoilBarriers : Dev → Dev :=
  Dev.onSpl fun s => { s with progs := s.progs.map fun x =>
    match x.phase with
    | .waiting (.barrier t true _) e => { x with phase := .waiting (.barrier t true true) e }
    | _ => x }

/-- BARRIER_COMPLETE (R367): at its turn boundary. -/
def execBarrierComplete (p : Nat) (s : State) : Host.Outcome State Fault Refusal :=
  s.run true fun d =>
    match d.waitOf p with
    | some (.barrier t fabric bad, _) =>
      d.when (d.reached t) fun d => (d.toHclk).endWait p (if fabric && (bad || d.reel.st != .locked) then stTimeout else stDone)
    | _ => d

/-! ## DATA frames (R341 to R345) -/

/-- The fabric epoch of the CURRENT shade. -/
def Dev.epoch (d : Dev) : Nat := (d.shade d.current).epoch

/-- The committed shades, CURRENT, DRAINING or RETIRING, whose fabric epoch is e: the newest (R345, log 20). -/
def Dev.epochShade (e : Nat) (d : Dev) : Option Nat :=
  (d.live.filter fun n =>
      let s := d.shade n
      (s.st == .current || s.st == .draining || s.st == .retiring) && s.epoch == e).foldl
    (fun (a : Option Nat) n =>
      match a with
      | none => some n
      | some m => if serialGt (d.shade n).num (d.shade m).num then some n else some m) none

/-- A transit frame is linked toward its next hop (R344, R345, R354); without one it ends NO_ROUTE or EGRESS_DOWN. -/
def Dev.transitLink (k : Nat) (h : BraidHdr) (r : Resolved) (d : Dev) : Dev :=
  let go (p dest : Nat) (kin : Bool) (d : Dev) : Dev :=
    (d.onPkt k fun x => { x with transit := some { h with dest, knotIn := kin, ttl := h.ttl - 1 }, place := .linked }).linkAll1 k p dest
  let drop (f : Nat) (d : Dev) : Dev := ((d.onPkt k fun x => { x with place := .linked }).freeAll k).giveFate k f 0
  if h.ttl = 0 then drop fNoRoute (d.bump Reg.brdTtlDrop)
  else
    match r with
    | .onLink p dest kin => go p dest (kin || h.knotIn) d
    | .route r dest kin =>
      match d.nextHop r h.hash h.cls with
      | (some p, d) => go p dest (kin || h.knotIn) d
      | (none, d) => drop fEgressDown d
    | _ => drop fNoRoute d

/-- A DATA frame in transit (R344, R345): an ingress packet of its routing shade, charged to (link, CLASS), that runs no program. -/
def Dev.transitIn (port : Nat) (h : BraidHdr) (n : Nat) (r : Resolved) (bytes : List Byte) (rxLen : Nat) (fcsBad : Bool) (sec : Option SecTag) (d : Dev) : Dev :=
  let k := d.path.nextPkt
  let whole : Bool := rxLen ≤ 256
  let bytes := bytes.take 9416
  let d := d.newPkt {
    iport := port + 256, bytes, sas := d.sasOf port, whole, rxLen, refNs := d.ns, refPclk := d.pclk, rxBytes := bytes.length, due := d.pclk, lay := port / 8
    acct := ingAcct port (h.cls % 8), hdr := bytes.take 112, cls := h.cls % 8, shade := n, counted := true, hash := h.hash % 2 ^ 32
    transit := some h, place := .linked, m := [(1, BitVec.ofNat 64 (h.cls % 8)), (9, BitVec.ofNat 64 (h.hash % 2 ^ 32))] }
  let d := d.enterShade n
  let a := d.takeIn k (ceilDiv bytes.length 256) 1
  if !a.2 then a.1.fault k fHoldOverflow
  else if whole then
    let m := a.1.macsecOk port (d.sasOf port) sec bytes
    match rxFault rxLen fcsBad m.2 with
    | some e => m.1.fault k e
    | none => m.1.transitLink k h r
  else a.1.transitLink k h r

/-- A frame discarded at its header is an ingress packet with fate FCS_ERROR (R341). -/
def Dev.badHeader (port : Nat) (bytes : List Byte) (rxLen : Nat) (d : Dev) : Dev :=
  let k := d.path.nextPkt
  ((d.bump (Reg.brdLnkHdrErr port)).newPkt { iport := port + 256, bytes := [], whole := true, rxLen, refNs := d.ns, refPclk := d.pclk
                                             lay := port / 8, acct := arrAcct port, hdr := bytes.take 112 }).fault k fFcs

/-- The counts of a received DATA frame: RX_FRAMES, and the marker interval of R366. -/
def Dev.countRx (port rxLen : Nat) (d : Dev) : Dev :=
  (d.onLink port fun l => { l with
    rxUp := (l.rxUp + 1) % 2 ^ 64
    markFrames := if l.mark.isSome then l.markFrames + 1 else l.markFrames
    markCells := if l.mark.isSome then l.markCells + ceilDiv (min rxLen 9416) 256 else l.markCells }).bump (Reg.brdLnkRxFrames port)

/-- What a DATA frame with a good header comes to (R343 to R345, R349, R353). -/
def Dev.dataIn (port : Nat) (h : BraidHdr) (bytes : List Byte) (rxLen : Nat) (fcsBad : Bool) (sec : Option SecTag) (d : Dev) : Dev :=
  let d := d.onLink port fun l => { l with heard := true }
  let found := d.epochShade h.epoch
  let n := found.getD d.current
  let r : Resolved := if d.brd.node = 0 ∨ d.brd.prov then .none else d.resolve n h.orig 65 h.dest h.knotIn
  match r with
  | .deliver => d.arrive port bytes rxLen fcsBad sec
  | _ => (d.bumpIf found.isNone Reg.brdEpochMiss).transitIn port h n r bytes rxLen fcsBad sec

/-- BRAID_DATA_RECEIVE (R341, R343): only a link whose PCS is up receives. A frame of another kind (`hdr.kind` not 0) that reaches this command is one R341 discards: of a reserved kind, or a control message with a bad CRC or header. -/
def execBraidDataReceive (port : Nat) (hdr : BraidHdr) (hcrcOk : Bool) (bytes : List Byte) (whole : Bool) (rxLen : Nat) (fcsBad : Bool)
    (sec : Option SecTag) (s : State) : Host.Outcome State Fault Refusal :=
  s.run (port < 256) fun d =>
    d.when ((d.port port).braid && (d.link port).st != .down && !(d.link port).lost && port < d.lanes && whole == (rxLen ≤ 256)) fun d =>
      if hdr.kind != 0 then d.bump (Reg.brdLnkHdrErr port)
      else
      let d := d.countRx port rxLen
      if hcrcOk then d.dataIn port hdr bytes rxLen fcsBad sec else d.badHeader port bytes rxLen

/-! ## Link loss (R360 to R362, R252) -/

/-- The lease held on a link ends: its lender frees the slot, this node or another told by MGMT (R348). -/
def Dev.endLease (port : Nat) (d : Dev) : Dev :=
  match (d.link port).lease with
  | none => d
  | some p =>
    let d := d.onLink port fun l => { l with lease := none }
    if lender p = d.brd.node then d.onBrd fun b => { b with slots := Map.del b.slots ((p - 0xF00000) % 16) }
    else d.toNode d.current (lender p) 8 (padTo 44 (le 1 3 ++ le 3 d.brd.node ++ le 4 p))

/-- A copy is in transmit (R361): on the wire, or begun at transmit and waiting only for its reference point. -/
def Dev.inTransmit (d : Dev) (k c : Nat) (x : Copy) : Bool := x.pos == .sending || d.begun k c x

/-- The link of a port is lost at t_L (R360 to R362, R366, R367): frames being received are cut, copies in transmit take WIRE_LOSS. -/
def Dev.linkLoss (port : Nat) (d : Dev) : Dev :=
  let l := d.link port
  let mine := (d.copiesOf port).filter fun e => d.inTransmit e.1 e.2.1 e.2.2
  let sending := (mine.filter fun e => e.2.2.pos == .sending).length
  let d := d.onLink port fun l => { l with lost := true, mark := none, markBad := l.markBad || l.mark.isSome }
  let d := d.add (Reg.brdLnkWireLoss port) (l.txUp - sending - l.peerRx + mine.length)
  let d := mine.foldl (fun d e => d.endCopy e.1 e.2.1 fWireLoss 0) d
  let cut := (d.path.pkts.filter fun e => e.2.iport == port + 256 && !e.2.whole).map fun e => (e.1, e.2.rxBytes)
  let d := cut.foldl (fun d e => (d.bump (Reg.brdLnkRxCut port)).frameEnd e.1 [] e.2 true none |>.1) d
  ((d.endLease port).spoilBarriers).portSources port

/-- Activities on a port that goes down stop at once: no result, their tokens free, their CAL ends ABORTED (R379). -/
def Dev.stopCal (p : Nat) (d : Dev) : Dev :=
  let on (h : Hold) : Bool := (h.req.claims.any fun c => c.1 == Token.port p) || (h.req.code == 0x20 && h.req.res == p)
  let hs := d.cal.holds.filter on
  hs.foldl (fun d h => match h.req.who with | .prog q => d.endWait q stAborted | .device => d) (d.release' on)

/-- A port goes down (R56, R252, R253, R379). -/
def Dev.portGone (p : Nat) (d : Dev) : Dev := ((d.portDown p).stopCal p).portSources p

/-- Where a copy of a lost link may go instead: a usable next hop of its route (R361). -/
def Dev.reroute (p : Pkt) (x : Copy) (d : Dev) : Option Nat × Dev :=
  let r : Resolved := match p.transit with
    | some h => d.resolve p.shade h.orig 65 h.dest h.knotIn
    | none => if x.dest = 0 then .none else d.resolve p.shade x.dest 65 x.dest false
  match r with
  | .route r _ _ => d.nextHop r (Map.getD p.m 9 0).toNat x.cls
  | _ => (none, d)

/-- One copy of a lost link is relinked behind those of its new hop, its egress program to run afresh, or takes EGRESS_DOWN (R361). Its LINKED and QUEUED counts move with it, so that R288 holds (log 20). -/
def Dev.relinkCopy (k c : Nat) (x : Copy) (d : Dev) : Dev :=
  match d.pkt k with
  | none => d
  | some p =>
    let d := d.unqueue k c x
    match d.reroute p x with
    | (none, d) => d.endCopy k c fEgressDown 0
    | (some e, d) =>
      let d := (d.unline k c x.port).onCopy k c fun y => { y with
        port := e, pos := .queued, m := p.m, head := [], skip := 0, term := none, dead := false, hold := 0, due := 0 }
      let d := ((d.sub (Reg.logEgLinked x.port) 1).sub (Reg.logEgQueued x.port) 1).bump (Reg.logEgLinked e)
      ((d.bump (Reg.logEgQueued e)).bump Reg.brdReroute).onPath fun y => { y with
        queues := Map.modify y.queues (8 * e + x.cls) {} fun q => { q with copies := q.copies ++ [(k, c)] } }

/-- The copies of a port in their order: those of its egress line, as picked, then each queue's. -/
def Dev.copyOrder (port : Nat) (d : Dev) : List (Nat × Nat × Copy) :=
  let ids := ((Map.getD d.path.lines port []).map fun l => (l.pkt, l.copy)) ++ (List.range 8).flatMap fun c => (Map.getD d.path.queues (8 * port + c) {}).copies
  ids.filterMap fun e => (d.copy e.1 e.2).map fun x => (e.1, e.2, x)

/-- The handling of a lost link ends: its copies are relinked or ended, the link is down under R252, and a LINK_LOSS record names the peer (R361). Copies that an egress fibre still holds are discarded at their release. -/
def Dev.lossHandled (port : Nat) (d : Dev) : Dev :=
  let peer := (d.link port).peer
  let d := (d.copyOrder port).foldl
    (fun d e => match e.2.2.pos with | .egress _ => d | _ => d.relinkCopy e.1 e.2.1 e.2.2) d
  let d := d.onLink port fun l => { l with st := .down, lost := false, gotHello := false, gotCredit := false }
  let d := ((d.onPort port fun f => { f with link := false }).portGone port).removeResidue port
  d.logEvent 0x84 peer 0

/-- BRAID_LINK_LOSS (R360): the PCS goes down (`pcs`), or two turn boundaries have passed in silence; a changed peer is found by HELLO_RECEIVE. -/
def execBraidLinkLoss (port : Nat) (pcs : Bool) (s : State) : Host.Outcome State Fault Refusal :=
  s.run (port < 256) fun d =>
    d.when ((d.port port).braid && (d.link port).st != .down && !(d.link port).lost && (pcs || 2 ≤ (d.link port).silent)) (Dev.linkLoss port)

/-- LINK_LOSS_HANDLING_DONE (R361): once no egress fibre holds a copy of the lost link. -/
def execLinkLossHandlingDone (port : Nat) (s : State) : Host.Outcome State Fault Refusal :=
  s.run (port < 256) fun d =>
    d.when ((d.link port).lost && !((d.copiesOf port).any fun e => match e.2.2.pos with | .egress _ => true | _ => false))
      (Dev.lossHandled port)

/-! ## HELLO and leasing (R346 to R349) -/

/-- The memberships in force. -/
def Dev.memberships (d : Dev) : List Member := d.brd.members.filter fun m => bit m.mask d.current

/-- The face of a knot in the CURRENT shade. -/
def Dev.faceOf (d : Dev) (id : Nat) : Nat := ((routeIn d.brd.knots d.current id).map (·.face)).getD 0

/-- The innermost knot: a membership whose face is no knot of this node (log 20). -/
def Dev.innermost (d : Dev) : Option Member :=
  d.memberships.find? fun m => !(d.memberships.any fun o => o.id == d.faceOf m.id)

/-- The outermost knot: a membership that is the face of no knot of this node (log 20). -/
def Dev.outermost (d : Dev) : Option Member :=
  d.memberships.find? fun m => !(d.memberships.any fun o => d.faceOf o.id == m.id)

/-- The HELLO body of a link (Table 11.5). -/
def Dev.helloBody (p : Nat) (d : Dev) : List Byte :=
  let inn := d.innermost
  let mgr := d.hif.qps.any fun e => e.2.subscribes 4 0
  le 4 (d.brd.node % 2 ^ 24 + ofBit d.brd.prov * 2 ^ 24 + ofBit (d.fenced 2 0) * 2 ^ 25 + ofBit (d.brd.node == 0) * 2 ^ 26
      + ofBit mgr * 2 ^ 27)
    ++ le 4 ((inn.map (·.id)).getD 0 + ofBit ((inn.map (·.gateway)).getD false) * 2 ^ 24
      + ofBit ((inn.map (·.face)).getD false) * 2 ^ 25)
    ++ le 4 ((d.outermost.map (·.id)).getD 0) ++ le 2 d.memberships.length
    ++ le 2 (p % 256 + ofBit d.variant24 * 256 + ofBit d.chainNow.isSome * 512)
    ++ le 4 (d.shade d.current).num ++ le 1 (d.epoch % 4) ++ le 1 d.hopDist ++ le 2 0 ++ le 4 ((d.link p).lease.getD 0) ++ le 16 0

/-- One HELLO with its TIME message, if due on a link: at a turn multiple of 64, or after a change of a field (R346). The TIME body is given as numbers (log 7). -/
def Dev.helloOn (due : Bool) (p : Nat) (d : Dev) : Dev :=
  let body := d.helloBody p
  if (d.link p).st = .down ∨ (d.link p).lost then d
  else if !due ∧ (d.link p).hello = body then d
  else
    let d := (d.onLink p fun l => { l with hello := body }).control p 2 0xFFFFFF 0 body
    if due then d.sendGated .braidControl ([p, 3] ++ d.timeNums p (d.link p)) [] else d

/-- HELLO_SEND (R346). -/
def execHelloSend (s : State) : Host.Outcome State Fault Refusal :=
  s.run true fun d =>
    let due := d.brd.helloAt < d.reel.served / 64
    let d := (d.brd.links.map (·.1)).foldl (fun d p => d.helloOn due p) d
    d.onBrd fun b => { b with helloAt := d.reel.served / 64 }

/-- A lender takes a free slot for the node N (R348): the provisional identifier, and a lease notice to the fabric manager queue. -/
def Dev.takeSlot (n : Nat) (d : Dev) : Option Nat × Dev :=
  match (List.range 16).find? fun s => (Map.find d.brd.slots s).isNone with
  | some s =>
    if d.brd.node < 0xFFFF ∧ 0 < d.brd.node then
      let p := 0xF00000 + 16 * d.brd.node + s
      let d := (d.onBrd fun b => { b with slots := Map.put b.slots s n }).bump Reg.brdLeaseGrant
      let r := d.emit 4 0 (le 4 p ++ le 4 n)
      (some p, r.1.bumpIf r.2 Reg.brdMgmtDrop)
    else (none, d.bump Reg.brdLeaseFull)
  | none => (none, d.bump Reg.brdLeaseFull)

/-- A neighbour without an identifier asks for a lease (R348): from the face of the innermost knot when it lends, otherwise from this node. -/
def Dev.askLease (port : Nat) (faceLends : Bool) (d : Dev) : Dev :=
  let f := match d.innermost with
    | some m => if faceLends then d.faceOf m.id else d.brd.node
    | none => d.brd.node
  if f = d.brd.node then
    match d.takeSlot d.brd.node with
    | (some p, d) => d.onLink port fun l => { l with lease := some p, leaseTurn := d.turn }
    | (none, d) => d
  else (d.onLink port fun l => { l with asked := true }).toNode d.current f 8 (padTo 44 (le 1 1 ++ le 3 d.brd.node))

/-- A link that has both a HELLO and a CREDIT is UP (R347). -/
def Dev.tryUp (port : Nat) : Dev → Dev :=
  Dev.onLink port fun l => if l.gotHello && l.gotCredit && l.st == .hello then { l with st := .up } else l

/-- A HELLO names another peer than the recorded one: a loss, but for a leased peer that is confirmed (R347). -/
def Link.changed (l : Link) (h : Hello) : Bool :=
  l.gotHello && l.peer != 0 && l.peer != h.id && !(l.lease == some l.peer && !h.prov && h.id != 0)

/-- The leases a HELLO bears on (R348): one is asked for, offered, kept alive or ended by confirmation. -/
def Dev.helloLease (port : Nat) (h : Hello) (faceLends : Bool) (d : Dev) : Dev :=
  let d := if h.offer != 0 && d.brd.node == 0 then d.onBrd fun b => { b with node := h.offer, prov := true } else d
  match (d.link port).lease with
  | some p =>
    if h.id = p then d.onLink port fun l => { l with leaseTurn := d.turn }
    else if h.id != 0 && !h.prov then d.endLease port
    else d
  | none => if h.leaseReq && h.id == 0 && d.brd.node != 0 && !d.brd.prov then d.askLease port faceLends else d

/-- HELLO_RECEIVE (R347, R348). -/
def execHelloReceive (port : Nat) (hello : Hello) (faceLends : Bool) (s : State) : Host.Outcome State Fault Refusal :=
  s.run (port < 256) fun d =>
    d.when ((d.port port).braid && (d.link port).st != .down && !(d.link port).lost) fun d =>
      if (d.link port).changed hello then d.linkLoss port
      else
        let d := d.helloLease port hello faceLends
        let d := d.onLink port fun l => { l with
          heard := true, gotHello := true, peer := hello.id, peerProv := hello.prov, peerFenced := hello.fenced }
        let d := if hello.epoch % 4 = d.epoch % 4 then d
          else (d.bump Reg.brdEpochMismatch).onBrd fun b => { b with epochBad := some d.turn }
        d.tryUp port

/-- CREDIT_RECEIVE (R355, R356). -/
def execCreditReceive (port : Nat) (grants : List Nat) (rxFrames : Nat) (s : State) : Host.Outcome State Fault Refusal :=
  s.run (port < 256 && grants.length == 8) fun d =>
    d.when ((d.port port).braid && (d.link port).st != .down && !(d.link port).lost) fun d =>
      (d.onLink port fun l => { l with
        heard := true, gotCredit := true, peerRx := rxFrames
        grants := (List.range 8).map fun c => (c, grants.getD c 0 % 2 ^ 32) }).tryUp port

/-- LEASE_EXPIRY (R348): 1,024 turns have passed without a HELLO that carries the lease. -/
def execLeaseExpiry (port : Nat) (s : State) : Host.Outcome State Fault Refusal :=
  s.run (port < 256) fun d => d.when ((d.link port).lease.isSome && (d.link port).leaseTurn + 1024 ≤ d.turn) (Dev.endLease port)

/-! ## Global operations (R363 to R368) -/

/-- A COMMIT received: the shade held OPEN is scheduled without the lead check, or a COMMIT record with its status is appended (R365). -/
def Dev.globalCommit (num t : Nat) (d : Dev) : Dev :=
  match d.commitCheck3 num t with
  | .inl n => d.pend n t true
  | .inr st => (d.logEventSt 0x81 st t num).bump Reg.brdCommitMiss

/-- Act on a GLOBAL message that names this node (R364 to R366, R368); one at or after its T is applied at the next boundary. -/
def Dev.globalAct (op target turn arg : Nat) (d : Dev) : Dev :=
  let late : Bool := turn ≤ d.turn
  let d := d.bumpIf late Reg.brdGlobalLate
  let t := if late then max d.turn d.reel.served + 1 else turn
  match op with
  | 1 => d.globalCommit (arg % 2 ^ 32) t
  | 2 => if d.spl.snaps.length < 4 then d.onSpl fun s => { s with snaps := s.snaps ++ [⟨t, arg % 2 ^ 19, true⟩] } else d
  | _ => d.addReset target t

/-- GLOBAL_RECEIVE (R364): forwarded on every other UP link on first receipt, then acted on when this node lies in TARGET. -/
def execGlobalReceive (port src op target seq turn arg : Nat) (s : State) : Host.Outcome State Fault Refusal :=
  s.run (port < 256 && 1 ≤ op && op ≤ 3) fun d =>
    d.when ((d.port port).braid && (d.link port).st != .down && !(d.link port).lost) fun d =>
      let d := d.onLink port fun l => { l with heard := true }
      if d.brd.seen.contains (src, seq) then d
      else
        let d := d.onBrd (Braid.saw src seq)
        let d := (d.upLinks.filter (· != port)).foldl
          (fun d p => d.controlFrom p 7 src 0xFFFFFF 0 (globalBody op target seq turn arg)) d
        if d.inTarget target then d.globalAct op target turn arg else d

/-- MARKER_RECEIVE (R366): the count of a capture ends, or the marker of a turn not yet reached is kept. -/
def execMarkerReceive (port turn : Nat) (s : State) : Host.Outcome State Fault Refusal :=
  s.run (port < 256) fun d =>
    d.when ((d.port port).braid && (d.link port).st != .down && !(d.link port).lost) fun d =>
      d.onLink port fun l =>
        if l.mark = some turn then { l with heard := true, mark := none, markDone := true }
        else { l with heard := true, early := some turn }

/-! ## MGMT (R348, R369) -/

/-- A lease message at the node it is for (R348): 1 a request of `src`, 2 an answer with identifier p, 3 the end of lease p. -/
def Dev.leaseMgmt (src kind p : Nat) (d : Dev) : Dev :=
  match kind with
  | 1 =>
    match d.takeSlot src with
    | (some q, d) => d.toNode d.current src 8 (padTo 44 (le 1 2 ++ le 3 d.brd.node ++ le 4 q))
    | (none, d) => d
  | 2 =>
    match d.brd.links.find? fun e => e.2.asked with
    | some e => d.onLink e.1 fun l => { l with asked := false, lease := some p, leaseTurn := d.turn }
    | none => d
  | _ => d.onBrd fun b => { b with slots := Map.del b.slots ((p - 0xF00000) % 16) }

/-- MGMT_RECEIVE (R369): delivered to the fabric manager event queue, dropped when it is full, or sent on toward its destination. A lease message (`lease` 1 to 3) is acted on under R348. -/
def execMgmtReceive (port src dest lease p : Nat) (body : List Byte) (s : State) : Host.Outcome State Fault Refusal :=
  s.run (port < 256) fun d =>
   d.when ((d.port port).braid && (d.link port).st != .down && !(d.link port).lost) fun d =>
    let d := d.onLink port fun l => { l with heard := true }
    let here (d : Dev) : Dev :=
      if 1 ≤ lease ∧ lease ≤ 3 then d.leaseMgmt src lease p
      else
        let r := d.emit 4 0 body
        r.1.bumpIf r.2 Reg.brdMgmtDrop
    if dest = 0xFFFFFF then here d
    else
      match d.resolve d.current dest 65 dest false with
      | .deliver => here d
      | .onLink e peer _ => d.controlFrom e 8 src peer 0 body
      | .route r peer _ =>
        match d.nextHop r 0 0 with
        | (some e, d) => d.controlFrom e 8 src peer 0 body
        | (none, d) => d
      | .none => d

end Sys2Proof.Machine
end

