-- ==== Sys2Proof/Machine/Ports.lean ====
section
/-! DEFINITION. PORTSET and a port coming up (R150, R239, R252, R347). -/
namespace Sys2Proof.Machine

/-- The configuration words 1 and 2 spell (Table 4.7). -/
def portOf (w1 w2 : Nat) : Port :=
  { lanes := 2 ^ bits w1 0 2, rate := bits w1 2 2, fec := bits w1 4 2, braid := bit w1 6, enable := bit w1 7
    ctMask := bits w1 8 8, pfc := bits w1 16 8, pause := bit w1 24, defCls := bits w1 25 3, macsec := bit w1 28
    domain := bits w1 32 16, delay := bits w2 0 32, allow := bits w2 32 32 }

/-- The lanes of two ports overlap. -/
def lanesMeet (p n q m : Nat) : Bool := p < q + m && q < p + n

/-- A PORTSET's operands (R141, R150, R5): zeros, a port of the variant, lanes within the block and no other port's, FEC allowed, braid at 400 Gb/s or more. -/
def Dev.portsetOk (i : Ins) (d : Dev) : Bool :=
  let c := portOf (i.w 0) (i.w 1)
  i.field == 0 && i.len == 3 && i.a < d.lanes && bits (i.w 0) 29 3 == 0 && bits (i.w 0) 48 16 == 0
    && i.a % 8 + c.lanes ≤ 8 && (portConst c.lanes c.rate c.fec).isSome && (!c.braid || 400 ≤ c.speed)
    && d.path.ports.all fun e => e.1 == i.a || !lanesMeet i.a c.lanes e.1 e.2.lanes

/-- Lanes, rate, FEC or mode differ (R150). -/
def Port.differs (a b : Port) : Bool := a.lanes != b.lanes || a.rate != b.rate || a.fec != b.fec || a.braid != b.braid

/-- PORT_LINK_LOSS (R252): a member port's link is lost. -/
def execPortLinkLoss (port : Nat) (s : State) : Host.Outcome State Fault Refusal :=
  s.run (port < 256) fun d =>
    d.when ((d.port port).link && !(d.port port).braid) fun d => (d.onPort port fun f => { f with link := false }).portGone port

/-- A PORTSET takes the port down (R252): a braid link is lost and handled (R360, R361), then everything owed to the port goes. -/
def Dev.takeDown (p : Nat) (d : Dev) : Dev :=
  let d := if (d.port p).braid && (d.link p).st != .down then (if (d.link p).lost then d else d.linkLoss p).lossHandled p else d
  (d.onPort p fun f => { f with link := false }).portGone p

/-- The configuration of a port is set (R150, R239): its own reservations change at once. -/
def Dev.portset (p : Nat) (c : Port) (d : Dev) : Dev :=
  let old := d.port p
  let known := (Map.find d.path.ports p).isSome
  let down := known && (old.differs c || (old.enable && !c.enable))
  let d := if down then d.takeDown p else d
  let now := d.port p
  let d := d.onPath fun y => { y with ports := Map.put y.ports p { c with link := now.link, removing := now.removing } }
  let d := if c.braid then (if old.braid && known && !down then d else d.onLink p fun _ => {})
    else d.onBrd fun b => { b with links := Map.del b.links p }
  d.recomputeNow p

/-- PORTSET (R149, R150). -/
def execPortset (p : Nat) (s : State) : Host.Outcome State Fault Refusal :=
  s.run true (Dev.runIns p (fun i => i.op == 0x10) fun _ i d =>
    let c := portOf (i.w 0) (i.w 1)
    if !d.portsetOk i then .done stBadOperand d 0
    else if c.enable && !(d.port i.a).enable && (d.fenced 0 i.a || (c.braid && d.fenced 1 i.a)) then .done stFenced d 0
    else .done stDone (d.portset i.a c) 0)

/-- A link comes up in braid mode: HELLO, counts from zero, an initial grant of H cells per class (R244, R347, R356). -/
def Dev.braidUp (p : Nat) (d : Dev) : Dev :=
  (List.range 8).foldl (fun d c => d.onAcct (ingAcct p c) fun a => { a with debt := 0, withheld := 0 })
    (d.onLink p fun _ => { st := .hello, myGrant := (List.range 8).map fun c => (c, (d.acct (ingAcct p c)).h) })

/-- PORT_LINK_UP (R347, R252, R580, R609): the PCS of an enabled port comes up, not while the outputs are gated or its reference clock is lost; nothing is sent while a removal is under way. -/
def execPortLinkUp (port : Nat) (s : State) : Host.Outcome State Fault Refusal :=
  s.run (port < 256) fun d =>
    d.when ((d.port port).enable && !(d.port port).link && !d.boot.gated && !bit d.pwr.plLost (port / 32)) fun d =>
      let d := (d.onPort port fun f => { f with link := true }).pickFreq
      if (d.port port).braid then d.braidUp port else d

end Sys2Proof.Machine
end

