-- ==== Sys2Proof/Machine/Reel.lean ====
section
/-! DEFINITION. The reel: sources, samples, slewing, discontinuities, holdover, PPS_OUT (02_reel_time.md). -/
namespace Sys2Proof.Machine

/-! ## REELSRC (R53) -/

/-- REELSRC (R53): the entry replaces the former one; one whose source is unchanged keeps what was received from it. A number inside another port, or of no configured port, ends DONE (R15; DEDUCED, log 72). -/
def execReelsrc (p : Nat) (s : State) : Host.Outcome State Fault Refusal :=
  s.run true (Dev.runIns p (fun i => i.op == 0x22) fun _ i d =>
    let kind := bits i.a 0 4
    let port := bits i.a 4 8
    let w := i.w 0
    if 16 ≤ i.field || i.len != 3 || 2 ^ 12 ≤ i.a || 6 < kind || bits w 24 8 != 0
        || ((kind == 1 || kind == 2 || kind == 4) && d.lanes ≤ port) then .done stBadOperand d 0
    else
      let old := d.cand i.field
      let same := old.kind == kind && old.port == port
      let c : Cand := { (if same then old else ({} : Cand)) with
        kind, port, prio1 := bits w 0 8, prio2 := bits w 8 8, selPrio := bits w 16 8, asym := signed 32 (bits w 32 32)
        floorU := bits (i.w 1) 0 32, ageA := bits (i.w 1) 32 32
        present := kind < 4 && same && old.present }
      let d := if same then d else d.loseSource i.field
      let d := d.onReel fun r => { r with cands := if kind = 0 then Map.del r.cands i.field else Map.put r.cands i.field c }
      .done stDone (d.select.pickFreq) 0)

/-! ## Samples (R57, R59, R60, R62) -/

/-- 1 ms in sixteenths of a nanosecond. -/
def msSixteenths : Int := 16000000

/-- Sixteen samples in a row not applied lose the source (R56). -/
def Dev.notApplied (e : Nat) (d : Dev) : Dev :=
  let d := d.onReel fun r => { r with unapplied := r.unapplied + 1, good := 0 }
  if 16 ≤ d.reel.unapplied then d.loseSource e else d

/-- A sample is applied by slewing; 16 in a row below 50 ns lock the reel (R59, Table 2.3). The frequency memory starts afresh at a lock (R65). -/
def Dev.applySample (err : Int) (d : Dev) : Dev :=
  let good := if err.natAbs < 800 then d.reel.good + 1 else 0
  let d := d.onReel fun r => { r with phaseErr := err, slew := err * 1500, good, unapplied := 0 }
  if d.reel.st = .acquiring ∧ 16 ≤ good then
    d.onReel fun r => { r with st := .locked, secSum := 0, secMeans := [], secWhole := false }
  else d

/-- A held sample joins the run, or begins another; the fourth declares a discontinuity, whose D is that sample in whole ns (R60, log 72). -/
def Dev.holdSample (e : Nat) (err : Int) (d : Dev) : Dev :=
  let joins := d.reel.held.all fun h => (0 < h) == (0 < err) && (h - err).natAbs ≤ 16000
  let d := (if joins then d else d.dropHeld).onReel fun r => { r with held := r.held ++ [err] }
  if 4 ≤ d.reel.held.length then
    d.onReel fun r => { r with held := [], unapplied := 0, disc := some { d := err / 16 } }
  else d.notApplied e

/-- A sample of the selected source that is not an upstream: target minus reel, in sixteenths of a nanosecond (R59, R60). -/
def Dev.rootSample (e : Nat) (err : Int) (d : Dev) : Dev :=
  if err.natAbs ≤ msSixteenths.natAbs then (d.dropHeld).applySample err else d.holdSample e err

/-- Reject an upstream that is behind by more than 1 ms: the next candidate, or HOLDOVER (R62). -/
def Dev.rejectUp (e : Nat) (d : Dev) : Dev :=
  let d := (d.bump Reg.reelSrcReject).onCand e fun c => { c with present := false }
  match d.bestTime with
  | some _ => d.select
  | none => d.loseSource e

/-- A sample from a follower's upstream (R62): it steps forward and adopts, rejects, or slews; an era it does not have is adopted at the next boundary. -/
def Dev.upSample (e : Nat) (err : Int) (era off : Nat) (d : Dev) : Dev :=
  if msSixteenths < err then d.onReel fun r => { r with unapplied := 0, disc := some { d := err / 16, adopt := some (era, off) } }
  else if err < -msSixteenths then d.rejectUp e
  else
    let d := d.applySample err
    if era = d.reel.era ∧ off = d.reel.eraOffset then d
    else d.onReel fun r => { r with disc := some { d := 0, adopt := some (era, off) } }

/-- A sample's correction for delay asymmetry, in sixteenths of a nanosecond (R53, R68, log 15). -/
def Cand.correct (c : Cand) : Int := c.asym * 16 / 1000

/-- The entry of a kind on a port: the first, where two name the same kind and port (log 72). -/
def Dev.entryOn (kind port : Nat) (d : Dev) : Option Nat := (d.reel.cands.find? fun e => e.2.kind == kind && e.2.port == port).map (·.1)

/-- The last 16 delay samples of a port (Table 7.2). -/
def Dev.delaySample (port : Nat) (ns : Option Nat) (d : Dev) : Dev :=
  match ns with
  | some n => d.onPath fun y => { y with delays := Map.modify y.delays port [] fun l => (l ++ [n]).drop (l.length - 15) }
  | none => d

/-- The PTP source that gives PPS_IN its time of day has been sampled: how far its time is ahead of the reel (R52). -/
def Dev.timeOfDay (e : Nat) (err : Int) (d : Dev) : Dev :=
  if d.bestPtp = some e then d.onReel fun r => { r with tod := some err } else d

/-- The device's own message of a delay exchange on a member port, with the timestamp at which it crosses the lands as PTP seconds and nanoseconds, and that of the message just received (Table 2.1, R49, R70, log 15). -/
def Dev.ptpAnswer (port : Nat) (d : Dev) : Dev :=
  let t := ptpStamp (d.stampTx port / 16) d.reel.eraOffset
  let r := ptpStamp d.ns d.reel.eraOffset
  d.sendGated .ptpMessage [port, t.1, t.2, r.1, r.2] []

/-- PTP_MESSAGE_RECEIVE (R54, R60, R70): an Announce gives a dataset, a Sync a sample of source time in sixteenths of a nanosecond, a peer-delay exchange a delay; the command is the message timestamp point at the lands. -/
def execPtpMessageReceive (port : Nat) (dataset : Option Dataset) (sample delay : Option Nat) (s : State) : Host.Outcome State Fault Refusal :=
  s.run (port < 256) fun d =>
    d.when (d.portUp port && !(d.port port).braid) fun d =>
      let d := if delay.isSome then (d.delaySample port delay).ptpAnswer port else d
      d.with' (d.entryOn 1 port) fun e d =>
        let d := (d.onCand e fun c => { c with present := true, dataset := dataset.or c.dataset, heardNs := d.ns }).select
        match sample with
        | some t =>
          let err := (t : Int) + 16 * d.reel.eraOffset + (d.cand e).correct - d.reel16
          let d := (d.timeOfDay e err).select
          if d.reel.src = some e ∧ !d.reel.loss then d.rootSample e err else d
        | none => d

/-- TIME_MESSAGE_RECEIVE (R54, R58, R62, R70): the root's dataset, the upstream's reel, era, offset and hops, and a delay sample; its timestamps are kept for the link's next TIME message. A source rejected under R62 is present and eligible again with its next message (log 72). -/
def execTimeMessageReceive (port reel16 era eraOffset hops : Nat) (upHold : Bool) (dataset : Option Dataset) (delay : Option Nat)
    (s : State) : Host.Outcome State Fault Refusal :=
  s.run (port < 256 && era < 65536) fun d =>
    d.when ((d.port port).braid && (d.link port).st != .down && !(d.link port).lost) fun d =>
      let d := (d.delaySample port delay).onLink port fun l => { l with
        heard := true, delay := delay.getD l.delay, peerTime := reel16, rxTime := d.reel16.toNat }
      d.with' (d.entryOn 2 port) fun e d =>
        let d := (d.onCand e fun c => { c with present := true, dataset := dataset.or c.dataset, hops, upHold, heardNs := d.ns }).select
        let err := (reel16 : Int) + (d.cand e).correct - d.reel16
        let d := (d.timeOfDay e err).select
        if d.reel.src = some e ∧ !d.reel.loss then d.upSample e err era eraOffset else d

/-- How far the second that PPS_IN marks is ahead of the reel, in sixteenths of a nanosecond: the second nearest to the time of day known from PTP (R52, R609). -/
def Dev.toSecond (tod : Int) (d : Dev) : Int :=
  let r := (d.reel16 - 16 * (d.reel.eraOffset : Int) + tod) % 16000000000
  tod + (if r < 8000000000 then -r else 16000000000 - r)

/-- PPS_IN_EDGE (R52, R609): a phase sample once time of day is known from PTP. -/
def execPpsInEdge (s : State) : Host.Outcome State Fault Refusal :=
  s.run true fun d =>
    d.with' ((d.reel.cands.find? fun e => e.2.kind == 3).map (·.1)) fun e d =>
      let d := (d.onCand e fun c => { c with present := true, heardNs := d.ns }).select
      match d.reel.tod with
      | some x => if d.reel.src = some e ∧ !d.reel.loss then d.rootSample e (d.toSecond x + (d.cand e).correct) else d
      | none => d

/-! ## PPS_OUT (R71) -/

/-- PPS_OUT_PULSE (R71): PPS_OUT rises at the next reel second; it stays low while the reel is FREE or the outputs are gated (R580). -/
def execPpsOutPulse (s : State) : Host.Outcome State Fault Refusal :=
  s.run true fun d =>
    d.when (d.reel.st != .free && !d.boot.gated) fun d =>
      let n := if d.reel.pps then d.ns / 10 ^ 9 + 1 else ceilDiv d.ns (10 ^ 9)
      ((d.dueNs (n * 10 ^ 9)).onReel fun r => { r with pps := true }).send .pps [n * 10 ^ 9] []

/-! ## Discontinuities (R61 to R64) -/

/-- The turns that scheduled events fall on, one entry per event (R63): commits, SNAPs, WAITTURN and BARRIER, turn timeouts of instructions and of CL.WAIT, AT programs, moderation timers, scheduled resets. -/
def Dev.eventTurns (d : Dev) : List Nat :=
  ((d.live.filter fun n => (d.shade n).st == .pending).map fun n => (d.shade n).turn)
    ++ d.spl.snaps.map (·.turn)
    ++ (d.spl.progs.filterMap fun x => match x.phase with
        | .waiting (.turn t) _ => some t
        | .waiting (.barrier t _ _) _ => some t
        | .waiting _ e => e
        | _ => none)
    ++ (d.cap.cores.filterMap fun e => match e.2.wait with | some (.cleat _ _ x) => x | _ => none)
    ++ (d.spl.atList.filterMap (·.turn))
    ++ (d.hif.qps.filterMap (·.2.timerAt))
    ++ (d.brd.resets.filter fun e => d.inTarget e.1).map fun e => e.2 + (d.brd.node - 1) / 256

/-- Events scheduled for a turn after t0 up to t1 (R63). -/
def Dev.firedBy (t0 t1 : Nat) (d : Dev) : Nat := (d.eventTurns.filter fun t => t0 < t && t ≤ t1).length

/-- What every discontinuity does, at the reel time a at its boundary: era, new logline block, two records, count, latch (R61). -/
def Dev.discTail (a : Nat) (signedD : Int) (off era : Nat) (d : Dev) : Dev :=
  let d := (d.onReel fun r => { r with era, eraOffset := off, lastDisc := a, disc := none, held := [], slew := 0 }).log' (.block a era off)
  ((d.logEvent 0x80 (unsigned 64 signedD) 0).logEvent 0x85 off era).bump Reg.reelDiscCount

/-- The pending discontinuity takes effect at the boundary reached (R61 to R64): a forward step moves the reel and counts the events of the turns it skips, which the boundaries after this one serve. A follower that adopts an era without a step logs the change of its era offset as D (log 72). -/
def Dev.discontinuity (d : Dev) : Dev :=
  match d.reel.disc with
  | none => d
  | some x =>
    let d := d.onReel fun r => { r with tod := r.tod.map (· - 16 * x.d) }
    let r := d.reel
    let off := match x.adopt with | some a => a.2 | none => if x.d < 0 then r.eraOffset + (-x.d).toNat else r.eraOffset
    let era := match x.adopt with | some a => a.1 | none => (r.era + 1) % 65536
    let t := r.served + 1
    if 0 < x.d then
      let t0 := max d.turn t
      let d := d.onReel fun r => { r with time := r.time + nsUnits * x.d.toNat }
      let t1 := d.turn
      let d := d.add Reg.reelStepFired (d.firedBy t0 t1)
      let d := d.onReel fun r => { r with stepTo := if t0 < t1 then some (t, t1) else none }
      d.discTail d.ns x.d off era
    else d.discTail (t * 1024) (if x.d < 0 then x.d else (r.eraOffset : Int) - off) off era

/-- REEL_DISCONTINUITY (R60, R61): order 1 at the next turn boundary. -/
def execReelDiscontinuity (s : State) : Host.Outcome State Fault Refusal :=
  s.run true fun d => d.when d.reel.disc.isSome fun d => d.toBoundary.discontinuity

/-! ## Loss and holdover (R56, R65, R66) -/

/-- What REEL_SOURCE_LOSS detects has come about (R56): a time source that was heard has missed three messages, which on a braid link are due every 64 turns, or PPS_IN 2 s; when a member port's messages are due its master decides (log 15). -/
def Dev.silentSource (e : Nat) (d : Dev) : Bool :=
  let c := d.cand e
  match c.kind with
  | 1 => c.present
  | 2 => c.present && c.heardNs / 65536 + 3 ≤ d.ns / 65536
  | 3 => c.present && c.heardNs + 2 * 10 ^ 9 ≤ d.ns
  | _ => false

/-- REEL_SOURCE_LOSS (R56): messages or edges of a time source are missing; its port's or link's loss is found where that goes down. -/
def execReelSourceLoss (entry : Nat) (s : State) : Host.Outcome State Fault Refusal :=
  s.run (entry < 16) fun d => d.when (d.silentSource entry) (Dev.loseSource entry)

/-- The reel enters HOLDOVER (R65): B0 is the sync bound at entry, u and a those of the reference in use. -/
def Dev.holdover (d : Dev) : Dev :=
  let b0 := 4 + 2 * d.hopDist
  let d := d.dropHeld
  let d := (d.onReel fun r => { r with src := none, loss := false, st := .holdover, good := 0, unapplied := 0, slew := 0 }).pickFreq
  let n := d.reel.secMeans.length
  (d.onReel fun r => { r with
    holdStart := d.ns, holdB0 := b0, holdNs := b0, freqMem := if n < 2 then 0 else r.secMeans.sum / n }).spoilBarriers

/-- REEL_HOLDOVER_ENTER (R56): the first turn boundary after the loss. -/
def execReelHoldoverEnter (s : State) : Host.Outcome State Fault Refusal :=
  s.run true fun d => d.when d.reel.loss fun d => (d.dueNs ((d.reel.lossTurn + 1) * 1024)).holdover

/-- B(t) in ns (R65). -/
def Dev.holdBound (d : Dev) : Nat :=
  let t := d.ns - d.reel.holdStart
  d.reel.holdB0 + d.reel.uMilli * t / 10 ^ 12 + d.reel.holdA * t * t / (2 * 10 ^ 25)

/-- A reel second ends: its mean correction while LOCKED joins the frequency memory of the last 64 s; in HOLDOVER the memory is applied (R65). -/
def Reel.second (r : Reel) : Reel :=
  match r.st with
  | .locked => { r with
      secMeans := if r.secWhole then (r.secMeans ++ [r.secSum]).drop (r.secMeans.length - 63) else r.secMeans
      secSum := 0, secWhole := true }
  | .holdover => { r with slew := r.slew + r.freqMem, secSum := 0 }
  | _ => { r with secSum := 0 }

/-- The reel's part of the boundary of turn t: whole seconds and the holdover bound. -/
def Dev.reelBoundary (t : Nat) (d : Dev) : Dev :=
  let d := if d.reel.served * 1024 / 10 ^ 9 < t * 1024 / 10 ^ 9 then d.onReel Reel.second else d
  if d.reel.st = .holdover then d.onReel fun r => { r with holdNs := d.holdBound } else d

end Sys2Proof.Machine
end

