-- ==== Sys2Proof/Machine/Turn.lean ====
section
/-! DEFINITION. The turn boundary in the order of Table 2.5: commits, refills, snapshots, and the timers that fall on it
(R63, R72, R145, R180, R188, R239, R243, R270, R295, R355, R441, R446, R635). -/
namespace Sys2Proof.Machine

/-! ## Shade commits (order 3: R105, R145, R180, R272, R274, R358, R359, R363, R365) -/

/-- The one-time settings of a shade act at its own commit: counter values, FILLs, JOIN and LEAVE SELF (R145). -/
def Dev.oneTime (n : Nat) (d : Dev) : Dev :=
  let s := d.shade n
  let d := s.ctrSet.foldl (fun d e => d.onTbl fun t => { t with counters := Map.put t.counters e.1 e.2 }) d
  let d := d.onPath fun y => { y with
    shapers := s.shFill.foldl (fun m e => Map.modify m e.1 {} (Bucket.fill e.2 (Map.getD s.shapers e.1 (0, 0)).2)) y.shapers
    polC := s.polFill.foldl (fun m e => Map.modify m e.1 {} (Bucket.fill e.2 (Map.getD s.policers e.1 {}).cbs)) y.polC
    polP := s.polFill.foldl (fun m e => Map.modify m e.1 {} (Bucket.fill e.2 (Map.getD s.policers e.1 {}).pbs)) y.polP }
  let d := if s.dropSelf then d.onBrd fun b => { b with node := 0, prov := false } else d
  let d := match s.joinSelf with
    | some (id, h, hop) => d.onBrd fun b => { b with node := id, prov := false, h, hopNs := if hop = 0 then 1024 else hop }
    | none => d
  d.onShade n fun s => { s with ctrSet := [], shFill := [], polFill := [], dropSelf := false, joinSelf := none }

/-- The fibre map of a shade takes effect (R105); a lay for which it holds no set keeps the map in force (DEDUCED, log 72). -/
def Dev.fibreMap (n : Nat) (d : Dev) : Dev :=
  let sets := (d.shade n).sets
  (List.range 32).foldl (fun d l => match Map.find sets l with
    | some s => d.onLay l fun y => { y with x := s.x, strands := s.strands }
    | none => d) d

/-- The commit of index n (R180): it is CURRENT, the former CURRENT shade DRAINING; a fabric commit advances the epoch (R365). -/
def Dev.commit (n : Nat) (d : Dev) : Dev :=
  let s := d.shade n
  let was := d.current
  let e := d.epoch
  let d := (d.onShade was fun s => { s with st := .draining }).onShade n fun s => { s with
    st := .current, epoch := if s.fabric then (e + 1) % 4 else e }
  ((((d.oneTime n).fibreMap n).recompute).logEvent 0x81 s.turn s.num)

/-- The PENDING index that commits first, no later than turn t (R184). -/
def Dev.nextCommit (t : Nat) (d : Dev) : Option Nat :=
  ((List.range 4).filter fun n => (d.shade n).st == .pending && (d.shade n).turn ≤ t).foldl
    (fun (a : Option Nat) n =>
      match a with
      | none => some n
      | some m => if (d.shade n).turn < (d.shade m).turn then some n else some m) none

/-- Every commit due by turn t, earliest first (at most three are PENDING). -/
def Dev.commitsTo (t : Nat) (d : Dev) : Dev :=
  (List.range 4).foldl (fun d _ => match d.nextCommit t with | some n => d.commit n | none => d) d

/-- The reel has come to the boundary of turn t or beyond, or it is the next boundary (R40, R63). -/
def Dev.atTurn (t : Nat) (d : Dev) : Bool := t ≤ max d.turn (d.reel.served + 1)

/-- SHADE_COMMIT (R180, R188): at its commit turn, after a discontinuity at that boundary and after earlier commits. -/
def execShadeCommit (n : Nat) (s : State) : Host.Outcome State Fault Refusal :=
  s.run true fun d =>
    d.when ((d.shade n).st == .pending && d.atTurn (d.shade n).turn && d.nextCommit (d.shade n).turn == some n
        && d.spl.snaps.all fun x => (d.shade n).turn ≤ x.turn) fun d =>
      let d := d.dueNs ((d.shade n).turn * 1024)
      (if d.reel.served * 1024 + 1024 ≤ d.ns then d.discontinuity else d).commit n

/-! ## Order 4 and the other per-turn work -/

/-- The refill of every bucket by the CURRENT shade's settings, and of the DRAM port regulators (R270, R272, R274, R520). -/
def Dev.refill (d : Dev) : Dev :=
  let s := d.shade d.current
  let level (m : Map Bucket) (i : Nat) : Map Bucket :=
    let c := d.dmc.ports.getD i (0, 1048576)
    Map.modify m i {} (Bucket.refill c.1 c.2)
  let d : Dev := { d with dmc := { d.dmc with levels := (List.range 5).foldl level d.dmc.levels } }
  d.onPath fun y => { y with
    shapers := refillAll s.shapers (·.1) (·.2) y.shapers
    polC := refillAll s.policers (·.cir) (·.cbs) y.polC
    polP := refillAll s.policers (·.pir) (·.pbs) y.polP }

/-- A braid link's part of a boundary: a turn of silence counts, and each UP or HELLO link sends a CREDIT (R355, R360). -/
def Dev.linkTurn (p : Nat) (d : Dev) : Dev :=
  let l := d.link p
  if l.st = .down ∨ l.lost then d
  else (d.onLink p fun l => { l with silent := if l.heard then 0 else l.silent + 1, heard := false }).sendCredit p

/-- The core clock settings take effect (R44). -/
def Dev.clockSteps : Dev → Dev :=
  Dev.onCap fun x => { x with cores := x.cores.map fun e => (e.1, { e.2 with step := e.2.stepNext.getD e.2.step, stepNext := none }) }

/-- Periodic work is taken up at its next scheduled turn after a forward step to turn t1, and the scrubs' schedules afresh (R63, R372). -/
def Dev.resumePeriods (t1 : Nat) (d : Dev) : Dev :=
  let later (p : Period) : Period :=
    match p.turns with
    | some n => if p.next ≤ t1 then { p with next := p.next + ((t1 - p.next) / n + 1) * n } else p
    | none => p
  (d.onBrd fun b => { b with helloAt := t1 / 64 }).onCal fun c => { c with
    slotAt := t1, scrub := [], periods := c.periods.map fun e => (e.1, later e.2) }

/-- The boundary of a turn that a forward step to turn t1 skipped: the earliest with an event, then t1 itself; nothing periodic falls on it (R63). -/
def Dev.skippedTurn (t1 : Nat) (d : Dev) : Dev :=
  let now := d.reel.served
  let t := (d.eventTurns.filter fun t => now < t && t < t1).foldl min t1
  (((d.resumePeriods t1).commitsTo t).onReel fun r => { r with served := t, stepTo := if t = t1 then none else r.stepTo }).flushLog

/-- The boundary of turn served + 1 at its own time: orders 1 to 4 of Table 2.5, and what falls on every turn. -/
def Dev.ownTurn (d : Dev) : Dev :=
  let d := d.toBoundary.discontinuity
  let t := d.reel.served + 1
  let d := ((d.log' (.turn t)).commitsTo t).applyHeadroom.refill
  let d := d.reelBoundary t
  let d := d.onPath fun y => { y with accts := y.accts.map fun e => (e.1, if e.2.xoff then { e.2 with xTurns := e.2.xTurns + 1 } else e.2) }
  let d := (d.brd.links.map (·.1)).foldl (fun d p => d.linkTurn p) d.clockSteps
  (d.onReel fun r => { r with served := t }).flushLog

/-- No effect of order 6 is left at the boundary of turn t (Table 2.5): every WAITTURN, BARRIER and turn timeout due by it has ended. -/
def Dev.waitsOver (t : Nat) (d : Dev) : Bool := d.spl.progs.all fun x =>
  match x.phase with
  | .waiting (.turn u) _ => t < u
  | .waiting (.barrier u _ _) _ => t < u
  | .waiting w (some e) => t < e || d.awaited w
  | _ => true

/-- The effects of the next boundary: of a turn's own, or of one that a forward step skipped (R63, R72). -/
def Dev.boundary (d : Dev) : Dev :=
  match d.reel.stepTo with
  | some (t0, t1) => if t0 ≤ d.reel.served then d.skippedTurn t1 else d.ownTurn
  | none => d.ownTurn

/-! ## Snapshots (order 5: R148, R296, R366, R635) -/

/-- The pending SNAP to capture: the earliest turn reached. -/
def Dev.dueSnap (d : Dev) : Option Snap :=
  (d.spl.snaps.filter fun x => x.turn ≤ d.reel.served).foldl
    (fun (a : Option Snap) x =>
      match a with
      | none => some x
      | some y => if x.turn < y.turn then some x else some y) none

/-- A fabric capture opens the marker interval of every UP link and sends a MARKER on it (R366). -/
def Dev.markLinks (t : Nat) (d : Dev) : Dev :=
  d.upLinks.foldl
    (fun d p =>
      let here := (d.link p).early == some t
      (d.onLink p fun l => { l with
        mark := if here then none else some t, markDone := here, markBad := false, markFrames := 0, markCells := 0, markTurn := t
        early := none }).control p 6 0xFFFFFF (t % 2 ^ 54) (le 44 0)) d

/-- What a capture does beside the images: it leaves the pending list, marks the logline when LOG_ is named, opens marker intervals (R296, R366). -/
def Dev.captured (x : Snap) (d : Dev) : Dev :=
  let d := d.onSpl fun s => { s with
    snaps := s.snaps.filter (· != x)
    snapTurns := (bitList x.mask 19).foldl (fun m k => Map.put m k x.turn) s.snapTurns }
  let d := if bit x.mask 6 then d.log' (.mark x.turn) else d.flushLog
  if x.fabric then d.markLinks x.turn else d

/-- SNAP_CAPTURE (R635): the named blocks' images are of the device as it stood at the boundary; a later capture overwrites an earlier one (R148). -/
def execSnapCapture (s : State) : Host.Outcome State Fault Refusal :=
  s.runState true fun s =>
    match s.dev.dueSnap with
    | none => s
    | some x =>
      let dev := s.dev.captured x
      { s with
        dev
        snaps := (bitList x.mask 19).foldl (fun m k => Map.put m k ⟨x.turn, s.frozen.getD s.dev⟩) s.snaps
        frozen := if dev.dueSnap.isSome then s.frozen else none }

/-! ## Repeats, timers and closes -/

/-- PAUSE_REPEAT (R243): every 16th turn boundary after the account entered XOFF. -/
def execPauseRepeat (acct : Nat) (s : State) : Host.Outcome State Fault Refusal :=
  s.run true fun d =>
    d.when ((d.acct acct).xoff && 16 ≤ (d.acct acct).xTurns) fun d =>
      (d.onAcct acct fun a => { a with xTurns := a.xTurns - 16 }).sendPause acct 0xFFFF

/-- EVENT_BUFFER_CLOSE (R441): the first turn boundary after the buffer's first event. -/
def execEventBufferClose (q : Nat) (s : State) : Host.Outcome State Fault Refusal :=
  s.run (q < 65536) fun d =>
    match (d.qp q).bufs with
    | b :: rest =>
      match b.first with
      | some t => d.when (d.reached (t + 1)) fun d => (d.toHclk.onQp q fun x => { x with bufs := rest }).closeBuf q b
      | none => d
    | [] => d

/-- LOGLINE_PAGE_CLOSE (R295): 64 turns after the page's first record, when it is full, or when its block has ended. -/
def execLoglinePageClose (seq : Nat) (s : State) : Host.Outcome State Fault Refusal :=
  s.run true fun d =>
    d.onLog fun l => { l with pages := l.pages.map fun p =>
      if p.seq = seq ∧ (p.turn + 64 ≤ d.turn ∨ 4092 ≤ p.slots ∨ p.anchor ≠ l.anchor) then { p with closed := true } else p }

end Sys2Proof.Machine
end

