-- ==== Sys2Proof/Machine/Dram.lean ====
section
/-! DEFINITION. The DRAM controller: mapping, queues, in-order banks, drain, refresh, replay, ECC, training (18_dram.md). -/
namespace Sys2Proof.Machine

/-- Change the DRAM controller. -/
def Dev.onDmc (f : Dmc → Dmc) (d : Dev) : Dev := { d with dmc := f d.dmc }

/-- Channel c. -/
def Dev.chan (d : Dev) (c : Nat) : DChan := Map.getD d.dmc.chans c {}

/-- Change channel c. -/
def Dev.onChan (c : Nat) (f : DChan → DChan) : Dev → Dev := Dev.onDmc fun m => { m with chans := Map.modify m.chans c {} f }

/-! ## Mapping (R515 to R517) -/

/-- The xor of the nibbles of the low 40 bits. -/
def foldNibbles (u : Nat) : Nat := (List.range 10).foldl (fun v i => v ^^^ bits u (4 * i) 4) 0

/-- The channel of an offset for granule 2^k (R515). -/
def dramChannel (k a : Nat) : Nat :=
  let g := a / 2 ^ k
  let v := foldNibbles (g / 3)
  4 * (g % 3) + (bits v 0 2 ^^^ bits v 2 2)

/-- The channel address of an offset (R515). -/
def dramAddress (k a : Nat) : Nat := a / 2 ^ k / 3 / 4 * 2 ^ k + a % 2 ^ k

/-- The offset of an address of a channel: the inverse of the channel stage, which is one-to-one (R515). -/
def dramOffset (k ch c : Nat) : Nat :=
  let u := c / 2 ^ k * 4
  let v := foldNibbles u
  (3 * (u + (ch % 4 ^^^ bits v 0 2 ^^^ bits v 2 2)) + ch / 4) * 2 ^ k + c % 2 ^ k

/-- Row bits of a density (R516). -/
def rowBits (density : Nat) : Nat := if density = 2 then 17 else 16

/-- The parity of a number below 2^64. -/
def parity (x : Nat) : Nat := ((List.range 64).map fun i => ofBit (x.testBit i)).sum % 2

/-- Rank bits of a population (R516). -/
def Dmc.rankBits (m : Dmc) : Nat := if m.dimms * m.ranks ≤ 1 then 0 else if m.dimms * m.ranks = 2 then 1 else 2

/-- The bank of a channel address: subchannel, bank bits by parity, logical rank (Table 18.2, R517). -/
def Dmc.bank (m : Dmc) (c : Nat) : Nat :=
  let b := ((List.range 5).map fun i => parity (c &&& m.masks.getD i 0) * 2 ^ i).sum
  bits c 6 1 + b * 2 + bits c (19 + rowBits m.density) m.rankBits * 64

/-- The row of a channel address (Table 18.2). -/
def Dmc.row (m : Dmc) (c : Nat) : Nat := bits c 19 (rowBits m.density)

/-- The rank a bank key lies in. -/
def bankRank (b : Nat) : Nat := b / 64

/-- The default masks (R517). -/
def defaultMasks : List Nat := (List.range 5).map fun i => 2 ^ (14 + i) + 2 ^ (19 + i) + 2 ^ (24 + i)

/-- A mask is valid (R517), for a channel address of w bits. -/
def maskOk (w i m : Nat) : Bool := bit m (14 + i) && bits m 14 5 == 2 ^ i && bits m 0 14 == 0 && m < 2 ^ w

/-! ## Scheduling (R519, R523 to R525) -/

/-- A port within its budget (R520): the controller's own requests always are. -/
def Dev.inBudget (d : Dev) (port : Nat) : Bool :=
  5 ≤ port || (d.dmc.ports.getD port (0, 0)).1 == 0 || 0 ≤ (Map.getD d.dmc.levels port {}).level

/-- A request hits the open row of its bank. -/
def Dev.rowHit (d : Dev) (ch : Nat) (r : DReq) : Bool :=
  match Map.find (d.chan ch).rows (d.dmc.bank r.c) with
  | some w => w.row == d.dmc.row r.c
  | none => false

/-- The order of choice in a command slot (R524): the key that is smallest goes first. -/
def Dev.pickKey (d : Dev) (ch : Nat) (r : DReq) : List Nat :=
  let waited : Bool := r.at' + 3072 ≤ d.pclk
  if waited then [0, 0, 0, r.id] else [1, ofBit !(d.inBudget r.port), ofBit !(d.rowHit ch r), r.id]

/-- A request may be offered: in an in-order bank only its oldest one (R524, R525). -/
def Dev.offered (d : Dev) (ch : Nat) (r : DReq) : Bool :=
  let c := d.chan ch
  let b := d.dmc.bank r.c
  !(c.order.any fun o => o.1 == b) || (c.reads ++ c.writes).all fun x => d.dmc.bank x.c != b || r.id ≤ x.id

/-- The request a channel issues next (R523, R524): of its mode, or of an in-order bank's oldest, or a write when no read can issue. -/
def Dev.nextReq (ch : Nat) (d : Dev) : Option DReq :=
  let c := d.chan ch
  let best (xs : List DReq) : Option DReq := (xs.foldl (fun (a : Option DReq) r =>
    match a with
    | none => some r
    | some y => if rankLt (d.pickKey ch r) (d.pickKey ch y) then some r else some y) none)
  let inn (r : DReq) : Bool := c.order.any fun o => o.1 == d.dmc.bank r.c
  let ok := (c.reads ++ c.writes).filter fun r => d.offered ch r && (r.write == c.drain || inn r)
  (best ok).or (best ((c.reads ++ c.writes).filter fun r => d.offered ch r))

/-- The row a bank keeps after an access (R519). -/
def Dev.leaveRow (ch : Nat) (r : DReq) (d : Dev) : Dev :=
  let b := d.dmc.bank r.c
  let row := d.dmc.row r.c
  let c := d.chan ch
  let wanted := (c.reads ++ c.writes).any fun x => d.dmc.bank x.c == b && d.dmc.row x.c == row
  let rows : Map DRow := if r.keep || wanted then Map.put c.rows b ⟨row, d.pclk, r.keep⟩ else Map.del c.rows b
  d.onChan ch fun c => { c with rows }

/-- The bytes of a write go to memory under its mask. -/
def writeMasked (m : List Host.Cell) (a mask : Nat) (data : List Byte) : List Host.Cell :=
  (List.range 64).foldl (fun m i => if bit mask i then Memory.write m (a + i) (data.getD i 0) else m) m

/-- All 64 bytes. -/
def fullMask : Nat := 2 ^ 64 - 1

/-- The key of a line in the poison list. -/
def poisonKey (ch c : Nat) : Nat := ch * 2 ^ 40 + c / 64 * 64

/-- A request waiting in its port enters its queue once there is room, in arrival order (R521). -/
def Dev.enqueue (ch : Nat) (r : DReq) : Dev → Dev :=
  Dev.onChan ch fun c => if r.write then { c with writes := c.writes ++ [r] } else { c with reads := c.reads ++ [r] }

/-- A channel's queue of a kind has room (R521). -/
def Dev.queueRoom (ch : Nat) (write : Bool) (d : Dev) : Bool :=
  if write then (d.chan ch).writes.length < 64 else (d.chan ch).reads.length < 64

/-- A channel enters DRAIN with 48 writes, and leaves it at 16 or fewer (R523). -/
def Dev.drainMode (ch : Nat) (d : Dev) : Dev :=
  let c := d.chan ch
  if !c.drain && 48 ≤ c.writes.length then (d.onChan ch fun c => { c with drain := true }).bump (Reg.dmcCDrain ch)
  else if c.drain && c.writes.length ≤ 16 then d.onChan ch fun c => { c with drain := false }
  else d

/-- A request whose arrival matches the row of a queued one of the other kind puts its bank in order (R525). -/
def Dev.inOrder (ch : Nat) (r : DReq) (d : Dev) : Dev :=
  let c := d.chan ch
  let b := d.dmc.bank r.c
  let hit := (if r.write then c.reads else c.writes).any fun x => d.dmc.bank x.c == b && d.dmc.row x.c == d.dmc.row r.c
  if !hit then d
  else if c.order.any fun o => o.1 == b then d.onChan ch fun c => { c with order := c.order.map fun o => if o.1 = b then (b, r.id) else o }
  else (d.onChan ch fun c => { c with order := c.order ++ [(b, r.id)] }).bump (Reg.dmcCInorder ch)

/-- A request enters its channel: order, queue, mode. -/
def Dev.take (ch : Nat) (r : DReq) (d : Dev) : Dev := ((d.inOrder ch r).enqueue ch r).drainMode ch

/-- A queued write under the bytes of a later one (R522). -/
def DReq.merge (r x : DReq) : DReq :=
  { x with mask := x.mask ||| r.mask, data := (List.range 64).map fun i => if bit r.mask i then r.data.getD i 0 else x.data.getD i 0 }

/-- A request reaches its queue (R522, R530): a FAILED channel discards a write, a queued write of its line takes it in, else it takes an entry. -/
def Dev.reach' (ch : Nat) (r : DReq) (d : Dev) : Dev :=
  if r.write && (d.chan ch).st == 3 then d.bump (Reg.dmcCUe ch)
  else
    match if r.write then (d.chan ch).writes.find? (fun w => w.a == r.a) else none with
    | some w =>
      (d.onChan ch fun c => { c with writes := c.writes.map fun x => if x.id = w.id then r.merge x else x }).bump (Reg.dmcCMerge ch)
    | none => (d.bumpIf (r.write && r.mask != fullMask) (Reg.dmcCRmw ch)).take ch r

/-- A request needs no entry, or finds one free (R521, R522, R530). -/
def Dev.entryFree (ch : Nat) (r : DReq) (d : Dev) : Bool :=
  d.queueRoom ch r.write || (r.write && ((d.chan ch).st == 3 || (d.chan ch).writes.any fun w => w.a == r.a))

/-- Requests waiting in the ports for a channel enter while there is room, in the order in which they arrived (R521). -/
def Dev.admitWaiting (ch : Nat) : Nat → Dev → Dev
  | 0, d => d
  | n + 1, d =>
    match d.dmc.waiting.find? fun r => dramChannel d.dmc.k r.a == ch && d.entryFree ch r with
    | some r => Dev.admitWaiting ch n ((d.onDmc fun m => { m with waiting := m.waiting.filter (·.id != r.id) }).reach' ch r)
    | none => d

/-! ## Errors recorded (R532, R533) -/

/-- An uncorrectable line is recorded and stays poisoned (R533, R535). -/
def Dev.uncorrectable (ch c : Nat) (patrol : Bool) (d : Dev) : Dev :=
  let k := poisonKey ch c
  (d.bump (Reg.dmcCUe ch)).onDmc fun m => { m with
    ueLast := BitVec.ofNat 64 (c % 2 ^ 40 + ch * 2 ^ 40 + ofBit patrol * 2 ^ 44)
    poison := if m.poison.contains k then m.poison else m.poison ++ [k] }

/-! ## Issue -/

/-- A request issues (R519, R522 to R525, R528): counted, kept in the retry buffer, a write stored; one that is not of the whole line reads it first (R522), and finds a poisoned line uncorrectable. -/
def Dev.issueReq (ch : Nat) (r : DReq) (d : Dev) : Dev :=
  let d := (d.bumpIf (d.rowHit ch r) (Reg.dmcCRowHit ch)).bumpIf (r.port < 5 && !d.inBudget r.port) (Reg.dmcPOver r.port)
  let d := d.bump (if r.write then Reg.dmcCWrites ch else Reg.dmcCReads ch)
  let d := d.bumpIf (r.write && r.mask != fullMask) (Reg.dmcCReads ch)
  let d := if r.write && r.mask != fullMask && d.dmc.poison.contains (poisonKey ch r.c) then d.uncorrectable ch r.c false else d
  let d := d.onChan ch fun c => { c with
    reads := c.reads.filter (·.id != r.id), writes := c.writes.filter (·.id != r.id)
    order := c.order.filter fun o => o.2 != r.id
    retry := (c.retry ++ [(r.id, r.write, r.c)]).drop (c.retry.length - 63) }
  let d := d.leaveRow ch r
  let d : Dev := if r.write then
      { d with
        mem := { d.mem with dram := writeMasked d.mem.dram r.a r.mask r.data }
        dmc := { d.dmc with poison := if r.mask = fullMask then d.dmc.poison.filter (· != poisonKey ch r.c) else d.dmc.poison } }
    else d
  (d.drainMode ch).admitWaiting ch 64

/-- Issue until a read issues: the writes that go before it, then the read (R523 to R525). -/
def Dev.runToRead (ch : Nat) : Nat → Dev → Option DReq × Dev
  | 0, d => (none, d)
  | n + 1, d =>
    match d.nextReq ch with
    | none => (none, d)
    | some r =>
      let d := d.issueReq ch r
      if r.write then Dev.runToRead ch n d else (some r, d)

/-- Issue writes while the channel is in DRAIN (R523). -/
def Dev.runDrain (ch : Nat) : Nat → Dev → Dev
  | 0, d => d
  | n + 1, d =>
    if (d.chan ch).drain then
      match d.nextReq ch with
      | some r => if r.write then Dev.runDrain ch n (d.issueReq ch r) else d
      | none => d
    else d

/-! ## Corrections (R532) -/

/-- A corrected line is recorded and written back, unless a write to it is queued (R532). -/
def Dev.corrected (ch c dev : Nat) (d : Dev) : Dev :=
  let d := (d.bump (Reg.dmcCCe ch)).onDmc fun m => { m with
    ceLast := BitVec.ofNat 64 (c % 2 ^ 40 + ch * 2 ^ 40 + dev % 32 * 2 ^ 44) }
  let a := dramOffset d.dmc.k ch (c / 64 * 64)
  if (d.chan ch).writes.any (fun w => w.a == a) then d
  else
    let r : DReq := { id := d.dmc.nextReq, port := 5, write := true, a, c := c / 64 * 64, mask := fullMask, keep := false, at' := d.pclk
                      data := Memory.readBytes d.mem.dram a 64 }
    let d := d.onDmc fun m => { m with nextReq := m.nextReq + 1 }
    if d.queueRoom ch true then d.take ch r
    else (d.onDmc fun m => { m with waiting := m.waiting ++ [r] }).bump (Reg.dmcCQfull ch)

/-! ## Commands -/

/-- A maintenance activity holds a channel (R374, R526). -/
def Dev.chanHeld (d : Dev) (ch : Nat) : Bool :=
  d.cal.holds.any fun h => (h.req.code == 0x11 || h.req.code == 0x13) && h.req.res == ch

/-- The writes that have issued by now in slots in which no read could (R523): while no read is queued, as many as the DRAM's timing has let through, a free value (log 71). -/
def Dev.idleWrites (ch : Nat) (d : Dev) : Dev :=
  let c := d.chan ch
  if c.reads != [] || c.writes == [] || c.drain || c.st != 2 || d.chanHeld ch then d
  else
    (List.range (d.freeW.toNat % (c.writes.length + 1))).foldl (fun d _ =>
      match d.nextReq ch with
      | some r => d.issueReq ch r
      | none => d) d.useFree

/-- A line request is accepted (R520, R521): debited, and in its channel at once, or waiting in its port where its queue is full. A write-back of a corrected line that still waits gives way to a write of the line. -/
def Dev.dramAccept (r : DReq) (d : Dev) : Dev :=
  let ch := dramChannel d.dmc.k r.a
  let d := d.idleWrites ch
  let d := (d.onDmc fun m => { m with
    nextReq := m.nextReq + 1, levels := Map.modify m.levels r.port {} fun b => { b with level := b.level - 64 }
    waiting := m.waiting.filter fun x => !(r.write && x.port == 5 && x.a == r.a) }).add (Reg.dmcPBytes r.port) 64
  if d.entryFree ch r then d.reach' ch r
  else (d.onDmc fun m => { m with waiting := m.waiting ++ [r] }).bump (Reg.dmcCQfull ch)

/-- DRAM_REQUEST_ACCEPT (R518, R521): none is served before READY, and none lies beyond the installed capacity. -/
def execDramRequestAccept (who : DramUser) (write : Bool) (a mask : Nat) (line : List Byte) (keep : Bool) (s : State) :
    Host.Outcome State Fault Refusal :=
  s.run (who.port < 5 && mask < 2 ^ 64 && line.length ≤ 64) fun d =>
    let a := a / 64 * 64
    d.when (d.dmc.ready && a < d.dmc.capacity) (Dev.dramAccept
      { id := d.dmc.nextReq, port := who.port, write, a, c := dramAddress d.dmc.k a, mask, data := padTo 64 line, keep, at' := d.pclk
        user := who.user, item := who.item })

/-- The open rows of a rank close. -/
def Dev.closeRank (ch rank : Nat) : Dev → Dev := Dev.onChan ch fun c => { c with rows := c.rows.filter fun e => bankRank e.1 != rank }

/-- DRAM_REFRESH (R526): issued, or postponed up to 4 times while reads are queued for the rank; one due in a window that holds the channel comes at its end (R536). -/
def execDramRefresh (ch rank : Nat) (s : State) : Host.Outcome State Fault Refusal :=
  s.run (ch < 12 && rank < 4) fun d =>
    d.when ((d.chan ch).st == 2 && !d.chanHeld ch) fun d =>
      let n := Map.getD (d.chan ch).late rank 0
      if n < 4 ∧ (d.chan ch).reads.any (fun r => bankRank (d.dmc.bank r.c) == rank) then
        (d.onChan ch fun c => { c with late := Map.put c.late rank (n + 1) }).bump (Reg.dmcCRefPostpone ch)
      else (d.onChan ch fun c => { c with late := Map.del c.late rank }).closeRank ch rank

/-- DRAM_PARITY_ALERT (R529, R530): banks precharge and the buffered commands replay; the eighth replay of a channel within a turn leaves it FAILED. -/
def execDramParityAlert (ch : Nat) (s : State) : Host.Outcome State Fault Refusal :=
  s.run (ch < 12) fun d =>
    d.when ((d.chan ch).st == 2) fun d =>
      let p := (d.chan ch).replays
      let n := if p.1 = d.turn then p.2 + 1 else 1
      let d := ((d.onChan ch fun c => { c with rows := [], replays := (d.turn, n) }).bump (Reg.dmcCParityAlert ch)).bump (Reg.dmcCReplay ch)
      if n < 8 then d
      else
        let w := (d.chan ch).writes.length
        let d := ((d.onChan ch fun c => { c with st := 3, drain := false, writes := [] }).add (Reg.dmcCUe ch) w).onDmc fun m => { m with reason := 4 }
        d.admitWaiting ch d.dmc.waiting.length

/-- OLDEST_WRITE_WAIT_EXPIRY (R523): 8,192 dclk after the oldest write was accepted, the channel enters DRAIN; writes issue in the order of R524 until 16 are left or a read goes before them (R525). -/
def execOldestWriteWaitExpiry (ch : Nat) (s : State) : Host.Outcome State Fault Refusal :=
  s.run (ch < 12) fun d =>
    match (d.chan ch).writes with
    | [] => d
    | w :: _ =>
      d.when (!d.chanHeld ch && (d.chan ch).st == 2) fun d =>
        let d := d.due (w.at' + 12288)
        let d := if (d.chan ch).drain then d else (d.onChan ch fun c => { c with drain := true }).bump (Reg.dmcCDrain ch)
        d.runDrain ch 64

/-- ROW_IDLE_CLOSE (R519): 256 dclk after the last request to a row left open. -/
def execRowIdleClose (ch bank : Nat) (s : State) : Host.Outcome State Fault Refusal :=
  s.run (ch < 12) fun d =>
    match Map.find (d.chan ch).rows bank with
    | some w => d.when w.keep fun d => (d.due (w.last + 384)).onChan ch fun c => { c with rows := Map.del c.rows bank }
    | none => d

/-! ## Initial training (R513, R517, R537 to R539) -/

/-- A population of Table 18.1. -/
def spdOk (p : Spd) : Bool :=
  (p.dimms == 1 || p.dimms == 2) && (p.ranks == 1 || p.ranks == 2) && p.density < 3 && 16 ≤ p.gib && p.gib ≤ 128 && 1 ≤ p.rate && p.rate ≤ 5

/-- The highest data rate of Table 18.1 for a population, as DMC_CONFIG codes it. -/
def spdTop (p : Spd) : Nat := if p.dimms = 2 then min p.rate 3 else p.rate

/-- Training runs until every channel has ended; where one has FAILED, DRAM never becomes READY in this boot (R538). -/
def Dmc.trained (m : Dmc) : Dmc :=
  { m with training := m.training && ((m.chans.any fun c => c.2.st == 1) || m.chans.all fun c => c.2.st == 2) }

/-- Training has failed: the channel is FAILED with the step (R538). -/
def Dev.trainFail (ch reason step : Nat) (d : Dev) : Dev :=
  ((d.onChan ch fun c => { c with st := 3, bad := step }).onDmc fun m => { m with reason := if m.reason = 0 then reason else m.reason }).onDmc
    Dmc.trained

/-- Step 1 of a channel (R513, R517): the first channel's population is the device's; the record's masks are checked against its address width, and its rate against what the population allows (log 71). -/
def Dev.population (ch : Nat) (p : Spd) (d : Dev) : Dev :=
  let m := d.dmc
  let cap := p.gib * 2 ^ 30
  if m.dimms = 0 then
    let w := Nat.log2 cap
    let rate := if m.rate = 0 then spdTop p else m.rate
    let d := d.onDmc fun m => { m with dimms := p.dimms, ranks := p.ranks, x8 := p.x8, density := p.density, capacity := 12 * cap, rate }
    if !spdOk p then d.trainFail ch 1 1
    else if spdTop p < rate ∨ !((List.range 5).all fun i => maskOk (if 2 ^ w = cap then w else w + 1) i (m.masks.getD i 0)) then d.trainFail ch 2 1
    else d
  else if spdOk p ∧ p.dimms = m.dimms ∧ p.ranks = m.ranks ∧ p.x8 = m.x8 ∧ p.density = m.density ∧ 12 * cap = m.capacity then d
  else d.trainFail ch 1 1

/-- DRAM_TRAINING_STEP (R513, R538): a step of a channel ends; it passes, is retried up to 3 times, or leaves the channel FAILED. -/
def execDramTrainingStep (ch : Nat) (ok : Bool) (spd : Option Spd) (s : State) : Host.Outcome State Fault Refusal :=
  s.run (ch < 12) fun d =>
    d.when (d.dmc.training && (d.chan ch).st == 1) fun d =>
      let step := (d.chan ch).step
      if !ok then
        if (d.chan ch).tries < 3 then d.onChan ch fun c => { c with tries := c.tries + 1 } else d.trainFail ch 3 step
      else
        let d := if step = 1 then (match spd with | some p => d.population ch p | none => d.trainFail ch 1 1) else d
        if (d.chan ch).st = 3 then d
        else if step < 8 then d.onChan ch fun c => { c with step := step + 1, tries := 0 }
        else (d.onChan ch fun c => { c with st := 2, step := 0, tries := 0 }).onDmc Dmc.trained

/-- Initial training starts on every channel with the DRAM record in force (R537). -/
def Dev.startTraining (noRecord : Bool) (rate k : Nat) (masks : List Nat) (ports : List (Nat × Nat)) : Dev → Dev :=
  Dev.onDmc fun m => { m with
    training := true, noRecord, rate, k, masks, ports, chans := (List.range 12).map fun c => (c, { st := 1, step := 1 }) }

/-- DRAM_READY (R539): training has ended on all 12 channels; every line is zero, and the read-timing results are provisional. -/
def execDramReady (temp : Int) (s : State) : Host.Outcome State Fault Refusal :=
  s.run true fun d =>
    d.when (d.dmc.training && (List.range 12).all fun c => (d.chan c).st == 2) fun d =>
      let d := d.onDmc fun m => { m with ready := true, training := false }
      let d : Dev := { d with mem := { d.mem with dram := [] } }
      d.moveLog.onCal fun c => { c with
        dram := (List.range 12).map fun n => (n, { temp, bin := 0, prov := true, turn := d.turn })
        guard := List.range 12, scrub := [] }

end Sys2Proof.Machine
end

