-- ==== Sys2Proof/Machine/Cal.lean ====
section
/-! DEFINITION. Calibration and maintenance: CAL, slots, activities, results, retakes (12_calibration_maintenance.md). -/
namespace Sys2Proof.Machine

/-! ## Activities (Table 12.1) -/

/-- The port that owns a lane, if one is configured. -/
def Dev.lanePort (lane : Nat) (d : Dev) : Option Nat :=
  (d.path.ports.find? fun e => e.1 ≤ lane && lane < e.1 + e.2.lanes).map (·.1)

/-- The port an activity is on. -/
def Dev.actPort (code res : Nat) (d : Dev) : Option Nat :=
  if code = 1 then d.lanePort res else if code = 2 ∨ code = 0x20 then some res else none

/-- Regions of a scrub pass (Table 6.7, R325). -/
def regionsOf (code : Nat) : Nat := if code = 0x30 then 6400 else if code = 0x31 then 2048 else 256

/-- The next region of a scrub. -/
def Dev.scrubPos (code res : Nat) (d : Dev) : Nat :=
  if code = 0x30 then d.tbl.tcamPos else if code = 0x31 then d.tbl.exactPos else Map.getD d.aut.scrubPos res 0

/-- Table and first line of a region: LPM then ACL, MAC then general exact, a lay's automaton lines as table 4 (R373, log 13). -/
def regionLine (code res region : Nat) : Nat × Nat :=
  if code = 0x30 then (if region < 6144 then (2, region * 256) else (3, (region - 6144) * 256))
  else if code = 0x31 then (if region < 1024 then (0, region * 1024) else (1, (region - 1024) * 1024))
  else (4, res * 4096 + region * 16)

/-- The tokens an activity claims (Table 12.1). -/
def Dev.claimsOf (code res region : Nat) (d : Dev) : List (Token × Bool) :=
  let chan (c : Nat) : Token := .chan c
  let sh := regionLine code res region
  let shadow : Nat := Config.shadowChannel sh.1 sh.2
  match code with
  | 0x01 => [(Token.port ((d.lanePort res).getD res), true)]
  | 0x02 => (Token.port res, true) :: (if (d.port res).braid then [(Token.lgroup (d.link res).peer, true)] else [])
  | 0x10 | 0x12 | 0x13 => [(chan res, false)]
  | 0x11 => [(chan res, true)]
  | 0x30 => [(Token.tcam, true), (chan shadow, false)]
  | 0x31 => [(chan shadow, false)]
  | 0x32 => [(Token.aut res, true), (chan shadow, false)]
  | 0x40 | 0x41 => [(Token.flash, true)]
  | _ => []

/-- The request of an activity; a scrub step takes the region after those of the steps that run or wait (R221, R377). -/
def Dev.actReq (who : Who) (code res : Nat) (d : Dev) : Req :=
  let ahead' := if code < 0x30 ∨ 0x33 ≤ code then 0
    else (d.cal.waiting.filter fun r => r.code == code && r.res == res).length
      + (d.cal.holds.filter fun h => h.req.code == code && h.req.res == res).length
  let region := (d.scrubPos code res + ahead') % regionsOf code
  { who, code, res, claims := d.claimsOf code res region, region }

/-- A scrub step whose shadow channel a maintenance activity holds is counted as deferred (R221, R325). -/
def Dev.countScrubDefer (r : Req) (d : Dev) : Dev :=
  let held := r.claims.any fun c => match c.1 with
    | .chan _ => d.cal.holds.any fun h => h.req.claims.contains (c.1, true)
    | _ => false
  (d.bumpIf (held && (r.code == 0x30 || r.code == 0x31)) Reg.tblScrubDefer).bumpIf (held && r.code == 0x32) Reg.autScrubDefer

/-- The device asks for an activity (R376, R377): one that still waits from its last period is merged. -/
def Dev.deviceAsk (code res : Nat) (d : Dev) : Dev :=
  let r := d.actReq .device code res
  if d.cal.waiting.any fun w => w.who == .device && w.code == code && w.res == res then d.bump Reg.calSlotMerge
  else
    match d.claim r with
    | (.granted, d) => d.bump Reg.calRun
    | (_, d) => d.countScrubDefer r

/-! ## Slots (R371, R372, R379) -/

/-- Key of an activity on a resource. -/
def calKey (code res : Nat) : Nat := code * 65536 + res

/-- The period in force. -/
def Dev.period (code res : Nat) (d : Dev) : Period := Map.getD d.cal.periods (calKey code res) {}

/-- A turn-based activity is due: by its set period, or by its default (Table 12.1). -/
def Dev.turnDue (t code res : Nat) (dflt : Bool) (d : Dev) : Bool :=
  let p := d.period code res
  !p.suspended && (match p.turns with | some _ => p.next ≤ t | none => dflt)

/-- Run a turn-based activity at a slot if it is due. -/
def Dev.turnAct (t code res : Nat) (dflt : Bool) (d : Dev) : Dev :=
  if !d.turnDue t code res dflt then d
  else
    let d := match (d.period code res).turns with
      | some n => d.onCal fun c => { c with periods := Map.modify c.periods (calKey code res) {} fun p => { p with next := t + n } }
      | none => d
    d.deviceAsk code res

/-- Default mean interval of a scrub in quarters of a nanosecond (Table 12.1). -/
def scrubInterval (code : Nat) : Nat := if code = 0x30 then 625000 else if code = 0x31 then 1953125 else 3906250

/-- Run a scrub step at the first boundary at or after its scheduled time; the schedule starts afresh where there is none (R221, R372). -/
def Dev.scrubAct (t code res : Nat) (d : Dev) : Dev :=
  let p := d.period code res
  let k := calKey code res
  let iv := match p.turns with | some n => n * 4096 | none => scrubInterval code
  let (base, n) := Map.getD d.cal.scrub k (t * 4096, 0)
  if p.suspended ∨ t * 4096 < base + n * iv then d
  else (d.onCal fun c => { c with scrub := Map.put c.scrub k (base, n + 1) }).deviceAsk code res

/-- Ports that carry traffic. -/
def Dev.livePorts (d : Dev) : List Nat := d.enabledPorts.filter d.portUp

/-- A retrain holds a channel: its tracking windows are not run (R374). -/
def Dev.retraining (c : Nat) (d : Dev) : Bool := d.cal.holds.any fun h => h.req.code == 0x11 && h.req.res == c

/-- A HEADROOM retake has its 16 fresh delay samples and runs at the next slot (R383). -/
def Dev.hrDue (p : Nat) (d : Dev) : Bool :=
  ((Map.find d.cal.hroom p).map (·.retake)).getD false && 16 ≤ (Map.getD d.path.delays p []).length
    && !d.cal.holds.any fun h => h.req.code == 0x20 && h.req.res == p

/-- Periodic activities of turn t (Table 12.1), and the HEADROOM retakes that have their samples. -/
def Dev.periodic (t : Nat) (d : Dev) : Dev :=
  let lanes := (List.range d.lanes).filter fun l => ((d.lanePort l).map d.portUp).getD false
  let d := lanes.foldl (fun d l => d.turnAct t 0x01 l (t % 512 == 0 && t / 512 % 8 == l % 8)) d
  let d := d.livePorts.foldl (fun d p => d.turnAct t 0x20 p (t % 4096 == 0)) d
  let d := d.livePorts.foldl (fun d p => if d.hrDue p then d.deviceAsk 0x20 p else d) d
  if !d.dmc.ready then d
  else
    let d := (List.range 12).foldl (fun d c =>
      let d := (d.turnAct t 0x10 c (t % 64 == 0)).turnAct t 0x12 c (t % 64 == 0)
      if d.retraining c then d else d.turnAct t 0x13 c (t % 64 == 4 * c + 1)) d
    let d := (d.scrubAct t 0x30 0).scrubAct t 0x31 0
    (List.range d.blocks).foldl (fun d l => d.scrubAct t 0x32 l) d

/-- A CAL in mode RUN claims its tokens at the slot (R377, R379). -/
def Dev.askedAct (q : Req) (d : Dev) : Dev :=
  match q.who with
  | .device => d
  | .prog p =>
    let r := d.actReq q.who q.code q.res
    match d.claim r with
    | (.granted, d) => d.bump Reg.calRun
    | (.waits, d) =>
      match d.prog p with
      | some x =>
        match insOf x.words with
        | some i => ((d.logIns x i stDeferred d.ns).bump Reg.calDefer).countScrubDefer r
        | none => d
      | none => d
    | (.placed, d) => d

/-- A periodic activity is due at the slot of turn t. -/
def Dev.periodicDue (t : Nat) (d : Dev) : Bool :=
  let scrubDue (code res : Nat) : Bool :=
    let p := d.period code res
    let iv := match p.turns with | some n => n * 4096 | none => scrubInterval code
    let x := Map.getD d.cal.scrub (calKey code res) (t * 4096, 0)
    !p.suspended && x.1 + x.2 * iv ≤ t * 4096
  ((List.range d.lanes).any fun l =>
      ((d.lanePort l).map d.portUp).getD false && d.turnDue t 0x01 l (t % 512 == 0 && t / 512 % 8 == l % 8))
    || (d.livePorts.any fun p => d.turnDue t 0x20 p (t % 4096 == 0) || d.hrDue p)
    || (d.dmc.ready
      && (((List.range 12).any fun c => d.turnDue t 0x10 c (t % 64 == 0) || d.turnDue t 0x12 c (t % 64 == 0)
            || (!d.retraining c && d.turnDue t 0x13 c (t % 64 == 4 * c + 1)))
          || scrubDue 0x30 0 || scrubDue 0x31 0 || (List.range d.blocks).any fun l => scrubDue 0x32 l))

/-- A turn that a forward step skipped is being served: its calibration slot is not run (R63, R372). -/
def Dev.inStep (d : Dev) : Bool :=
  match d.reel.stepTo with
  | some (t0, _) => t0 < d.reel.served
  | none => false

/-- What the slot of the boundary just reached has to start (R371, R372). -/
def Dev.markSlot (d : Dev) : Dev :=
  let due := !d.inStep && d.periodicDue d.reel.served
  d.onCal fun c => { c with due }

/-- Orders 6 and 7 of turn t are over (Table 2.5): no wait due by it is left, and its calibration slot has run or has nothing to start. -/
def Dev.slotOver (t : Nat) (d : Dev) : Bool :=
  d.waitsOver t && (t ≤ d.cal.slotAt || d.inStep || (!d.cal.due && d.cal.asked.all fun q => t ≤ q.turn))

/-- CALIBRATION_SLOT (R372): order 7 of the last boundary reached, once, after order 6. -/
def execCalibrationSlot (s : State) : Host.Outcome State Fault Refusal :=
  s.run true fun d =>
    let t := d.reel.served
    d.when (!d.slotOver t && d.reached t && d.waitsOver t) fun d =>
      let asked := d.cal.asked.filter fun q => q.turn < t
      let d := d.onCal fun c => { c with slotAt := t, due := false, asked := c.asked.filter fun q => t ≤ q.turn }
      (asked.foldl (fun d q => d.askedAct q) d).periodic t

/-! ## Orders 8 and 9 (R72, R75, R446) -/

/-- MODERATION_TIMER_EXPIRY (R446): order 8, after orders 6 and 7. -/
def execModerationTimerExpiry (q : Nat) (s : State) : Host.Outcome State Fault Refusal :=
  s.run (q < 65536) fun d =>
    match (d.qp q).timerAt with
    | some t => d.when (d.reached t && d.slotOver t) fun d => (d.toHclk.onQp q fun x => { x with timerAt := none }).message q
    | none => d

/-- No effect of order 8 is left at the boundary of turn t (Table 2.5): every moderation timer due by it has expired. -/
def Dev.timersOver (t : Nat) (d : Dev) : Bool :=
  d.hif.qps.all fun e => match e.2.timerAt with | some u => t < u | none => true

/-- The AT program to start: the earliest turn, then the order of acceptance (R63, R75). -/
def Dev.nextAt (d : Dev) : Option Prog :=
  d.spl.atList.foldl (fun (a : Option Prog) x =>
    match a with
    | none => some x
    | some y => if x.turn.getD 0 < y.turn.getD 0 then some x else some y) none

/-- AT_PROGRAM_START (R75): at its turn, order 9 of Table 2.5 after orders 6 to 8, when one of the 16 places is free. -/
def execAtProgramStart (s : State) : Host.Outcome State Fault Refusal :=
  s.run true fun d =>
    d.with' d.nextAt fun x d =>
      let t := x.turn.getD 0
      d.when (d.reached t && d.slotOver t && d.timersOver t && d.spl.progs.length < 16) fun d =>
        d.toHclk.onSpl fun s => { s with atList := s.atList.filter (·.seq != x.seq), progs := s.progs ++ [x] }

/-! ## CAL (R379, R380) -/

/-- The activity codes of Table 12.1. -/
def calCodes : List Nat := [0x01, 0x02, 0x10, 0x11, 0x12, 0x13, 0x20, 0x30, 0x31, 0x32, 0x40, 0x41]

/-- Codes with no default period. -/
def noPeriod (code : Nat) : Bool := code == 0x02 || code == 0x11 || code == 0x40 || code == 0x41

/-- The resource an activity names exists, and its port is enabled (R379). -/
def Dev.resOk (code res : Nat) (d : Dev) : Bool :=
  match code with
  | 0x01 => res < d.lanes && ((d.lanePort res).map fun p => (d.port p).enable).getD false
  | 0x02 | 0x20 => res < d.lanes && (d.port res).enable
  | 0x10 | 0x11 | 0x12 | 0x13 => res < 12
  | 0x32 => res < d.blocks
  | 0x40 => res < 16
  | _ => res == 0

/-- CAL's operands (R141, R379, Table 12.4). -/
def Dev.calOk (i : Ins) (d : Dev) : Bool :=
  let w := i.w 0
  calCodes.contains i.field && i.len == 2 && bits w 2 30 == 0 && d.resOk i.field i.a
    && (w % 4 == 0 || !noPeriod i.field) && (w % 4 == 1 || bits w 32 32 == 0)

/-- CAL completes NOT_READY: a DRAM activity or a scrub before DRAM READY (R379). -/
def Dev.calNotReady (code : Nat) (d : Dev) : Bool := !d.dmc.ready && ((0x10 ≤ code && code ≤ 0x13) || (0x30 ≤ code && code ≤ 0x32))

/-- A CAL instruction: its operands, readiness, then its effect. -/
def Dev.calIns (i : Ins) (f : Dev → SpRes) (d : Dev) : SpRes :=
  if !d.calOk i then .done stBadOperand d 0 else if d.calNotReady i.field then .done stNotReady d 0 else f d

/-- Change the period of a CAL's activity. -/
def Dev.onPeriod (i : Ins) (f : Period → Period) : Dev → Dev :=
  Dev.onCal fun c => { c with periods := Map.modify c.periods (calKey i.field i.a) {} f }

/-- Size of a flash area (Table 20.3), of a flash of 16 MiB (log 22); 0 for a reserved one. -/
def areaSize (area : Nat) : Nat :=
  match area with
  | 0 => 0x10000
  | 1 | 2 => 0x100000
  | 3 | 4 => 0x40000
  | 5 => 0x400000
  | 6 => 0x1000000 - 0x690000
  | _ => 0

/-- Offset of a flash area (Table 20.3). -/
def areaBase (area : Nat) : Nat :=
  match area with
  | 1 => 0x10000
  | 2 => 0x110000
  | 3 => 0x210000
  | 4 => 0x250000
  | 5 => 0x290000
  | 6 => 0x690000
  | _ => 0

/-- FLASH_WRITE may write an area (R587, R590): not 0 or 5, not of the active slot, large enough for FL_LEN, no trial under way. -/
def Boot.areaOk (b : Boot) (area : Nat) : Bool :=
  area != 0 && area != 5 && b.flLen ≤ areaSize area && area < 7 && !b.shTrial && !b.capTrial
    && !(if b.dir.active = 0 then area == 1 || area == 3 else area == 2 || area == 4)

/-- FLASH_WRITE's own checks (R590): the area is not 0 or 5, does not belong to the active slot, and holds the length. -/
def Dev.flashOk (code area : Nat) (d : Dev) : Bool := code != 0x40 || d.boot.areaOk area

/-- CAL mode RUN (R379): it waits for the next slot. -/
def execCalRun (p : Nat) (s : State) : Host.Outcome State Fault Refusal :=
  s.run true (Dev.runIns p (fun i => i.op == 0x21 && i.w 0 % 4 == 0) fun x i d => d.calIns i (fun d =>
    if !d.flashOk i.field i.a then .done stBadOperand d 0
    else
      .wait (d.onCal fun c => { c with asked := c.asked ++ [{ who := .prog x.seq, code := i.field, res := i.a, claims := [], turn := d.reel.served }] })
        (.activity i.field i.a) none))

/-- CAL mode SET_PERIOD (R379, Table 12.4). The next run comes one new period after the instruction: the model's choice, the spec gives the period no phase (log 74). -/
def execCalSetPeriod (p : Nat) (s : State) : Host.Outcome State Fault Refusal :=
  s.run true (Dev.runIns p (fun i => i.op == 0x21 && i.w 0 % 4 == 1) fun _ i d => d.calIns i (fun d =>
    let n := bits (i.w 0) 32 32
    let d := d.onPeriod i fun e => { e with turns := if n = 0 then none else some n, next := d.turn + n }
    .done stDone (d.onCal fun c => { c with scrub := Map.del c.scrub (calKey i.field i.a) }) 0))

/-- CAL mode SUSPEND (R380). -/
def execCalSuspend (p : Nat) (s : State) : Host.Outcome State Fault Refusal :=
  s.run true (Dev.runIns p (fun i => i.op == 0x21 && i.w 0 % 4 == 2) fun _ i d => d.calIns i (fun d =>
    .done stDone (d.onPeriod i fun e => { e with suspended := true }) 0))

/-- CAL mode RESUME (R379): a scrub's schedule is taken up afresh. -/
def execCalResume (p : Nat) (s : State) : Host.Outcome State Fault Refusal :=
  s.run true (Dev.runIns p (fun i => i.op == 0x21 && i.w 0 % 4 == 3) fun _ i d => d.calIns i (fun d =>
    let d := d.onPeriod i fun e => { e with suspended := false, next := d.turn + 1 }
    .done stDone (d.onCal fun c => { c with scrub := Map.del c.scrub (calKey i.field i.a) }) 0))

/-! ## Grants (R375 to R377) -/

/-- MAINT_REQUEST_GRANT (R376, R377): a waiting request of a program (`who`) or of the device takes its tokens when neither a holder nor an earlier request conflicts. -/
def execMaintRequestGrant (who : Option Nat) (code res : Nat) (s : State) : Host.Outcome State Fault Refusal :=
  s.run true fun d =>
    let w : Who := match who with | some p => .prog p | none => .device
    let mine (r : Req) : Bool := r.who == w && r.code == code && r.res == res
    match d.cal.waiting.find? mine with
    | none => d
    | some r =>
      d.when (d.grantable (d.cal.waiting.takeWhile fun x => !mine x) r) fun d =>
        let d := d.onCal fun c => { c with waiting := c.waiting.erase r, holds := c.holds ++ [{ req := r, start := d.pclk }] }
        let d := match who with
          | some p => if code = 0 then d.onProg p fun x => { x with phase := .running } else d.bump Reg.calRun
          | none => d.bump Reg.calRun
        d.enterPlaces 64

/-! ## What each activity does while it holds its tokens -/

/-- The activity of a code on a resource, started and not yet run: it runs, with the conditions it was taken under (R381), and has its effect. -/
def Dev.act (code res : Nat) (temp : Int) (bin : Nat) (f : Hold → Dev → Dev) (d : Dev) : Dev :=
  match d.cal.holds.find? fun h => h.req.code == code && h.req.res == res && !h.ran with
  | none => d
  | some h => f h (d.onCal fun c => { c with holds := c.holds.map fun x => if x = h then { x with ran := true, temp, bin } else x })

/-- SERDES_SCAN (R371): the eye margin of one lane; nothing but its result is kept. -/
def execSerdesScan (lane : Nat) (temp : Int) (bin : Nat) (s : State) : Host.Outcome State Fault Refusal :=
  s.run (lane < 256 && bin < 4) (Dev.act 0x01 lane temp bin fun _ d => d)

/-- SERDES_RECAL (R371, R382): the re-adapted receivers take over at a turn boundary, when the activity ends. -/
def execSerdesRecal (port : Nat) (temp : Int) (bin : Nat) (s : State) : Host.Outcome State Fault Refusal :=
  s.run (port < 256 && bin < 4) (Dev.act 0x02 port temp bin fun _ d => d)

/-- DRAM_EYE (R384): a step of at most one; one that would leave the range asks for a retrain instead (R383). -/
def execDramEye (ch : Nat) (dir : Int) (limit : Bool) (temp : Int) (bin : Nat) (s : State) : Host.Outcome State Fault Refusal :=
  s.run (ch < 12 && bin < 4 && dir.natAbs ≤ 1) (Dev.act 0x10 ch temp bin fun _ d =>
    if limit then (d.bump Reg.calEyeLimit).deviceAsk 0x11 ch
    else d.onCal fun c => { c with eyeStep := Map.modify c.eyeStep ch 0 (· + dir) })

/-- DRAM_RETRAIN (R374): the channel's read delays are trained afresh; it serves no access while its tokens are held. -/
def execDramRetrain (ch : Nat) (temp : Int) (bin : Nat) (s : State) : Host.Outcome State Fault Refusal :=
  s.run (ch < 12 && bin < 4) (Dev.act 0x11 ch temp bin fun _ d =>
    (d.onCal fun c => { c with eyeStep := Map.put c.eyeStep ch 0 }).onChan ch fun c => { c with rows := [] })

/-- DRAM_PATROL (R535): corrected lines are written back, uncorrectable ones recorded and poisoned, unread ones carried. -/
def execDramPatrol (ch : Nat) (hard : List Nat) (fixed : List (Nat × Nat)) (carried : Nat) (s : State) : Host.Outcome State Fault Refusal :=
  s.run (ch < 12) (Dev.act 0x12 ch 0 0 fun _ d =>
    let d := fixed.foldl (fun d e => d.corrected ch e.1 e.2) d
    let d := hard.foldl (fun d a => d.uncorrectable ch a true) d
    d.add (Reg.dmcCPatrolCarry ch) carried)

/-- DRAM_TRACK (R371, R382, R519): rows close in the window, and the guard band of a replaced provisional result falls away. -/
def execDramTrack (ch : Nat) (s : State) : Host.Outcome State Fault Refusal :=
  s.run (ch < 12) (Dev.act 0x13 ch 0 0 fun _ d =>
    let prov := ((Map.find d.cal.dram ch).map (·.prov)).getD false
    (d.onChan ch fun c => { c with rows := [] }).onCal fun c => { c with guard := if prov then c.guard else c.guard.filter (· != ch) })

/-- HEADROOM (R239): the port's delay is taken from its samples. -/
def execHeadroom (port : Nat) (temp : Int) (bin : Nat) (s : State) : Host.Outcome State Fault Refusal :=
  s.run (port < 256 && bin < 4) (Dev.act 0x20 port temp bin fun _ d =>
    match Map.getD d.path.delays port [] with
    | [] => d.recompute
    | l => (d.onPath fun y => { y with delayNs := Map.put y.delayNs port (l.foldl max 0, true, bin == 0) }).recompute)

/-- A region's lines compared: good but for those that mismatched or whose shadow could not be read, which keep the turn of their last good compare (R221, R222, R224). -/
def Dev.compared (tab first n : Nat) (not' : List Nat) (d : Dev) : Dev :=
  let kept := not'.map fun l => (lineKey tab l, d.lastGood tab l)
  let lo := lineKey tab first
  d.onTbl fun t => { t with
    goodTurn := Map.put t.goodTurn (scrubRegion tab first) d.turn
    lastGood := kept.foldl (fun m e => Map.put m e.1 e.2) (t.lastGood.filter fun e => e.1 < lo || lo + n ≤ e.1) }

/-- A scrub step of the searched tables over n lines: every mismatching line is repaired, every uncorrectable shadow read counted, its line kept and its shadow rewritten (R222, R224). Lines are given by their place in the region. -/
def Dev.scrubStep (n : Nat) (h : Hold) (bad shadowErr : List Nat) (d : Dev) : Dev :=
  let first := regionLine h.req.code h.req.res h.req.region
  let at' (l : Nat) : Nat := first.2 + l
  let d := d.add Reg.tblShadowErr shadowErr.length
  let d := bad.foldl (fun d l => d.startRepair first.1 (at' l)) d
  d.compared first.1 first.2 n ((bad ++ shadowErr).map at')

/-- Close one LPM hole: the regions in turn, the other where one has none (R210). -/
def Dev.closeOne (d : Dev) : Dev :=
  let w := d.tbl.holeWide
  let has := if w then d.tbl.wide.any wideBand.hole else d.tbl.narrow.any narrowBand.hole
  let r := d.tbl.closeHole (if has then w else !w)
  ({ d with tbl := { r.1.trimRaw with holeWide := !w } } : Dev).add Reg.tblLpmMove r.2

/-- TCAM_SCRUB (R210, R221): a step of 256 rows. -/
def execTcamScrub (bad shadowErr : List Nat) (s : State) : Host.Outcome State Fault Refusal :=
  s.run (bad.all (· < 256) && shadowErr.all (· < 256)) (Dev.act 0x30 0 0 0 fun h d => (d.scrubStep 256 h bad shadowErr).closeOne)

/-- EXACT_SCRUB (R221): a step of 1,024 lines. -/
def execExactScrub (bad shadowErr : List Nat) (s : State) : Host.Outcome State Fault Refusal :=
  s.run (bad.all (· < 1024) && shadowErr.all (· < 1024)) (Dev.act 0x31 0 0 0 fun h d => d.scrubStep 1024 h bad shadowErr)

/-- AUT_SCRUB (R325, R326): a step of 16 lines in each unit of a lay's set; single-bit errors it corrects are counted. -/
def execAutScrub (lay : Nat) (found : AutScrubFound) (s : State) : Host.Outcome State Fault Refusal :=
  s.run (lay < 32) (Dev.act 0x32 lay 0 0 fun h d =>
    let kept := found.bad.map fun e => (unitLine e.1 e.2, d.unitGood e.1 e.2)
    let d := found.bad.foldl (fun d e => d.startUnitRepair e.1 e.2) (d.add Reg.autEccCorrect found.fixed)
    let units := (List.range 64).filter fun u => d.unitLay u == lay
    let first (u : Nat) : Nat := unitLine u (16 * h.req.region)
    d.onAut fun a => { a with
      goodTurn := units.foldl (fun m u => Map.put m (u * 256 + h.req.region) d.turn) a.goodTurn
      lastGood := kept.foldl (fun m e => Map.put m e.1 e.2)
        (a.lastGood.filter fun e => !units.any fun u => first u ≤ e.1 && e.1 < first u + 16) })

/-! ## The end of an activity (R381, R382) -/

/-- The duration of an activity in pclk, where it is exact (Table 12.1). -/
def actPclk (code : Nat) : Nat :=
  let turns (n : Nat) : Nat := ceilDiv (n * 12288) 5
  match code with
  | 0x01 => turns 16
  | 0x02 => turns 256
  | 0x10 => turns 64
  | 0x11 => 480000
  | 0x13 => 308
  | 0x20 => turns 1
  | _ => 0

/-- The result an activity stores (R381): provisional in bin 0. -/
def Hold.result (h : Hold) (turn : Nat) : Result := { temp := h.temp, bin := h.bin, prov := h.bin == 0, turn }

/-- The results an ended activity stores, and the guard band it sets (R381, R382). -/
def Dev.store (h : Hold) (d : Dev) : Dev :=
  let r := h.result d.turn
  match h.req.code with
  | 0x01 => d.onCal fun c => { c with serdes := Map.put c.serdes ((d.lanePort h.req.res).getD h.req.res) r }
  | 0x02 => d.onCal fun c => { c with serdes := Map.put c.serdes h.req.res r }
  | 0x10 | 0x11 => d.onCal fun c => { c with
      dram := Map.put c.dram h.req.res r
      guard := if r.prov && !c.guard.contains h.req.res then c.guard ++ [h.req.res] else c.guard }
  | 0x20 => d.onCal fun c => { c with hroom := Map.put c.hroom h.req.res r }
  | _ => d

/-- A scrub step ends: the next region, and a pass that is complete (R221, R325). -/
def Dev.stepEnd (h : Hold) (d : Dev) : Dev :=
  let n := regionsOf h.req.code
  let last := h.req.region + 1 = n
  let next := (d.scrubPos h.req.code h.req.res + 1) % n
  match h.req.code with
  | 0x30 => (d.onTbl fun t => { t with tcamPos := next }).bumpIf last Reg.tblScrubPass
  | 0x31 => (d.onTbl fun t => { t with exactPos := next }).bumpIf last Reg.tblScrubPass
  | 0x32 => (d.onAut fun a => { a with scrubPos := Map.put a.scrubPos h.req.res next }).bumpIf (last && h.req.res + 1 == d.blocks)
      Reg.autScrubPass
  | _ => d

/-- The end of an activity is reached: its duration is over, and re-adapted receivers are swapped in at a turn boundary (Table 12.1). -/
def Dev.actOver (h : Hold) (d : Dev) : Dev :=
  let d := d.due (h.start + actPclk h.req.code)
  if h.req.code = 0x02 then d.dueNs (ceilDiv d.ns 1024 * 1024) else d

/-- MAINT_ACTIVITY_END (R381): the result is stored, the tokens are free, a CAL that asked for it completes DONE. -/
def execMaintActivityEnd (code res : Nat) (s : State) : Host.Outcome State Fault Refusal :=
  s.run true fun d =>
    match d.cal.holds.find? fun h => h.req.code == code && h.req.res == res && h.ran with
    | none => d
    | some h =>
      let d := d.actOver h
      let d := ((d.onCal fun c => { c with holds := c.holds.erase h }).store h).stepEnd h
      let d := match h.req.who with | .prog p => d.endWait p stDone | .device => d
      d.enterPlaces 64

/-! ## Retakes (R383) -/

/-- The stored result a retake trigger of a code and resource concerns. -/
def Dev.resultOf (code res : Nat) (d : Dev) : Option Result :=
  match code with
  | 0x01 | 0x02 => Map.find d.cal.serdes res
  | 0x10 | 0x11 => Map.find d.cal.dram res
  | 0x20 => Map.find d.cal.hroom res
  | _ => none

/-- A retake is requested (Table 12.7): SERDES_RECAL, a DRAM_EYE sweep, or 16 fresh delay samples, after which HEADROOM runs at a slot (`Dev.hrDue`). -/
def Dev.retake (code res : Nat) (d : Dev) : Dev :=
  let mark (m : Map Result) : Map Result := match Map.find m res with | some r => Map.put m res { r with retake := true } | none => m
  match code with
  | 0x01 | 0x02 => (d.onCal fun c => { c with serdes := mark c.serdes }).deviceAsk 0x02 res
  | 0x10 | 0x11 => (d.onCal fun c => { c with dram := mark c.dram }).deviceAsk 0x10 res
  | _ => ((d.onCal fun c => { c with hroom := mark c.hroom }).onPath fun y => { y with delays := Map.del y.delays res })

/-- RETAKE_LOAD_TRIGGER (R383): a provisional result under load for 1,024 turns. -/
def execRetakeLoadTrigger (code res : Nat) (s : State) : Host.Outcome State Fault Refusal :=
  s.run true fun d =>
    match d.resultOf code res with
    | some r => d.when (r.prov && !r.retake) fun d => (d.retake code res).bump Reg.calRetakeLoad
    | none => d

/-- RETAKE_TEMP_TRIGGER (R383): 6 °C or more from the capture temperature, in quarters of a degree. -/
def execRetakeTempTrigger (code res : Nat) (temp : Int) (s : State) : Host.Outcome State Fault Refusal :=
  s.run true fun d =>
    match d.resultOf code res with
    | some r => d.when (!r.retake && 24 ≤ (temp - r.temp).natAbs) fun d => (d.retake code res).bump Reg.calRetakeTemp
    | none => d

end Sys2Proof.Machine
end

