-- ==== Sys2Proof/Machine/Conn.lean ====
section
/-! DEFINITION. RDMA connections: contexts, frames sent, requests posted (R495, R499, R500, R504, R505, R509). -/
namespace Sys2Proof.Machine

/-! ## Contexts (R499) -/

/-- Change the RDMA engine. -/
def Dev.onRdm (f : Rdm → Rdm) (d : Dev) : Dev := { d with rdm := f d.rdm }

/-- Connection c. -/
def Dev.conn (d : Dev) (c : Nat) : Conn := Map.getD d.rdm.conns c {}

/-- Change connection c. -/
def Dev.onConn (c : Nat) (f : Conn → Conn) : Dev → Dev := Dev.onRdm fun r => { r with conns := Map.modify r.conns c {} f }

/-- A send or receive uses connection c's context: the 8,192 used last stay cached (R499). -/
def Dev.touchConn (c : Nat) (d : Dev) : Dev :=
  (d.bumpIf (!d.rdm.cached.contains c) Reg.rdmCacheMiss).onRdm fun r => { r with cached := (c :: r.cached.filter (· != c)).take 8192 }

/-! ## Frames sent (R495, R504, R505) -/

/-- Kinds of frame a connection sends, as numbered in `Config.rdmaFrame`: SEND, READ response, ACK, and the three NAKs and CNP. -/
inductive RSend where
  | send | readResp | ack | nakSeq | nakAccess | nakInvalid | cnp
  deriving DecidableEq, Repr

/-- The number of a kind. -/
def RSend.code : RSend → Nat
  | .send => 0
  | .readResp => 1
  | .ack => 2
  | .nakSeq => 3
  | .nakAccess => 4
  | .nakInvalid => 5
  | .cnp => 6

/-- A kind whose IV and EXH carry the control count (Table 17.5). -/
def RSend.control (k : RSend) : Bool := 2 ≤ k.code

/-- Send a frame on connection c: an ingress packet of row 256 of its lay, in its class (R495); a control packet of an encrypted connection takes the next control count (R505). -/
def Dev.rdmaSend (c : Nat) (k : RSend) (psn epoch : Nat) (payload : List Byte) (d : Dev) : Dev :=
  let d := d.touchConn c
  let x := d.conn c
  let exh := if k.control then x.ctlTx + 1 else epoch
  let d := if k.control && x.encrypt then d.onConn c fun x => { x with ctlTx := x.ctlTx + 1 } else d
  (d.send .rdmaPacket [c, k.code, psn, exh] payload).injectFrame x.lay
    { qp := 65536, desc := 0, cls := x.cls, domain := 0, user0 := 0, bytes := Config.rdmaFrame x.addr k.code psn exh payload }

/-! ## Requests (R500, R509) -/

/-- Payload bytes not yet acknowledged (R509). -/
def Conn.inFlight (x : Conn) : Nat := (x.reqs.map (·.len)).sum

/-- A request may be sent: ACTIVE, fewer than 128 outstanding, within the window (R500, R509). -/
def Conn.mayPost (x : Conn) (len : Nat) : Bool := x.st == .active && x.reqs.length < 128 && x.inFlight + len ≤ x.window

/-- PSNs a payload takes at an MTU. -/
def Conn.psns (x : Conn) (len : Nat) : Nat := max 1 (ceilDiv len x.mtu)

/-- Send one request's packets from a PSN on, of the connection's epoch (R500, R504). -/
def Dev.sendReq (c : Nat) (r : RReq) (payload : List Byte) (d : Dev) : Dev :=
  let x := d.conn c
  (List.range r.n).foldl (fun d i => d.rdmaSend c .send ((r.psn + i) % 2 ^ 24) x.epoch ((payload.drop (i * x.mtu)).take x.mtu)) d

/-- Post a request that carries a storage part (R487, R500). -/
def Dev.postReq (c part : Nat) (payload : List Byte) (d : Dev) : Dev :=
  let x := d.conn c
  let r : RReq := { psn := x.psn, n := x.psns payload.length, len := payload.length, part, sent := d.ns }
  (d.onConn c fun x => { x with
    psn := (x.psn + r.n) % 2 ^ 24, reqs := x.reqs ++ [r], since := x.since.or (some d.turn) }).sendReq c r payload

end Sys2Proof.Machine
end

