-- ==== Sys2Proof/Machine/Store.lean ====
section
/-! DEFINITION. The storage engine: the volume map, commands, parts, order, aborts, the relay, archive writes (16_storage.md, R300 to R302). -/
namespace Sys2Proof.Machine

/-- Change the storage engine. -/
def Dev.onSto (f : Sto → Sto) (d : Dev) : Dev := { d with sto := f d.sto }

/-! ## Key slots other blocks name (R547, R549) -/

/-- Change the sheath. -/
def Dev.onShe (f : She → She) (d : Dev) : Dev := { d with she := f d.she }

/-- A slice may use key slot n for a usage: it is occupied, of that usage, and owned by the slice unless the slice is 0 (R549). -/
def Dev.slotFor (slice usage n : Nat) (d : Dev) : Option KeySlot :=
  (Map.find d.she.slots n).filter fun k => k.usage == usage && (slice == 0 || k.owner == slice)

/-- Change the number of bindings that name a slot (R549). -/
def Dev.refSlot (n : Nat) (f : Nat → Nat) : Dev → Dev := Dev.onShe fun s =>
  match Map.find s.slots n with
  | some k => { s with slots := Map.put s.slots n { k with refs := f k.refs } }
  | none => s

/-! ## The volume map (R478 to R480, Table 16.4) -/

/-- Blocks of an extent lie in a range of a volume. -/
def Ext.meets (e : Ext) (vol first len : Nat) : Bool := e.vol == vol && e.first < first + len && first < e.first + e.len

/-- Blocks mapped device-wide, without an extent. -/
def Sto.mappedBut (s : Sto) (idx : Nat) : Nat := ((s.exts.filter fun e => e.1 != idx).map (·.2.len)).sum

/-- The extent that holds a block of a volume. -/
def Sto.extOf (s : Sto) (vol b : Nat) : Option Ext := (s.exts.find? fun e => e.2.meets vol b 1).map (·.2)

/-- A command of a volume started under the mapping before the cut is not completed (R480). -/
def Sto.draining (s : Sto) (vol cut : Nat) : Bool := s.cmds.any fun c => c.started && c.vol == vol && c.id < cut

/-- A VOLSET that changes a mapping waits for the commands started under the old one (R480). -/
def Dev.volWait (v : Nat) (d : Dev) : SpRes :=
  if d.sto.draining v d.sto.nextCmd then .wait d (.volume v d.sto.nextCmd) none else .done stDone d 0

/-- VOLSET, operation 0 (R479, Table 16.4). -/
def execVolsetVolume (p : Nat) (s : State) : Host.Outcome State Fault Refusal :=
  s.run true (Dev.runIns p (fun i => i.op == 0x35 && i.w 0 % 4 == 0) fun x i d =>
    let w := i.w 0
    let xts := bit w 4
    let slot := bits w 5 8
    if i.field != 0 || i.len != 3 || 16384 ≤ i.a || bits w 13 51 != 0 || 2 ^ 42 ≤ i.w 1 then .done stBadOperand d 0
    else if !d.dmc.ready then .done stNotReady d 0
    else
      let old := Map.find d.sto.vols i.a
      let drop (d : Dev) : Dev := match old.bind (·.xts) with | some n => d.refSlot n (· - 1) | none => d
      if bit w 2 then
        if xts && (d.slotFor (d.qp x.qp).slice 3 slot).isNone then .done stBadOperand d 0
        else if d.sto.exts.any fun e => e.2.vol == i.a && i.w 1 < e.2.first + e.2.len then .done stBadOperand d 0
        else
          let d := (drop d).onSto fun y => { y with
            vols := Map.put y.vols i.a { ro := bit w 3, xts := if xts then some slot else none, size := i.w 1 } }
          .done stDone (if xts then d.refSlot slot (· + 1) else d) 0
      else Dev.volWait i.a ((drop d).onSto fun y => { y with vols := Map.del y.vols i.a }))

/-- VOLSET, operation 1 (R479, R480, Table 16.4). -/
def execVolsetExtent (p : Nat) (s : State) : Host.Outcome State Fault Refusal :=
  s.run true (Dev.runIns p (fun i => i.op == 0x35 && i.w 0 % 4 == 1) fun _ i d =>
    let w := i.w 0
    let idx := bits w 12 20
    let e : Ext := { vol := i.a, first := i.w 1, len := bits (i.w 2) 0 32, target := bits (i.w 2) 32 10, at' := i.w 3 }
    if i.field != 0 || i.len != 5 || 16384 ≤ i.a || bits w 3 9 != 0 || bits w 32 32 != 0 || 2 ^ 42 ≤ e.first || bits (i.w 2) 42 22 != 0 then
      .done stBadOperand d 0
    else if !d.dmc.ready then .done stNotReady d 0
    else if bit w 2 then
      if e.len = 0 then .done stBadOperand d 0
      else if 2 ^ 42 < d.sto.mappedBut idx + e.len then .done stFull d 0
      else if ((Map.find d.sto.vols i.a).map (·.size)).getD 0 < e.first + e.len ∨ (Map.find d.sto.tgts e.target).isNone
          ∨ (d.sto.exts.any fun o => o.1 != idx && o.2.meets e.vol e.first e.len) then .done stBadOperand d 0
      else
        let old := Map.find d.sto.exts idx
        let d := d.onSto fun y => { y with exts := Map.put y.exts idx e }
        match old with
        | some o => d.volWait o.vol
        | none => .done stDone d 0
    else
      let vol := ((Map.find d.sto.exts idx).map (·.vol)).getD i.a
      Dev.volWait vol (d.onSto fun y => { y with exts := Map.del y.exts idx }))

/-- VOLSET, operation 2 (R479, Table 16.4): every root link is present (log 23). -/
def execVolsetTarget (p : Nat) (s : State) : Host.Outcome State Fault Refusal :=
  s.run true (Dev.runIns p (fun i => i.op == 0x35 && 2 ≤ i.w 0 % 4) fun _ i d =>
    let w := i.w 0
    let t : Tgt := {
      online := bit w 3, remote := bit w 4, lba512 := bit w 5, link := bits w 6 4, limit := bits w 10 4
      nsid := bits (i.w 1) 0 32, timeout := if bits (i.w 1) 32 32 = 0 then 7812500 else bits (i.w 1) 32 32
      routing := bits (i.w 2) 0 16, conn := bits (i.w 2) 16 17, conns := bits (i.w 2) 33 3 + 1 }
    if i.field != 0 || w % 4 == 3 || i.len != 4 || 8 < t.limit || bits w 14 50 != 0 || bits (i.w 2) 36 28 != 0 then .done stBadOperand d 0
    else if !d.dmc.ready then .done stNotReady d 0
    else if 1024 ≤ i.a then .done stFull d 0
    else if bit w 2 then .done stDone (d.onSto fun y => { y with tgts := Map.put y.tgts i.a t }) 0
    else if d.sto.exts.any fun e => e.2.target == i.a then .done stBadOperand d 0
    else .done stDone (d.onSto fun y => { y with tgts := Map.del y.tgts i.a }) 0)

/-- VOLSET_DRAIN_DONE (R480). -/
def execVolsetDrainDone (p : Nat) (s : State) : Host.Outcome State Fault Refusal :=
  s.run true fun d =>
    match d.waitOf p with
    | some (.volume v cut, _) => d.when (!d.sto.draining v cut) (Dev.endWait p stDone)
    | _ => d

/-! ## Parts (R481 to R483, R487) -/

/-- Change a part of a command. -/
def Dev.onPart (id : Nat) (f : Part → Part) : Dev → Dev := Dev.onSto fun s => { s with
  cmds := s.cmds.map fun c => { c with parts := c.parts.map fun p => if p.id = id then f p else p } }

/-- The command and part of a part number. -/
def Dev.partOf (d : Dev) (id : Nat) : Option (Cmd × Part) :=
  d.sto.cmds.findSome? fun c => (c.parts.find? (·.id == id)).map fun p => (c, p)

/-- Split a run of blocks at extent boundaries and transfer limits; none where a block has no extent (R481). Fuel is one more than the most parts a command may have. -/
def Sto.split (s : Sto) (vol : Nat) : Nat → Nat → Nat → List Part
  | 0, _, _ => []
  | fuel + 1, b, n =>
    if n = 0 then []
    else
      match s.extOf vol b with
      | none => []
      | some e =>
        let lim := 2 ^ ((Map.find s.tgts e.target).map (·.limit)).getD 0
        let k := min n (min (e.first + e.len - b) lim)
        { id := 0, target := e.target, first := b, len := k, at' := e.at' + (b - e.first) } :: s.split vol fuel (b + k) (n - k)

/-- Every block of a run has an extent. Extents do not overlap, so their blocks in the run add up to it. -/
def Sto.covered (s : Sto) (vol b n : Nat) : Bool :=
  ((s.exts.filter fun e => e.2.meets vol b n).map fun e => min (e.2.first + e.2.len) (b + n) - max e.2.first b).sum == n

/-- The targets that hold an extent of a volume, each once (R476). -/
def Sto.targetsOf (s : Sto) (vol : Nat) : List Nat :=
  s.exts.foldl (fun l e => if e.2.vol == vol && !l.contains e.2.target then l ++ [e.2.target] else l) []

/-- The parts of a command: a flush to each target, or its blocks split. -/
def Cmd.partsOf (c : Cmd) (s : Sto) : List Part :=
  if c.op = 0x42 then (s.targetsOf c.vol).map fun t => { id := 0, target := t, first := 0, len := 0, at' := 0 }
  else s.split c.vol 65 c.first c.blocks

/-- The checks before any part is issued (R478, R481): the first that fails decides. -/
def Dev.cmdStatus (c : Cmd) (ps : List Part) (d : Dev) : Nat :=
  let s := d.sto
  if !d.dmc.ready then stNotReady
  else
    match Map.find s.vols c.vol with
    | none => stNotFound
    | some v =>
      if !s.covered c.vol c.first c.blocks then stNotFound
      else if v.size < c.first + c.blocks then stBadOperand
      else if v.ro && (c.op == 0x41 || c.op == 0x43) then stAccessErr
      else if ps.any fun p => !((Map.find s.tgts p.target).map (·.online)).getD false then stNotReady
      else if (match v.xts with | some n => (Map.find d.she.slots n).isNone | none => false) then stTamper
      else if (ps.map (·.len)).sum < c.blocks || 64 < ps.length then stBadOperand
      else stDone

/-- The key of a command on an XTS volume: of the slot its volume named when it started (R480), gone when that slot is zeroised. -/
def Dev.xtsKey (c : Cmd) (d : Dev) : Option (List Byte) := c.xts.bind fun n => (Map.find d.she.slots n).map (·.key)

/-- The data of a command can pass: it needs no key, or its key is there (R484, R565). -/
def Dev.mayPass (c : Cmd) (d : Dev) : Bool := c.xts.isNone || (d.xtsKey c).isSome

/-- A key slot is in use by a store command that has started and not completed (R480, R549). -/
def Dev.slotBusy (n : Nat) (d : Dev) : Bool := d.sto.cmds.any fun c => c.started && !c.fin && c.xts == some n

/-- Opcode of the NVM command set, or flush, for a device opcode (R483). -/
def nvmeOp (op : Nat) : Nat := if op = 0x40 then 2 else if op = 0x41 then 1 else if op = 0x42 then 0 else 9

/-- The numbers of a part's NVMe command: opcode, namespace, first LBA, LBAs, FUA, part (R483). -/
def Part.nvme (p : Part) (c : Cmd) (t : Tgt) : List Nat :=
  let m := if t.lba512 then 8 else 1
  [nvmeOp c.op, t.nsid, p.at' * m, p.len * m, ofBit c.fua, p.id]

/-- The capsule of a remote part (R487): the numbers of its command and its R_Key, in 64 bytes (log 12). -/
def Part.capsule (p : Part) (c : Cmd) (t : Tgt) : List Byte := padTo 64 ((p.nvme c t ++ [p.key]).flatMap (le 8))

/-- The ACTIVE connections of a target, from the one its block selects on (R487, R488). -/
def Dev.liveConns (t : Tgt) (b : Nat) (d : Dev) : List Nat :=
  ((List.range t.conns).map fun i => t.conn + (b + i) % t.conns).filter fun c => (d.conn c).st == .active

/-- Table 16.6 and R487: issue a part that waits: to its controller, or on a connection with room; with no connection left it ends NOT_READY. -/
def Dev.issuePart (c : Cmd) (p : Part) (d : Dev) : Dev :=
  match Map.find d.sto.tgts p.target with
  | none => d
  | some t =>
    let opens := c.op == 0x40 || c.op == 0x41
    if t.remote then
      match d.liveConns t p.first with
      | [] => d.onPart p.id fun p => { p with st := .ended stNotReady 0 0 }
      | k :: _ =>
        if (d.conn k).mayPost 64 then
          let key := (p.id % 2 ^ 24) + (((d.drbg 1).head?.getD 0).toNat) * 2 ^ 24
          let d := (d.draw 1).onPart p.id fun p => { p with st := .issued d.turn, open' := opens, conn := some k, key }
          d.postReq k p.id (Part.capsule { p with key } c t)
        else d.onPart p.id fun p => { p with conn := some k }
    else
      let d := d.onPart p.id fun p => { p with st := .issued d.turn, open' := opens }
      if bit d.pwr.spLost (t.link / 4) then d else d.sendGated .nvme (t.link :: t.routing :: p.nvme c t) []

/-- Parts that wait for their connection are issued while there is room (R500, R509). -/
def Dev.retryParts (d : Dev) : Dev :=
  (d.sto.cmds.flatMap fun c => (c.parts.filter fun p => p.st == .waiting).map fun p => (c, p)).foldl
    (fun d e => if e.1.started && !e.1.fin then d.issuePart e.1 e.2 else d) d

/-! ## The end of a command (R472, R474, R476, R482, R490) -/

/-- The status of a part that has ended. -/
def Part.status (p : Part) : Option (Nat × Nat × Nat) := match p.st with | .ended s c t => some (s, c, t) | _ => none

/-- The deciding part (R482): the failed part with the lowest first volume block. -/
def Cmd.deciding (c : Cmd) : Option Part :=
  (c.parts.filter fun p => (p.status.map (·.1)) != some stDone).foldl (fun (a : Option Part) p =>
    match a with
    | none => some p
    | some q => if p.first < q.first then some p else some q) none

/-- The status and dwords 1 to 6 of a command's completion (Table 16.2). -/
def Cmd.outcome (c : Cmd) : Nat × List Nat :=
  match c.deciding with
  | none => (if c.aborted then stAborted else stDone, [c.parts.length * 65536, 0, 0, 0])
  | some p =>
    let s := p.status.getD (stNotReady, 0, 0)
    (if c.aborted then stAborted else s.1,
      [s.2.1 % 256 + s.2.2 % 8 * 256 + c.parts.length * 65536, p.target, p.first % 2 ^ 32, p.first / 2 ^ 32])

/-- A command all of whose parts have ended completes (R482), or its page's write has its status (R301). -/
def Dev.finishCmd (id : Nat) (d : Dev) : Dev :=
  match d.sto.cmds.find? (·.id == id) with
  | none => d
  | some c =>
    if !c.started ∨ c.fin ∨ !(c.parts.all fun p => p.status.isSome) then d
    else
      let r := c.outcome
      let d := (d.onSto fun s => { s with cmds := s.cmds.map fun x => if x.id = id then { x with fin := true } else x }).bump Reg.stoCmd
      match c.q with
      | some q => d.complete q c.desc r.1 r.2
      | none =>
        ((d.onLog fun l => { l with pages := l.pages.map fun p => if p.seq = c.desc then { p with done := some r.1 } else p }).freeTags 0 1).onSto
          fun s => { s with cmds := s.cmds.filter (·.id != id) }

/-- A part ends (R482): its relay translation closes, and its command may complete. -/
def Dev.endPart (id st code type : Nat) (d : Dev) : Dev :=
  match d.partOf id with
  | none => d
  | some (c, p) =>
    if p.status.isSome then d
    else
      ((((d.onPart id fun p => { p with st := .ended st code type, open' := false }).bump (Reg.stoTParts p.target)).bumpIf (st != stDone)
        (Reg.stoTErr p.target)).finishCmd c.id)

/-- A command completes without any part (R471, R481). -/
def Dev.refuseCmd (q id st : Nat) (d : Dev) : Dev := (d.complete q id st [0, 0, 0, 0]).bump Reg.stoCmd

/-- A command starts: it keeps its parts until it completes; those of a connection without room wait (R474, R480, R481). -/
def Dev.startCmd (c : Cmd) (ps : List Part) (d : Dev) : Dev :=
  let n := d.sto.nextPart
  let ps := ps.zipIdx.map fun e => { e.1 with id := n + e.2 }
  let c := { c with id := d.sto.nextCmd, started := true, xts := (Map.find d.sto.vols c.vol).bind (·.xts), parts := ps }
  let d := d.onSto fun s => { s with
    cmds := (s.cmds.filter fun x => !(x.q == c.q && x.desc == c.desc)) ++ [c], nextCmd := s.nextCmd + 1, nextPart := n + ps.length }
  let d := d.bumpIf (1 < ps.length && c.op != 0x42) Reg.stoSplit
  let d := match c.q with | some q => d.startDesc q c.desc | none => d
  (ps.foldl (fun d p => d.issuePart c p) d).finishCmd c.id

/-! ## Descriptors (R471, R474) -/

/-- Dword i of a descriptor. -/
def dw (bs : List Byte) (i : Nat) : Nat := field bs (4 * i) 4

/-- A quadword of a descriptor, from dword i. -/
def dq (bs : List Byte) (i : Nat) : Nat := field bs (4 * i) 8

/-- Dwords of a descriptor that must be 0. -/
def zeros (bs : List Byte) (is : List Nat) : Bool := is.all fun i => dw bs i == 0

/-- A store descriptor as a command. -/
def cmdOf (q id gen : Nat) (bs : List Byte) (scatter : List (Nat × Nat)) : Cmd :=
  let op := bits (dw bs 0) 0 8
  { id := 0, q := some q, desc := id, gen, op, ordered := bit (dw bs 0) 8, fua := bit (dw bs 0) 9, tag := bits (dw bs 0) 16 16
    vol := bits (dw bs 1) 0 14, first := dq bs 2, blocks := if op = 0x42 ∨ op = 0x44 then 0 else dw bs 4 % 65536 + 1
    buf := dq bs 6, scatter }

/-- The operand rules of Table 16.1 that the descriptor alone shows. -/
def storeDescOk (bs : List Byte) : Bool :=
  let op := bits (dw bs 0) 0 8
  let data := op == 0x40 || op == 0x41
  (data || op == 0x42 || op == 0x43 || op == 0x44) && bits (dw bs 0) 10 6 == 0 && (op == 0x41 || !bit (dw bs 0) 9)
    && (op != 0x44 || (!bit (dw bs 0) 8 && dw bs 1 == 0)) && bits (dw bs 1) 14 18 == 0 && dq bs 2 < 2 ^ 42
    && ((op != 0x42 && op != 0x44) || dq bs 2 == 0) && dw bs 4 < 65536 && (!data || dw bs 4 < 1024) && (op != 0x42 || dw bs 4 == 0)
    && dw bs 5 ≤ 1024 && (data || dq bs 6 == 0) && (dw bs 5 == 0 || dq bs 6 % 16 == 0) && zeros bs [8, 9, 10, 11, 12, 13, 14, 15]

/-- Scatter entries, if any, sum to the blocks (R471). -/
def scatterOk (bs : List Byte) (c : Cmd) : Bool :=
  dw bs 5 == 0 || (c.scatter.length == dw bs 5 && (c.scatter.map (·.2)).sum == c.blocks * 4096
    && c.scatter.all fun e => 1 ≤ e.2 && e.2 < 2 ^ 32)

/-- The descriptors fetched before one. -/
def Qp.before (x : Qp) (id : Nat) : List Desc := x.descs.takeWhile fun e => e.id != id

/-- Opcode of a fetched descriptor. -/
def Desc.op (e : Desc) : Nat := bits (dw e.bytes 0) 0 8

/-- The order rule lets a command start (R474): an ORDERED command once every earlier one has completed, any command once every earlier ORDERED one has started. -/
def Qp.mayStart (x : Qp) (id : Nat) (ordered : Bool) : Bool :=
  let prev := (x.before id).filter fun e => e.op != 0x44
  (!ordered || prev == []) && prev.all fun e => e.started || !bit (dw e.bytes 0) 8

/-- A command that the order rule holds back is counted once if it is ORDERED (R474). -/
def Dev.orderWait (c : Cmd) (d : Dev) : Dev :=
  if !c.ordered ∨ (d.sto.cmds.any fun x => x.q == c.q && x.desc == c.desc) then d
  else (d.onSto fun s => { s with cmds := s.cmds ++ [{ c with waited := true, id := 0 }] }).bump Reg.stoOrderWait

/-- A READ, WRITE, FLUSH or TRIM of queue pair q is examined: refused, held back by order, or started (R471, R474, R481). -/
def Dev.storeRow (op q id : Nat) (scatter : List (Nat × Nat)) (d : Dev) : Dev :=
  match d.desc q id with
  | none => d
  | some e =>
    if e.started || e.op != op || (d.qp q).kind != 2 then d
    else
      let c := cmdOf q id e.gen e.bytes scatter
      if !storeDescOk e.bytes || !scatterOk e.bytes c then d.refuseCmd q id stBadOperand
      else if !(d.qp q).mayStart id c.ordered then d.orderWait c
      else
        let ps := c.partsOf d.sto
        let st := d.cmdStatus c ps
        if st != stDone then d.refuseCmd q id st else d.startCmd c ps

/-- STORE_READ (R481): the entries of its scatter list are read with it. -/
def execStoreRead (q id : Nat) (scatter : List (Nat × Nat)) (s : State) : Host.Outcome State Fault Refusal :=
  s.run (q < 65536) (Dev.storeRow 0x40 q id scatter)

/-- STORE_WRITE (R481). -/
def execStoreWrite (q id : Nat) (scatter : List (Nat × Nat)) (s : State) : Host.Outcome State Fault Refusal :=
  s.run (q < 65536) (Dev.storeRow 0x41 q id scatter)

/-- STORE_FLUSH (R476): a flush to every target that holds an extent of the volume. -/
def execStoreFlush (q id : Nat) (s : State) : Host.Outcome State Fault Refusal :=
  s.run (q < 65536) (Dev.storeRow 0x42 q id [])

/-- STORE_TRIM (R477). -/
def execStoreTrim (q id : Nat) (s : State) : Host.Outcome State Fault Refusal :=
  s.run (q < 65536) (Dev.storeRow 0x43 q id [])

/-- ABORT_TAG (R489): the commands of the tag that have issued no part complete ABORTED, then it completes CAUGHT or MISSED. -/
def execAbortTag (q id : Nat) (s : State) : Host.Outcome State Fault Refusal :=
  s.run (q < 65536) fun d =>
    match d.desc q id with
    | none => d
    | some e =>
      if e.started || e.op != 0x44 || (d.qp q).kind != 2 then d
      else if !storeDescOk e.bytes then d.refuseCmd q id stBadOperand
      else
        let tag := dw e.bytes 4 % 65536
        let mine := (d.qp q).descs.filter fun x => x.op != 0x44 && !x.done && bits (dw x.bytes 0) 16 16 == tag
        let caught := mine.filter fun x => !x.started
        let d := caught.foldl (fun d x => (d.refuseCmd q x.id stAborted).bump Reg.stoAbortCaught) d
        let d := d.add Reg.stoAbortMissed (mine.length - caught.length)
        (d.complete q id (if caught = [] then stMissed else stCaught) [0, 0, 0, 0, mine.length]).bump Reg.stoCmd

/-! ## Ends of parts (R485, R486) -/

/-- NVME_COMPLETION_RECEIVE (R485): the device status of an NVMe status. -/
def execNvmeCompletionReceive (part code type : Nat) (s : State) : Host.Outcome State Fault Refusal :=
  s.run (code < 256 && type < 8) fun d =>
    match d.partOf part with
    | none => d
    | some (_, p) =>
      match p.st with
      | .issued _ =>
        let st := if code = 0 ∧ type = 0 then stDone else if type = 0 ∧ code = 0x07 then stAborted else stMediaErr
        (d.bumpIf (st == stMediaErr) Reg.stoMediaErr).endPart part st code type
      | _ => d

/-- STORE_PART_TIMEOUT (R486): the part ends TIMEOUT, its translation closes, firmware is notified. -/
def execStorePartTimeout (part : Nat) (s : State) : Host.Outcome State Fault Refusal :=
  s.run true fun d =>
    match d.partOf part with
    | none => d
    | some (_, p) =>
      match p.st, Map.find d.sto.tgts p.target with
      | .issued t, some g =>
        d.when (t + g.timeout ≤ d.turn) fun d =>
          let d := (d.bump Reg.stoTimeout).endPart part stTimeout 0 0
          let r := d.emit 4 0 (le 8 part ++ le 8 p.target)
          r.1.bumpIf r.2 Reg.brdMgmtDrop
      | _, _ => d

/-! ## The relay (R484, R486) -/

/-- The address in the command's buffer of a byte offset: in its one buffer, or through its scatter list. -/
def bufferAddr : List (Nat × Nat) → Nat → Nat
  | [], off => off
  | (a, n) :: t, off => if off < n then a + off else bufferAddr t (off - n)

/-- The buffer address of a byte offset of a command. -/
def Cmd.addr (c : Cmd) (off : Nat) : Nat := if c.scatter = [] then c.buf + off else bufferAddr c.scatter off

/-- The tweak of XTS: the volume block number as 16 bytes (R484). -/
def xtsTweak (block : Nat) : List Byte := le 16 block

/-- The 64 KiB of a page: the header of Table 9.3, its records, zeros, with the CRC-64 of the whole (R294, R301). -/
def Page.image (p : Page) (d : Dev) : List Byte :=
  let h := le 4 (1 + ofBit p.first * 256 + ofBit p.gapPage * 512 + p.slots % 65536 * 65536) ++ le 4 (d.brd.node % 2 ^ 24) ++ le 8 p.seq
    ++ le 8 p.anchor ++ le 2 p.era ++ le 2 0 ++ le 4 d.log.lost ++ le 8 d.log.nonce.toNat ++ le 8 p.eraOff ++ le 8 (p.turn % 2 ^ 54)
  let body := padTo 65472 p.recs
  h ++ le 8 (crc64 (h ++ le 8 0 ++ body)) ++ body

/-- RELAY_INBOUND_ACCESS (R484, R486): a target writes READ data or reads WRITE data of an open part; `data` is what it brings, or what the host's memory holds (a page is read from staging); any other access, and one whose key has been zeroised, is answered Completer Abort. -/
def execRelayInboundAccess (part off : Nat) (write : Bool) (data : List Byte) (s : State) : Host.Outcome State Fault Refusal :=
  s.run true fun d =>
    match d.partOf part with
    | none => (d.bump Reg.stoRelayCa).send .nvme [0xCA, part, off] []
    | some (c, p) =>
      if !p.open' || !d.mayPass c || write != (c.op == 0x40) || p.len * 4096 < off + data.length then (d.bump Reg.stoRelayCa).send .nvme [0xCA, part, off] []
      else
        let at' := (p.first - c.first) * 4096 + off
        let key := d.xtsKey c
        let x (enc : Bool) (bs : List Byte) : List Byte := match key with
          | some k => Config.cipher (if enc then 3 else 4) k (xtsTweak (p.first + off / 4096)) bs
          | none => bs
        let d := if key.isSome then (d.add Reg.stoXtsBytes data.length).add Reg.sheLaBytes data.length else d
        match c.q with
        | none =>
          match d.log.pages.find? (·.seq == c.desc) with
          | some g => d.send .nvme [part, off] (((g.image d).drop at').take data.length)
          | none => d
        | some q =>
          if write then d.ownerWrite q (c.addr at') (x false data)
          else (d.debitSlice (d.qp q).slice 2 data.length).send .nvme [part, off] (x true data)

/-! ## Aborts (R443, R490) -/

/-- A store queue is aborted, or its slice reset (R490): commands without parts complete ABORTED at once; the others close their translations and complete ABORTED when their parts have ended. -/
def Dev.abortStore (q : Nat) (d : Dev) : Dev :=
  (((d.qp q).descs.filter fun e => !e.started && !e.done).foldl (fun d e => d.refuseCmd q e.id stAborted) d).onSto fun s => { s with
    cmds := s.cmds.map fun c =>
      if c.q = some q ∧ c.started ∧ !c.fin then
        { c with aborted := true, parts := c.parts.map fun p => { p with open' := false } } else c }

/-! ## The archive (R300 to R302) -/

/-- The next page to archive (R300): the staged one of the lowest sequence; none is passed by. -/
def Dev.nextPage (d : Dev) : Option Page :=
  d.log.pages.foldl (fun (a : Option Page) p =>
    match a with
    | none => some p
    | some q => if p.seq < q.seq then some p else some q) none

/-- Write one page to its archive volume (R300, R301, R303): a WRITE of its 16 blocks at the page's place in the ring, while an archive is bound: to the volume bound when the page opened, or, where none was, to the one bound now. -/
def Dev.writePage (p : Page) (d : Dev) : Dev :=
  match d.log.archVol.map fun v => p.vol.getD v with
  | none => d
  | some v =>
    let size := ((Map.find d.sto.vols v).map (·.size)).getD 0
    if size < 16 then d
    else
      let c : Cmd := { id := 0, q := none, desc := p.seq, op := 0x41, vol := v, first := p.seq % (size / 16) * 16, blocks := 16 }
      let ps := c.partsOf d.sto
      let st := d.cmdStatus c ps
      let mark (f : Page → Page) (d : Dev) : Dev :=
        d.onLog fun l => { l with pages := l.pages.map fun x => if x.seq = p.seq then f x else x }
      if st = stNotReady then d
      else if st = stDone then
        if d.tagsFor archiveWaits 0 = 0 then d.tagWait archiveWaits
        else (((d.takeTags 0 1).tagTaken archiveWaits).startCmd c ps |> mark fun x => { x with writing := true, retry := none })
      else mark (fun x => { x with writing := true, retry := none, done := some st }) d

/-- LOGLINE_ARCHIVE_WRITE (R300, R301): the next closed page, in sequence order; none while no archive is bound or the volume is not ready. -/
def execLoglineArchiveWrite (s : State) : Host.Outcome State Fault Refusal :=
  s.run true fun d =>
    match d.nextPage with
    | some p => if p.closed ∧ p.writing = false ∧ p.retry = none then d.writePage p else d
    | none => d

/-- The page leaves staging; the next to be archived is the one after it (R302). -/
def Dev.freePage (seq : Nat) : Dev → Dev := Dev.onLog fun l => { l with pages := l.pages.filter (·.seq != seq), archSeq := seq + 1 }

/-- PAGE_ARCHIVE_COMPLETE (R301): the page is freed, kept in staging where the volume was not ready, retried one turn later up to three times, or lost. -/
def execPageArchiveComplete (seq : Nat) (s : State) : Host.Outcome State Fault Refusal :=
  s.run true fun d =>
    match d.log.pages.find? (·.seq == seq) with
    | none => d
    | some p =>
      match p.done with
      | none => d
      | some st =>
        if st = stDone then (d.freePage seq).onLog fun l => { l with lost := 0 }
        else if st = stNotReady then
          d.onLog fun l => { l with pages := l.pages.map fun x => if x.seq = seq then { x with done := none, writing := false } else x }
        else if p.tries < 3 then
          (d.bump Reg.logArchRetry).onLog fun l => { l with pages := l.pages.map fun x =>
            if x.seq = seq then { x with done := none, writing := false, tries := x.tries + 1, retry := some (d.turn + 1) } else x }
        else ((d.freePage seq).bump Reg.logArchLost).onLog fun l => { l with lost := l.lost + 1 }

/-- PAGE_ARCHIVE_RETRY (R301): one turn after a failed write. -/
def execPageArchiveRetry (seq : Nat) (s : State) : Host.Outcome State Fault Refusal :=
  s.run true fun d =>
    match d.log.pages.find? (·.seq == seq) with
    | none => d
    | some p =>
      match p.retry with
      | some t => d.when (t ≤ d.turn) (Dev.writePage p)
      | none => d

end Sys2Proof.Machine
end

