-- ==== Sys2Proof/Machine/Rdma.lean ====
section
/-! DEFINITION. RDMA connections: CONNSET, go-back-N, the responder, congestion, loss (17_rdma.md). -/
namespace Sys2Proof.Machine

/-! ## CONNSET (R496 to R498) -/

/-- CONNSET GLOBAL (R496, Table 17.2). -/
def execConnsetGlobal (p : Nat) (s : State) : Host.Outcome State Fault Refusal :=
  s.run true (Dev.runIns p (fun i => i.op == 0x36 && 1 ≤ i.w 0 % 4) fun _ i d =>
    let w := i.w 1
    let plain := bits w 0 8
    let enc := bits w 8 8
    let n := bits w 32 18
    if i.field != 0 || i.a != 0 || i.len != 3 || i.w 0 != 1 || bits w 16 16 == 4791 || n < 1024 || 131072 < n || bits w 50 14 != 0
        || plain == enc || (d.rdm.conns.any fun e => e.2.st != .disabled) || (Map.find d.hif.steer plain).isSome
        || (Map.find d.hif.steer enc).isSome then .done stBadOperand d 0
    else .done stDone (d.onRdm fun r => { r with set := true, plain, enc, port := bits w 16 16, count := n }) 0)

/-- The connection CONNSET's words describe (Table 17.3), without its key. -/
def connOf (i : Ins) : Conn :=
  let w := i.w 0
  { st := .active, encrypt := bit w 3, side := bits w 4 1, mtu := 1024 * 2 ^ bits w 5 2, ipv6 := bit w 7, lay := bits w 8 5
    cls := bits w 13 3, qpn := bits w 16 24, limit := bits w 40 3, psn := bits (i.w 1) 0 24, unack := bits (i.w 1) 0 24
    rxPsn := bits (i.w 1) 24 24, timeout := bits (i.w 1) 48 16, window := bits (i.w 2) 0 25
    addr := (i.ws.drop 1).take 9 }

/-- The operand rules of Table 17.3 for ENABLE 1. -/
def Dev.connOk (i : Ins) (d : Dev) : Bool :=
  let w := i.w 0
  let c := connOf i
  i.field == 0 && i.len == (if c.encrypt then 17 else 11) && bits w 5 2 != 3 && bits w 43 21 == 0 && c.lay < d.blocks && 1 ≤ c.timeout
    && i.w 2 < 2 ^ 25 && 4096 ≤ c.window && c.window ≤ 16777216 && bits (i.w 3) 60 4 == 0 && bits (i.w 4) 54 10 == 0
    && bits (i.w 9) 32 32 == 0 && (!c.encrypt || bits (i.w 10) 8 24 == 0)

/-- The bytes of the wrapped connection key (Table 17.3, words 12 to 16). -/
def Ins.wrapped (i : Ins) : List Byte := (List.range 5).flatMap fun k => le 8 (i.w (11 + k))

/-- The key of an encrypted connection: its slot and the key, none where the slot is not usable or the integrity check fails (R497). -/
def Dev.connKey (slice : Nat) (i : Ins) (d : Dev) : Option (Nat × List Byte) :=
  let n := bits (i.w 10) 0 8
  (d.slotFor slice 1 n).bind fun k => (Config.unwrapKey k.key i.wrapped).map fun r => (n, r)

/-- CONNSET CONNECTION with ENABLE 1 (R497, R498). -/
def execConnsetConnection (p : Nat) (s : State) : Host.Outcome State Fault Refusal :=
  s.run true (Dev.runIns p (fun i => i.op == 0x36 && i.w 0 % 4 == 0 && bit (i.w 0) 2) fun x i d =>
    if !d.dmc.ready then .done stNotReady d 0
    else if !d.rdm.set then .done stBadOperand d 0
    else if d.rdm.count ≤ i.a then .done stFull d 0
    else if !d.connOk i || (d.conn i.a).st != .disabled then .done stBadOperand d 0
    else
      let c := connOf i
      if c.encrypt then
        match d.connKey (d.qp x.qp).slice i with
        | none => .done stBadOperand d 0
        | some (n, key) => .done stDone ((d.refSlot n (· + 1)).onConn i.a fun _ => { c with keySlot := some n, key }) 0
      else .done stDone (d.onConn i.a fun _ => c) 0)

/-! ## Loss of a connection (R488, R498, R502, R507, R508) -/

/-- The parts of a connection: those sent end with a status, those not yet sent move on (R488). -/
def Dev.losePart (c st : Nat) (e : Cmd × Part) (d : Dev) : Dev :=
  match e.2.st with
  | .issued _ => d.endPart e.2.id st 0 0
  | .waiting =>
    let d := (d.onPart e.2.id fun p => { p with conn := if p.conn = some c then none else p.conn }).issuePart e.1 e.2
    match d.partOf e.2.id with
    | some (_, p) => if p.status.isSome then (d.bump (Reg.stoTParts p.target)).bump (Reg.stoTErr p.target) |>.finishCmd e.1.id else d
    | none => d
  | _ => d

/-- A connection has left ACTIVE (R488): its parts are handled. -/
def Dev.loseConn (c st : Nat) (d : Dev) : Dev :=
  (d.sto.cmds.flatMap fun x => (x.parts.filter fun p => p.conn == some c).map fun p => (x, p)).foldl (fun d e => d.losePart c st e) d

/-- A connection enters ERROR (R502, R507, R508); the parts it carried end with a status. -/
def Dev.connError (c st : Nat) (d : Dev) : Dev :=
  ((d.onConn c fun x => { x with st := .error, reqs := [], since := none }).bump Reg.rdmConnError).loseConn c st

/-- CONNSET CONNECTION with ENABLE 0 (R497, R498): outstanding operations end, the context is cleared. -/
def execConnsetRelease (p : Nat) (s : State) : Host.Outcome State Fault Refusal :=
  s.run true (Dev.runIns p (fun i => i.op == 0x36 && i.w 0 % 4 == 0 && !bit (i.w 0) 2) fun _ i d =>
    if !d.dmc.ready then .done stNotReady d 0
    else if !d.rdm.set then .done stBadOperand d 0
    else if d.rdm.count ≤ i.a then .done stFull d 0
    else if i.field != 0 || i.len != (if bit (i.w 0) 3 then 17 else 11) || (d.conn i.a).st == .disabled then .done stBadOperand d 0
    else
      let d := match (d.conn i.a).keySlot with | some n => d.refSlot n (· - 1) | none => d
      let d := d.onRdm fun r => { r with conns := Map.del r.conns i.a, cached := r.cached.filter (· != i.a) }
      .done stDone (d.loseConn i.a stTimeout) 0)

/-! ## Go-back-N (R500, R502, R507, R509) -/

/-- Halve the window, not below 4,096 B, and not again before the measured round trip has passed (R509). -/
def Dev.halve (c : Nat) (d : Dev) : Dev :=
  let now := d.ns
  d.onConn c fun x => if now < x.halved then x else { x with window := max 4096 (x.window / 2), halved := now + x.rtt, grown := now + x.rtt }

/-- Resend every outstanding request under the next epoch (R500); at the last epoch the connection is lost instead (R507). -/
def Dev.goBackN (c counter : Nat) (d : Dev) : Dev :=
  if 0xFFFFFFFF ≤ (d.conn c).epoch then d.connError c stTimeout
  else
    let d := (d.onConn c fun x => { x with
      epoch := x.epoch + 1, since := if x.reqs = [] then none else some d.turn
      reqs := x.reqs.map fun r => { r with sent := d.ns } }).bump counter
    (d.conn c).reqs.foldl (fun d r =>
      let cap : List Byte := match d.partOf r.part with
        | some (k, p) => (match Map.find d.sto.tgts p.target with | some t => p.capsule k t | none => [])
        | none => []
      d.sendReq c r (padTo r.len cap)) d

/-- RDMA_ACK_TIMEOUT (R500, R502, R509): go-back-N with a halved window, or ERROR at the retry limit. -/
def execRdmaAckTimeout (conn : Nat) (s : State) : Host.Outcome State Fault Refusal :=
  s.run (conn < 131072) fun d =>
    let x := d.conn conn
    match x.since with
    | none => d
    | some t =>
      d.when (x.st == .active && t + x.timeout ≤ d.turn) fun d =>
        if x.limit ≤ x.retries then d.connError conn stTimeout
        else
          let now := d.ns
          let d := d.onConn conn fun x => { x with retries := x.retries + 1, window := max 4096 (x.window / 2), grown := now + x.rtt }
          d.goBackN conn Reg.rdmRetxTimeout

/-! ## Received packets (R501, R503, R506, R508 to R510) -/

/-- How far PSN a is ahead of b, in 24 bits; half the range or more counts as behind (R501). -/
def psnAhead (a b : Nat) : Nat := ahead 24 a b

/-- An ACK of everything up to a PSN (R502, R509): requests end, the retry count restarts, the round trip is measured, the window grows. -/
def Dev.ackTo (c psn : Nat) (d : Dev) : Dev :=
  let x := d.conn c
  let out := psnAhead x.psn x.unack
  let n := psnAhead psn x.unack + 1
  if out < n then d
  else
    let done := x.reqs.filter fun r => psnAhead (r.psn + r.n - 1) x.unack < n
    let rtt := match done.getLast? with | some r => d.ns - r.sent | none => x.rtt
    let now := d.ns
    let d := d.onConn c fun x => { x with
      unack := (x.unack + n) % 2 ^ 24, retries := 0, rtt, reqs := x.reqs.drop done.length
      since := if x.reqs.length ≤ done.length then none else some d.turn
      window := if x.grown ≤ now ∧ done ≠ [] then min 16777216 (x.window + x.mtu) else x.window
      grown := if x.grown ≤ now ∧ done ≠ [] then now + rtt else x.grown }
    d.retryParts

/-- A CNP goes back for a CE-marked data packet, at most one per connection per turn (R510). -/
def Dev.notify' (c : Nat) (ce : Bool) (d : Dev) : Dev :=
  if !ce || (d.conn c).cnpTurn == some d.turn then d
  else ((d.onConn c fun x => { x with cnpTurn := some d.turn }).rdmaSend c .cnp 0 0 []).bump Reg.rdmCnpTx

/-- The open part whose region an R_Key names (R503). -/
def Dev.region (key : Nat) (d : Dev) : Option (Cmd × Part) :=
  d.sto.cmds.findSome? fun c => (c.parts.find? fun p => p.open' && p.key == key && p.conn.isSome).map fun p => (c, p)

/-- A WRITE's data is placed in its region's buffer, or discarded with its key closed (R484, R503). -/
def Dev.place (p : RPkt) (d : Dev) : Dev :=
  match d.region p.rkey with
  | some (c, g) =>
    if c.op != 0x40 || !d.mayPass c || g.len * 4096 < p.off + p.data.length then d.bump Reg.rdmKeyDiscard
    else
      let clear := match d.xtsKey c with | some k => Config.cipher 4 k (xtsTweak (g.first + p.off / 4096)) p.data | none => p.data
      let d := if (d.xtsKey c).isSome then (d.add Reg.stoXtsBytes p.data.length).add Reg.sheLaBytes p.data.length else d
      match c.q with
      | some q => d.ownerWrite q (c.addr ((g.first - c.first) * 4096 + p.off)) clear
      | none => d
  | none => d.bump Reg.rdmKeyDiscard

/-- A READ is answered from its region, or refused with its key closed (R501, R503): the responses carry the epoch of the request. -/
def Dev.answerRead (p : RPkt) (d : Dev) : Dev :=
  match (d.region p.rkey).filter fun g => g.1.op == 0x41 && d.mayPass g.1 && p.off + p.len ≤ g.2.len * 4096 with
  | none => (d.rdmaSend p.conn .nakAccess p.psn 0 []).bump Reg.rdmKeyReject
  | some (c, g) =>
    let x := d.conn p.conn
    let plain : List Byte := match c.q with
      | some _ => padTo p.len p.data
      | none => match d.log.pages.find? (·.seq == c.desc) with
        | some pg => padTo p.len ((pg.image d).drop ((g.first - c.first) * 4096 + p.off))
        | none => padTo p.len []
    let bs := match d.xtsKey c with | some k => Config.cipher 3 k (xtsTweak (g.first + p.off / 4096)) plain | none => plain
    let d := if (d.xtsKey c).isSome then (d.add Reg.stoXtsBytes p.len).add Reg.sheLaBytes p.len else d
    let d := match c.q with | some q => d.debitSlice (d.qp q).slice 2 p.len | none => d
    (List.range (x.psns p.len)).foldl (fun d i =>
      d.rdmaSend p.conn .readResp ((p.psn + i) % 2 ^ 24) p.exh ((bs.drop (i * x.mtu)).take x.mtu)) d

/-- PSNs a received request takes. -/
def Conn.took (x : Conn) (p : RPkt) : Nat := if p.op = .readReq then x.psns p.len else 1

/-- The responder (R501, R503, R506): the expected PSN is accepted, a later one answered once per gap, an earlier one acknowledged or read again. -/
def Dev.respond (p : RPkt) (d : Dev) : Dev :=
  let c := p.conn
  let x := d.conn c
  let gap := psnAhead p.psn x.rxPsn
  if p.op = .unsupported then d.rdmaSend c .nakInvalid p.psn 0 []
  else if gap = 0 then
    let d := d.onConn c fun x => { x with
      rxPsn := (x.rxPsn + x.took p) % 2 ^ 24, peerEpoch := if x.encrypt then p.exh else x.peerEpoch, nakGap := false }
    match p.op with
    | .write => (d.place p).rdmaSend c .ack p.psn 0 []
    | .readReq => d.answerRead p
    | _ => d.rdmaSend c .ack p.psn 0 []
  else if gap < 2 ^ 23 then
    if x.nakGap then d
    else ((d.onConn c fun x => { x with nakGap := true }).rdmaSend c .nakSeq x.rxPsn 0 []).bump Reg.rdmNakTx
  else if p.op = .readReq then d.answerRead p
  else d.rdmaSend c .ack ((x.rxPsn + 2 ^ 24 - 1) % 2 ^ 24) 0 []

/-- What an answer does at the requester (R500, R502, R509). -/
def Dev.answered (p : RPkt) (d : Dev) : Dev :=
  let c := p.conn
  match p.op with
  | .ack => (if p.ce then (d.bump Reg.rdmCnpRx).halve c else d).ackTo c p.psn
  | .nakSeq => (d.ackTo c ((p.psn + 2 ^ 24 - 1) % 2 ^ 24)).goBackN c Reg.rdmRetxNak
  | .nakAccess | .nakInvalid => d.connError c stTimeout
  | .cnp => (d.bump Reg.rdmCnpRx).halve c
  | _ => d.ackTo c p.psn

/-- Kinds that go to the responder. -/
def ropRequest (o : ROp) : Bool := o == .send || o == .write || o == .readReq || o == .unsupported

/-- Kinds that carry a control count (R505). -/
def ropControl (o : ROp) : Bool := o == .ack || o == .nakSeq || o == .nakAccess || o == .nakInvalid || o == .cnp

/-- A packet's epoch or control count is refused (R506, step 2). -/
def Conn.epochBad (x : Conn) (p : RPkt) : Bool :=
  x.encrypt && (if ropControl p.op then p.exh ≤ x.ctlRx else if p.op = ROp.readResp then p.exh < x.epoch else p.exh < x.peerEpoch)

/-- A packet of an ACTIVE connection, in the order of R506. -/
def Dev.rdmaPacket (enc : Bool) (p : RPkt) (d : Dev) : Dev :=
  let x := d.conn p.conn
  if x.st != .active || enc != x.encrypt then d
  else
    let d := d.touchConn p.conn
    if !p.icrcOk then d.bump Reg.rdmIcrcErr
    else if x.epochBad p then d.bump Reg.rdmEpochReject
    else if x.encrypt && !p.tagOk then
      (((if p.op = .write ∧ psnAhead p.psn x.rxPsn = 0 then d.place p else d).bump Reg.rdmAuthFail).connError p.conn stAuthFail)
    else
      let d := if x.encrypt && ropControl p.op then d.onConn p.conn fun x => { x with ctlRx := p.exh } else d
      let d := if ropRequest p.op then d.respond p else d.answered p
      d.notify' p.conn (p.ce && !ropControl p.op)

/-- RDMA_PACKET_RECEIVE (R495, R506): the oldest frame of the receive buffer, as its checks find it; a READ that finds no tag waits (R501). -/
def execRdmaPacketReceive (p : RPkt) (s : State) : Host.Outcome State Fault Refusal :=
  s.run (p.conn < 131072) fun d =>
    match d.rdm.rx with
    | [] => d
    | (enc, _) :: rest =>
      if p.op = .readReq ∧ d.tagsFor rdmaWaits 1 = 0 then d.tagWait rdmaWaits
      else ((d.tagTaken rdmaWaits).onRdm fun r => { r with rx := rest }).rdmaPacket enc p

end Sys2Proof.Machine
end

