-- ==== Sys2Proof/Machine/Media.lean ====
section
/-! DEFINITION. What the end of a DRAM read does at its requester (R530, R532 to R534, Table 18.6). -/
namespace Sys2Proof.Machine

/-- A command whose volume map entry cannot be read completes MEDIA_ERR before it issues a part (Table 18.6). -/
def Dev.mapBad (q id : Nat) (d : Dev) : Dev :=
  match d.desc q id with
  | some e => if (d.qp q).kind = 2 ∧ !e.started ∧ !e.done then d.refuseCmd q id stMediaErr else d
  | none => d

/-- A context that cannot be read fails its integrity check: its connection is handled as on a tag failure (R508, Table 18.6). -/
def Dev.contextBad (c : Nat) (d : Dev) : Dev :=
  if (d.conn c).st = .active then (d.bump Reg.rdmAuthFail).connError c stAuthFail else d

/-- A record of the DRAM ring both of whose copies are uncorrectable is not delivered (R534). -/
def Dev.recordLost (k : Nat) (d : Dev) : Dev :=
  ({ d with spl := { d.spl with ring := d.spl.ring.modify k fun r => { r with lost := true } } } : Dev).bump Reg.dmcSpliceLost

/-- What an uncorrectable read does at its requester (Table 18.6): a shadow line is counted and rewritten from the table (R222); the L3 holds a poisoned line (R533); a record is taken from its other copy unless that is bad too (R534). -/
def Dev.readBad (r : DReq) (ch : Nat) (mirrorBad : Bool) (d : Dev) : Dev :=
  match r.port with
  | 1 => (d.bump Reg.tblShadowErr).onDmc fun m => { m with poison := m.poison.filter (· != poisonKey ch r.c) }
  | 2 => d.contextBad r.user
  | 3 => d.mapBad r.user r.item
  | 4 => if mirrorBad then d.recordLost r.user else d
  | _ => d

/-- DRAM_READ_RETURN (R524, R530, R532 to R534): the channel's next read returns its line: clean, corrected by a device, or uncorrectable and poisoned. -/
def execDramReadReturn (ch err dev : Nat) (mirrorBad : Bool) (s : State) : Host.Outcome State Fault Refusal :=
  s.run (ch < 12 && err < 3 && dev < 32) fun d =>
    d.when (!d.chanHeld ch && (d.chan ch).reads != []) fun d =>
      match d.runToRead ch 200 with
      | (none, d) => d
      | (some r, d) =>
        let bad := (d.chan ch).st == 3 || err == 2 || d.dmc.poison.contains (poisonKey ch r.c)
        let d := if bad then d.uncorrectable ch r.c false else if err = 1 then d.corrected ch r.c dev else d
        let d := d.send .dramCommand [r.port, r.a, ofBit bad] (Memory.readBytes d.mem.dram r.a 64)
        if bad then d.readBad r ch mirrorBad else d

end Sys2Proof.Machine
end

