-- ==== Sys2Proof/Machine/Crypto.lean ====
section
/-! DEFINITION. The sheath's tamper response, its ciphers and its key store (R547 to R566), and the boot status record
(R583) that a halt writes. -/
namespace Sys2Proof.Machine

/-- Change the boot block. -/
def Dev.onBoot (f : Boot → Boot) (d : Dev) : Dev := { d with boot := f d.boot }

/-- Update the directory (R571): the copy written has the next sequence number, and is the one in force from then on. -/
def Dev.onDir (f : Directory → Directory) (d : Dev) : Dev :=
  if f d.boot.dir = d.boot.dir then d
  else d.onBoot fun b => { b with dir := { f b.dir with seq := (b.dir.seq + 1) % 2 ^ 32 } }

/-- Change the power block. -/
def Dev.onPwr (f : Pwr → Pwr) (d : Dev) : Dev := { d with pwr := f d.pwr }

/-! ## The boot status record (R583) -/

/-- Codes of Table 20.2. -/
def BootSt.code : BootSt → Nat
  | .rom => 0 | .flashLoad => 1 | .sheathInit => 2 | .waitPush => 3 | .verify => 4
  | .opened => 5 | .scrub => 6 | .halted => 7 | .recovery => 8

/-- The 64 bytes of a status record: state, reason, sequence, reel time, digest of the running capstan image. -/
def Dev.statusRecord (d : Dev) : List Byte :=
  le 1 d.boot.st.code ++ le 1 d.boot.reason ++ le 2 d.boot.pageSeq ++ le 4 0 ++ le 8 d.ns ++ le 48 d.boot.digest

/-- The record is written to the status page of the latest released image and to BOOT_LAST (R583); the page is written although the outputs are gated (R580). -/
def Dev.statusPage (d : Dev) : Dev :=
  let r := d.statusRecord
  let d := match d.boot.page with
    | some (who, addr) => d.send .hostWrite [65536 + who, addr, 0] r
    | none => d
  d.onBoot fun b => { b with last := r, pageSeq := (b.pageSeq + 1) % 65536 }

/-- Enter a state of Table 20.2 with a reason, writing the record (R583). -/
def Dev.enterBoot (st : BootSt) (reason : Nat) (d : Dev) : Dev :=
  (d.onBoot fun b => { b with st, reason }).statusPage

/-! ## Lifecycle (R541, R544) -/

/-- The lifecycle the fuses say (R541, Table 19.1), LOCKDOWN where their copies disagree beyond correction (R546). -/
def Fuses.life (f : Fuses) (copiesOk : Bool) : Nat :=
  if !copiesOk then 2
  else if f.retired then 3
  else if !f.secured then 0
  else if f.recovery < f.lockdown then 2
  else 1

/-- A LOCKDOWN_COUNT fuse is blown, or RETIRED when all 32 are (R544). -/
def Fuses.blowLockdown (f : Fuses) : Fuses := if f.lockdown < 32 then { f with lockdown := f.lockdown + 1 } else { f with retired := true }

/-! ## Operations under way (R557, R560, R565) -/

/-- An operation ends with a status and a count of bytes written (R559). -/
def Dev.endOp (o : CryOp) (st written : Nat) (d : Dev) : Dev :=
  (d.onShe fun s => { s with ops := s.ops.filter fun x => !(x.q == o.q && x.desc == o.desc) }).complete o.q o.desc st [written, o.engine]

/-- A lookaside data operation stops: the output already written stands, and how much that is the spec leaves open (R560, R565, log 8). -/
def Dev.cutOp (o : CryOp) (st : Nat) (d : Dev) : Dev :=
  let n := d.freeW.toNat % (o.len + 1)
  let d := d.useFree
  let d := match o.outs with
    | (a, bs) :: _ => if n = 0 then d else d.ownerWrite o.q a (bs.take n)
    | [] => d
  d.endOp o st n

/-- An operation caught by a tamper alarm (R565): the hardened core releases nothing. -/
def Dev.tamperOp (o : CryOp) (d : Dev) : Dev := if o.core then d.endOp o stTamper 0 else d.cutOp o stTamper

/-- Lookaside operations of an aborted queue pair stop; those of the hardened core run on (R443, R560). -/
def Dev.abortCrypto (q : Nat) (d : Dev) : Dev :=
  let d := ((d.qp q).descs.filter fun e => !e.started && !e.done).foldl (fun d e => d.complete q e.id stAborted [0, 0]) d
  (d.she.ops.filter fun o => o.q == q && !o.core).foldl (fun d o => d.cutOp o stAborted) d

/-! ## Tamper (R563 to R566) -/

/-- Every key slot and every MACsec key is zeroised. -/
def Dev.zeroKeys : Dev → Dev :=
  Dev.onShe fun s => { s with slots := [], sas := s.sas.map fun e => (e.1, { e.2 with keyed := false }) }

/-- The sources that alarm: those watched, a TAMP source only if it is enabled (Table 19.9, R563). -/
def tamperSources (watched enable sources : Nat) : Nat :=
  ((bitList sources 8).filter fun b => bit watched b && (3 ≤ b || bit enable (b + 1))).foldl (fun n b => n + 2 ^ b) 0

/-- Append to the standby log, a ring of 1,024 records, while the standby rails are up (R566). -/
def Dev.standbyLog (r : StbyRec) (d : Dev) : Dev :=
  if d.pwr.stby then
    d.onShe fun s => { s with log := (s.log ++ [{ r with seq := s.logHead % 65536 }]).drop (s.log.length - 1023), logHead := s.logHead + 1 }
  else d

/-- Keys, DRBG and hardened core are zeroised (R564), and every operation that uses a key ends TAMPER (R565). -/
def Dev.zeroise (d : Dev) : Dev :=
  (d.she.ops.foldl (fun d o => d.tamperOp o) d).zeroKeys.onShe fun s => { s with rng := .stopped, pool := (0, 0) }

/-- The response of the phase (Table 19.10): 0 boot, 1 running, 2 standby. -/
def Dev.tamperPhase (phase : Nat) (d : Dev) : Dev :=
  match phase with
  | 0 =>
    (d.onShe fun s => if s.life = 1 then { s with fuses := s.fuses.blowLockdown, life := s.fuses.blowLockdown.life true } else s).onBoot
      (fun b => { b with passed := none }) |>.onCap (fun x => { x with cores := x.cores.map fun e => (e.1, { e.2 with running := false }) })
      |>.enterBoot .halted 0x17
  | 1 =>
    let d := d.onShe fun s => { s with fuseDue := s.fuseDue || (s.life == 1 && !s.lockPending) }
    if bit d.she.policy 1 then
      ((d.onShe fun s => { s with gatesClosed := true }).onBoot fun b => { b with gated := true }).onAut fun a => { a with outUp := false }
    else d
  | _ => d.onShe fun s => { s with owed := s.owed || (s.armed.map (·.1)) == some 1 }

/-- A tamper alarm with sources of Table 19.9; `ticks` of the holdover counter since main power fell, in standby (R563, R564, R566). MANUFACTURE only latches and counts. -/
def Dev.tamper (sources ticks : Nat) (d : Dev) : Dev :=
  let stby := d.boot.held
  if stby && d.she.armed.isNone then d
  else
    let enable := if stby then (d.she.armed.map (·.2)).getD 0 else bits d.she.policy 8 4
    let src := tamperSources (if stby then 0x6F else 0xFF) enable sources
    if src = 0 then d
    else
      let life := if stby then (d.she.armed.map (·.1)).getD 0 else d.she.life
      let phase := if stby then 2 else if d.boot.st = .opened then 1 else 0
      let ns := if stby then d.she.holdNs + ticks * 30517578125 / 1000000 else d.ns
      let d := if stby then d else (d.onShe fun s => { s with latch := s.latch ||| src }).bump Reg.sheTamperEvents
      let d := d.standbyLog { ns, sources := src, phase, zeroised := life != 0, seq := 0, secs := if stby then ticks / 32768 else 0 }
      if life = 0 then d else d.zeroise.tamperPhase phase

/-- TAMPER_ALARM (R563, R564). -/
def execTamperAlarm (sources ticks : Nat) (s : State) : Host.Outcome State Fault Refusal :=
  s.runAny (sources < 256) (State.onDev (Dev.tamper sources ticks))

/-- LOCKDOWN_FUSE_BLOW (Table 19.10): the fuse of a running-phase alarm. -/
def execLockdownFuseBlow (s : State) : Host.Outcome State Fault Refusal :=
  s.run true fun d =>
    d.when d.she.fuseDue (Dev.onShe fun s => { s with fuses := s.fuses.blowLockdown, lockPending := true, fuseDue := false })

/-! ## Random numbers (R550 to R553) -/

/-- A generate request of n bytes (R553). -/
def Dev.generate (n : Nat) (d : Dev) : List Byte × Dev :=
  (d.drbg n, ((d.draw n).onShe fun s => { s with draws := s.draws + 1 }).bump Reg.sheRngDraws)

/-- The 8 bytes a cap_rand read is served (R553): the next of the 4,096-byte generate request reserved for the capstans, a new request being made when it is used up. `pool` is the next byte of it and the reads left. -/
def Dev.capRand (d : Dev) : List Byte × Dev :=
  let d := if d.she.pool.2 = 0 then (d.generate 4096).2.onShe fun s => { s with pool := (d.drawn, 512) } else d
  ((List.range 8).map fun i => Config.drbgByte (d.she.pool.1 + i), d.onShe fun s => { s with pool := (s.pool.1 + 8, s.pool.2 - 1) })

/-- RNG_STARTUP_DONE (R550, R552): the DRBG is instantiated; the token nonce is drawn once per sheath reset (R543), the boot nonce of the logline once per boot (Table 9.3). -/
def execRngStartupDone (s : State) : Host.Outcome State Fault Refusal :=
  s.run true fun d =>
    d.when (d.she.rng == .notReady) fun d =>
      let d := d.onShe fun s => { s with rng := .ready, draws := 0, seeded := d.turn }
      if d.she.nonced then d
      else
        let g := d.generate 8
        let h := g.2.generate 8
        (h.2.onShe fun s => { s with nonce := BitVec.ofNat 64 (ofLe g.1), nonced := true }).onLog fun l => { l with
          nonce := BitVec.ofNat 64 (ofLe h.1) }

/-- RNG_HEALTH_FAIL (R552). -/
def execRngHealthFail (s : State) : Host.Outcome State Fault Refusal :=
  s.run true fun d =>
    d.when (d.she.rng == .notReady || d.she.rng == .ready) fun d =>
      (d.bump Reg.sheRngHealthFail).onShe fun s => { s with health := s.health + 1, rng := if 3 ≤ s.health + 1 then .failed else .notReady }

/-- DRBG_RESEED (R553). -/
def execDrbgReseed (s : State) : Host.Outcome State Fault Refusal :=
  s.run true fun d =>
    d.when (d.she.rng == .ready && (2 ^ 20 ≤ d.she.draws || d.she.seeded + 2 ^ 20 ≤ d.turn)) fun d =>
      d.onShe fun s => { s with draws := 0, seeded := d.turn }

/-! ## CRYPTO descriptors (R557 to R559) -/

/-- Bytes read from memory of a queue pair's owner: a capstan's own, or what the host answers (R431); the transfer debits the slice (R465). -/
def Dev.ownerRead (q addr n : Nat) (given : List Byte) (d : Dev) : List Byte × Dev :=
  let x := d.qp q
  (if x.capstan then d.physRead addr n else padTo n given, d.debitSlice x.slice (kindBucket x.kind) n)

/-- The engine with the least queued work, the lowest of equals (R557). -/
def She.freeEngine (s : She) : Nat :=
  let work (e : Nat) : Nat := ((s.ops.filter fun o => !o.core && o.engine == e).map (·.len)).sum
  (List.range 16).foldl (fun a e => if work e < work a then e else a) 0

/-- Flags of a CRYPTO descriptor: only bit 8 may be set (R558). -/
def cryFlagsOk (bs : List Byte) : Bool := bits (dw bs 0) 9 7 == 0

/-- Hardened mode, by its flag or by HARDENED_ONLY (R558). -/
def Dev.hardened (bs : List Byte) (d : Dev) : Bool := bit (dw bs 0) 8 || bit d.she.policy 7

/-- Slots an operation under way will install. -/
def She.installing (s : She) (n : Nat) : Bool := s.ops.any fun o => (o.install.map (·.1)) == some n

/-- The checks of R559 before an operation starts, in order: `named` slots with the usage each needs (0 any), the target slot, whether the RNG must be READY. -/
def Dev.cryCheck (slice : Nat) (fieldsOk : Bool) (named : List (Nat × Nat)) (target : Option Nat) (rng : Bool) (d : Dev) : Nat :=
  let s := d.she
  let other (n : Nat) : Bool := match Map.find s.slots n with | some k => slice != 0 && k.owner != slice | none => false
  if !fieldsOk || named.any (fun e => match Map.find s.slots e.1 with | some k => e.2 != 0 && k.usage != e.2 | none => false) then stBadOperand
  else if named.any (fun e => other e.1) || (target.map other) == some true then stAccessErr
  else if named.any fun e => (Map.find s.slots e.1).isNone then stNotFound
  else if (target.map fun n => (Map.find s.slots n).isSome || s.installing n) == some true then stFull
  else if rng && s.rng != .ready then stNotReady
  else stDone

/-- A CRYPTO descriptor of an opcode, not yet started, is examined. -/
def Dev.cryRow (op q id : Nat) (f : Desc → Dev → Dev) (d : Dev) : Dev :=
  match d.desc q id with
  | none => d
  | some e => d.when (!e.started && e.op == op && (d.qp q).kind == 3) (f e)

/-- The key in a slot. -/
def Dev.keyOf (n : Nat) (d : Dev) : List Byte := ((Map.find d.she.slots n).map (·.key)).getD []

/-- A data descriptor goes to an engine, or completes with the status of its first failing check (R557, R559). -/
def Dev.startData (q : Nat) (e : Desc) (fieldsOk : Bool) (usage : Nat) (f : List Byte → Nat → Nat × List (Nat × List Byte)) (d : Dev) : Dev :=
  let slot := bits (dw e.bytes 1) 0 8
  let hard := d.hardened e.bytes
  let len := dw e.bytes 6
  let ok := fieldsOk && cryFlagsOk e.bytes && bits (dw e.bytes 1) 8 24 == 0 && 1 ≤ len && len < 2 ^ 24
  let st := d.cryCheck (d.qp q).slice ok [(slot, usage)] none hard
  if st != stDone then d.complete q e.id st [0, 0]
  else
    let r := f (d.keyOf slot) len
    let o : CryOp := {
      q, desc := e.id, gen := e.gen, core := false, hard, engine := d.she.freeEngine, len, status := r.1
      written := (r.2.map fun w => w.2.length).sum, outs := r.2 }
    (((d.startDesc q e.id).debitSlice (d.qp q).slice 4 len).onShe fun s => { s with ops := s.ops ++ [o] })

/-- Modes of `Config.cipher` (log 12). -/
def modeGcmEnc : Nat := 1
/-- GCM decryption. -/
def modeGcmDec : Nat := 2
/-- XTS encryption. -/
def modeXtsEnc : Nat := 3
/-- XTS decryption. -/
def modeXtsDec : Nat := 4
/-- Counter mode. -/
def modeCtr : Nat := 5

/-- Fields of a GCM descriptor (Table 19.8). -/
def gcmOk (bs : List Byte) : Bool := dw bs 7 < 65536 && zeros bs [13, 14, 15]

/-- The initial value of a GCM descriptor. -/
def gcmIv (bs : List Byte) : List Byte := (bs.drop 40).take 12

/-- Source bytes of a data descriptor: from capstan memory, or as the host answers. -/
def Dev.source (q : Nat) (e : Desc) (given : List Byte) (d : Dev) : List Byte :=
  (d.ownerRead q (dq e.bytes 2) (dw e.bytes 6 % 2 ^ 24) given).1

/-- Additional authenticated data of a GCM descriptor. -/
def Dev.aadOf (q : Nat) (e : Desc) (given : List Byte) (d : Dev) : List Byte :=
  (d.ownerRead q (dq e.bytes 8) (dw e.bytes 7 % 65536) given).1

/-- GCM_ENCRYPT (R558): the tag follows the ciphertext. -/
def execGcmEncrypt (q id : Nat) (src aad : List Byte) (s : State) : Host.Outcome State Fault Refusal :=
  s.run (q < 65536) (Dev.cryRow 0x50 q id fun e d =>
    d.startData q e (gcmOk e.bytes) 2 fun key len =>
      let iv := gcmIv e.bytes
      let ct := padTo len (Config.cipher modeGcmEnc key iv (d.source q e src))
      (stDone, [(dq e.bytes 4, ct), (dq e.bytes 4 + len, padTo 16 (Config.gcmTag key iv (d.aadOf q e aad) ct))]))

/-- GCM_DECRYPT (R558, R559): the tag is read behind the source, and the output is written whatever it says. -/
def execGcmDecrypt (q id : Nat) (src aad tag : List Byte) (s : State) : Host.Outcome State Fault Refusal :=
  s.run (q < 65536) (Dev.cryRow 0x51 q id fun e d =>
    d.startData q e (gcmOk e.bytes) 2 fun key len =>
      let iv := gcmIv e.bytes
      let ct := d.source q e src
      let given := (d.ownerRead q (dq e.bytes 2 + len) 16 tag).1
      let good := given = padTo 16 (Config.gcmTag key iv (d.aadOf q e aad) ct)
      (if good then stDone else stAuthFail, [(dq e.bytes 4, padTo len (Config.cipher modeGcmDec key iv ct))]))

/-- Cut bytes into data units (fuel: the bytes). -/
def units (n : Nat) : Nat → List Byte → List (List Byte)
  | 0, _ => []
  | fuel + 1, bs => if bs = [] then [] else bs.take n :: units n fuel (bs.drop n)

/-- XTS over data units whose tweak increments (Table 19.8). -/
def xtsUnits (mode : Nat) (key : List Byte) (tweak unit : Nat) (bs : List Byte) : List Byte :=
  ((units unit bs.length bs).zipIdx.map fun u => padTo u.1.length (Config.cipher mode key (le 16 ((tweak + u.2) % 2 ^ 128)) u.1)).flatten

/-- An XTS descriptor (Table 19.8). -/
def Dev.xtsRow (op mode q id : Nat) (src : List Byte) : Dev → Dev :=
  Dev.cryRow op q id fun e d =>
    let bs := e.bytes
    d.startData q e (dw bs 6 % 16 == 0 && bits (dw bs 7) 0 16 == 0 && bits (dw bs 7) 18 14 == 0 && zeros bs [8, 9, 14, 15]) 3 fun key len =>
      let tweak := field bs 40 16
      (stDone, [(dq bs 4, padTo len (xtsUnits mode key tweak (512 * 2 ^ bits (dw bs 7) 16 2) (d.source q e src)))])

/-- XTS_ENCRYPT (R558). -/
def execXtsEncrypt (q id : Nat) (src : List Byte) (s : State) : Host.Outcome State Fault Refusal :=
  s.run (q < 65536) (Dev.xtsRow 0x52 modeXtsEnc q id src)

/-- XTS_DECRYPT (R558). -/
def execXtsDecrypt (q id : Nat) (src : List Byte) (s : State) : Host.Outcome State Fault Refusal :=
  s.run (q < 65536) (Dev.xtsRow 0x53 modeXtsDec q id src)

/-- CTR (R558). -/
def execCtr (q id : Nat) (src : List Byte) (s : State) : Host.Outcome State Fault Refusal :=
  s.run (q < 65536) (Dev.cryRow 0x54 q id fun e d =>
    d.startData q e (zeros e.bytes [7, 8, 9, 14, 15]) 4 fun key len =>
      (stDone, [(dq e.bytes 4, padTo len (Config.cipher modeCtr key ((e.bytes.drop 40).take 16) (d.source q e src)))]))

/-! ## Key management (R547 to R549, R554 to R556) -/

/-- A key-management operation goes to the hardened core, or completes with the status of its first failing check. -/
def Dev.startKey (q : Nat) (e : Desc) (fieldsOk : Bool) (named : List (Nat × Nat)) (target : Option Nat) (f : Dev → CryOp → CryOp × Dev) (d : Dev) : Dev :=
  let st := d.cryCheck (d.qp q).slice (fieldsOk && cryFlagsOk e.bytes) named target true
  if st != stDone then d.complete q e.id st [0, 0]
  else
    let o : CryOp := { q, desc := e.id, gen := e.gen, core := true, hard := true, engine := 0, len := 0, status := stDone, written := 0, outs := [] }
    let r := f d o
    (r.2.startDesc q e.id).onShe fun s => { s with ops := s.ops ++ [r.1] }

/-- Bytes of a key of a usage: 512 bits for XTS, 256 otherwise (R547). -/
def slotKeyBytes (usage : Nat) : Nat := if usage = 3 then 64 else 32

/-- KEY_UNWRAP (R558, R559): the target is filled when the result is released. -/
def execKeyUnwrap (q id : Nat) (blob : List Byte) (s : State) : Host.Outcome State Fault Refusal :=
  s.run (q < 65536) (Dev.cryRow 0x60 q id fun e d =>
    let w := dw e.bytes 1
    let usage := bits w 16 4
    let n := dw e.bytes 6
    let ok := w < 2 ^ 21 && 1 ≤ usage && usage ≤ 5 && n == slotKeyBytes usage + 8 && zeros e.bytes [4, 5, 7, 8, 9, 10, 11, 12, 13, 14, 15]
    d.startKey q e ok [(bits w 8 8, 1)] (some (bits w 0 8)) fun d o =>
      let r := d.ownerRead q (dq e.bytes 2) n blob
      match Config.unwrapKey (d.keyOf (bits w 8 8)) r.1 with
      | some key => ({ o with len := n, install := some (bits w 0 8, { usage, expo := bit w 20, origin := 0, owner := (d.qp q).slice, key }) }, r.2)
      | none => ({ o with len := n, status := stAuthFail }, r.2))

/-- KEY_GEN (R558, R559). -/
def execKeyGen (q id : Nat) (s : State) : Host.Outcome State Fault Refusal :=
  s.run (q < 65536) (Dev.cryRow 0x61 q id fun e d =>
    let w := dw e.bytes 1
    let usage := bits w 16 4
    let ok := w < 2 ^ 21 && bits w 8 8 == 0 && 1 ≤ usage && usage ≤ 5 && zeros e.bytes [2, 3, 4, 5, 6, 7, 8, 9, 10, 11, 12, 13, 14, 15]
    d.startKey q e ok [] (some (bits w 0 8)) fun d o =>
      let g := d.generate (slotKeyBytes usage)
      ({ o with hard := false, install := some (bits w 0 8, { usage, expo := bit w 20, origin := 1, owner := (d.qp q).slice, key := g.1 }) }, g.2))

/-- KEY_WRAP (R558, R559): the slot must be EXPORTABLE. -/
def execKeyWrap (q id : Nat) (s : State) : Host.Outcome State Fault Refusal :=
  s.run (q < 65536) (Dev.cryRow 0x62 q id fun e d =>
    let w := dw e.bytes 1
    let expo := match Map.find d.she.slots (bits w 0 8) with | some k => k.expo | none => true
    let ok := w < 65536 && expo && zeros e.bytes [2, 3, 6, 7, 8, 9, 10, 11, 12, 13, 14, 15]
    d.startKey q e ok [(bits w 0 8, 0), (bits w 8 8, 1)] none fun d o =>
      let key := d.keyOf (bits w 0 8)
      let blob := padTo (key.length + 8) (Config.wrapKey (d.keyOf (bits w 8 8)) key)
      ({ o with len := blob.length, written := blob.length, outs := [(dq e.bytes 4, blob)] }, d))

/-- KEY_ZERO (R480, R549): an unreferenced slot that no started store command uses is zeroised when the operation is released; it holds the operation's only use of the slot. -/
def execKeyZero (q id : Nat) (s : State) : Host.Outcome State Fault Refusal :=
  s.run (q < 65536) (Dev.cryRow 0x63 q id fun e d =>
    let n := bits (dw e.bytes 1) 0 8
    let refs := ((Map.find d.she.slots n).map (·.refs)).getD 0
    let ok := dw e.bytes 1 < 256 && refs == 0 && !d.slotBusy n && zeros e.bytes [2, 3, 4, 5, 6, 7, 8, 9, 10, 11, 12, 13, 14, 15]
    d.startKey q e ok [(n, 0)] none fun d o => ({ o with hard := false, zero := some n }, d))

/-! ## SA_SET (R561, R562, Table 19.12) -/

/-- SA_SET (R549, R562): installs, changes or removes an association; TX_ACTIVE moves transmit to it. -/
def execSaSet (q id : Nat) (s : State) : Host.Outcome State Fault Refusal :=
  s.run (q < 65536) (Dev.cryRow 0x64 q id fun e d =>
    let bs := e.bytes
    let w := dw bs 1
    let port := bits w 0 8
    let k := 32 * port + bits w 8 5
    let on := bit w 16
    let slot := bits w 24 8
    let ok := cryFlagsOk bs && (d.qp q).slice == 0 && port < d.lanes && bits w 18 6 == 0 && dw bs 10 < 2 ^ 30 && zeros bs [11, 12, 13, 14, 15]
    let st := d.cryCheck (d.qp q).slice ok (if on then [(slot, 5)] else []) none false
    if st != stDone then d.complete q e.id st [0, 0]
    else
      let old := Map.find d.she.sas k
      let d := match old with | some a => if a.keyed then d.refSlot a.slot (· - 1) else d | none => d
      let rx := bit w 15
      let sa : Sa := {
        rx, an := bits w 13 2, slot, sci := BitVec.ofNat 64 (dq bs 2), ssci := dw bs 4, salt := (bs.drop 20).take 12, pn := dq bs 8
        window := dw bs 10, top := 0, active := bit w 17 && !rx }
      let d := if on then d.refSlot slot (· + 1) else d
      let d := d.onShe fun s =>
        let others := if sa.active && on then s.sas.map fun e => if e.1 / 32 = port then (e.1, { e.2 with active := false }) else e else s.sas
        { s with sas := if on then Map.put others k sa else Map.del s.sas k }
      d.complete q e.id stDone [0, 0])

/-! ## Release of results (R556, R559, R565) -/

/-- What a released operation leaves: its bytes, the slot it fills or zeroises. -/
def Dev.releaseOp (o : CryOp) (d : Dev) : Dev :=
  let d := o.outs.foldl (fun d w => d.ownerWrite o.q w.1 w.2) d
  d.onShe fun s =>
    let slots := match o.install with | some e => Map.put s.slots e.1 e.2 | none => s.slots
    { s with slots := match o.zero with | some n => Map.del slots n | none => slots }

/-- CRYPTO_RESULT_RELEASE (R556, R559, R565): `fault` says that the two computations of a hardened block differ, which releases nothing; the third in one sheath reset is a tamper alarm. -/
def execCryptoResultRelease (q id : Nat) (fault : Bool) (s : State) : Host.Outcome State Fault Refusal :=
  s.run (q < 65536) fun d =>
    match d.she.ops.find? fun o => o.q == q && o.desc == id with
    | none => d
    | some o =>
      if fault && o.hard then
        let n := d.she.faults + 1
        let d := ((d.endOp o stTamper 0).bump Reg.sheFaultDetect).onShe fun s => { s with faults := n }
        if n = 3 then d.tamper 0x80 0 else d
      else
        let d := if o.gen = d.sliceGen (d.qp q).slice then d.releaseOp o else d
        let d := if o.core then d.bump Reg.sheKeyOps else d.add Reg.sheLaBytes o.len
        (d.bumpIf (!o.core && o.status == stAuthFail) Reg.sheLaAuthFail).endOp o o.status o.written

end Sys2Proof.Machine
end

