-- ==== Sys2Proof/Machine/Qps.lean ====
section
/-! DEFINITION. Queue pairs as splice instructions set and stop them: QPSET, QUIESCE, ABORT (R424 to R426, R442 to R444),
the logline bindings (R303), RNGDRAW (R151, R553), and what a slice reset and a function reset do to them (R445, R461). -/
namespace Sys2Proof.Machine

/-- Change the host interface. -/
def Dev.onHif (f : Hif → Hif) (d : Dev) : Dev := { d with hif := f d.hif }

/-! ## Stopping a queue pair's work (R443, R461) -/

/-- Injections of a queue pair that no exception fibre has taken are gone, and their cells free. -/
def Dev.abortInjects (q : Nat) (d : Dev) : Dev :=
  let d := d.onPath fun y => { y with injWait := y.injWait.filter fun e => e.2.qp != q }
  let n := (d.lay.lays.map fun e => ((e.2.inject.filter fun j => j.qp == q).map Inject.cells).sum).sum
  ({ d with lay := { d.lay with lays := d.lay.lays.map fun e => (e.1, { e.2 with inject := e.2.inject.filter fun j => j.qp != q }) } } : Dev).giveCells injAcct n

/-- Every fetched descriptor of a queue pair that has no end of its own to wait for completes ABORTED. -/
def Dev.abortDescs (q : Nat) (d : Dev) : Dev :=
  ((d.qp q).descs.filter fun e => !e.done).foldl (fun d e => d.complete q e.id stAborted []) d

/-- The posted buffers of a queue pair close. -/
def Dev.abortBufs (q : Nat) (d : Dev) : Dev :=
  let d := (d.qp q).bufs.foldl (fun d b => d.complete q b.desc stAborted [b.used, b.count]) d
  d.onQp q fun x => { x with bufs := [] }

/-- What each service does when a queue pair is aborted (R443): programs but the one numbered `but` follow R140 and R76. -/
def Dev.abortWork (q : Nat) (but : Option Nat) (d : Dev) : Dev :=
  match (d.qp q).kind with
  | 0 => (d.abortInjects q).abortDescs q
  | 1 | 5 => (d.abortBufs q).abortDescs q
  | 2 => d.abortStore q
  | 3 => d.abortCrypto q
  | _ =>
    let d := d.onSpl fun s => { s with offers := s.offers.filter fun o => o.qp != q }
    let busy (d : Dev) (id : Nat) : Bool := (d.spl.progs ++ d.spl.atList).any fun x => x.qp == q && x.desc == id
    let d := d.abortProgs fun x => x.qp == q && some x.seq != but
    ((d.qp q).descs.filter fun e => !e.done && !busy d e.id).foldl (fun d e => d.complete q e.id stAborted []) d

/-- A queue pair with a binding leaves ACTIVE or QUIESCING for ABORTING, and IDLE when nothing is outstanding (Table 14.10). -/
def Dev.abortQp (q : Nat) (but : Option Nat) (d : Dev) : Dev :=
  if (d.qp q).st = .disabled ∨ (d.qp q).st = .idle then d
  else
    let d := d.onQp q fun x => { x with st := .aborting }
    (d.abortWork q but).onQp q Qp.settle

/-- Descriptors up to the accepted producer count that were never fetched complete ABORTED in ring order (R443): `ring` holds them. -/
def Dev.abortRing (q : Nat) (ring : List (List Byte)) (d : Dev) : Dev :=
  d.onQp q fun x => { x with
    held := x.held ++ (List.range (x.prod - x.fetched)).map fun k =>
      ({ tag := field ((ring[k]?).getD []) 2 2, status := stAborted, gen := d.sliceGen x.slice } : Cpl)
    fetched := max x.prod x.fetched }

/-! ## QPSET (R424 to R426) -/

/-- The number of queue pairs that pass a test. -/
def Dev.countQps (d : Dev) (p : Nat → Qp → Bool) : Nat := (Map.keysWhere d.hif.qps fun k x => x.st != .disabled && p k x).length

/-- The queue pair the words of a QPSET describe (Table 14.3). -/
def qpOf (i : Ins) : Qp :=
  let w := i.w 2
  { st := .active, kind := i.field, capstan := bit w 33, port := bits w 34 2, fn := bits w 36 3, lidx := bits w 39 11, slice := bits w 50 12
    sqBase := i.w 0, cqBase := i.w 1, sqDepth := 2 ^ (bits w 0 4 + 6), cqDepth := 2 ^ (bits w 4 4 + 6)
    weight := bits w 8 8, burst := bits w 16 16
    modCount := bits (i.w 3) 0 8 + 1, modTimer := bits (i.w 3) 8 8, word5 := BitVec.ofNat 64 (i.w 4) }

/-- Word 5 holds nothing its kind does not give (Table 14.4). -/
def word5Ok (kind w : Nat) : Bool :=
  if kind = 0 then w < 32
  else if kind = 1 then w < 2 ^ 13 && bits w 8 4 ≤ 6
  else if kind = 5 then bits w 5 27 == 0
  else w == 0

/-- The operands of a QPSET with ENABLE 1 that keep R425, R426 and R451. -/
def Dev.qpsetOk (i : Ins) (d : Dev) : Bool :=
  let w := i.w 2
  let x := qpOf i
  let old := d.qp i.a
  let role := ((d.slice x.slice).map (·.role)).getD 3
  i.len == 6 && i.a < 65536 && i.field ≤ 5 && i.w 0 % 4096 == 0 && i.w 1 % 4096 == 0 && bits w 0 4 ≤ 10 && bits w 4 4 ≤ 10
    && x.sqDepth ≤ x.cqDepth && 1 ≤ x.weight && 1 ≤ x.burst && bits w 62 2 == 0 && bits (i.w 3) 16 48 == 0 && word5Ok i.field (i.w 4)
    && (old.st == .disabled || old.st == .idle) && role < 3
    && (if x.capstan then x.lidx < 32 else x.fn < (d.hp x.port).fnCount)
    && (x.capstan || (Map.keysWhere d.hif.qps fun k y =>
      k != i.a && y.st != .disabled && !y.capstan && y.fnKey == x.fnKey && y.lidx == x.lidx) == [])
    && (i.field != 4 || role == 2 || (role == 1 && d.countQps (fun k y => k != i.a && y.kind == 4 && y.slice == x.slice) == 0))
    && !(i.field == 1 && bit (i.w 4) 12 && d.rdm.set && (bits (i.w 4) 0 8 == d.rdm.plain || bits (i.w 4) 0 8 == d.rdm.enc))

/-- QPSET with ENABLE 1, kinds 0 to 5 (R424 to R426, R469). -/
def execQpsetEnable (p : Nat) (s : State) : Host.Outcome State Fault Refusal :=
  s.run true (Dev.runIns p (fun i => i.op == 0x30 && i.field != 6 && bit (i.w 2) 32) fun _ i d =>
    let x := qpOf i
    if !d.qpsetOk i then .done stBadOperand d 0
    else if (!x.capstan && 2048 ≤ d.countQps fun k y => k != i.a && !y.capstan && y.fnKey == x.fnKey)
        || 256 ≤ (d.countQps fun k y => k != i.a && y.slice == x.slice)
        || (x.kind == 2 && 4096 ≤ d.countQps fun k y => k != i.a && y.kind == 2) then .done stFull d 0
    else
      let d := d.freeTags (tagService (d.qp i.a).kind) (d.qp i.a).descs.length
      let d := d.onQp i.a fun _ => { x with logPos := d.logHead }
      let d := if i.field = 1 ∧ bit (i.w 4) 12 then
          d.onHif fun h => { h with steer := Map.put h.steer (bits (i.w 4) 0 8) (i.a, bits (i.w 4) 8 4) }
        else d
      .done stDone d 0)

/-- QPSET with ENABLE 0 (R425): an IDLE queue pair is released. -/
def execQpsetRelease (p : Nat) (s : State) : Host.Outcome State Fault Refusal :=
  s.run true (Dev.runIns p (fun i => i.op == 0x30 && i.field != 6 && !bit (i.w 2) 32) fun _ i d =>
    if i.len != 6 || 65536 ≤ i.a || 6 < i.field || (d.qp i.a).st != .idle then .done stBadOperand d 0
    else
      let d := d.freeTags (tagService (d.qp i.a).kind) (d.qp i.a).descs.length
      .done stDone (d.onHif fun h => { h with qps := Map.del h.qps i.a }) 0)

/-! ## The logline bindings (R303, Table 9.5) -/

/-- QPSET of the archive binding (R5, R303). -/
def execQpsetLoglineArchive (p : Nat) (s : State) : Host.Outcome State Fault Refusal :=
  s.run true (Dev.runIns p (fun i => i.op == 0x30 && i.field == 6 && bit (i.w 0) 0) fun _ i d =>
    let w := i.w 0
    let vol := bits w 32 32
    let on := bit w 2
    if i.len != 10 || i.a != 0 || bit w 1 || bits w 3 29 != 0 || portMap i 1 &&& portMap i 5 != 0
        || 2 ^ d.lanes ≤ portMap i 1 || 2 ^ d.lanes ≤ portMap i 5 || (on && 16384 ≤ vol) then
      .done stBadOperand d 0
    else
      .done stDone (d.onLog fun l => { l with
        archive := if on then some (vol, portMap i 1, portMap i 5) else none
        archVol := if on then some vol else none }) 0)

/-- The settings of a view (Table 9.5). -/
def viewOf (i : Ins) : View :=
  { header := bit (i.w 0) 1, slice := bits (i.w 0) 3 12, qp := bits (i.w 0) 32 16, ports := portMap i 1
    domains := ((List.range 16).map fun k => bits (i.w (5 + k / 4)) (k % 4 * 16) 16).filter (· != 0) }

/-- QPSET of a view (R5, R303). -/
def execQpsetLoglineView (p : Nat) (s : State) : Host.Outcome State Fault Refusal :=
  s.run true (Dev.runIns p (fun i => i.op == 0x30 && i.field == 6 && !bit (i.w 0) 0) fun _ i d =>
    let w := i.w 0
    let v := viewOf i
    let q := d.qp v.qp
    if i.len != 10 || 64 ≤ i.a || bits w 15 17 != 0 || bits w 48 16 != 0 || 2 ^ d.lanes ≤ v.ports then .done stBadOperand d 0
    else if !bit w 2 then .done stDone (d.onLog fun l => { l with views := Map.del l.views i.a }) 0
    else if q.st != .active || q.kind != 5 || q.slice != v.slice then .done stBadOperand d 0
    else
      .done stDone (d.onLog fun l =>
        let old := (Map.find l.views i.a).getD {}
        { l with views := Map.put l.views i.a { v with held := old.held, span := old.span } }) 0)

/-! ## QUIESCE and ABORT (R442 to R444, R642) -/

/-- A queue pair that QUIESCE or ABORT may name: not the submitter's own, not DISABLED or IDLE (R444). -/
def Dev.stoppable (x : Prog) (q : Nat) (d : Dev) : Bool :=
  q < 65536 && q != x.qp && (d.qp q).st != .disabled && (d.qp q).st != .idle

/-- QUIESCE (R442, R642). -/
def execQuiesce (p : Nat) (s : State) : Host.Outcome State Fault Refusal :=
  s.run true (Dev.runIns p (fun i => i.op == 0x31) fun x i d =>
    if i.field != 0 || i.len != 2 || i.w 0 = 0 || 2 ^ 32 ≤ i.w 0 || !d.stoppable x i.a then .done stBadOperand d 0
    else
      let d := d.onQp i.a fun y => Qp.settle { y with st := if y.st = .active then .quiescing else y.st }
      .wait d (.quiesce i.a) (some (d.turn + i.w 0)))

/-- ABORT (R443): `ring` holds the descriptors not yet fetched. -/
def execAbort (p : Nat) (ring : List (List Byte)) (s : State) : Host.Outcome State Fault Refusal :=
  s.run true (Dev.runIns p (fun i => i.op == 0x32) fun x i d =>
    if i.field != 0 || i.len != 1 || !d.stoppable x i.a then .done stBadOperand d 0
    else .wait (((d.abortRing i.a ring).abortQp i.a none)) (.abort i.a) none)

/-! ## RNGDRAW (R151, R551, R553) -/

/-- RNGDRAW: one generate request, written to the address alone. -/
def execRngdraw (p : Nat) (s : State) : Host.Outcome State Fault Refusal :=
  s.run true (Dev.runIns p (fun i => i.op == 0x39) fun x i d =>
    if i.field != 0 || i.len != 2 || i.a = 0 || 4096 < i.a then .done stBadOperand d 0
    else if d.she.rng = .stopped then .done stTamper d 0
    else if d.she.rng ≠ .ready then .done stNotReady d 0
    else
      let g := d.generate i.a
      .done stDone (g.2.ownerWrite x.qp (i.w 0) g.1) (ceilDiv i.a 16))

/-! ## Slice and function resets (R417, R445, R461, R464) -/

/-- The queue pairs bound to a slice. -/
def Dev.qpsOf (d : Dev) (s : Nat) : List Nat := Map.keysWhere d.hif.qps fun _ x => x.st != .disabled && x.slice == s

/-- The generations of a slice that outstanding operations carry, each once (R460). -/
def Dev.busyGens (d : Dev) (s : Nat) : List Nat :=
  ((d.qpsOf s).flatMap fun q => (d.qp q).descs.map (·.gen)).foldl (fun l g => if l.contains g then l else l ++ [g]) []

/-- A slice reset takes effect (R461); `but` is the program that resets its own slice, which goes on to the end of its instruction (R140). -/
def Dev.resetSlice (s : Nat) (but : Option Nat) (d : Dev) : Dev :=
  match d.slice s with
  | none => d
  | some x =>
    let lost := ofBit x.up.msg.isSome + ofBit x.down.msg.isSome
    let d := (d.onSlice s fun x => { x with
      gen := if x.gen = 65535 then 1 else x.gen + 1
      up := { x.up with unack := false, msg := none }
      down := { x.down with unack := false, msg := none } }).add Reg.slcMbDiscard lost
    ((d.qpsOf s).foldl (fun d q => d.abortQp q but) d).bump Reg.slcReset

/-- A function reset (R445, R464): its queue pairs abort with completions held, its slices are reset, the slices it only manages get no manager messages; what its reader windows select falls to 0 (R637, R638). -/
def Dev.resetFn (k : Nat) (d : Dev) : Dev :=
  let owns (x : Slice) : Bool := !x.capstan && 8 * x.port + x.fn == k
  let qs := Map.keysWhere d.hif.qps fun _ x => x.st != .disabled && x.st != .idle && !x.capstan && x.fnKey == k
  let own := Map.keysWhere d.slc fun _ x => owns x
  let d := qs.foldl (fun d q => d.onQp q fun x => { x with reset := true }) d
  let d := own.foldl (fun d s => d.resetSlice s none) d
  let d := qs.foldl (fun d q => d.abortQp q none) d
  let d : Dev := { d with slc := d.slc.map fun e => (e.1, if own.contains e.2.mgr && !owns e.2 then { e.2 with orphan := true } else e.2) }
  d.onHif fun h => { h with
    fns := Map.del h.fns k, views := Map.del h.views k, rawSel := Map.del h.rawSel k, rawStage := Map.del h.rawStage k
    latches := Map.del h.latches k }

/-- Every function of a host port is reset (R417), counted once. -/
def Dev.resetPort (n : Nat) (d : Dev) : Dev := ((List.range 8).foldl (fun d f => d.resetFn (8 * n + f)) d).bump Reg.hifFuncReset

end Sys2Proof.Machine
end

