-- ==== Sys2Proof/Machine/Slices.lean ====
section
/-! DEFINITION. Tenant slices: SLCSET, SLCRESET, mailboxes, and what the turn boundary does for them (15_tenant_slices.md);
register accesses recorded as ACCESS_ERR (R422). -/
namespace Sys2Proof.Machine

/-! ## Register accesses (R415, R422) -/

/-- A reader or writer of registers: function 8 port + function below 32, capstan core 32 + core. It has the global window (R415). -/
def Dev.hasGlobal (who : Nat) (d : Dev) : Bool := 32 ≤ who || (who % 8 == 0 && (d.hp (who / 8)).manager)

/-- HIF_ACCESS_LAST (Table 14.12). -/
def accessWord (who bar off : Nat) (write : Bool) : W :=
  let f := if who < 32 then who % 8 * 2 ^ 28 + who / 8 * 2 ^ 31 else 0
  BitVec.ofNat 64 (off % 2 ^ 26 + bar % 4 * 2 ^ 26 + f + ofBit write * 2 ^ 33)

/-- An access recorded as ACCESS_ERR changes nothing else (R422). -/
def Dev.accessErr (who bar off : Nat) (write : Bool) (d : Dev) : Dev :=
  let w := accessWord who bar off write
  let d := (d.bump Reg.hifAccessErr).onHif fun h => { h with last := w }
  if who < 32 then d.onFn who fun f => { f with errs := f.errs + 1, last := w } else d

/-- Send a vector of a function without moderation, or set its pending bit (R446 to R448, R459). -/
def Dev.vector (k v : Nat) (d : Dev) : Dev :=
  let f := d.fn k
  let pendIt (d : Dev) : Dev := d.onFn k fun f => { f with pend := if f.pend.contains v then f.pend else f.pend ++ [v] }
  if f.d3 then
    if f.pmeSent then pendIt d
    else (((pendIt d).onFn k fun f => { f with pmeSent := true }).send .pme [k / 8, k % 8] []).bump Reg.hifPmeSent
  else if f.masked.contains v || (d.hp (k / 8)).link == .down then pendIt d
  else
    let d := d.onFn k fun f => { f with pend := f.pend.filter (· != v) }
    if d.boot.gated then d.bump Reg.bootGatedWrites else d.send .msix [k / 8, k % 8, v] []

/-! ## SLCSET (R453 to R455, Table 15.2) -/

/-- The settings words 1 to 12 describe. -/
def slcCfgOf (i : Ins) : SlcCfg :=
  { weight := bits (i.w 0) 47 8, mbT := i.w 1, mbM := i.w 2, vecT := bits (i.w 3) 0 11, vecM := bits (i.w 3) 11 11
    rates := (List.range 8).map fun b => (bits (i.w (4 + b)) 0 48, bits (i.w (4 + b)) 48 16 * 1024) }

/-- The slice words 1 to 12 describe, its buckets full (R454). -/
def sliceOf (i : Ins) : Slice :=
  let w := i.w 0
  let cfg := slcCfgOf i
  { role := bits w 1 2, port := bits w 3 2, fn := bits w 5 3, capstan := bit w 8, core := bits w 9 5
    pasid := if bit w 14 then some (bits w 15 20) else none, mgr := bits w 35 12, cfg
    levels := (List.range 8).map fun b => (b, Bucket.fill true ((cfg.rates[b]?).getD (0, 0)).2 {}) }

/-- A program of a slice may name slice n with SLCSET or SLCRESET (R452, R453). -/
def Dev.mayName (from' n : Nat) (d : Dev) : Bool :=
  n != 0 && n < 4096 && match d.slice n with
    | none => true
    | some x => from' == 0 || (((d.slice from').map (·.role)) == some 2 && x.mgr == from')

/-- Two slices of one function whose accesses could not be told apart (R454). -/
def Slice.clash (x y : Slice) : Bool := !x.capstan && !y.capstan && x.port == y.port && x.fn == y.fn && x.pasid == y.pasid

/-- The words keep Table 15.2 and R454. -/
def Dev.slcsetOk (i : Ins) (d : Dev) : Bool :=
  let w := i.w 0
  let x := sliceOf i
  x.role < 3 && (!x.capstan || x.role == 2) && (x.capstan || x.core == 0) && ((d.slice x.mgr).map (·.role)) == some 2 && 1 ≤ x.cfg.weight
    && bits w 55 9 == 0 && i.w 1 % 4096 == 0 && i.w 2 % 4096 == 0 && bits (i.w 3) 22 42 == 0 && (x.cfg.rates.all fun r => 1024 ≤ r.2)
    && (match d.slice i.a with
      | some y => y.role == x.role && y.port == x.port && y.fn == x.fn && y.capstan == x.capstan && y.core == x.core && y.pasid == x.pasid
      | none => true)
    && (Map.keysWhere d.slc fun n y => n != i.a && x.clash y) == []

/-- SLCSET with ENABLE 1 (R453, R454): a disabled slice is enabled at once; an enabled one takes its settings at the next boundary. -/
def execSlcset (p : Nat) (s : State) : Host.Outcome State Fault Refusal :=
  s.run true (Dev.runIns p (fun i => i.op == 0x33 && bit (i.w 0) 0) fun x i d =>
    let me := (d.qp x.qp).slice
    let y := sliceOf i
    if i.field != 0 || i.len != 13 || !d.mayName me i.a || !d.slcsetOk i then .done stBadOperand d 0
    else if !y.capstan && 1024 ≤ (Map.keysWhere d.slc fun n z => n != i.a && !z.capstan && z.port == y.port && z.fn == y.fn).length then
      .done stFull d 0
    else
      match d.slice i.a with
      | none => .done stDone { d with slc := Map.put d.slc i.a y } 0
      | some _ => .done stDone (d.onSlice i.a fun z => { z with next := some y.cfg, mgr := y.mgr, orphan := z.orphan && me != 0 }) 0)

/-- SLCSET with ENABLE 0 (R303, R455, R549): nothing bound, nothing outstanding, no slot referenced; its slots are zeroised and its views released. -/
def execSlcsetRelease (p : Nat) (s : State) : Host.Outcome State Fault Refusal :=
  s.run true (Dev.runIns p (fun i => i.op == 0x33 && !bit (i.w 0) 0) fun x i d =>
    let held := d.she.slots.any fun e => e.2.owner == i.a && (e.2.refs != 0 || d.slotBusy e.1)
    if i.field != 0 || i.len != 13 || !d.mayName (d.qp x.qp).slice i.a || d.qpsOf i.a != [] || held then .done stBadOperand d 0
    else
      let d := d.onShe fun s => { s with slots := s.slots.filter fun e => e.2.owner != i.a }
      let d := d.onLog fun l => { l with views := l.views.filter fun e => e.2.slice != i.a }
      .done stDone { d with slc := Map.del d.slc i.a } 0)

/-! ## SLCRESET (R461 to R463) -/

/-- SLCRESET may name a slice the submitter may name with SLCSET, or a DIRECT submitter itself (R453). -/
def Dev.mayReset (me n : Nat) (d : Dev) : Bool :=
  (d.slice n).isSome && (d.mayName me n || (me == n && ((d.slice me).map (·.role)) == some 1))

/-- Programs submitted under an old generation of their slice, but for `but`, are aborted (R140). -/
def Dev.abortStale (d : Dev) : Dev :=
  d.abortProgs fun x => ((d.qp x.qp).descs.any fun e => e.id == x.desc && e.gen != d.sliceGen (d.qp x.qp).slice)

/-- SLCRESET (R461, R463): one that would make a fifth generation live, beside four that operations carry, waits, its stall counted. -/
def execSlcreset (p : Nat) (s : State) : Host.Outcome State Fault Refusal :=
  s.run true fun d =>
    let d := d.runIns p (fun i => i.op == 0x34) fun x i d =>
      if i.field != 0 || i.len != 1 || !d.mayReset (d.qp x.qp).slice i.a then .done stBadOperand d 0
      else if 4 ≤ (d.busyGens i.a).length then
        .wait ((d.onSlice i.a fun y => { y with resetWait := true }).bump Reg.slcResetStall) (.sliceReset i.a) none
      else .done stDone (d.resetSlice i.a (some x.seq)) 0
    d.abortStale

/-- SLCRESET_STALL_END (R463): the oldest old generation has no outstanding operation. -/
def execSlcresetStallEnd (p : Nat) (s : State) : Host.Outcome State Fault Refusal :=
  s.run true fun d =>
    match d.waitOf p with
    | some (.sliceReset n, _) =>
      d.when ((d.busyGens n).length < 4) fun d =>
        (((d.onSlice n fun y => { y with resetWait := false }).resetSlice n (some p)).endWait p stDone).abortStale
    | _ => d

/-! ## Mailboxes (R456 to R459) -/

/-- A doorbell's part for one direction: the message under way is acknowledged once delivered. -/
def Mbox.ackd (ack : Bool) (m : Mbox) : Mbox := if ack && m.msg.isNone then { m with unack := false } else m

/-- A mailbox doorbell for an enabled slice (R457, R458): ACK for the other direction first, then a send. -/
def Dev.mbDoorbell (s : Nat) (up : Bool) (v : Nat) (d : Dev) : Dev :=
  match d.slice s with
  | none => d
  | some x =>
    let len := bits v 0 12
    if bits v 32 16 != x.gen then d.bump Reg.hifDbStale
    else
      let ack := bit v 12
      let d := d.onSlice s fun x => if up then { x with down := x.down.ackd ack } else { x with up := x.up.ackd ack }
      if len = 0 ∨ (!up && x.orphan) then d
      else
        let m := if up then x.up else x.down
        if m.unack ∨ 2040 < len ∨ len % 8 ≠ 0 then d.bump Reg.slcMbBusy
        else
          let m := { m with unack := true, msg := some (len, x.gen) }
          d.onSlice s fun x => if up then { x with up := m } else { x with down := m }

/-- Register offset of a slice's mailbox doorbell in the function window (R457). -/
def mbOff (s : Nat) (up : Bool) : Nat := 0x03F10000 + 0x10 * s + (if up then 0 else 8)

/-- MB_UP (R457): the owning function's. -/
def execMbUp (who slice v : Nat) (s : State) : Host.Outcome State Fault Refusal :=
  s.run (who < 64 && slice < 4096 && v < 2 ^ 64) fun d =>
    match d.slice slice with
    | some x => if !x.capstan && who == 8 * x.port + x.fn then d.mbDoorbell slice true v else d.accessErr who 0 (mbOff slice true) true
    | none => d.accessErr who 0 (mbOff slice true) true

/-- MB_DOWN (R457): the manager's, a host function or a capstan core. -/
def execMbDown (who slice v : Nat) (s : State) : Host.Outcome State Fault Refusal :=
  s.run (who < 64 && slice < 4096 && v < 2 ^ 64) fun d =>
    match (d.slice slice).bind fun x => d.slice x.mgr with
    | some m =>
      if who == (if m.capstan then 32 + m.core else 8 * m.port + m.fn) then d.mbDoorbell slice false v else d.accessErr who 0 (mbOff slice false) true
    | none => d.accessErr who 0 (mbOff slice false) true

/-- The delivery word (Table 15.3). -/
def deliveryWord (seq len gen : Nat) : Nat := seq % 65536 + len * 2 ^ 16 + gen * 2 ^ 28

/-- Bytes written to a mailbox copy: capstan memory, or a host function's, discarded while the outputs are gated (R580). -/
def Dev.mbWrite (capstan : Bool) (s pasid addr : Nat) (bytes : List Byte) (d : Dev) : Dev :=
  if capstan then d.physWrite addr bytes
  else if d.boot.gated then d.bump Reg.bootGatedWrites
  else d.send .mailbox [s, addr, pasid] bytes

/-- MAILBOX_DELIVERY (R459): `bytes` is what a host sender's half holds. -/
def execMailboxDelivery (slice : Nat) (up : Bool) (bytes : List Byte) (s : State) : Host.Outcome State Fault Refusal :=
  s.run (slice < 4096) fun d =>
    match d.slice slice with
    | none => d
    | some x =>
      let m := if up then x.up else x.down
      match m.msg with
      | none => d
      | some (len, gen) =>
        let mgr := (d.slice x.mgr).getD x
        let half := if up then 0 else 0x800
        let rxCap := if up then mgr.capstan else x.capstan
        let txCap := if up then x.capstan else mgr.capstan
        let rx := (if up then x.cfg.mbM else x.cfg.mbT) + half
        let tx := (if up then x.cfg.mbT else x.cfg.mbM) + half
        let body := if txCap then d.physRead tx len else padTo len bytes
        let pasid := d.pasidOf (if up then x.mgr else slice)
        let m := { m with msg := none, seq := (m.seq + 1) % 65536 }
        let d := (d.mbWrite rxCap slice pasid rx body).mbWrite rxCap slice pasid (rx + 0x7F8) (le 8 (deliveryWord m.seq len gen))
        let d := (d.onSlice slice fun x => if up then { x with up := m } else { x with down := m }).bump Reg.slcMbSent
        let r := if up then mgr else x
        if rxCap then d.send .capInterrupt [r.core, 2048 + slice] []
        else d.vector (8 * r.port + r.fn) (if up then x.cfg.vecM else x.cfg.vecT)

/-! ## The turn boundary (R270, R454, R465) -/

/-- Settings that wait take effect; every bucket is refilled, one without a rate only brought down to its burst. -/
def Slice.boundary (x : Slice) : Slice :=
  let cfg := x.next.getD x.cfg
  { x with
    cfg, next := none
    levels := cfg.rates.zipIdx.foldl (fun m e => Map.modify m e.2 {} (Bucket.refill e.1.1 e.1.2)) x.levels }

/-- Order 4 of Table 2.5 for the slices. -/
def Dev.sliceBoundary (d : Dev) : Dev := { d with slc := d.slc.map fun e => (e.1, e.2.boundary) }

end Sys2Proof.Machine
end

