-- ==== Sys2Proof/Machine/Host.lean ====
section
/-! DEFINITION. The host interface: doorbells, fetch engines, the kinds of descriptors it serves itself, completions, links
and power states of functions (R413 to R448). -/
namespace Sys2Proof.Machine

/-! ## Doorbells (R432 to R434) -/

/-- The checks of a doorbell that come before its count (R433). -/
def Dev.doorbell (q v : Nat) (f : Qp → Nat → Option Qp) (d : Dev) : Dev :=
  let x := d.qp q
  if bits v 32 16 != d.sliceGen x.slice then d.bump Reg.hifDbStale
  else if x.st != .active then d.bump Reg.hifDbDisabled
  else match f x (v % 2 ^ 32) with
    | some y => d.onQp q fun _ => y
    | none => d.bump Reg.hifDbRange

/-- SQ_DOORBELL (R433): the page of queue pair q. -/
def execSqDoorbell (q v : Nat) (s : State) : Host.Outcome State Fault Refusal :=
  s.run (q < 65536 && v < 2 ^ 64) (Dev.doorbell q v fun x n =>
    let p := x.prod + ahead 32 n x.prod
    if x.fetched + x.sqDepth < p then none else some { x with prod := p })

/-- CQ_DOORBELL (R433): it may not run ahead of the write count. -/
def execCqDoorbell (q v : Nat) (s : State) : Host.Outcome State Fault Refusal :=
  s.run (q < 65536 && v < 2 ^ 64) (Dev.doorbell q v fun x n =>
    let h := x.cqHead + ahead 32 n x.cqHead
    if x.cqWr < h then none else some { x with cqHead := h })

/-! ## Fetch engines (R435, R437, R465 to R467) -/

/-- The engine of a queue pair: its host port's, or the fifth. -/
def Qp.engine (x : Qp) : Nat := if x.capstan then 4 else x.port

/-- Opcodes of a queue kind (R427). -/
def opsOfKind (kind : Nat) : List Nat :=
  match kind with
  | 0 => [0x10]
  | 1 => [0x20]
  | 2 => [0x40, 0x41, 0x42, 0x43, 0x44]
  | 3 => [0x50, 0x51, 0x52, 0x53, 0x54, 0x60, 0x61, 0x62, 0x63, 0x64]
  | 4 => [0x01]
  | _ => [0x30]

/-- Completion slots no fetched descriptor will need. -/
def Qp.freeSlots (x : Qp) : Nat := x.cqDepth - (x.cqWr - x.cqHead) - x.descs.length - (x.held.filter fun c => c.desc.isNone).length

/-- Store commands a queue pair may still have outstanding (R470). -/
def Qp.storeRoom (x : Qp) : Nat := if x.kind = 2 then 32 - (x.descs.filter fun e => e.op != 0x44).length else 64

/-- A queue pair is ready but for tags and limits (R435). -/
def Dev.readyBase (q : Nat) (d : Dev) : Bool :=
  let x := d.qp q
  x.st == .active && x.fetched < x.prod && 0 < x.freeSlots && d.reachable x && 0 < x.storeRoom && !(d.spl.offers.any fun o => o.qp == q)

/-- Key of a slice's credit on an engine. -/
def creditKey (e s : Nat) : Nat := 4096 * e + s

/-- A queue pair is within its slice's limits (R466). -/
def Dev.withinLimits (q : Nat) (d : Dev) : Bool :=
  let x := d.qp q
  match d.slice x.slice with
  | none => false
  | some y =>
    let b := kindBucket x.kind
    let ok (b : Nat) : Bool := !y.limits b || decide (0 ≤ (Map.getD y.levels b {}).level)
    ok b && ok (b + 1) && 0 < Map.getD d.hif.sliceCredit (creditKey x.engine x.slice) 0

/-- A fetch that R466 refuses is counted once per turn. -/
def Dev.rateHold (q : Nat) (d : Dev) : Dev :=
  if (d.qp q).rateTurn = d.turn + 1 then d else (d.onQp q fun x => { x with rateTurn := d.turn + 1 }).bump Reg.slcRateHold

/-- Descriptors one read of a queue pair fetches (R435). -/
def Dev.fetchCount (q : Nat) (d : Dev) : Nat :=
  let x := d.qp q
  [x.prod - x.fetched, x.burst, x.credit, 64, x.sqDepth - x.fetched % x.sqDepth, x.freeSlots, d.tagsFor q (tagService x.kind), x.storeRoom].foldl min 64

/-- One fetched descriptor: it holds a tag, and an opcode its kind does not have completes BAD_OPERAND (R427, R437). -/
def Dev.fetched (q : Nat) (bs : List Byte) (d : Dev) : Dev :=
  let x := d.qp q
  let e : Desc := { id := x.fetched, bytes := bs, gen := d.sliceGen x.slice }
  let d := (d.takeTags (tagService x.kind) 1).onQp q fun x => { x with fetched := x.fetched + 1, descs := x.descs ++ [e] }
  if (opsOfKind x.kind).contains e.op then d else d.complete q e.id stBadOperand []

/-- Fetch n descriptors in one read: `given` holds what the owner's memory answers, in order (R435, R465, R467). -/
def Dev.fetchN (q n : Nat) (given : List (List Byte)) (d : Dev) : Dev :=
  let x := d.qp q
  let addr := x.sqBase + 64 * (x.fetched % x.sqDepth)
  let d := (d.debitSlice x.slice (kindBucket x.kind) (64 * n)).send .hostRead [q, addr, d.pasidOf x.slice, 64 * n] []
  let desc (i : Nat) : List Byte := if x.capstan then d.physRead (addr + 64 * i) 64 else padTo 64 ((given[i]?).getD [])
  let d := (List.range n).foldl (fun d i => d.fetched q (desc i)) d
  ((d.onQp q fun x => { x with credit := x.credit - n }).tagTaken q).onHif fun h => { h with
    engines := Map.put h.engines x.engine q
    sliceCredit := Map.modify h.sliceCredit (creditKey x.engine x.slice) 0 (· - 1) }

/-- A queue pair's turn in a round: the device, the descriptors not used, whether any was served. -/
def Dev.serveQ (a : Dev × List (List Byte) × Bool) (q : Nat) : Dev × List (List Byte) × Bool :=
  let d := a.1
  if !d.readyBase q || (d.qp q).credit == 0 then a
  else if d.tagsFor q (tagService (d.qp q).kind) = 0 then (d.tagWait q, a.2.1, a.2.2)
  else if !d.withinLimits q then (d.rateHold q, a.2.1, a.2.2)
  else
    let n := d.fetchCount q
    (d.fetchN q n a.2.1, (if (d.qp q).capstan then a.2.1 else a.2.1.drop n), true)

/-- The queue pairs of an engine, ascending. -/
def Dev.engineQps (d : Dev) (e : Nat) : List Nat := Map.keysWhere d.hif.qps fun _ x => x.st != .disabled && x.engine == e

/-- Queue credits return to the weights, and the slices' credits on the engine with them (R435, R467). -/
def Dev.resetCredits (e : Nat) (d : Dev) : Dev :=
  let d := (d.engineQps e).foldl (fun d q => d.onQp q fun x => { x with credit := x.weight }) d
  d.onHif fun h => { h with sliceCredit := d.slc.foldl (fun m s => Map.put m (creditKey e s.1) s.2.cfg.weight) h.sliceCredit }

/-- FETCH_ROUND (R435): one pass over the engine's queues from behind the last one served; a pass that serves none resets the credits. -/
def execFetchRound (engine : Nat) (descs : List (List Byte)) (s : State) : Host.Outcome State Fault Refusal :=
  s.run (engine < 5) fun d =>
    let qs := d.engineQps engine
    let last := Map.getD d.hif.engines engine 65536
    let order := qs.filter (fun q => last < q) ++ qs.filter (fun q => q ≤ last)
    let r := order.foldl Dev.serveQ (d, descs, false)
    if r.2.2 then r.1 else r.1.resetCredits engine

/-! ## Descriptors of kinds 0, 1, 4, 5 (R427, R436, R438 to R441) -/

/-- The next descriptor of a queue pair of a kind, if it is the one named. -/
def Dev.hostRow (kind op q id : Nat) (f : Desc → Dev → Dev) (d : Dev) : Dev :=
  match (d.qp q).nextDesc with
  | none => d
  | some e => d.when (e.id == id && e.op == op && (d.qp q).kind == kind && !e.done) (f e)

/-- Flags 0, dword 1 and dwords 8 to 15 zero (Table 14.5). -/
def plainDesc (bs : List Byte) (zero : List Nat) : Bool := bits (dw bs 0) 8 8 == 0 && zeros bs ([1, 8, 9, 10, 11, 12, 13, 14, 15] ++ zero)

/-- INJECT (R235, R438): the frame is read into the coil and waits in the lay's injection queue. -/
def execInject (q id : Nat) (frame : List Byte) (s : State) : Host.Outcome State Fault Refusal :=
  s.run (q < 65536) (Dev.hostRow 0 0x10 q id fun e d =>
    let bs := e.bytes
    let len := dw bs 4
    if !plainDesc bs [] || bits (dw bs 5) 3 13 != 0 || len < 64 || 9416 < len then d.complete q id stBadOperand []
    else
      let r := d.ownerRead q (dq bs 2) len frame
      (r.2.startDesc q id).injectFrame (bits (d.qp q).word5.toNat 0 5)
        { qp := q, desc := id, cls := bits (dw bs 5) 0 3, domain := bits (dw bs 5) 16 16, user0 := BitVec.ofNat 64 (dq bs 6), bytes := r.1 })

/-- Post a buffer of a descriptor. -/
def Dev.postBuf (q id addr len : Nat) (d : Dev) : Dev :=
  (d.startDesc q id).onQp q fun x => { x with bufs := x.bufs ++ [{ desc := id, addr, len }] }

/-- NET_RECV_BUF (R439). -/
def execNetRecvBuf (q id : Nat) (s : State) : Host.Outcome State Fault Refusal :=
  s.run (q < 65536) (Dev.hostRow 1 0x20 q id fun e d =>
    let len := dw e.bytes 4
    if !plainDesc e.bytes [5, 6, 7] || len < 256 || 65535 < len then d.complete q id stBadOperand []
    else d.postBuf q id (dq e.bytes 2) len)

/-- CONTROL_RUN (R436): the program waits for acceptance. -/
def execControlRun (q id : Nat) (s : State) : Host.Outcome State Fault Refusal :=
  s.run (q < 65536) (Dev.hostRow 4 0x01 q id fun e d =>
    if !plainDesc e.bytes [5, 6, 7] || dq e.bytes 2 % 8 != 0 || 2 ^ 17 ≤ dw e.bytes 4 then d.complete q id stBadOperand [0, 0, 0, 0]
    else (d.startDesc q id).onSpl fun s => { s with offers := s.offers ++ [{ qp := q, desc := id, len := dw e.bytes 4 }] })

/-- EVENT_BUF (R440): a waiting source may go on. -/
def execEventBuf (q id : Nat) (s : State) : Host.Outcome State Fault Refusal :=
  s.run (q < 65536) (Dev.hostRow 5 0x30 q id fun e d =>
    let len := dw e.bytes 4
    if !plainDesc e.bytes [5, 6, 7] || dq e.bytes 2 % 8 != 0 || len % 8 != 0 || len < 4096 || 2 ^ 20 < len then d.complete q id stBadOperand []
    else (d.postBuf q id (dq e.bytes 2) len).pumpLog)

/-- COMPLETION_WRITE (R429, R430, R437, R446). -/
def execCompletionWrite (q : Nat) (s : State) : Host.Outcome State Fault Refusal :=
  s.run (q < 65536) (Dev.writeCompletion q)

/-! ## Links and resets (R413, R417, R445) -/

/-- The level of EVT#n: low while the link is not in L0 or L1 (R417). -/
def Dev.evt (n : Nat) (high : Bool) (d : Dev) : Dev := d.send .pin [n, ofBit high] []

/-- The port's link leaves L0 or L1. -/
def Dev.hpDown (n : Nat) (d : Dev) : Dev :=
  if (d.hp n).link = .down then d else (d.onHp n fun h => { h with link := .down }).evt n false

/-- PERST_ASSERT (R417): the pin, and unless the main domain is held in reset, a function reset. -/
def execPerstAssert (n : Nat) (s : State) : Host.Outcome State Fault Refusal :=
  s.runAny (n < 4) fun s =>
    if (s.dev.hp n).perst then s
    else
      let s := s.onDev (Dev.onHp n fun h => { h with perst := true })
      if s.dev.boot.held then s else s.onDev fun d => (d.hpDown n).resetPort n

/-- PERST_DEASSERT (R413): the function count is fixed until the next one. -/
def execPerstDeassert (n : Nat) (s : State) : Host.Outcome State Fault Refusal :=
  s.runAny (n < 4) (State.onDev (Dev.onHp n fun h => { h with perst := false, fnCount := h.fnNext }))

/-- HOST_LINK_DOWN (R417). -/
def execHostLinkDown (n : Nat) (s : State) : Host.Outcome State Fault Refusal :=
  s.run (n < 4) fun d => d.when ((d.hp n).link != .down) fun d => (d.hpDown n).resetPort n

/-- A queue pair of a reset function enters IDLE, its held completions never written (R445). -/
def Dev.idleQp (q : Nat) (d : Dev) : Dev :=
  let x := d.qp q
  let late := (x.held.filter fun c => c.gen != d.sliceGen x.slice).length
  let d := x.held.foldl (fun d c => d.discardCpl q c []) d
  (d.add Reg.slcLateDiscard late).onQp q fun x => { x with st := .idle, reset := false, held := [] }

/-- HOST_LINK_L0 (R445, R609): the link trains once PERST# is deasserted and its reference clock is there. -/
def execHostLinkL0 (n : Nat) (s : State) : Host.Outcome State Fault Refusal :=
  s.run (n < 4) fun d =>
    d.when (!(d.hp n).perst && (d.hp n).link != .l0 && !bit d.pwr.hpLost n) fun d =>
      let d := (d.onHp n fun h => { h with link := .l0 }).evt n true
      (Map.keysWhere d.hif.qps fun _ x => x.reset && !x.capstan && x.port == n).foldl (fun d q => d.idleQp q) d

/-! ## Power states and vectors (R447, R448) -/

/-- Send the message of a pending vector: of its queue pair, or of a mailbox. -/
def Dev.sendPending (k v : Nat) (d : Dev) : Dev :=
  match Map.keysWhere d.hif.qps fun _ x => x.st != .disabled && !x.capstan && x.fnKey == k && x.lidx == v && x.due with
  | q :: _ => d.message q
  | [] => d.vector k v

/-- The queue pairs of a function. -/
def Dev.fnQps (d : Dev) (k : Nat) : List Nat := Map.keysWhere d.hif.qps fun _ x => x.st != .disabled && !x.capstan && x.fnKey == k

/-- D3HOT_ENTRY (R448). -/
def execD3hotEntry (k : Nat) (s : State) : Host.Outcome State Fault Refusal :=
  s.run (k < 32) (Dev.onFn k fun f => { f with d3 := true, pmeSent := f.pmeSent && f.d3 })

/-- D0_RETURN (R448): held completions in order, then the pending messages. -/
def execD0Return (k : Nat) (s : State) : Host.Outcome State Fault Refusal :=
  s.run (k < 32) fun d =>
    d.when (d.fn k).d3 fun d =>
      let d := d.onFn k fun f => { f with d3 := false, pmeSent := false }
      let d := (d.fnQps k).foldl (fun d q => (List.range (d.qp q).held.length).foldl (fun d _ => d.writeCompletion q) d) d
      ((d.fn k).pend.filter fun v => !(d.fn k).masked.contains v).foldl (fun d v => d.sendPending k v) d

/-- A vector is unmasked, and its pending message sent (R447). -/
def Dev.unmask (k v : Nat) (d : Dev) : Dev :=
  let d := d.onFn k fun f => { f with masked := f.masked.filter (· != v) }
  if (d.fn k).pend.contains v then d.sendPending k v else d

/-- MSIX_UNMASK (R447). -/
def execMsixUnmask (k v : Nat) (s : State) : Host.Outcome State Fault Refusal :=
  s.run (k < 32 && v < 2048) (Dev.unmask k v)

end Sys2Proof.Machine
end

