-- ==== Sys2Proof/Machine/View.lean ====
section
/-! DEFINITION. What every register of the global window and of the function window reads as (R6, R18 to R22, R78, R79, R118,
R155, R189, R227, R259, R283, R307, R336, R370, R385, R412, R449, R468, R492, R511, R540, R567, R591, R616, R632 to R636). Each
block gives the values of its registers that are no counters, by the offset of the first of them, for element i; every other
64-bit register is a counter (log 10). -/
namespace Sys2Proof.Machine

/-! ## Fields -/

/-- A word of fields, each with its lowest bit and width: what a register of several fields reads as. -/
def word (fs : List (Nat × Nat × Nat)) : Nat := (fs.map fun f => f.1 % 2 ^ f.2.2 * 2 ^ f.2.1).sum

/-- A one-bit field. -/
def flagAt (b : Bool) (i : Nat) : Nat × Nat × Nat := (ofBit b, i, 1)

/-- A turn as a register shows it: bits [53:0]. -/
def turnBits (t : Nat) : Nat := t % 2 ^ 54

/-- A level as SCHED_SHP_LEVEL shows it: 64 bits, signed. -/
def Bucket.shown (b : Bucket) : Nat := unsigned 64 b.level

/-! ## GLB_, REEL_ (Table 23.3, Table 4.10, Table 5.7, Table 2.7) -/

/-- Codes of Table 5.5. -/
def ShSt.code : ShSt → Nat
  | .free => 0 | .opened => 1 | .pending => 2 | .current => 3 | .draining => 4 | .retiring => 5

/-- The turn GLB_SHADE_TURN shows: 0 while FREE or OPEN. -/
def Shade.turnShown (x : Shade) : Nat := if x.st = .free ∨ x.st = .opened then 0 else turnBits x.turn

/-- GLB_ID and GLB_CAPS (R6, Table 23.4, Table 23.5), the gauges and windows of Table 23.3, GLB_SPLICE_STATUS. -/
def Dev.glbRegs (who i : Nat) (d : Dev) : List (Nat × Nat) := [
  (Reg.glbId, word [(if d.variant24 then 0x9224 else 0x9240, 0, 16), (0xB0, 16, 8)]),
  (Reg.glbCaps, word [(d.lanes, 0, 9), (d.blocks, 9, 6), (1, 16, 8)]),
  (Reg.glbTagFree, 65536 - (d.hif.tags.map (·.2)).sum),
  (Reg.glbSnapStatus, d.spl.snaps.length % 8),
  (Reg.glbSnapView, Map.getD d.hif.views who 0),
  (Reg.glbSnapTurn 0, match Map.find d.spl.snapTurns i with | some t => turnBits t + 2 ^ 63 | none => 0),
  (Reg.glbSpliceStatus, word [(d.spl.progs.length, 0, 5), (min d.spl.stage.length 65535, 16, 16)])]

/-- The shade block (Table 5.7, Table 5.8). -/
def Dev.shadeRegs (d : Dev) : List (Nat × Nat) :=
  let num (n : Nat) : Nat := if (d.shade n).st = .free then 0 else (d.shade n).num
  [(Reg.glbShadeState, word [((d.shade 0).st.code, 0, 3), ((d.shade 1).st.code, 4, 3), ((d.shade 2).st.code, 8, 3),
      ((d.shade 3).st.code, 12, 3), (d.current, 16, 2)]),
    (Reg.glbShadeCurrent, (d.shade d.current).num),
    (Reg.glbShadeNum0, num 0), (Reg.glbShadeNum1, num 1), (Reg.glbShadeNum2, num 2), (Reg.glbShadeNum3, num 3),
    (Reg.glbShadeResident0, (d.shade 0).resident), (Reg.glbShadeResident1, (d.shade 1).resident),
    (Reg.glbShadeResident2, (d.shade 2).resident), (Reg.glbShadeResident3, (d.shade 3).resident),
    (Reg.glbShadeTurn0, (d.shade 0).turnShown), (Reg.glbShadeTurn1, (d.shade 1).turnShown),
    (Reg.glbShadeTurn2, (d.shade 2).turnShown), (Reg.glbShadeTurn3, (d.shade 3).turnShown)]

/-- Codes of Table 2.3. -/
def ReelSt.code : ReelSt → Nat
  | .free => 0 | .acquiring => 1 | .locked => 2 | .holdover => 3

/-- The kind of a selected entry, 0 for none (Table 4.6). -/
def Dev.kindOf (e : Option Nat) (d : Dev) : Nat := (e.map fun e => (d.cand e).kind).getD 0

/-- SRC_PORT (Table 2.8): the port of the time source where it is PTP, else of a SyncE or PTP frequency source, else 0 (log 75). -/
def Dev.srcPort (d : Dev) : Nat :=
  let k := d.kindOf d.reel.src
  if k = 1 ∨ k = 2 then (d.cand (d.reel.src.getD 0)).port
  else if d.kindOf d.reel.freq = 1 ∨ d.kindOf d.reel.freq = 2 ∨ d.kindOf d.reel.freq = 4 then (d.cand (d.reel.freq.getD 0)).port
  else 0

/-- REEL_STATUS (R79, Table 2.8). -/
def Dev.reelStatus (d : Dev) : Nat :=
  let f := d.kindOf d.reel.freq
  word [(d.reel.st.code, 0, 2), (d.kindOf d.reel.src, 4, 4), (if f = 4 then 1 else if f = 5 then 2 else if f = 1 ∨ f = 2 then 3 else 0, 8, 4),
    (d.srcPort, 12, 8), (min d.hopDist 255, 20, 8), flagAt d.isRoot 28, flagAt d.upHoldover 29]

/-- The reel block (R78, Table 2.7). -/
def Dev.reelRegs (d : Dev) : List (Nat × Nat) := [
  (Reg.reelTime, d.ns), (Reg.reelTurn, turnBits d.turn), (Reg.reelStatus, d.reelStatus), (Reg.reelEra, d.reel.era % 65536),
  (Reg.reelEraOffset, d.reel.eraOffset), (Reg.reelHoldoverNs, if d.reel.st = .holdover then d.holdBound else 0),
  (Reg.reelPhaseErr, unsigned 32 d.reel.phaseErr), (Reg.reelLastDisc, d.reel.lastDisc)]

/-! ## LAY_, TBL_, COIL_ (Table 3.10, Table 6.9, Table 7.7) -/

/-- A set with a program (R103). -/
def hasProgram (s : ProgSet) : Bool := s.ingress.isSome || s.egress.isSome || s.slowPath.isSome || s.vector.isSome

/-- LAY_STATUS and LAY_LAST_TRAP of lay i (R118, Table 3.11). -/
def Dev.layRegs (i : Nat) (d : Dev) : List (Nat × Nat) :=
  let loaded (n : Nat) : Nat × Nat × Nat := flagAt (d.live.contains n && hasProgram (d.progSet n i)) (20 + n)
  [(Reg.layStatus 0, word [((d.layOf i).x, 0, 3), ((d.layOf i).strands, 4, 16), loaded 0, loaded 1, loaded 2, loaded 3]),
    (Reg.layLastTrap 0, (d.layOf i).lastTrap)]

/-- The table block (R227, Table 6.9). -/
def Dev.tblRegs (who : Nat) (d : Dev) : List (Nat × Nat) := [
  (Reg.tblMacUsed, (d.tbl.mac.filter fun e => e.2.mask != 0).length),
  (Reg.tblExactUsed, (d.tbl.exact.filter fun e => e.2.mask != 0).length),
  (Reg.tblLpmNarrow, d.tbl.narrow.length), (Reg.tblLpmWide, d.tbl.wide.length),
  (Reg.tblAclUsed, (d.tbl.acl.filter fun e => e.2.mask != 0).length),
  (Reg.tblStaleOpen, (d.tbl.stale.filter fun x => d.pclk < x.close).length),
  (Reg.tblLpmHoles, d.tbl.holes), (Reg.tblFixLast, d.tbl.fixLast.toNat), (Reg.tblRawSelect, Map.getD d.hif.rawSel who 0)]

/-- The copies linked to a queue and not yet dispatched (Table 7.7). -/
def Dev.undispatched (q : Nat) (d : Dev) : Nat :=
  (d.path.pkts.map fun e => (e.2.copies.filter fun c =>
    8 * c.2.port + c.2.cls == q && c.2.fate.isNone && (c.2.pos == .queued || c.2.pos == .picked)).length).sum

/-- COIL_ING_HOLD of an account (Table 7.9). -/
def Dev.ingHold (p c : Nat) (d : Dev) : Nat :=
  let a := d.acct (ingAcct p c)
  word [(a.held, 0, 21), flagAt a.xoff 21, flagAt (d.lossless p c) 22, flagAt (d.linkDelay p).2.1 23, flagAt (d.linkDelay p).2.2 24]

/-- The coil block (R259, Table 7.7, Table 7.8). The delay of a port that no PORTSET has configured reads 0. -/
def Dev.coilRegs (i : Nat) (d : Dev) : List (Nat × Nat) :=
  let a := d.acct (ingAcct (i / 8) (i % 8))
  [(Reg.coilStatus, word [flagAt d.path.short 0, flagAt (d.overUsed != 0) 1, flagAt (d.path.accts.any (·.2.xoff)) 2]),
    (Reg.coilScale, d.path.scale % 2 ^ 17), (Reg.coilFree, 1048576 - d.cellsUsed), (Reg.coilPoolSize, d.poolSize),
    (Reg.coilPoolFree, d.poolFree), (Reg.coilReserved, d.reserved), (Reg.coilOverdraftUsed, d.overUsed),
    (Reg.coilInjectHold, (d.acct injAcct).held), (Reg.coilPeakUsed, d.path.peak),
    (Reg.coilIngHold 0, d.ingHold (i / 8) (i % 8)), (Reg.coilIngHeadroom 0, a.h % 2 ^ 21), (Reg.coilIngHrUsed 0, a.hr % 2 ^ 21),
    (Reg.coilIngDelay 0, if (Map.find d.path.ports (i / 8)).isSome then (d.linkDelay (i / 8)).1 else 0),
    (Reg.coilEqCells 0, d.queueCells i % 2 ^ 21), (Reg.coilEqPkts 0, d.undispatched i), (Reg.coilEqPeak 0, (d.queue i).peak % 2 ^ 21),
    (Reg.coilArrHold 0, word [((d.acct (arrAcct i)).held, 0, 21), flagAt (d.acct (arrAcct i)).xoff 21]),
    (Reg.coilArrReserve 0, (d.acct (arrAcct i)).rsv % 2 ^ 21)]

/-! ## SCHED_, LOG_, AUT_ (Table 8.5, Table 9.6, Table 10.8) -/

/-- Remaining pause quanta of 512 bit times, one begun counted whole, at most 65,535 (Table 8.6, log 75). -/
def Dev.pauseLeft (q : Nat) (d : Dev) : Nat :=
  match Map.find d.path.pauseEnd q with
  | some t => min 65535 (ceilDiv ((t - d.pclk) * (5 * (d.port (q / 8)).speed)) 6144)
  | none => 0

/-- SCHED_Q_STATUS (Table 8.6). -/
def Dev.queueStatus (q : Nat) (d : Dev) : Nat :=
  let lacks : Bool := match d.headCopy q with | some (_, _, p, _) => !d.creditOk q p | none => false
  word [flagAt ((d.queue q).copies != []) 0, flagAt (!d.notPaused q) 1, flagAt (!d.shaperOk q) 2, flagAt lacks 3, flagAt (d.queue q).awarded 4,
    (d.pauseLeft q, 16, 16)]

/-- The scheduler block (R283, Table 8.5). -/
def Dev.schedRegs (i : Nat) (d : Dev) : List (Nat × Nat) := [
  (Reg.schedQStatus 0, d.queueStatus i), (Reg.schedQDeficit 0, unsigned 32 (d.queue i).deficit),
  (Reg.schedQConfig 0, word [((d.queue i).quantum, 0, 16), ((d.queue i).shaper.getD 0, 16, 12), flagAt (d.queue i).shaper.isSome 28]),
  (Reg.schedShpLevel 0, (Map.getD d.path.shapers i {}).shown),
  (Reg.schedShpQueues 0, (Map.keysWhere d.path.queues fun _ x => x.shaper == some i).length % 16),
  (Reg.schedPolC 0, (Map.getD d.path.polC i {}).shown), (Reg.schedPolPe 0, (Map.getD d.path.polP i {}).shown)]

/-- The logline block (R307, Table 9.6, Table 9.7); its gauges of packets and copies are held beside the counters (log 10). P is 0 while no archive is bound. -/
def Dev.logRegs (i : Nat) (d : Dev) : List (Nat × Nat) :=
  let p := match d.log.archive with | some (v, _, _) => (((Map.find d.sto.vols v).map (·.size)).getD 0) / 16 | none => 0
  [(Reg.logStatus, word [flagAt d.log.archive.isSome 0, flagAt (!d.log.pageFree false) 1, flagAt d.log.hitLast 2,
      flagAt (d.log.pages.any (·.retry.isSome)) 3, (d.log.views.length, 4, 7)]),
    (Reg.logStageFree, 512 - d.log.pages.length), (Reg.logPageSeq, d.log.seq), (Reg.logArchSeq, d.log.archSeq), (Reg.logArchSpan, p),
    (Reg.logResident 0, (d.count (Reg.logResident i)).toNat), (Reg.logEgQueued 0, (d.count (Reg.logEgQueued i)).toNat)]

/-- The automaton block (R336, Table 10.8, Table 10.9). -/
def Dev.autRegs (i : Nat) (d : Dev) : List (Nat × Nat) := [
  (Reg.autStatus, word [((d.chainNow.map (·.pos)).getD 0, 0, 3), ((d.chainNow.map (·.n)).getD 0, 3, 4), flagAt d.aut.inUp 7, flagAt d.aut.outUp 8,
    flagAt (d.aut.units.any fun e => e.2.fix != []) 9]),
  (Reg.autFixLast, d.aut.fixLast.toNat), (Reg.autUBacklog 0, (d.unit i).free d.pclk - d.pclk)]

/-! ## BRD_, CAL_, CAP_ (Table 11.11, Table 12.9, Table 13.12) -/

/-- States of R347 as BRD_LNK_STATUS shows them. -/
def LinkSt.code : LinkSt → Nat
  | .down => 0 | .hello => 1 | .up => 2

/-- BRD_STATUS (Table 11.12): EPOCH_MISMATCH stands for 64 turns (R347), RESET_PENDING while a reset of a target this node is in is to come (R368). -/
def Dev.brdStatus (d : Dev) : Nat :=
  word [(d.brd.node, 0, 24), flagAt d.brd.prov 24, flagAt (d.fenced 2 0) 25, (d.epoch, 26, 2),
    flagAt (match d.brd.epochBad with | some t => d.turn < t + 64 | none => false) 28,
    flagAt (d.brd.resets.any fun e => d.inTarget e.1) 29]

/-- The braid block (R370, Table 11.11). -/
def Dev.brdRegs (i : Nat) (d : Dev) : List (Nat × Nat) :=
  let l := d.link i
  [(Reg.brdStatus, d.brdStatus), (Reg.brdLead, d.lead % 65536), (Reg.brdHop, word [(d.brd.h, 0, 6), (d.brd.hopNs, 16, 16)]),
    (Reg.brdLnkStatus 0, word [(l.st.code, 0, 2), flagAt (d.fenced 1 i) 2, flagAt l.peerFenced 3, flagAt l.lease.isSome 4,
      flagAt l.markDone 5, flagAt l.markBad 6]),
    (Reg.brdLnkPeer 0, word [(l.peer, 0, 24), flagAt l.peerProv 24]), (Reg.brdLnkDelay 0, l.delay),
    (Reg.brdLnkMarkFrames 0, l.markFrames), (Reg.brdLnkMarkCells 0, l.markCells), (Reg.brdLnkMarkTurn 0, turnBits l.markTurn)]

/-- A result word (Table 12.10). -/
def resultShown (o : Option Result) : Nat :=
  match o with
  | some r => word [(unsigned 11 r.temp, 0, 11), (r.bin, 11, 2), flagAt r.prov 13, flagAt r.retake 14, flagAt true 15]
  | none => 0

/-- The capture turn of a result. -/
def resultTurn (o : Option Result) : Nat := turnBits ((o.map (·.turn)).getD 0)

/-- The tokens held in X (Table 12.9), each once. -/
def Cal.heldX (c : Cal) : List Token :=
  (c.holds.flatMap fun h => (h.req.claims.filter (·.2)).map (·.1)).foldl (fun l t => if l.contains t then l else l ++ [t]) []

/-- Whether a token is held, in X or S. -/
def Cal.holding (t : Token) (c : Cal) : Bool := c.holds.any fun h => h.req.claims.any fun x => x.1 == t

/-- The calibration block (R385, Table 12.9). -/
def Dev.calRegs (i : Nat) (d : Dev) : List (Nat × Nat) :=
  let c := d.cal
  let prov := ((c.serdes ++ c.hroom ++ c.dram).filter fun e => e.2.prov).length
  [(Reg.calStatus, word [(c.spliceWaits, 0, 7), (c.heldX.length, 8, 6), flagAt (c.holding .flash) 14, flagAt (c.holding .tcam) 15, (min prov 65535, 16, 16)]),
    (Reg.calPortResult 0, resultShown (Map.find c.serdes i)), (Reg.calPortHrResult 0, resultShown (Map.find c.hroom i)),
    (Reg.calPortTurn 0, resultTurn (Map.find c.serdes i)), (Reg.calDmcResult 0, resultShown (Map.find c.dram i)),
    (Reg.calDmcTurn 0, resultTurn (Map.find c.dram i))]

/-- The capstan block (R412, Tables 13.12 to 13.14). -/
def Dev.capRegs (i : Nat) (d : Dev) : List (Nat × Nat) :=
  let x := d.core i
  [(Reg.capStatus, word [flagAt (d.cap.mode != .cache) 0, flagAt (d.cap.mode == .switching) 1]),
    (Reg.capRunning, word ((List.range 32).map fun n => flagAt (d.core n).running n)),
    (Reg.capCleatHeld, (d.cap.cleats.filter fun e => e.2.holder.isSome).length), (Reg.capDirUsed, d.cap.dir.length),
    (Reg.capCStatus 0, word ([flagAt x.running 0, (x.step, 2, 4), flagAt x.wait.isSome 6]
      ++ (List.range 8).map fun n => flagAt (Map.find x.slots n).isSome (7 + n)))]

/-! ## HIF_ and the function window, SLC_, STO_, RDM_ (Table 14.12, Table 14.13, Table 15.5, Table 16.7, Table 17.7) -/

/-- Codes of Table 14.10. -/
def QpSt.code : QpSt → Nat
  | .disabled => 0 | .active => 1 | .quiescing => 2 | .aborting => 3 | .idle => 4

/-- A queue pair as its registers show it: all 0 while DISABLED. -/
def Dev.qpShown (q : Nat) (d : Dev) : Qp := if (d.qp q).st = .disabled then {} else d.qp q

/-- The host interface block (R449, Table 14.12). -/
def Dev.hifRegs (i : Nat) (d : Dev) : List (Nat × Nat) :=
  let x := d.qpShown i
  [(Reg.hifStatus, word ((List.range 4).flatMap fun n =>
      [flagAt ((d.hp n).link != .down) n, flagAt (d.hp n).manager (4 + n), flagAt (d.hp n).perst (8 + n)])),
    (Reg.hifAccessLast, d.hif.last.toNat),
    (Reg.hifQpStatus 0, word [(x.st.code, 0, 3), (x.kind, 3, 3), flagAt x.capstan 6, (x.port, 7, 2), (x.fn, 9, 3), (x.lidx, 12, 11)]),
    (Reg.hifQpFetch 0, x.fetched % 2 ^ 32), (Reg.hifQpCqWrite 0, x.cqWr % 2 ^ 32), (Reg.hifQpCqHead 0, x.cqHead % 2 ^ 32)]

/-- The queue pair at local index i of a function. -/
def Dev.localQp (who i : Nat) (d : Dev) : Option Nat := (d.fnQps who).find? fun q => (d.qp q).lidx == i

/-- The registers of the function window (Table 14.13) by offset; for element i of the last four. -/
def Dev.fnRegs (who i : Nat) (d : Dev) : List (Nat × Nat × Nat) :=
  let q := d.localQp who i
  let x := (q.map d.qpShown).getD {}
  [(0, 4, word [(who / 8, 0, 2), (who % 8, 2, 3), flagAt (d.hasGlobal who) 5]), (4, 4, (d.fnQps who).length % 2 ^ 12),
    (8, 8, (d.fn who).last.toNat), (16, 8, (d.fn who).errs % 2 ^ 64),
    (0x1000 + 16 * i, 4, match q with | some n => n + 2 ^ 16 | none => 0), (0x1004 + 16 * i, 4, x.st.code),
    (0x1008 + 16 * i, 4, x.fetched % 2 ^ 32), (0x100C + 16 * i, 4, x.cqWr % 2 ^ 32)]

/-- The live generations of a slice, oldest first (R460, R463). -/
def Dev.liveGens (s : Nat) (x : Slice) (d : Dev) : List Nat :=
  let age (g : Nat) : Nat := (x.gen + 65536 - g) % 65536
  let old := (d.busyGens s).filter (· != x.gen)
  (old.foldl (fun l g => l.filter (fun h => age g ≤ age h) ++ g :: l.filter fun h => age h < age g) []) ++ [x.gen]

/-- The operations of a generation of a slice that are outstanding. -/
def Dev.outstandingOf (s g : Nat) (d : Dev) : Nat :=
  ((d.qpsOf s).map fun q => ((d.qp q).descs.filter fun x => x.gen == g).length).sum

/-- A mailbox direction as SLC_S_MB shows it. -/
def Mbox.shown (m : Mbox) : Nat := word [(m.seq, 0, 16), flagAt m.unack 16]

/-- The registers of an enabled slice (Table 15.5, Table 15.6). -/
def Dev.sliceRegs (s : Nat) (x : Slice) (d : Dev) : List (Nat × Nat) :=
  let gens := d.liveGens s x
  [(Reg.slcSStatus 0, word [(1, 0, 1), (x.role, 1, 2), flagAt x.resetWait 3, (gens.length, 4, 3), (x.gen, 16, 16)]),
    (Reg.slcSOwner 0, word [(x.port, 0, 2), (x.fn, 2, 3), flagAt x.capstan 5, (x.core, 6, 5), (x.mgr, 11, 12), (x.cfg.weight, 23, 8)]),
    (Reg.slcSPasid 0, word [(x.pasid.getD 0, 0, 20), flagAt x.pasid.isSome 20]), (Reg.slcSQp 0, (d.qpsOf s).length % 512),
    (Reg.slcSOutstanding 0, word (gens.zipIdx.map fun e => (min (d.outstandingOf s e.1) 65535, 16 * e.2, 16))),
    (Reg.slcSMb 0, x.up.shown), (Reg.slcSMbDown 0, x.down.shown)]
    ++ (List.range 8).map fun b => (Reg.slcSLevel 0 b, (Map.getD x.levels b {}).shown)

/-- The slice block (R468, Table 15.5): a slice that is not enabled reads 0. -/
def Dev.slcRegs (i : Nat) (d : Dev) : List (Nat × Nat) :=
  (Reg.slcEnabled, d.slc.length % 2 ^ 13) :: match d.slice i with
    | some x => d.sliceRegs i x
    | none => [Reg.slcSOutstanding 0, Reg.slcSLevel 0 0, Reg.slcSLevel 0 1, Reg.slcSLevel 0 2, Reg.slcSLevel 0 3, Reg.slcSLevel 0 4,
        Reg.slcSLevel 0 5, Reg.slcSLevel 0 6, Reg.slcSLevel 0 7].map fun o => (o, 0)

/-- The storage block (R492, Table 16.7). The map is ready with the DRAM that holds it; store queues are shown in fours, a part of one counted whole (log 75). -/
def Dev.stoRegs (i : Nat) (d : Dev) : List (Nat × Nat) := [
  (Reg.stoStatus, word [flagAt d.dmc.ready 0, (ceilDiv (d.countQps fun _ x => x.kind == 2) 4, 1, 11)]),
  (Reg.stoExtentUsed, d.sto.exts.length), (Reg.stoBlocksMapped, (d.sto.exts.map (·.2.len)).sum),
  (Reg.stoTStatus 0, match Map.find d.sto.tgts i with
    | some t => word [(1, 0, 1), flagAt t.online 1, flagAt t.remote 2, (t.link, 3, 4)]
    | none => 0),
  (Reg.stoTOutstanding 0, (d.sto.cmds.map fun c => (c.parts.filter fun p =>
    p.target == i && (match p.st with | .issued _ => true | _ => false)).length).sum)]

/-- Codes of Table 17.4. -/
def ConnSt.code : ConnSt → Nat
  | .disabled => 0 | .active => 1 | .error => 2

/-- The RDMA block (R511, Table 17.7). -/
def Dev.rdmRegs (i : Nat) (d : Dev) : List (Nat × Nat) :=
  let x := d.conn i
  [(Reg.rdmStatus, word [flagAt d.rdm.set 0, ((Map.keysWhere d.rdm.conns fun _ x => x.st == .active).length, 1, 18)]),
    (Reg.rdmCacheUsed, d.rdm.cached.length), (Reg.rdmCtxCount, d.rdm.count % 2 ^ 18),
    (Reg.rdmCState 0, word [(x.st.code, 0, 2), flagAt x.encrypt 2, (x.side, 3, 1), (x.retries, 4, 3)]),
    (Reg.rdmCWindow 0, if x.st = .disabled then 0 else x.window % 2 ^ 25), (Reg.rdmCSendPsn 0, x.psn % 2 ^ 24), (Reg.rdmCUnackPsn 0, x.unack % 2 ^ 24),
    (Reg.rdmCEpoch 0, x.epoch % 2 ^ 32), (Reg.rdmCPeerEpoch 0, x.peerEpoch % 2 ^ 32), (Reg.rdmCRxPsn 0, x.rxPsn % 2 ^ 24)]

/-! ## DMC_, SHE_, BOOT_, PWR_ (Table 18.9, Table 19.13, Table 20.10, Table 21.10) -/

/-- The DRAM block (R540, Table 18.9, Table 18.10). -/
def Dev.dmcRegs (i : Nat) (d : Dev) : List (Nat × Nat) :=
  let m := d.dmc
  let c := d.chan i
  [(Reg.dmcStatus, word ([flagAt m.ready 0, flagAt m.training 1, flagAt m.noRecord 2, (m.reason, 3, 3)]
      ++ (List.range 12).map fun n => flagAt ((d.chan n).st == 3) (8 + n))),
    (Reg.dmcConfig, word [(m.rate, 0, 3), (m.k, 3, 4), (m.dimms, 7, 2), (m.ranks, 9, 2), flagAt m.x8 11, (m.density, 12, 2)]),
    (Reg.dmcCapacity, m.capacity), (Reg.dmcBankMask 0, (m.masks[i]?).getD 0 % 2 ^ 40),
    (Reg.dmcCeLast, m.ceLast.toNat), (Reg.dmcUeLast, m.ueLast.toNat),
    (Reg.dmcCStatus 0, word [(c.st, 0, 2), (c.bad, 2, 4), flagAt c.drain 6, (c.reads.length, 7, 7), (c.writes.length, 14, 7)]),
    (Reg.dmcPLevel 0, (Map.getD m.levels i {}).shown)]

/-- The random-number field (Table 19.14). -/
def RngSt.code : RngSt → Nat
  | .notReady => 0 | .ready => 1 | .failed => 2 | .stopped => 3

/-- SHE_SLOT_ATTR (Table 19.13). -/
def KeySlot.shown (k : KeySlot) : Nat := word [(k.usage, 0, 4), flagAt k.expo 4, (k.origin, 5, 2), (k.owner, 8, 12), (k.refs, 20, 12)]

/-- The 16 bytes of a standby log record as a number (Table 19.11). -/
def StbyRec.shown (r : StbyRec) : Nat :=
  word [(r.ns, 0, 64), (r.sources, 64, 8), (r.phase, 72, 2), flagAt r.zeroised 74, (r.seq, 80, 16), (r.secs, 96, 32)]

/-- SHE_P_STATUS (Table 19.13): the association a frame of the port would take. -/
def Dev.macStatus (port : Nat) (d : Dev) : Nat :=
  match (d.sasOf port).find? fun e => !e.2.rx && e.2.active && e.2.keyed with
  | some (k, s) => word [(k, 0, 5), flagAt true 5, flagAt (2 ^ 63 ≤ s.pn) 6]
  | none => 0

/-- The sheath block (R567, Table 19.13, Table 19.14). -/
def Dev.sheRegs (i : Nat) (d : Dev) : List (Nat × Nat) :=
  let s := d.she
  [(Reg.sheStatus, word [(s.life, 0, 2), (s.rng.code, 2, 2), flagAt s.lockPending 4, flagAt s.stbyLost 5, flagAt s.gatesClosed 6, flagAt s.debug 7,
      (s.fuses.lockdown, 8, 6), (s.fuses.recovery, 14, 6)]),
    (Reg.sheTamperLatch, s.latch % 256), (Reg.sheLcNonce, s.nonce.toNat), (Reg.sheDeviceId, s.fuses.deviceId.toNat), (Reg.shePolicy, s.policy),
    (Reg.sheStbyLogHead, s.logHead), (Reg.sheSlotAttr 0, ((Map.find s.slots i).map KeySlot.shown).getD 0), (Reg.shePStatus 0, d.macStatus i),
    (Reg.sheStbyLog 0, ((s.log.find? fun r => r.seq % 1024 == i).map StbyRec.shown).getD 0)]

/-- The failed-trial count of the running image (Table 20.11): of the capstan image once one runs, else of the sheath slot (log 75). -/
def Boot.trialCount (b : Boot) : Nat :=
  if b.ranCap then ((b.dir.rejected.find? fun r => r.digest == b.digest).map (·.count)).getD 0 else (Map.getD b.dir.slots b.slot {}).count

/-- The boot block (R591, Table 20.10, Table 20.11). -/
def Dev.bootRegs (d : Dev) : List (Nat × Nat) :=
  let b := d.boot
  [(Reg.bootStatus, word [(b.st.code, 0, 4), (b.reason, 4, 8), (b.slot, 12, 1), flagAt b.shTrial 13, flagAt b.capTrial 14, flagAt b.gated 15,
      (b.straps, 16, 3), (b.trialCount, 19, 2)]),
    (Reg.bootReleaseTime, b.relNs), (Reg.bootVerdictTime, b.verNs), (Reg.bootDigest, b.digest), (Reg.bootLast, ofLe b.last)]

/-- Tj, the highest sensor, and the lowest number of a sensor that reads it (Table 21.10). -/
def Pwr.hottest (p : Pwr) : Int × Nat :=
  match p.temps with
  | [] => (0, 0)
  | t :: ts => let m := ts.foldl max t; (m, p.temps.findIdx (· == m))

/-- The power block (R616, Table 21.10, Table 21.11). -/
def Dev.pwrRegs (i : Nat) (d : Dev) : List (Nat × Nat) :=
  let p := d.pwr
  [(Reg.pwrStatus, word [flagAt p.good 0, flagAt (p.avs && !p.avsFault) 1, flagAt p.avsFault 2, flagAt p.high 3, flagAt p.cold 4,
      flagAt (p.rails != []) 5, (p.plLost, 6, 8), (p.hpLost, 14, 4), (p.spLost, 18, 4)]),
    (Reg.pwrTrip, match p.trip with | some s => word [(1, 0, 1), (s, 8, 6)] | none => 0),
    (Reg.pwrVcore, word [(p.target, 0, 12), (p.readback, 16, 12)]),
    (Reg.pwrTempMax, word [(unsigned 11 p.hottest.1, 0, 11), (p.hottest.2, 16, 6)]),
    (Reg.pwrTemp 0, unsigned 11 ((p.temps[i]?).getD 0)), (Reg.pwrRailV 0, Map.getD p.railV i 0 % 65536),
    (Reg.pwrRailI 0, Map.getD p.railI i 0 % 65536), (Reg.pwrRailStatus 0, Map.getD p.railS i 0 % 65536)]

/-! ## Any register -/

/-- The values of the registers of a block that are no counters, by SNAP bit (Table 23.2). -/
def Dev.blockRegs (block who i : Nat) (d : Dev) : List (Nat × Nat) :=
  match block with
  | 0 => d.glbRegs who i ++ d.shadeRegs
  | 1 => d.reelRegs
  | 2 => d.layRegs i
  | 3 => d.tblRegs who
  | 4 => d.coilRegs i
  | 5 => d.schedRegs i
  | 6 => d.logRegs i
  | 7 => d.autRegs i
  | 8 => d.brdRegs i
  | 9 => d.calRegs i
  | 10 => d.capRegs i
  | 11 => d.hifRegs i
  | 12 => d.slcRegs i
  | 13 => d.stoRegs i
  | 14 => d.rdmRegs i
  | 15 => d.dmcRegs i
  | 16 => d.sheRegs i
  | 17 => d.bootRegs
  | _ => d.pwrRegs i

/-- The block of an offset, by SNAP bit. -/
def blockOf (off : Nat) : Nat := (blockBases.findIdx? fun e => e.1 ≤ off && off < e.1 + e.2).getD 19

/-- The port that element i of a register array belongs to (a lay's is its first port, the injection account's is 256); none for registers of no port (R632). -/
def regPort (base i : Nat) : Option Nat :=
  if base < 0x20000 then none
  else if base < 0x30000 then some (8 * i)
  else if base < 0x41000 then none
  else if base < 0x59000 then some (i / 8)
  else if base < 0x60000 then some i
  else if base < 0x61000 then none
  else if base < 0x71000 then some (i / 8)
  else if base < 0x561000 then none
  else if base < 0x660000 then some i
  else if base < 0xBE0000 then some (i / 256)
  else if base < 0xBF1000 then none
  else if base < 0x1000000 then some i
  else if base < 0x1001000 then none
  else if base < 0x1002000 then some i
  else if base < 0x18D2000 then none
  else if base < 0x18D8000 then some i
  else none

/-- Registers that read 0: of a port or lay the variant has not (R632), of a link on a port not in braid mode (R370). -/
def Dev.absent (base i : Nat) (d : Dev) : Bool :=
  match regPort base i with
  | some p => (d.lanes ≤ p && p != 256) || (0xBF1000 ≤ base && base < 0x1000000 && !(d.port p).braid)
  | none => false

/-- What element i of a register reads as; a WO register reads 0 (R18), a register that its block's list does not name is a counter. -/
def Dev.regValue (who : Nat) (r : RegRow) (i : Nat) (d : Dev) : Nat :=
  if r.access == .wo || d.absent r.base i then 0
  else (Map.find (d.blockRegs (blockOf r.base) who i) r.base).getD (d.count (r.base + r.stride * i)).toNat % 2 ^ (8 * r.size)

/-- Whether a 32-bit read of a register's low word latches its high word (R21): a counter, a 64-bit register of the reel (R78). -/
def Dev.latches (who : Nat) (r : RegRow) (i : Nat) (d : Dev) : Bool :=
  r.size == 8 && (blockOf r.base == 1 || (Map.find (d.blockRegs (blockOf r.base) who i) r.base).isNone)

end Sys2Proof.Machine
end

