-- ==== Sys2Proof/Machine/Access.lean ====
section
/-! DEFINITION. Register accesses of host functions and capstan cores: writes, reads that act, the snapshot view, the raw
table window (R18 to R22, R35, R218, R219, R415 to R423, R635 to R640). -/
namespace Sys2Proof.Machine

/-! ## Accesses of cores (R388, R389) -/

/-- The device region of an offset from the observation registers' base, and the offset in it (Table 13.3): 0 the observation registers, 1 the sheath mailbox, 2 the queue windows, 3 the lanyard notify table; none where nothing is mapped. -/
def coreRegion (off : Nat) : Option (Nat × Nat) :=
  if off < 2 ^ 26 then some (0, off)
  else if 0x10000000 ≤ off ∧ off < 0x14000000 then some (2, off - 0x10000000)
  else if 0x18000000 ≤ off ∧ off < 0x18001000 then some (3, off - 0x18000000)
  else if 0x19000000 ≤ off ∧ off < 0x19001000 then some (1, off - 0x19000000)
  else none

/-- A core's access is misaligned, or of an address that Table 13.3 does not map (R388). -/
def Dev.coreMiss (who off size : Nat) (_ : Dev) : Bool := 32 ≤ who && (off % size != 0 || (coreRegion off).isNone)

/-- An access-fault exception of core who - 32: a load's (cause 5) or a store's (cause 7); the access does nothing else (R388). -/
def Dev.accessFault (who cause : Nat) (d : Dev) : Dev :=
  (d.bump (Reg.capCAccessFault (who - 32))).onCore (who - 32) fun x => { x with exc := some cause }

/-- A write of a device region: a core's misaligned or unmapped one raises a store access fault instead (R388). -/
def Dev.store' (who off size : Nat) (f : Dev → Dev) (d : Dev) : Dev := if d.coreMiss who off size then d.accessFault who 7 else f d

/-! ## Writes without a row of their own (R35, R418 to R423) -/

/-- The bytes of an access fall in more than one register (R421); an aligned 8-byte one acts as two of 32 bits (R418). -/
def crosses (off size : Nat) : Bool :=
  let at' (o : Nat) : Option (Nat × Nat) := (regAt o).map fun r => (r.1.base, r.2.1)
  let two := size == 8 && off % 8 == 0
  !two && (List.range size).any fun i => at' (off + i) != at' off

/-- A write of the global window outside the windows with rows: only RW1C and WO registers mind that it is narrow (R420, R421). -/
def Dev.regWrite (who off size : Nat) (d : Dev) : Dev :=
  if !d.hasGlobal who || (0x1900000 ≤ off && off < 0x1C00000) || crosses off size then d.accessErr who 0 off true
  else
    match regAt off with
    | some (r, _, _) => if (r.access == .rw1c || r.access == .wo) && size < r.size then d.accessErr who 0 off true else d
    | none => d

/-- A write of an MSI-X table entry's vector control word: the mask bit (R35, R447). -/
def Dev.msixWrite (k off v : Nat) (d : Dev) : Dev :=
  if off % 16 != 12 || 0x8000 ≤ off then d
  else if bit v 0 then d.onFn k fun f => { f with masked := if f.masked.contains (off / 16) then f.masked else f.masked ++ [off / 16] }
  else d.unmask k (off / 16)

/-- FL_SRC and FL_LEN of the sheath mailbox (Table 20.8), written by a core; FL_LEN keeps 24 bits. -/
def Dev.mailboxWrite (off v : Nat) (d : Dev) : Dev :=
  if off = 0x118 then d.onBoot fun b => { b with flSrc := v }
  else if off = 0x120 then d.onBoot fun b => { b with flLen := v % 2 ^ 24 }
  else d

/-- REGISTER_WRITE (R35, R418 to R423): space 0, 2, 4 is a BAR of a function, and for a core 0 is any device region by its offset from the observation registers' base, 1 the sheath mailbox, 2 the queue windows. -/
def execRegisterWrite (who space off size v : Nat) (s : State) : Host.Outcome State Fault Refusal :=
  s.run (who < 64 && space < 5 && ioOk who off size && v < 2 ^ 64) (Dev.store' who off size fun d =>
    let at' := if 32 ≤ who ∧ space = 0 then (coreRegion off).getD (0, off) else (space, off)
    let off := at'.2
    match at'.1 with
    | 0 =>
      if off < 0x2000000 then d.regWrite who off size
      else if off < 0x3F00000 then d.accessErr who 0 off true
      else if 0x3F10000 ≤ off && off < 0x3F20000 && size < 8 then d.accessErr who 0 off true
      else d
    | 1 => if 32 ≤ who && size == 8 then d.mailboxWrite off v else d
    | 2 => if off % 4096 < 16 && size < 8 then d.accessErr who 1 off true else d
    | _ => if who < 32 && size == 4 then d.msixWrite who off v else d)

/-! ## The raw table window's lines (R218, R638, R639) -/

/-- The table, line and word an offset of the window shows under a selection (R639); none beyond the table. -/
def rawAt (sel off : Nat) : Option (Nat × Nat × Nat) :=
  let t := sel % 4
  let page := bits sel 8 4
  if t = 3 then (if page < 4 then some (3, page * 16384 + off / 256, off % 256 / 8) else none)
  else if page < (if t = 2 then 12 else 8) then some (t, page * 131072 + off / 32, off % 32 / 8)
  else none

/-- The index of a line's status word (Table 6.4). -/
def statusIdx (t : Nat) : Nat := if t = 3 then 21 else 3

/-- The mask bits of an LPM row of a width: written raw, or those of its prefix length. -/
def Row.maskOf (width : Nat) (r : Row) : Nat := r.tmask.getD (prefixMask width r.plen)

/-- An LPM line: in the narrow region or the gap (kind 0), the first (1) or a following (2) row of a wide entry (R206). -/
def Tables.lpmAt (t : Tables) (l : Nat) : Option Row × Nat :=
  (t.rowAt l, if l < t.narrow.length ∨ t.wide.length ≤ (1572863 - l) / 4 then 0 else if t.headRow l = l then 1 else 2)

/-- The half of a 128-bit key or mask that row l of a wide entry shows: the upper in its first row, the lower in the next, nothing in the last two of four (log 73). -/
def wideHalf (l head x : Nat) : Nat := if l = head then x / 2 ^ 64 else if l = head + 1 then x % 2 ^ 64 else 0

/-- The words of an LPM line (Table 6.4, Table 6.5). -/
def Tables.lpmWords (t : Tables) (l : Nat) : List Nat :=
  match t.lpmAt l with
  | (none, kind) => [0, 0, 0, kind * 2 ^ 16]
  | (some r, 0) => [r.key, r.maskOf 64, r.result.toNat % 2 ^ 32, r.mask + r.plen % 256 * 256]
  | (some r, kind) =>
    let half := wideHalf l (t.headRow l)
    [half r.key, half (r.maskOf 128), r.result.toNat % 2 ^ 32, r.mask + r.plen % 256 * 256 + kind * 2 ^ 16]

/-- The words of a line as the window shows them (Table 6.4, Table 6.5). -/
def Tables.rawWords (t : Tables) (tab l : Nat) : List Nat :=
  match tab with
  | 0 => match Map.find t.mac l with
    | some x => [x.key, 0, x.result.toNat % 2 ^ 32, x.mask + ofBit x.hit * 16]
    | none => [0, 0, 0, 0]
  | 1 => match Map.find t.exact l with
    | some x => [x.key / 2 ^ 32, x.key % 2 ^ 32, x.result.toNat, x.mask]
    | none => [0, 0, 0, 0]
  | 2 => t.lpmWords l
  | _ =>
    let split (k : Nat) : List Nat := (List.range 10).map fun j => k / 2 ^ (64 * (9 - j)) % 2 ^ 64
    match Map.find t.acl l with
    | some x => split x.key ++ split x.cmask ++ [x.action.toNat % 2 ^ 48, x.mask + x.pos * 2 ^ 32] ++ List.replicate 10 0
    | none => List.replicate 32 0

/-! ## Reads (R18 to R22, R388, R415, R418 to R421, R578, R631, R632, R636, R640) -/

/-- The register an access of the global window reaches, live or in an image (R307, R366, R636): whether it is an image, the device that holds it, its row, its element, and the byte within it; none where there is no register or no capture. -/
def State.shown (who off : Nat) (s : State) : Option (Bool × Dev × RegRow × Nat × Nat) :=
  let image (n x : Nat) : Option (Bool × Dev × RegRow × Nat × Nat) :=
    match Map.find s.snaps n, blockBases[n]? with
    | some c, some (b, a) => if x < a then (regAt (b + x)).map fun r => (true, c.dev, r) else none
    | _, _ => none
  if 0x1900000 ≤ off then
    let v := Map.getD s.dev.hif.views who 0
    image (bits v 0 5) (bits v 8 4 * 0x100000 + (off - 0x1900000))
  else if 0x960000 ≤ off ∧ off < 0xBE0000 then image 6 (off - 0x960000)
  else if 0xFF0000 ≤ off ∧ off < 0x1000000 then image 8 (off - 0xFF0000)
  else (regAt off).map fun r => (false, s.dev, r)

/-- A capture records the registers whose access is RO, RC or RS; the others appear in it as 0 (R635). -/
def Access.captured : Access → Bool
  | .ro | .rc | .rs => true
  | .rw | .rw1c | .wo => false

/-- A byte of the function window (Table 14.13); the capstan region's last MiB reads 0 (R415). -/
def Dev.fnByte (who off : Nat) (d : Dev) : Nat :=
  if 32 ≤ who then 0
  else
    let x := off - 0x3F00000
    match (d.fnRegs who ((x - 0x1000) / 16)).find? fun e => e.1 ≤ x && x < e.1 + e.2.1 with
    | some (o, _, v) => if o < 0x1000 ∨ (0x1000 ≤ x ∧ x < 0x9000) then v / 2 ^ (8 * (x - o)) % 256 else 0
    | none => 0

/-- The byte an access of BAR0 or of the capstans' observation region reads (R415, R419, R421, R578, R630 to R632, R636, R639). -/
def State.byteAt (who off : Nat) (s : State) : Nat :=
  if 0x3F00000 ≤ off then s.dev.fnByte who off
  else if !s.dev.hasGlobal who then 0
  else if 0x2000000 ≤ off then (s.dev.physByte (flatBase + (off - 0x2000000))).toNat
  else if 0x1C00000 ≤ off then
    match rawAt (Map.getD s.dev.hif.rawSel who 0) (off - 0x1C00000) with
    | some (t, l, w) => ((s.dev.tbl.rawWords t l)[w]?).getD 0 / 2 ^ (8 * (off % 8)) % 256
    | none => 0
  else
    match s.shown who off with
    | some (image, d, r, i, x) => if image && !r.access.captured then 0 else d.regValue who r i / 2 ^ (8 * x) % 256
    | none => 0

/-- An 8-byte register of the sheath mailbox as it reads (Table 19.3, Table 20.8): L3_MODE [0] from the start of the switch (log 75); a write-only or reserved one 0. -/
def Dev.mailboxWord (o : Nat) (d : Dev) : Nat :=
  let b := d.boot
  match o with
  | 0x000 => word [flagAt (d.cap.mode != .flat) 0, (d.cap.modeSt, 8, 8)]
  | 0x010 => d.she.lcResult % 256
  | 0x110 => word [(b.setResult.1, 0, 8), flagAt b.setBusy 8, (b.setResult.2.1, 16, 16), (b.setResult.2.2, 32, 32)]
  | 0x118 => b.flSrc
  | 0x120 => b.flLen
  | 0x138 => b.result % 256
  | _ => 0

/-- The byte a core reads in a device region other than the observation registers (Table 13.3): the doorbells of the queue windows are written only. -/
def Dev.regionByte (off : Nat) (d : Dev) : Nat :=
  match coreRegion off with
  | some (1, x) => d.mailboxWord (x / 8 * 8) / 2 ^ (8 * (x % 8)) % 256
  | some (3, x) => Map.getD d.cap.notify (x / 4) 0 / 2 ^ (8 * (x % 4)) % 256
  | _ => 0

/-- n bytes from an offset, least significant first. -/
def State.bytesAt (who off n : Nat) (s : State) : Nat :=
  ((List.range n).map fun j => (if 2 ^ 26 ≤ off then s.dev.regionByte (off + j) else s.byteAt who (off + j)) * 2 ^ (8 * j)).sum

/-- The counter an offset falls in (R21): what names it, its value, and the byte within it. Every 64-bit image value is one (R636). -/
def State.counterAt (who off : Nat) (s : State) : Option (Nat × Nat × Nat) :=
  if 0x3F00000 ≤ off then
    (if who < 32 ∧ 0x3F00010 ≤ off ∧ off < 0x3F00018 then some (0x3F00010, (s.dev.fn who).errs % 2 ^ 64, off - 0x3F00010) else none)
  else if !s.dev.hasGlobal who || 0x1C00000 ≤ off then none
  else
    match s.shown who off with
    | some (true, d, r, i, x) => if r.size = 8 ∧ r.access.captured then some (2 ^ 26 + r.base + r.stride * i, d.regValue who r i, x) else none
    | some (false, d, r, i, x) => if d.latches who r i then some (r.base + r.stride * i, d.regValue who r i, x) else none
    | none => none

/-- The value of an RC register, and the device with it cleared (Table 7.7). -/
def Dev.rcRead (off : Nat) (d : Dev) : Nat × Dev :=
  if off = Reg.coilPeakUsed then (d.path.peak, d.onPath fun y => { y with peak := 0 })
  else
    let q := (off - Reg.coilEqPeak 0) / 16
    ((d.queue q).peak, d.onPath fun y => { y with queues := Map.modify y.queues q {} fun e => { e with peak := 0 } })

/-- The RC register at an offset, as the reader sees it. -/
def State.rcAt (who off : Nat) (s : State) : Bool :=
  s.dev.hasGlobal who && off < 0x1900000 && (match s.shown who off with | some (false, _, r, _, 0) => r.access == .rc | _ => false)

/-- An aligned 32-bit read (R21, R419): of a counter's low word, which latches its high word for the reader; of its high word, latched if the reader's latest low-word read was of the same counter and live otherwise; of an RC register, which clears it. -/
def State.read32 (who off : Nat) (s : State) : Nat × State :=
  match s.counterAt who off with
  | some (k, v, 0) => (v % 2 ^ 32, s.onDev fun d => d.onHif fun h => { h with latches := Map.put h.latches who (k, BitVec.ofNat 64 (v / 2 ^ 32)) })
  | some (k, v, _) =>
    match Map.find s.dev.hif.latches who with
    | some (k', h) => (if k' = k then h.toNat else v / 2 ^ 32, s)
    | none => (v / 2 ^ 32, s)
  | none =>
    if s.rcAt who off then let r := s.dev.rcRead off; (r.1, { s with dev := r.2 })
    else (s.bytesAt who off 4, s)

/-- An aligned 8-byte read of a status word of the MAC table clears HIT (R640). -/
def Dev.hitRead (who off : Nat) (d : Dev) : Dev :=
  match rawAt (Map.getD d.hif.rawSel who 0) (off - 0x1C00000) with
  | some (0, l, 3) =>
    match Map.find d.tbl.mac l with
    | some x => d.onTbl fun y => { y with mac := Map.put y.mac l { x with hit := false } }
    | none => d
  | _ => d

/-- One register of at least 8 bytes stands at an offset (R418). -/
def State.wideAt (who off : Nat) (s : State) : Bool :=
  match s.shown who off with
  | some (_, _, r, _, x) => 8 ≤ r.size && x % 8 == 0
  | none => false

/-- A read of a register, of the windows or of the boot window (R418 to R421): the value, and the machine after it. -/
def State.ioRead (who off size : Nat) (s : State) : Nat × State :=
  let raw : Bool := 0x1C00000 ≤ off && off < 0x2000000
  if size = 4 ∧ off % 4 = 0 then s.read32 who off
  else if size = 8 ∧ off % 8 = 0 ∧ raw && s.dev.hasGlobal who then (s.bytesAt who off 8, s.onDev (Dev.hitRead who off))
  else if size = 8 ∧ off % 4 = 0 ∧ off < 0x1C00000 ∧ !(off % 8 == 0 && s.wideAt who off) then
    let a := s.read32 who off
    let b := a.2.read32 who (off + 4)
    (a.1 + b.1 * 2 ^ 32, b.2)
  else (s.bytesAt who off size, s)

/-- A read and its reply; a core's misaligned or unmapped one raises a load access fault (cause 5) instead (R388). -/
def State.readReply (who off size : Nat) (s : State) : State :=
  if s.dev.coreMiss who off size then s.onDev (Dev.accessFault who 5)
  else let r := s.ioRead who off size; r.2.onDev (Dev.send .ioReply [who, off, r.1] [])

/-- COUNTER_LOW_READ (R18 to R22, R415, R418, R419, R421, R636): a read of 1 to 8 bytes anywhere in BAR0, or by a core in any device region. A 32-bit one of a counter's low word latches its high word for the reader (log 75). -/
def execCounterLowRead (who : Nat) (at' : IoRange) (s : State) : Host.Outcome State Fault Refusal :=
  s.runState (who < 64 && ioOk who at'.off at'.size && at'.size ≤ 8) (State.readReply who at'.off at'.size)

/-- RC_REGISTER_READ (R419): an aligned read of the full width of an RC register by a reader with the global window returns its value and clears it. -/
def execRcRegisterRead (who off : Nat) (s : State) : Host.Outcome State Fault Refusal :=
  s.runState (who < 64 && off < 2 ^ 26 && off % 4 == 0) fun s => if s.rcAt who off then s.readReply who off 4 else s

/-! ## Window selection (R635 to R638) -/

/-- A 32-bit register with the bytes a write enables replaced (R420). -/
def byteEnabled (old v be : Nat) : Nat := (List.range 4).foldl (fun x i => if bit be i then setBits x (8 * i) 8 (bits v (8 * i) 8) else x) old

/-- GLB_SNAP_VIEW_WRITE (R636, Table 23.6). -/
def execGlbSnapViewWrite (who v be : Nat) (s : State) : Host.Outcome State Fault Refusal :=
  s.run (who < 64 && v < 2 ^ 32 && be < 16) fun d =>
    if !d.hasGlobal who then d.accessErr who 0 Reg.glbSnapView true
    else
      let x := byteEnabled (Map.getD d.hif.views who 0) v be
      d.onHif fun h => { h with views := Map.put h.views who (bits x 0 5 + bits x 8 4 * 256) }

/-- TBL_RAW_SELECT_WRITE (R638, R640, Table 23.7): staged words are discarded. -/
def execTblRawSelectWrite (who v be : Nat) (s : State) : Host.Outcome State Fault Refusal :=
  s.run (who < 64 && v < 2 ^ 32 && be < 16) fun d =>
    if !d.hasGlobal who then d.accessErr who 0 Reg.tblRawSelect true
    else
      let x := byteEnabled (Map.getD d.hif.rawSel who 0) v be
      d.onHif fun h => { h with rawSel := Map.put h.rawSel who (bits x 0 2 + bits x 8 4 * 256), rawStage := Map.del h.rawStage who }

/-! ## The raw table window (R218, R219, R638 to R640) -/

/-- A half of a wide entry's key or mask replaced by what row l takes. -/
def putHalf (l head old v : Nat) : Nat :=
  if l = head then v * 2 ^ 64 + old % 2 ^ 64 else if l = head + 1 then old / 2 ^ 64 * 2 ^ 64 + v else old

/-- The LPM entry some words written to row l spell, in place of an old one; a wide entry keeps the rest of its key and mask. -/
def lpmRowOf (ws : List Nat) (l head kind : Nat) (old : Option Row) : Row :=
  let w (i : Nat) : Nat := (ws[i]?).getD 0
  let o : Row := old.getD { plen := 0, key := 0, result := 0, mask := 0 }
  let mix (a b : Nat) : Nat := if kind = 0 then b else putHalf l head a b
  { o with
    plen := bits (w 3) 8 8, key := mix o.key (w 0), result := BitVec.ofNat 64 (w 2 % 2 ^ 32), mask := bits (w 3) 0 4
    tmask := some (mix (o.maskOf 128) (w 1)) }

/-- An LPM line takes a row (R218): in its place, or in the gap. -/
def Tables.setLpmRow (l : Nat) (ws : List Nat) (t : Tables) : Tables :=
  let x := t.lpmAt l
  let r := lpmRowOf ws l (t.headRow l) x.2 x.1
  if l < t.narrow.length then { t with narrow := t.narrow.set l r }
  else if (1572863 - l) / 4 < t.wide.length then
    { t with wide := t.wide.modify ((1572863 - l) / 4) fun q =>
        if 64 < q.plen || l % 4 < 2 then { q with lo := some r } else { q with hi := some r } }
  else { t with rawLpm := Map.put t.rawLpm l r }

/-- A line takes the words given, MEMBER 0 as any other value (R218): neither bucket placement, band order nor one line per key is kept. -/
def Tables.rawSet (tab l : Nat) (ws : List Nat) (t : Tables) : Tables :=
  let w (i : Nat) : Nat := (ws[i]?).getD 0
  let mask := bits (w (statusIdx tab)) 0 4
  match tab with
  | 0 =>
    let hit := ((Map.find t.mac l).map (·.hit)).getD false
    { t with mac := Map.put t.mac l { key := w 0, result := BitVec.ofNat 64 (w 2 % 2 ^ 32), mask, hit } }
  | 1 => { t with exact := Map.put t.exact l { key := w 0 * 2 ^ 32 + w 1 % 2 ^ 32, result := BitVec.ofNat 64 (w 2), mask } }
  | 2 => t.setLpmRow l ws
  | _ =>
    let join (a : Nat) : Nat := (List.range 10).foldl (fun k j => k * 2 ^ 64 + w (a + j)) 0
    let x : AclRow := { pos := bits (w 21) 32 16, key := join 0, cmask := join 10, action := BitVec.ofNat 64 (w 20 % 2 ^ 48), mask }
    { t with acl := Map.put t.acl l x }

/-- What a reader has staged of a line. -/
def Dev.staged (who l : Nat) (d : Dev) : Map W :=
  match Map.find d.hif.rawStage who with
  | some (k, m) => if k = l then m else []
  | none => []

/-- RAW_WINDOW_WRITE (R640): a word other than the status word is staged; staging holds one line. -/
def execRawWindowWrite (who off size v : Nat) (s : State) : Host.Outcome State Fault Refusal :=
  s.run (who < 64 && off < 2 ^ 22 && ioOk who off size && size ≤ 8 && v < 2 ^ 64) (Dev.store' who off size fun d =>
    if !d.hasGlobal who || 8 < off % 8 + size then d.accessErr who 0 (0x1C00000 + off) true
    else
      match rawAt (Map.getD d.hif.rawSel who 0) off with
      | none => d
      | some (t, l, w) =>
        if w = statusIdx t then (if size < 8 then d.accessErr who 0 (0x1C00000 + off) true else d)
        else
          let m := d.staged who l
          let old := ((Map.find m w).map (·.toNat)).getD (((d.tbl.rawWords t l)[w]?).getD 0)
          let new := setBits old (8 * (off % 8)) (8 * size) v
          d.onHif fun h => { h with rawStage := Map.put h.rawStage who (l, Map.put m w (BitVec.ofNat 64 new)) })

/-- RAW_STATUS_COMMIT (R218, R219, R640): the line changes, unstaged words keeping their content, and a stale window of 65,536 pclk opens; with all 256 in use the write is rejected. -/
def execRawStatusCommit (who off v : Nat) (s : State) : Host.Outcome State Fault Refusal :=
  s.run (who < 64 && off < 2 ^ 22 && off % 8 == 0 && v < 2 ^ 64) fun d =>
    if !d.hasGlobal who then d.accessErr who 0 (0x1C00000 + off) true
    else
      match rawAt (Map.getD d.hif.rawSel who 0) off with
      | none => d
      | some (t, l, w) =>
        let open' := d.tbl.stale.filter fun x => d.pclk < x.close
        if w ≠ statusIdx t then d
        else if 256 ≤ open'.length then (d.bump Reg.tblRawReject).accessErr who 0 (0x1C00000 + off) true
        else
          let m := d.staged who l
          let ws := ((d.tbl.rawWords t l).zipIdx.map fun e => ((Map.find m e.2).map (·.toNat)).getD e.1).set w v
          let d := d.onTbl fun x => { x.rawSet t l ws with stale := open' ++ [{ table := t, line := l, close := d.pclk + 65536 }] }
          (d.onHif fun h => { h with rawStage := Map.del h.rawStage who }).bump Reg.tblRawWrite

/-- RAW_STATUS_READ (R640): an aligned 8-byte read of a status word clears HIT. -/
def execRawStatusRead (who off : Nat) (s : State) : Host.Outcome State Fault Refusal :=
  s.runState (who < 64 && off < 2 ^ 22 && off % 8 == 0) fun s =>
    match rawAt (Map.getD s.dev.hif.rawSel who 0) off with
    | some (t, _, w) => if s.dev.hasGlobal who && w == statusIdx t then s.readReply who (0x1C00000 + off) 8 else s
    | none => s

/-! ## RW1C registers and the boot window (R567, R578, R616) -/

/-- A write of an RW1C register: four bytes, by a reader with the global window. -/
def Dev.rw1c (who off size : Nat) (f : Dev → Dev) : Dev → Dev :=
  Dev.store' who off size fun d => if !d.hasGlobal who || size < 4 then d.accessErr who 0 off true else f d

/-- SHE_TAMPER_LATCH_CLEAR (R567). -/
def execSheTamperLatchClear (who size v : Nat) (s : State) : Host.Outcome State Fault Refusal :=
  s.run (who < 64 && ioOk who 0 size && size ≤ 8 && v < 2 ^ 32) (Dev.rw1c who Reg.sheTamperLatch size
    (Dev.onShe fun s => { s with latch := s.latch ^^^ (s.latch &&& v) }))

/-- PWR_TRIP_CLEAR (R616): TRIPPED falls. -/
def execPwrTripClear (who size v : Nat) (s : State) : Host.Outcome State Fault Refusal :=
  s.run (who < 64 && ioOk who 0 size && size ≤ 8 && v < 2 ^ 32) (Dev.rw1c who Reg.pwrTrip size fun d =>
    if bit v 0 then d.onPwr fun p => { p with trip := none } else d)

/-- BOOT_WINDOW_WRITE (R578): the first 31 MiB of the flat region, in WAIT_PUSH and RECOVERY, by PF0 of a port with manager rights. -/
def execBootWindowWrite (who off : Nat) (bytes : List Byte) (s : State) : Host.Outcome State Fault Refusal :=
  s.run (who < 64 && 0x2000000 ≤ off && off + bytes.length ≤ 0x3F00000 && ioOk who off bytes.length) (Dev.store' who off bytes.length fun d =>
    if who < 32 && d.hasGlobal who && (d.boot.st == .waitPush || d.boot.st == .recovery) then
      { d with mem := { d.mem with flat := Memory.writeBytes d.mem.flat (off - 0x2000000) bytes } }
    else d.accessErr who 0 off true)

end Sys2Proof.Machine
end

