-- ==== Sys2Proof/Machine/Capstan.lean ====
section
/-! DEFINITION. The capstans' own instructions: hash and query coprocessors (R397 to R402), cleats and lanyards (R403 to
R411), and what interrupts and resets of a core do to them. -/
namespace Sys2Proof.Machine

/-! ## Retirement of one instruction -/

/-- A core executes an instruction only while it runs and does not wait (R404, Table 13.14). -/
def Dev.coreReady (c : Nat) (d : Dev) : Bool := (d.core c).running && (d.core c).wait.isNone

/-- An instruction reaches retirement on core c (R396, R412); an encoding that R397 does not list raises an illegal-instruction exception (cause 2). -/
def Dev.reach (c : Nat) (legal : Bool) (act : Core → Dev → Dev) (d : Dev) : Dev :=
  d.when (d.coreReady c) fun d =>
    let d := (d.bump (Reg.capCFetched c)).bump (Reg.capCIssued c)
    if legal then act (d.core c) d else d.onCore c fun x => { x with exc := some 2 }

/-- An instruction reaches retirement on core c and retires. -/
def Dev.retire (c : Nat) (legal : Bool) (act : Core → Dev → Dev) : Dev → Dev :=
  Dev.reach c legal fun x d => (act x d).bump (Reg.capCRetired c)

/-- Write a result to register rd of core c. -/
def Dev.setRd (c : Nat) (rd : BitVec 5) (v : Nat) : Dev → Dev := Dev.onCore c (Core.setX rd.toNat (BitVec.ofNat 64 v))

/-- The number register r of a core holds. -/
def Core.num (x : Core) (r : BitVec 5) : Nat := (x.getX r.toNat).toNat

/-! ## Hash and query coprocessors (R397 to R401) -/

/-- A CRC register advanced over 8 bytes, least significant first, without initial value or final inversion (Table 13.7, log 14). -/
def crcAdvance (kind reg word : Nat) : Nat :=
  let bs := le 8 word
  if kind = 2 then bs.foldl crc64Byte reg
  else bs.foldl (crcByteRefl (if kind = 0 then 0x82F63B78 else 0xEDB88320)) (reg % 2 ^ 32)

/-- HC.CRC (R397, R398). -/
def execHcCrc (c : Nat) (f7 : BitVec 7) (rs2 rs1 rd : BitVec 5) (s : State) : Host.Outcome State Fault Refusal :=
  s.run (c < 32) (Dev.retire c (f7.toNat ≤ 2) fun x d =>
    (d.setRd c rd (crcAdvance f7.toNat (x.num rs1) (x.num rs2))).bump (Reg.capCHcuRetired c))

/-- The bucket index of a key on a side (R199): bits [16:0] of H1 or H2. -/
def bucketIndex (tab side key : Nat) : Nat := bits (if side = 0 then crc32c (keyBytes tab key) else crc32 (keyBytes tab key)) 0 17

/-- HC.KEY (R397, R398). -/
def execHcKey (c : Nat) (f7 : BitVec 7) (rs2 rs1 rd : BitVec 5) (s : State) : Host.Outcome State Fault Refusal :=
  s.run (c < 32) (Dev.retire c (f7.toNat ≤ 3) fun x d =>
    let side := f7.toNat % 2
    let v := if f7.toNat / 2 = 0 then bucketIndex 0 side (x.num rs1) else bucketIndex 1 side (x.num rs1 * 2 ^ 32 + x.num rs2 % 2 ^ 32)
    (d.setRd c rd v).bump (Reg.capCHcuRetired c))

/-- The lowest query slot of a core that is free. -/
def Core.freeSlot (x : Core) : Option Nat := (List.range 8).find? fun k => (Map.find x.slots k).isNone

/-- AQ.SUB (R399, R400): `seg` is what the virtual address reads as, none for a page fault (a load page fault, cause 13, before submission). -/
def execAqSub (c : Nat) (f7 : BitVec 7) (rs2 rs1 rd : BitVec 5) (seg : Option (List Byte)) (s : State) : Host.Outcome State Fault Refusal :=
  s.run (c < 32) (Dev.reach c (f7 == 0) fun x d =>
    let done (d : Dev) : Dev := (d.bump (Reg.capCRetired c)).bump (Reg.capCAquRetired c)
    let w := x.num rs2
    let n := bits w 0 8 + 1
    let set := bits w 8 10
    let lay := bits w 18 5
    let shade := bits w 23 2
    let bad := 4096 < x.num rs1 % 4096 + n || d.blocks ≤ lay || bits w 25 39 != 0
    match bad, seg with
    | true, _ => done (d.setRd c rd stBadOperand)
    | false, none => d.onCore c fun x => { x with exc := some 13 }
    | false, some bs =>
      let d := done d
      let live := d.live.contains shade
      let g : Seg := {
        id := d.aut.nextSeg, owner := .query c (x.freeSlot.getD 8), shade, set, bytes := padTo n bs
        noSet := !live || !(d.progSet shade lay).autSets.contains set }
      match x.freeSlot, d.admitSeg lay g with
      | some k, some d =>
        ((d.onAut fun a => { a with nextSeg := a.nextSeg + 1 }).onCore c fun x => { x with slots := Map.put x.slots k none }).setRd c rd (stDone + k * 256)
      | _, _ => d.setRd c rd stFull)

/-- AQ.GET (R401): a result that has arrived is VALID and its slot is freed; 0 when none has. -/
def execAqGet (c : Nat) (f7 : BitVec 7) (rs1 rd : BitVec 5) (s : State) : Host.Outcome State Fault Refusal :=
  s.run (c < 32) (Dev.retire c (f7 == 0) fun x d =>
    match Map.find x.slots (x.num rs1 % 8) with
    | some (some w) => (d.onCore c fun x => { x with slots := Map.del x.slots (x.num rs1 % 8) }).setRd c rd w.toNat
    | _ => d.setRd c rd 0)

/-- CAP_RAND_READ (R402, R553): 64 bits of the DRBG, or 0 with NOT_READY or TAMPER. -/
def execCapRandRead (c : Nat) (rd : BitVec 5) (s : State) : Host.Outcome State Fault Refusal :=
  s.run (c < 32) (Dev.retire c true fun _ d =>
    if d.she.rng = .stopped then (d.setRd c rd 0).onCore c (Core.setStat stTamper)
    else if d.she.rng ≠ .ready then (d.setRd c rd 0).onCore c (Core.setStat stNotReady)
    else
      let g := d.capRand
      (g.2.setRd c rd (ofLe g.1)).onCore c (Core.setStat stDone))

/-! ## Cleats (R403 to R407, Table 13.9) -/

/-- The cleat a capstan names: its full 16-bit number (R403). -/
def Core.cleatOf (x : Core) (r : BitVec 5) : Nat := x.num r % 65536

/-- CL.TRY (R405). -/
def execClTry (c : Nat) (rs1 rd : BitVec 5) (s : State) : Host.Outcome State Fault Refusal :=
  s.run (c < 32) (Dev.retire c true fun x d =>
    let r := d.tryCleat (x.cleatOf rs1) (.core c)
    r.1.setRd c rd r.2)

/-- CL.WAIT (R405, R406): a held cleat is waited for, for as many turns as rs2 says. -/
def execClWait (c : Nat) (rs2 rs1 rd : BitVec 5) (s : State) : Host.Outcome State Fault Refusal :=
  s.run (c < 32) (Dev.reach c true fun x d =>
    let n := x.cleatOf rs1
    let t := x.num rs2 % 2 ^ 32
    if (d.cleat n).holder.isNone then (d.onCleat n fun y => { y with holder := some (.core c) }).setRd c rd stDone |>.bump (Reg.capCRetired c)
    else
      (d.onCleat n fun y => { y with waiters := y.waiters ++ [.core c] }).onCore c fun x => { x with
        wait := some (.cleat n rd.toNat (if t = 0 then none else some (d.turn + t))) })

/-- CL.REL (R405). -/
def execClRel (c : Nat) (rs1 rd : BitVec 5) (s : State) : Host.Outcome State Fault Refusal :=
  s.run (c < 32) (Dev.retire c true fun x d =>
    let r := d.relCleat (x.cleatOf rs1) (.core c)
    r.1.setRd c rd r.2)

/-- The word of Table 13.10. -/
def Cleat.word (x : Cleat) : Nat :=
  let w := match x.holder with
    | none => 0
    | some (.fibre f) => 1 + f / 8 * 2 ^ 2 + f % 8 * 2 ^ 11
    | some (.core c) => 3 + c * 2 ^ 14
  w + x.waiters.length * 2 ^ 19

/-- CL.READ (Table 13.10). -/
def execClRead (c : Nat) (rs1 rd : BitVec 5) (s : State) : Host.Outcome State Fault Refusal :=
  s.run (c < 32) (Dev.retire c true fun x d => d.setRd c rd (d.cleat (x.cleatOf rs1)).word)

/-- CL_WAIT_TIMEOUT (R406): the waiter leaves without the cleat. -/
def execClWaitTimeout (c : Nat) (s : State) : Host.Outcome State Fault Refusal :=
  s.run (c < 32) fun d =>
    match (d.core c).wait with
    | some (.cleat _ rd (some t)) =>
      let d := d.dueNs (t * 1024)
      ((d.leaveWaits (.core c)).onCore c fun x => Core.setX rd (BitVec.ofNat 64 stTimeout) { x with wait := none }).bump (Reg.capCRetired c)
    | _ => d

/-! ## Lanyards (R408 to R411) -/

/-- The lanyard a capstan names. -/
def Core.lanyardOf (x : Core) (r : BitVec 5) : Nat := x.num r % 1024

/-- LN.PUT (R408). -/
def execLnPut (c : Nat) (rs2 rs1 rd : BitVec 5) (s : State) : Host.Outcome State Fault Refusal :=
  s.run (c < 32) (Dev.retire c true fun x d =>
    let r := d.tryPut (x.lanyardOf rs1) (x.getX rs2.toNat)
    r.1.setRd c rd r.2)

/-- LN.GET (R408): the word, 0 when there is none, and its status in cap_xstat. -/
def execLnGet (c : Nat) (rs1 rd : BitVec 5) (s : State) : Host.Outcome State Fault Refusal :=
  s.run (c < 32) (Dev.retire c true fun x d =>
    let r := d.tryGet (x.lanyardOf rs1)
    match r.2 with
    | some w => (r.1.setRd c rd w.toNat).onCore c (Core.setStat stDone)
    | none => (r.1.setRd c rd 0).onCore c (Core.setStat stNotFound))

/-- LN.PUTW (R410): waits until there is room. -/
def execLnPutw (c : Nat) (rs2 rs1 rd : BitVec 5) (s : State) : Host.Outcome State Fault Refusal :=
  s.run (c < 32) (Dev.reach c true fun x d =>
    let n := x.lanyardOf rs1
    let d := d.onCore c fun y => { y with wait := some (.put n rd.toNat) }
    (d.onLanyard n fun l => { l with puts := l.puts ++ [(.core c, x.getX rs2.toNat)] }).serve n)

/-- LN.GETW (R410): waits until there is a word. -/
def execLnGetw (c : Nat) (rs1 rd : BitVec 5) (s : State) : Host.Outcome State Fault Refusal :=
  s.run (c < 32) (Dev.reach c true fun x d =>
    let n := x.lanyardOf rs1
    let d := d.onCore c fun y => { y with wait := some (.get n rd.toNat) }
    (d.onLanyard n fun l => { l with gets := l.gets ++ [.core c] }).serve n)

/-- LANYARD_NOTIFY_WRITE (R411, Table 13.11): a core's store to entry l; the reserved bits stay 0. -/
def execLanyardNotifyWrite (c l : Nat) (v : BitVec 32) (s : State) : Host.Outcome State Fault Refusal :=
  s.run (c < 32 && l < 1024) (Dev.retire c true fun _ d => d.onCap fun x => { x with notify := Map.put x.notify l (v.toNat % 64) })

/-! ## Interrupts and resets of a core (R401, R406, R407, R410, R637, R638) -/

/-- CORE_INTERRUPT: a wait is cancelled with no effect, an issued instruction squashed (R406, R412); the lanyard interrupt taken is no longer pending (R411). -/
def execCoreInterrupt (c : Nat) (s : State) : Host.Outcome State Fault Refusal :=
  s.run (c < 32) fun d =>
    d.when (d.core c).running fun d => ((d.bumpIf (d.core c).wait.isSome (Reg.capCSquashIssued c)).leaveWaits (.core c)).onCore c fun x => { x with wait := none, lnyInt := false }

/-- What every core reset does: waits leave, cleats are released and counted, query slots are freed and their results discarded, and what the core's reader windows selected falls to 0. -/
def Dev.coreReset (c : Nat) (d : Dev) : Dev :=
  let d := d.leaveWaits (.core c)
  let d := d.add Reg.capCleatResetRel (d.heldCleats (.core c)).length
  let d := d.dropCleats (.core c)
  let gone (g : Seg) : Seg := match g.owner with | .query k _ => if k = c then { g with owner := .query c 8 } else g | _ => g
  let d := d.onAut fun a => { a with units := a.units.map fun e => (e.1, { e.2 with segs := e.2.segs.map gone }) }
  let k := 32 + c
  let d := d.onHif fun h => { h with views := Map.del h.views k, rawSel := Map.del h.rawSel k, rawStage := Map.del h.rawStage k, latches := Map.del h.latches k }
  d.onCore c fun x => { x with x := [], xstat := 0, wait := none, slots := [], lnyInt := false, exc := none }

/-- CORE_RESET (R407): the core restarts, or is held in reset; it runs again only where an image has been released to the cores. -/
def execCoreReset (c : Nat) (held : Bool) (s : State) : Host.Outcome State Fault Refusal :=
  s.run (c < 32) fun d => (d.coreReset c).onCore c fun x => { x with running := !held && d.boot.ranCap }

end Sys2Proof.Machine
end

