-- ==== Sys2Proof/Machine/Coher.lean ====
section
/-! DEFINITION. The L3's two modes (R390) and the coherence protocol between the L2s, the I/O agents and the directory
(R391 to R395). Lines are numbered by DRAM offset / 64; the L3 and DRAM together are `mem.dram`. -/
namespace Sys2Proof.Machine

/-! ## The switch of R390 -/

/-- L3_MODE_SWITCH (R390, Table 19.3): the write of L3_MODE by a core. -/
def execL3ModeSwitch (c : Nat) (s : State) : Host.Outcome State Fault Refusal :=
  s.run (c < 32) (Dev.retire c true fun _ d =>
    if !d.dmc.ready then d.onCap fun x => { x with modeSt := stNotReady }
    else d.when (d.cap.mode == .flat) (Dev.onCap fun x => { x with mode := .switching, modeSt := stDone }))

/-- L3_SWITCH_DONE (R390): the flat region stands in DRAM and is from then on an alias of it. -/
def execL3SwitchDone (s : State) : Host.Outcome State Fault Refusal :=
  s.run true fun d =>
    d.when (d.cap.mode == .switching) fun d =>
      let d : Dev := { d with mem := { d.mem with
        dram := d.mem.flat.foldl (fun m e => Memory.write m e.1 e.2) (d.mem.dram.filter fun e => flatSize ≤ e.1)
        flat := [] } }
      d.onCap fun x => { x with mode := .cache }

/-! ## The directory -/

/-- The directory's entry of a line. -/
def Dev.dirEnt (d : Dev) (ln : Nat) : DirEnt := Map.getD d.cap.dir ln {}

/-- The cores an entry records. -/
def DirEnt.holders (e : DirEnt) : List Nat := e.owner.toList ++ e.sharers

/-- An entry without a core. -/
def DirEnt.drop (c : Nat) (e : DirEnt) : DirEnt :=
  { owner := if e.owner = some c then none else e.owner, sharers := e.sharers.filter (· != c) }

/-- Set the entry of a line; one that records no core is no entry. -/
def Dev.setDir (ln : Nat) (e : DirEnt) : Dev → Dev :=
  Dev.onCap fun x => { x with dir := if e.holders = [] then Map.del x.dir ln else Map.put x.dir ln e }

/-- Put a message under way. -/
def Dev.tell (kind : CKind) (core line : Nat) (data : Option (List Byte)) : Dev → Dev :=
  Dev.onCap fun x => { x with msgs := x.msgs ++ [{ kind, core, line, data }] }

/-- The L3's data of a line. -/
def Dev.l3Line (ln : Nat) (d : Dev) : List Byte := Memory.readBytes d.mem.dram (64 * ln) 64

/-- The key under which a line is held poisoned (R533). -/
def Dev.lineKey' (ln : Nat) (d : Dev) : Nat := poisonKey (dramChannel d.dmc.k (64 * ln)) (dramAddress d.dmc.k (64 * ln))

/-- A line is held poisoned in the L3 (Table 18.6). -/
def Dev.poisoned (ln : Nat) (d : Dev) : Bool := d.dmc.poison.contains (d.lineKey' ln)

/-- Write a whole line to the L3, which clears its poison (Table 18.6). -/
def Dev.l3Put (ln : Nat) (bs : List Byte) (d : Dev) : Dev :=
  { d with
    mem := { d.mem with dram := Memory.writeBytes d.mem.dram (64 * ln) (padTo 64 bs) }
    dmc := { d.dmc with poison := d.dmc.poison.filter (· != d.lineKey' ln) } }

/-- The status of an I/O agent's operation on a line: MEDIA_ERR where its data is poisoned (Table 18.6). -/
def Dev.ioStatus (ln : Nat) (data : Option (List Byte)) (d : Dev) : Nat := if data = none ∧ d.poisoned ln then stMediaErr else stDone

/-- A line written under a byte mask. -/
def maskLine (mask : Nat) (new old : List Byte) : List Byte :=
  (List.range 64).map fun i => if bit mask i then new.getD i 0 else old.getD i 0

/-- What a request gets when every answer is in (Table 13.5): `data` is the dirty data that came, `buf` whether it came from an eviction buffer. -/
def Dev.grantLine (ln : Nat) (req : CReq) (data : Option (List Byte)) (buf : Bool) (d : Dev) : Dev :=
  let e := d.dirEnt ln
  let now := data.getD (d.l3Line ln)
  let kept (d : Dev) : Dev := match data with | some bs => d.l3Put ln bs | none => d
  match req with
  | .shared c =>
    let d := kept d
    if buf ∨ e.holders ≠ [] then (d.setDir ln { owner := none, sharers := e.holders ++ [c] }).tell (.data .s) c ln (some now)
    else (d.setDir ln { owner := some c, sharers := [] }).tell (.data .e) c ln (some now)
  | .unique c => (d.setDir ln { owner := some c, sharers := [] }).tell (.data .m) c ln (some now)
  | .upgrade c => (d.setDir ln { owner := some c, sharers := [] }).tell (.data .m) c ln (if e.sharers.contains c then none else some now)
  | .ioRead a => (kept d).send .ioReply [a, ln, 0, d.ioStatus ln data] now
  | .ioWrite a mask bs =>
    if mask ≠ fullMask ∧ d.ioStatus ln data ≠ stDone then (d.setDir ln {}).send .ioReply [a, ln, 1, stMediaErr] []
    else ((d.setDir ln {}).l3Put ln (maskLine mask bs now)).send .ioReply [a, ln, 1, stDone] []
  | .back => (kept d).setDir ln {}

/-- The cores a request must snoop, and with which message. -/
def CReq.snoops (req : CReq) (e : DirEnt) : CKind × List Nat :=
  match req with
  | .shared c => (.snpShared, e.owner.toList.filter (· != c))
  | .unique c => (.snpInv, e.holders.filter (· != c))
  | .upgrade c => (.snpInv, e.holders.filter (· != c))
  | .ioRead _ => (.snpShared, e.owner.toList)
  | .ioWrite _ _ _ => (.snpInv, e.holders)
  | .back => (.snpInv, e.holders)

/-- The directory takes up a request: it grants at once, or snoops and waits, with the requests behind it (R392). Answers whether it granted. -/
def Dev.takeReq (ln : Nat) (req : CReq) (queue : List CReq) (d : Dev) : Dev × Bool :=
  match req.snoops (d.dirEnt ln) with
  | (_, []) => ((d.grantLine ln req none false).onCap fun x => { x with txns := Map.del x.txns ln }, true)
  | (k, cs) =>
    (cs.foldl (fun d c => d.tell k c ln none) (d.onCap fun x => { x with txns := Map.put x.txns ln { req, wait := cs, queue } }), false)

/-- Take up the waiting requests of a line in order until one has to wait (fuel: the requests). -/
def Dev.takeQueue (ln : Nat) : List CReq → Dev → Dev
  | [], d => d
  | q :: qs, d =>
    let r := d.takeReq ln q qs
    if r.2 then Dev.takeQueue ln qs r.1 else r.1

/-- A request reaches the directory: it waits behind a pending transaction on its line (R392). -/
def Dev.askDir (ln : Nat) (req : CReq) (d : Dev) : Dev :=
  match Map.find d.cap.txns ln with
  | some t => d.onCap fun x => { x with txns := Map.put x.txns ln { t with queue := t.queue ++ [req] } }
  | none => d.takeQueue ln [req]

/-- A snoop answer is in: the last one completes the transaction, acknowledges a held eviction ABSORBED, and lets the next request go (R393). -/
def Dev.snoopAnswer (ln c : Nat) (data : Option (List Byte)) (buf gone : Bool) (d : Dev) : Dev :=
  match Map.find d.cap.txns ln with
  | none => d
  | some t =>
    let inv := match (t.req.snoops {}).1 with | .snpInv => true | _ => false
    let e := d.dirEnt ln
    let e := if gone || inv then e.drop c else { owner := if e.owner = some c then none else e.owner, sharers := if e.owner = some c then e.sharers ++ [c] else e.sharers }
    let d := d.setDir ln e
    let data := match data with | some b => some b | none => t.data
    let t := { t with wait := t.wait.filter (· != c), data, fromBuf := t.fromBuf || buf }
    if t.wait ≠ [] then d.onCap fun x => { x with txns := Map.put x.txns ln t }
    else
      let d := d.grantLine ln t.req t.data t.fromBuf
      let d := match t.held with | some k => d.tell (.evictAck 1) k ln none | none => d
      (d.onCap fun x => { x with txns := Map.del x.txns ln }).takeQueue ln t.queue

/-! ## Requests of an L2 (R392, R394) -/

/-- Lines of DRAM. -/
def Dev.lineOk (ln : Nat) (d : Dev) : Bool := 64 * ln < d.dmc.capacity && d.cap.mode == .cache

/-- A request names its core. -/
def CReq.from' : CReq → Option Nat
  | .shared c => some c
  | .unique c => some c
  | .upgrade c => some c
  | _ => none

/-- A request of core c for the line is at the directory, or its DATA is under way. -/
def Dev.asked (ln c : Nat) (d : Dev) : Bool :=
  (match Map.find d.cap.txns ln with
    | some t => (t.req :: t.queue).any fun r => r.from' == some c
    | none => false)
  || d.cap.msgs.any fun m => m.core == c && m.line == ln && (match m.kind with | .data _ => true | _ => false)

/-- The L2 can send a request for a line: it holds no copy it could use, no eviction of the line is unacknowledged, no request is under way (R392). -/
def Dev.canMiss (c ln : Nat) (d : Dev) : Bool :=
  d.lineOk ln && (Map.find (d.core c).l2 ln).isNone && !((d.core c).evb.any fun e => e.line == ln) && !d.asked ln c

/-- Lines of core c that have been asked for and that its L2 does not hold: each will take a place there. -/
def Dev.incoming (c : Nat) (d : Dev) : Nat :=
  let new' (ln : Nat) : Bool := (Map.find (d.core c).l2 ln).isNone
  ((d.cap.txns.filter fun e => new' e.1 && (e.2.req :: e.2.queue).any fun r => r.from' == some c).map (·.1)).length
    + (d.cap.msgs.filter fun m => m.core == c && new' m.line && (match m.kind with | .data _ => true | _ => false)).length

/-- The L2 of core c has no place left of its 16,384 lines of 64 B, so that a miss needs a victim (R46, R386, R394). -/
def Dev.l2Full (c : Nat) (d : Dev) : Bool := 16384 ≤ (d.core c).l2.length + d.incoming c

/-- A line the L2 holds, with what the core's stores have made of it (R391: an owner may write without a request). -/
def L2Line.stored (x : L2Line) (dirty : Option (List Byte)) : L2Line :=
  match dirty with
  | some bs => if x.st = .s then x else { st := .m, data := padTo 64 bs }
  | none => x

/-- A victim leaves the L2 for the eviction buffer, its EVICT_DIRTY or EVICT_CLEAN on its way (R392, R393). -/
def Dev.evict (c ln : Nat) (x : L2Line) (d : Dev) : Dev :=
  let dirty := if x.st = .m then some x.data else none
  (d.onCore c fun y => { y with l2 := Map.del y.l2 ln, evb := y.evb ++ [{ line := ln, dirty }] }).bumpIf dirty.isSome (Reg.capCEvictDirty c)

/-- The directory makes room by invalidating a line everywhere (R391). -/
def Dev.backInv (ln : Nat) (d : Dev) : Dev := (d.askDir ln .back).bump Reg.capDirBackinv

/-- An L2 miss: the victim, which a full L2 needs, and the directory entry to evict, if one must be, are the environment's (R391, R394). -/
def Dev.miss (c ln : Nat) (victim : Option (Nat × Option (List Byte))) (back : Option Nat) (req : CReq) (d : Dev) : Dev :=
  let full := 1048576 ≤ d.cap.dir.length && back.isNone
  let okBack := match back with | some b => b != ln && (Map.find d.cap.dir b).isSome | none => true
  d.when (d.canMiss c ln && !full && okBack) fun d =>
    let go (d : Dev) : Dev :=
      let d := match back with | some b => d.backInv b | none => d
      (d.bump (Reg.capCL2Miss c)).askDir ln req
    match victim with
    | none => if d.l2Full c then d else go d
    | some (v, dirty) =>
      match Map.find (d.core c).l2 v with
      | none => d
      | some x =>
        if d.asked v c then d
        else if 16 ≤ (d.core c).evb.length then d.bump (Reg.capCEvbFull c)
        else go (d.evict c v (x.stored dirty))

/-- RD_SHARED (R392, R394). -/
def execRdShared (c ln : Nat) (victim : Option (Nat × Option (List Byte))) (back : Option Nat) (s : State) : Host.Outcome State Fault Refusal :=
  s.run (c < 32) (Dev.miss c ln victim back (.shared c))

/-- RD_UNIQUE (R392, R394). -/
def execRdUnique (c ln : Nat) (victim : Option (Nat × Option (List Byte))) (back : Option Nat) (s : State) : Host.Outcome State Fault Refusal :=
  s.run (c < 32) (Dev.miss c ln victim back (.unique c))

/-- UPGRADE (R392, R393): of a line held in S. -/
def execUpgrade (c ln : Nat) (s : State) : Host.Outcome State Fault Refusal :=
  s.run (c < 32) fun d =>
    d.when (d.lineOk ln && (Map.find (d.core c).l2 ln).any (·.st == .s) && !d.asked ln c) fun d => d.askDir ln (.upgrade c)

/-! ## Evictions at the directory (R393) -/

/-- The eviction of a line by core c that has not reached the directory. -/
def Dev.evicted (c ln : Nat) (dirty : Bool) (d : Dev) : Option Evb :=
  (d.core c).evb.find? fun e => e.line == ln && e.sent && e.dirty.isSome == dirty

/-- The notice has reached the directory. -/
def Dev.noticed (c ln : Nat) : Dev → Dev :=
  Dev.onCore c fun y => { y with evb := y.evb.map fun e => if e.line = ln then { e with sent := false } else e }

/-- EVICT_DIRTY: held while a transaction waits for this core's answer, ABSORBED once a snoop has taken the data, else written to the L3 and DONE. -/
def execEvictDirty (c ln : Nat) (s : State) : Host.Outcome State Fault Refusal :=
  s.run (c < 32) fun d =>
    match d.evicted c ln true with
    | none => d
    | some e =>
      let d := d.noticed c ln
      match Map.find d.cap.txns ln with
      | some t =>
        if t.wait.contains c then d.onCap fun x => { x with txns := Map.put x.txns ln { t with held := some c } }
        else d.tell (.evictAck 1) c ln none
      | none =>
        if e.taken then d.tell (.evictAck 1) c ln none
        else
          let d := d.l3Put ln (e.dirty.getD [])
          let d := d.onCore c fun y => { y with evb := y.evb.map fun z => if z.line = ln then { z with taken := true } else z }
          (d.setDir ln ((d.dirEnt ln).drop c)).tell (.evictAck 0) c ln none

/-- EVICT_CLEAN: DONE, or STALE where a snoop has been sent to this core or has removed it (R393, R394). -/
def execEvictClean (c ln : Nat) (s : State) : Host.Outcome State Fault Refusal :=
  s.run (c < 32) fun d =>
    match d.evicted c ln false with
    | none => d
    | some _ =>
      let d := d.noticed c ln
      let waits := match Map.find d.cap.txns ln with | some t => t.wait.contains c | none => false
      if waits || !(d.dirEnt ln).holders.contains c then (d.tell (.evictAck 2) c ln none).bump (Reg.capCCleanCross c)
      else (d.setDir ln ((d.dirEnt ln).drop c)).tell (.evictAck 0) c ln none

/-! ## I/O agents (R392, R395) -/

/-- IO_READ: agents 0 host interface, 1 splice sequencer, 2 storage engine, 3 RDMA engine. -/
def execIoRead (agent ln : Nat) (s : State) : Host.Outcome State Fault Refusal :=
  s.run (agent < 4) fun d => d.when (d.lineOk ln) (Dev.askDir ln (.ioRead agent))

/-- IO_WRITE: the bytes of a line that the mask names. -/
def execIoWrite (agent ln mask : Nat) (line : List Byte) (s : State) : Host.Outcome State Fault Refusal :=
  s.run (agent < 4 && mask < 2 ^ 64) fun d => d.when (d.lineOk ln) (Dev.askDir ln (.ioWrite agent mask line))

/-! ## Messages that arrive -/

/-- The first message of a kind for a core and a line is taken. -/
def takeMsg (p : CMsg → Bool) : List CMsg → Option (CMsg × List CMsg)
  | [] => none
  | m :: ms => if p m then some (m, ms) else (takeMsg p ms).map fun r => (r.1, m :: r.2)

/-- Take a message under way. -/
def Dev.receive (p : CKind → Bool) (c ln : Nat) (f : CMsg → Dev → Dev) (d : Dev) : Dev :=
  match takeMsg (fun m => p m.kind && m.core == c && m.line == ln) d.cap.msgs with
  | none => d
  | some r => f r.1 (d.onCap fun x => { x with msgs := r.2 })

/-- The L2's answer to a snoop (Tables 13.4 and 13.5); it does not overtake the DATA that made this core a holder. -/
def Dev.snooped (inv : Bool) (c ln : Nat) (dirty : Option (List Byte)) (d : Dev) : Dev :=
  let data := d.cap.msgs.any fun m => m.core == c && m.line == ln && (match m.kind with | .data _ => true | _ => false)
  if data then d
  else
    d.receive (fun k => k == (if inv then .snpInv else .snpShared)) c ln fun _ d =>
      match Map.find (d.core c).l2 ln with
      | some x =>
        let x := x.stored dirty
        let d := d.onCore c fun y => { y with l2 := if inv then Map.del y.l2 ln else Map.put y.l2 ln { x with st := .s } }
        d.tell .ack c ln (if x.st = .m then some x.data else none)
      | none =>
        match (d.core c).evb.find? fun e => e.line == ln && e.dirty.isSome && !e.taken with
        | some e =>
          let d := d.onCore c fun y => { y with evb := y.evb.map fun z => if z.line = ln then { z with taken := true } else z }
          (d.tell .evicting c ln e.dirty).bump (Reg.capCSnoopEvicting c)
        | none => d.tell .miss c ln none

/-- SNP_SHARED (R393): `dirty` is what the core's stores have made of a line it owns. -/
def execSnpShared (c ln : Nat) (dirty : Option (List Byte)) (s : State) : Host.Outcome State Fault Refusal :=
  s.run (c < 32) (Dev.snooped false c ln dirty)

/-- SNP_INV (R393). -/
def execSnpInv (c ln : Nat) (dirty : Option (List Byte)) (s : State) : Host.Outcome State Fault Refusal :=
  s.run (c < 32) (Dev.snooped true c ln dirty)

/-- ACK and ACK_DATA (R393). -/
def execAck (c ln : Nat) (s : State) : Host.Outcome State Fault Refusal :=
  s.run (c < 32) (Dev.receive (· == .ack) c ln fun m d => d.snoopAnswer ln c m.data false false)

/-- MISS (R393): the core holds nothing. -/
def execMiss (c ln : Nat) (s : State) : Host.Outcome State Fault Refusal :=
  s.run (c < 32) (Dev.receive (· == .miss) c ln fun _ d => d.snoopAnswer ln c none false true)

/-- EVICTING (R393): the requester is completed from the eviction data. -/
def execEvicting (c ln : Nat) (s : State) : Host.Outcome State Fault Refusal :=
  s.run (c < 32) (Dev.receive (· == .evicting) c ln fun m d => d.snoopAnswer ln c m.data true true)

/-- DATA (R392): the line is filled in the state granted; an UPGRADE's grant keeps the data the L2 has. -/
def execData (c ln : Nat) (s : State) : Host.Outcome State Fault Refusal :=
  s.run (c < 32) (Dev.receive (fun k => match k with | .data _ => true | _ => false) c ln fun m d =>
    match m.kind with
    | .data st =>
      let old := ((Map.find (d.core c).l2 ln).map (·.data)).getD (d.l3Line ln)
      d.onCore c fun y => { y with l2 := Map.put y.l2 ln { st, data := m.data.getD old } }
    | _ => d)

/-- EVICT_ACK (R394): the entry is freed. -/
def execEvictAck (c ln : Nat) (s : State) : Host.Outcome State Fault Refusal :=
  s.run (c < 32) (Dev.receive (fun k => match k with | .evictAck _ => true | _ => false) c ln fun _ d =>
    d.onCore c fun y => { y with evb := y.evb.filter fun e => e.line != ln })

end Sys2Proof.Machine
end

