-- ==== Sys2Proof/Machine/Reset.lean ====
section
/-! DEFINITION. What a main-domain reset leaves (R47, R600, R603), what the reset of a failed or replaced image leaves
(R582), and failed trials (R588). -/
namespace Sys2Proof.Machine

/-! ## Main-domain reset -/

/-- A host port as a main-domain reset leaves it: the pin, HP0's manager rights, one function (R413, R415). -/
def HostPort.fresh (n : Nat) (h : HostPort) : HostPort := { perst := h.perst, manager := n == 0 }

/-- The sheath and the standby domain: fuses, key store, standby log, what the tamper watch latched; a fuse still owed is recorded (R47, R602, R603). -/
def She.afterReset (s : She) : She :=
  { fuses := s.fuses, slots := s.slots.map fun e => (e.1, { e.2 with refs := 0 }), log := s.log, logHead := s.logHead, armed := s.armed
    stbyLost := s.stbyLost, owed := s.owed || s.fuseDue, manager := s.manager, holdNs := s.holdNs }

/-- What the flash holds, and the slot selected for the next boot (R570, R571, R590). -/
def Boot.afterReset (b : Boot) : Boot := { dir := b.dir, flash := b.flash, jnl := b.jnl, selected := b.selected }

/-- The inputs of the power block, and PWR_TRIP (R616). -/
def Pwr.afterReset (p : Pwr) : Pwr :=
  { good := p.good, stby := p.stby, rails := p.rails, plLost := p.plLost, hpLost := p.hpLost, spLost := p.spLost
    trip := p.trip, tripHold := p.tripHold, sysRst := p.sysRst }

/-- The device in main-domain reset (R600, R603): what the standby domain and the flash hold stays. -/
def Dev.mainReset (d : Dev) : Dev :=
  let d := (List.range 4).foldl (fun d n => d.hpDown n) d
  { variant24 := d.variant24, pclk := d.pclk, free := d.free, drawn := d.drawn, out := d.out
    hif := { ports := d.hif.ports.map fun e => (e.1, e.2.fresh e.1) }
    she := d.she.afterReset, boot := d.boot.afterReset, pwr := d.pwr.afterReset }

/-- A main-domain reset of the machine: the snapshot images are lost with it. -/
def State.mainReset (s : State) : State := { s with dev := s.dev.mainReset, snaps := [], frozen := none }

/-! ## The reset of R582 -/

/-- Counters of the sheath, the boot block and the reel stay. -/
def keptCounter (off : Nat) : Bool := (0x18D0000 ≤ off && off < 0x18F0000) || (0x10000 ≤ off && off < 0x20000)

/-- The controller keeps its configuration and the state of its channels; what was queued is gone. -/
def Dmc.scrub (m : Dmc) : Dmc := { m with
  ready := false, waiting := [], poison := [], levels := []
  chans := m.chans.map fun e => (e.1, { st := e.2.st, step := e.2.step, bad := e.2.bad, tries := e.2.tries }) }

/-- The reset of R582: as SYS_RST#, but for the sheath, the standby domain, the reel and the host link layers; functions are reset, the L3 is flat and zero, DRAM is to be refilled where it was READY. -/
def Dev.scrubReset (d : Dev) : Dev :=
  let r := d.mainReset
  { r with
    ctr := d.ctr.filter fun e => keptCounter e.1
    out := d.out, reel := d.reel
    hif := { ports := d.hif.ports }
    she := { d.she with sas := [], ops := [], slots := d.she.slots.map fun e => (e.1, { e.2 with refs := 0 }) }
    log := { nonce := d.log.nonce, seq := d.log.seq, archSeq := d.log.seq, anchor := d.log.anchor, newBlock := d.log.newBlock, era := d.log.era, eraOff := d.log.eraOff }
    dmc := d.dmc.scrub
    pwr := { d.pwr with avsFault := false, target := 750, above := 0, off15 := 0 }
    boot := { d.boot with
      gated := true, refill := d.dmc.ready, ranCap := false, capTrial := false, setDone := false, passed := none, fallAt := none
      jnlHold := none, setResult := (0, 0, 0), setBusy := false, flSrc := 0, flLen := 0, result := 0, digest := 0, cap := {}, ringBase := [] } }

/-- A fail or a fallback: the reset of R582, and SCRUB with its status record (R583), which names the image that ran. -/
def Dev.toScrub (reason : Nat) (d : Dev) : Dev :=
  let was := d.boot.digest
  (((d.scrubReset.onBoot fun b => { b with digest := was }).enterBoot .scrub reason).onBoot fun b => { b with digest := 0 })

/-- The machine after a fail or a fallback. -/
def State.toScrub (reason : Nat) (s : State) : State := { s with dev := s.dev.toScrub reason, snaps := [], frozen := none }

/-! ## Failed trials (R571, R588) -/

/-- The directory with a failed trial of a slot counted. -/
def Directory.failSlot (n reason : Nat) (x : Directory) : Directory := { x with
  trial := none, reason
  slots := Map.modify x.slots n {} fun r => { r with count := min 3 (r.count + 1), reason } }

/-- The rejected digests with one more failure of a digest: a full list of 8 loses its entry with the lowest count (R571). -/
def rejectDigest (digest reason : Nat) (l : List TrialRec) : List TrialRec :=
  match l.find? fun r => r.digest == digest with
  | some _ => l.map fun r => if r.digest = digest then { r with count := min 3 (r.count + 1), reason } else r
  | none =>
    let new : TrialRec := { digest, count := 1, reason }
    if l.length < 8 then l ++ [new]
    else
      let low := l.foldl (fun m r => min m r.count) 3
      match l.find? fun r => r.count == low with
      | some r => l.erase r ++ [new]
      | none => l ++ [new]

/-- The directory with a failed trial of a capstan digest counted. -/
def Directory.failCap (digest reason : Nat) (x : Directory) : Directory := { x with
  trial := none, reason, rejected := rejectDigest digest reason x.rejected }

/-- A trial in progress fails: its record in the directory, and BOOT_FALLBACK (R588, R591). -/
def Dev.failTrial (reason : Nat) (d : Dev) : Dev :=
  match d.boot.dir.trial with
  | some (.slot n) => ((d.onBoot fun b => { b with shTrial := false }).onDir (Directory.failSlot n reason)).bump Reg.bootFallback
  | some (.capstan g) => ((d.onBoot fun b => { b with capTrial := false }).onDir (Directory.failCap g reason)).bump Reg.bootFallback
  | none => d

/-- A capstan trial fails (R588): the reset of R582 follows. -/
def State.failCapTrial (reason : Nat) (s : State) : State := (s.onDev (Dev.failTrial reason)).toScrub reason

/-- A sheath slot's trial fails (R583, R588): the status record of the fallback, then a main-domain reset into the previous active slot. -/
def State.failSlotTrial (reason : Nat) (s : State) : State :=
  (s.onDev fun d => ((d.failTrial reason).onBoot fun b => { b with reason }).statusPage).mainReset

end Sys2Proof.Machine
end

