-- ==== Sys2Proof/Machine/Boot.lean ====
section
/-! DEFINITION. Lifecycle tokens (R542 to R545), and boot from the release of reset to open gates (R568 to R583). -/
namespace Sys2Proof.Machine

/-! ## Lifecycle tokens (R542 to R545) -/

/-- An owner key that is valid: key 1 until OWNER0_REVOKED, key 2 once programmed (R543). -/
def Fuses.ownerOk (f : Fuses) (key : Nat) : Bool := (key == 1 && f.owner0 != 0 && !f.revoked0) || (key == 2 && f.owner1 != 0)

/-- The keys that may sign a token (Table 19.2, R545). -/
def Fuses.signerOk (f : Fuses) (t : LcToken) : Bool :=
  match t.kind with
  | .provision => t.signer == 0
  | .lockdown => true
  | .recover | .debug => f.ownerOk t.signer
  | .retire => t.signer == 0 || f.ownerOk t.signer

/-- A token that is not refused AUTH_FAIL (R543); a lockdown request carries no signature (R545). -/
def Dev.tokenOk (t : LcToken) (d : Dev) : Bool :=
  match t.kind with
  | .lockdown => true
  | _ => d.she.fuses.signerOk t && t.sigOk && t.deviceId == d.she.fuses.deviceId && t.nonce == d.she.nonce

/-- A transition's status and effect: its fuses are blown; the state it leads to takes effect at the next sheath reset (R542, R544, R545). -/
def Dev.lcApply (t : LcToken) (d : Dev) : Dev × Nat :=
  let life := d.she.life
  let onFuses (f : Fuses → Fuses) : Dev → Dev := Dev.onShe fun s => { s with fuses := f s.fuses }
  if !d.tokenOk t then (d, stAuthFail)
  else
    match t.kind with
    | .provision =>
      if life ≠ 0 then (d, stBadOperand)
      else if d.she.rng ≠ .ready then (d, stNotReady)
      else
        let g := d.generate 32
        let secret := some (ofLe g.1)
        (g.2.onShe fun s => { s with fuses := { s.fuses with owner0 := t.owner0, policy := t.policy, secured := true, secret } }, stDone)
    | .lockdown =>
      if life ≠ 1 then (d, stBadOperand)
      else ((onFuses Fuses.blowLockdown d).onShe fun s => { s with lockPending := true }, stDone)
    | .recover =>
      if life ≠ 2 then (d, stBadOperand)
      else if 32 ≤ d.she.fuses.recovery then (d, stFull)
      else (onFuses (fun f => { f with recovery := f.recovery + 1 }) d, stDone)
    | .retire =>
      if life = 3 then (d, stBadOperand) else (onFuses (fun f => { f with secret := some (2 ^ 256 - 1), retired := true }) d, stDone)
    | .debug =>
      if 2 ≤ life then (d, stBadOperand)
      else if !bit d.she.policy 2 then (d, stAccessErr)
      else (d.zeroKeys.onShe fun s => { s with debug := true }, stDone)

/-- LC_TOKEN (R545, Table 19.3): the status goes to LC_RESULT. -/
def execLcToken (t : LcToken) (s : State) : Host.Outcome State Fault Refusal :=
  s.run true fun d =>
    let r := d.lcApply t
    r.1.onShe fun s => { s with lcResult := r.2 }

/-! ## The reset input and its release (R541, R546, R600, R605, R614) -/

/-- SYS_RST_ASSERT (R600): for 1 µs or more. -/
def execSysRstAssert (s : State) : Host.Outcome State Fault Refusal :=
  s.runAny true fun s => s.mainReset.onDev (Dev.onPwr fun p => { p with sysRst := true })

/-- The sheath reads the fuses: a LOCKDOWN fuse that is owed is blown first (Table 19.10), the lifecycle is derived, what the standby watch needs is latched; in LOCKDOWN and RETIRED the key store is empty (Table 19.1). -/
def She.readFuses (copiesOk : Bool) (s : She) : She :=
  let fuses := if s.owed then s.fuses.blowLockdown else s.fuses
  let life := fuses.life copiesOk
  { s with
    fuses, life, owed := false, policy := fuses.policy, armed := some (life, bits fuses.policy 8 4)
    slots := if 2 ≤ life then [] else s.slots.filter fun e => e.1 != 0 }

/-- A release is withheld after a thermal trip until SYS_RST# has been asserted and Tj is below 95 °C (R614). -/
def Pwr.mayRelease (tj : Int) (p : Pwr) : Bool := p.good && p.stby && (!p.tripHold || (p.sysRst && tj < 380))

/-- SYS_RST_RELEASE (R541, R568, R600): the straps are sampled and the ROM reads the fuses; `copiesOk` says that the two copies of the fuse fields agree (R546), `tj` is in quarters of a degree. -/
def execSysRstRelease (straps : Nat) (copiesOk : Bool) (tj : Int) (s : State) : Host.Outcome State Fault Refusal :=
  s.runAny (straps < 8) (State.onDev (Dev.when (s.dev.boot.held && s.dev.pwr.mayRelease tj) fun d =>
    ((d.onShe (She.readFuses copiesOk)).onBoot fun b => { b with held := false, st := .rom, straps }).onPwr fun p => { p with tripHold := false, sysRst := false }))

/-! ## Images (R572, R573) -/

/-- Bytes that are all zero. -/
def zeroBytes (bs : List Byte) (off n : Nat) : Bool := ((bs.drop off).take n).all (· == 0)

/-- The header fields the device keeps (Table 20.4). -/
def imgHdr (bs : List Byte) : ImgHdr := { len := field bs 8 4, roll := field bs 12 4, lo := field bs 16 2, hi := field bs 18 2 }

/-- The longest body of a kind (Table 20.4). -/
def maxBody (kind : Nat) : Nat := if kind = 1 then 523776 else if kind = 2 then 130560 else 32505344

/-- R573 step 1: magic, version, kind, length and zero fields. -/
def imgHeaderOk (kind : Nat) (bs : List Byte) : Bool :=
  let h := imgHdr bs
  let cap := (List.range 4).all fun i => field bs (0x128 + 8 * i) 8 % 4096 == 0
  field bs 0 4 == 0x514E494D && field bs 4 2 == 1 && field bs 6 1 == kind && h.len ≤ maxBody kind && h.roll ≤ 64
    && zeroBytes bs 0x14 4 && zeroBytes bs 0x81 63 && zeroBytes bs 0x148 184
    && (if kind = 3 then field bs 0x120 8 % 4096 == 0 && cap else zeroBytes bs 0x120 40)

/-- The key field names a permitted key (R573 step 2). -/
def Fuses.keyOk (f : Fuses) (life kind key : Nat) : Bool :=
  if kind ≤ 2 ∨ (life = 0 ∧ f.owner0 = 0) then key == 0 else f.ownerOk key

/-- The blown fuses of a kind's rollback field (Table 19.4). -/
def Fuses.rollback (f : Fuses) (kind : Nat) : Nat := if kind = 1 then f.rollSheath else if kind = 2 then f.rollStandby else f.rollCap

/-- The reason for which an image is not accepted, 0 for none (R573, Table 20.9); `sig` says whether step 4 is made. -/
def Dev.imgReason (kind : Nat) (bs : List Byte) (chk : ImgChk) (sig : Bool) (d : Dev) : Nat :=
  if !imgHeaderOk kind bs then 0x13
  else if !(d.she.fuses.keyOk d.she.life kind (field bs 7 1) && chk.keyOk) then 0x11
  else if (imgHdr bs).roll < d.she.fuses.rollback kind then 0x12
  else if sig && !chk.sigOk then 0x10
  else 0

/-! ## The sheath stage (R570, R571, R574 to R577) -/

/-- The 512 bytes of header at the start of a flash area. -/
def Dev.flashHeader (area : Nat) (d : Dev) : List Byte := Memory.readBytes d.boot.flash (areaBase area) 512

/-- The reason for which a slot's images are not accepted, the sheath image first (R574). -/
def Dev.slotReason (n : Nat) (c : SlotChk) (d : Dev) : Nat :=
  let r := d.imgReason 1 (d.flashHeader (1 + n)) c.sheath true
  if r ≠ 0 then r else d.imgReason 2 (d.flashHeader (3 + n)) c.standby true

/-- A slot's record for the pair of images found in it (R571): one of another digest is a new one. -/
def slotRec (m : Map TrialRec) (n pair : Nat) : TrialRec :=
  let r := Map.getD m n {}
  if r.digest = pair then r else { digest := pair }

/-- RECOVERY (R575): HP0 alone, with one function. -/
def Dev.enterRecovery (reason : Nat) (d : Dev) : Dev :=
  (d.onBoot fun b => { b with st := .recovery, reason }).onHp 0 fun h => { h with fnCount := 1, fnNext := 1, released := true }

/-- The hand-over to sheath firmware (R548, R576, R596): slot 0 is derived unless in LOCKDOWN or RETIRED, the root-key registers are locked, the timers of the sheath start. -/
def Dev.handOver (d : Dev) : Dev :=
  let d := d.onShe fun s => { s with
    slots := match if s.keysLocked then none else s.fuses.secret with
      | some k => if s.life ≤ 1 then Map.put s.slots 0 { usage := 1, expo := false, origin := 2, owner := 0, key := Config.deriveKey k } else s.slots
      | none => s.slots
    keysLocked := true }
  (d.onPwr fun p => { p with avs := true, nextAvs := d.turn + 64 }).onBoot fun b => { b with st := .sheathInit, reason := 0, trialAt := d.pclk }

/-- The images of slot n run (R574, R576, R587), on trial or not. -/
def Dev.runSlot (n : Nat) (trial : Bool) (d : Dev) : Dev :=
  let sheath := imgHdr (d.flashHeader (1 + n))
  let standby := imgHdr (d.flashHeader (3 + n))
  (((d.onShe fun s => { s with manager := true }).onBoot fun b => { b with
    slot := n, sheath, standby, shTrial := trial }).onDir fun x => { x with trial := if trial then some (.slot n) else x.trial }).handOver

/-- The directory read at a boot: a trial that was cut off has failed (R588). -/
def Dev.interrupted (d : Dev) : Dev := d.failTrial 0x03

/-- FORCE_RECOVERY in force (Table 20.1). -/
def Dev.forced (d : Dev) : Bool := bit d.boot.straps 1 && d.she.life ≤ 1

/-- FLASH_LOAD without a trial (R574): the active slot, else the other one unless its trial has failed (R588), else RECOVERY. -/
def Dev.loadActive (chk : Nat → SlotChk) (d : Dev) : Dev :=
  let act := d.boot.dir.active
  let r := d.slotReason act (chk act)
  if r = 0 then d.runSlot act false
  else
    let d := d.onDir fun x => { x with slots := Map.modify x.slots act {} fun x => { x with reason := r } }
    let other := 1 - act
    let barred := 0 < (Map.getD d.boot.dir.slots other {}).count
    let q := d.slotReason other (chk other)
    if q = 0 ∧ !barred then d.runSlot other false
    else (d.onDir fun x => { x with slots := Map.modify x.slots other {} fun x => { x with reason := if q = 0 then x.reason else q } }).enterRecovery 0x15

/-- FLASH_LOAD (R574, R587, R588): `a` and `b` are what the ROM finds of the slots' images. -/
def execFlashLoad (a b : SlotChk) (s : State) : Host.Outcome State Fault Refusal :=
  s.runState true fun s =>
    let chk (n : Nat) : SlotChk := if n = 0 then a else b
    if s.dev.boot.st ≠ .rom then s
    else
      let d := (s.dev.interrupted.onBoot fun x => { x with st := .flashLoad }).onDir fun x => { x with
        slots := [(0, slotRec x.slots 0 a.pair), (1, slotRec x.slots 1 b.pair)] }
      let s := { s with dev := d }
      if d.forced then { s with dev := d.enterRecovery 0 }
      else
        match d.boot.selected with
        | none => { s with dev := d.loadActive chk }
        | some n =>
          let d := (d.onBoot fun x => { x with selected := none }).onDir fun x => { x with trial := some (.slot n) }
          let r := d.slotReason n (chk n)
          if r = 0 then { s with dev := d.runSlot n true } else ({ s with dev := d } : State).failSlotTrial r

/-! ## SHEATH_INIT (R577, R586, R587) -/

/-- The record in force of a type and number (R584): the one with the highest sequence. -/
def Journal.inForce (j : Journal) (kind inst : Nat) : Option SetRec :=
  (j.recs.filter fun r => r.kind == kind && r.inst == inst).foldl
    (fun (a : Option SetRec) r =>
      match a with
      | none => some r
      | some x => if x.seq ≤ r.seq then some r else some x) none

/-- Every record in force, in journal order. -/
def Journal.allInForce (j : Journal) : List SetRec := j.recs.filter fun r => j.inForce r.kind r.inst == some r

/-- Types sheath firmware reads (Table 20.7). -/
def sheathType (kind : Nat) : Bool := kind == 4 || kind == 6 || kind == 8

/-- Types capstan firmware reads (Table 20.7). -/
def capType (kind : Nat) : Bool := kind == 1 || kind == 2 || kind == 3 || kind == 5 || kind == 7 || (0x8000 ≤ kind && kind < 0x10000)

/-- A read is compatible (R586). -/
def Journal.fits (j : Journal) (p : Nat → Bool) (h : ImgHdr) : Bool :=
  j.allInForce.all fun r => !p r.kind || (h.lo ≤ r.schema && r.schema ≤ h.hi)

/-- The function count of a host port (Table 20.7): 1 where the record is absent or names none of 1 to 8. -/
def portFns (r : Option SetRec) (n : Nat) : Nat :=
  match r with
  | some x => let c := bits (ofLe x.body) (4 * n) 4; if 1 ≤ c ∧ c ≤ 8 then c else 1
  | none => 1

/-- A sheath slot's trial commits itself (R587). -/
def Dev.commitSlot (d : Dev) : Dev :=
  ((d.onBoot fun b => { b with shTrial := false }).onDir fun x => { x with
    active := d.boot.slot, trial := none, slots := Map.modify x.slots d.boot.slot {} fun r => { r with count := 0 } }).onShe fun s =>
      { s with fuses := { s.fuses with
        rollSheath := max s.fuses.rollSheath d.boot.sheath.roll, rollStandby := max s.fuses.rollStandby d.boot.standby.roll } }

/-- The steps of R577, with the settings read or, where they cannot be read, none. -/
def Dev.sheathSteps (ok : Bool) (dram : Option DramRecord) (d : Dev) : Dev :=
  let fns := if ok then d.boot.jnl.inForce 8 0 else none
  let d := (List.range 4).foldl (fun d n => d.onHp n fun h => { h with
    fnCount := portFns fns n, fnNext := portFns fns n, manager := bit d.she.policy (3 + n), released := true }) d
  let d := match if ok && (d.boot.jnl.inForce 6 0).isSome then dram else none with
    | some r => d.startTraining false r.rate r.k r.masks r.ports
    | none => d.startTraining true 0 8 defaultMasks (List.replicate 5 (0, 1048576))
  d.onBoot fun b => { b with st := .waitPush }

/-- SHEATH_INIT (R577, R586 to R588): `dram` is what the DRAM record, if there is one, says (Table 18.7). -/
def execSheathInit (dram : Option DramRecord) (s : State) : Host.Outcome State Fault Refusal :=
  s.runState true fun s =>
    if s.dev.boot.st ≠ .sheathInit then s
    else
      let ok := s.dev.boot.jnl.fits sheathType s.dev.boot.sheath
      if s.dev.boot.shTrial && !ok then s.failSlotTrial 0x01
      else s.onDev fun d => (if d.boot.shTrial then d.commitSlot else d).sheathSteps ok dram

/-! ## The push (R575, R578, R579) -/

/-- A ring base of a capstan header lies in the final MiB of the flat region (R578). -/
def ringBaseOk (a : Nat) : Bool := 0x11F00000 ≤ a && a < 0x12000000

/-- The four ring bases of a capstan header (Table 20.4). -/
def ringBases (bs : List Byte) : List Nat := (List.range 4).map fun i => field bs (0x128 + 8 * i) 8

/-- The reason for which a release in WAIT_PUSH fails, 0 for none (R573 steps 1 to 3, R578, R588, Table 19.1). -/
def Dev.pushReason (bs : List Byte) (chk : ImgChk) (d : Dev) : Nat :=
  if 2 ≤ d.she.life then 0x16
  else
    let r := d.imgReason 3 bs chk false
    if r ≠ 0 then r
    else if !(ringBases bs).all ringBaseOk then 0x13
    else if d.boot.dir.rejected.any fun x => x.digest == chk.digest && 3 ≤ x.count then 0x14
    else 0

/-- A queue pair R579 binds: depth 64, weight 1, burst 64, moderation count 1, timer 0, slice 0, capstan core 0. -/
def bootQp (kind sq cq word5 : Nat) : Qp :=
  { st := .active, kind, capstan := true, sqBase := sq, cqBase := cq, sqDepth := 64, cqDepth := 64, weight := 1, burst := 64, modCount := 1
    word5 := BitVec.ofNat 64 word5 }

/-- A release that passes its checks (R579): VERIFY, the cores run, the bootstrap queue pairs are bound; a digest that is not the committed one is on trial (R587). -/
def Dev.released (who : Nat) (bs : List Byte) (chk : ImgChk) (d : Dev) : Dev :=
  let ring := ringBases bs
  let trial := chk.digest != d.boot.dir.committed
  let d := d.onBoot fun b => { b with
    st := .verify, reason := 0, pushed := true, cap := imgHdr bs, ranCap := true, ringBase := ring, capTrial := trial, setDone := false
    trialAt := d.pclk, passed := none, page := some (who, field bs 0x120 8), relNs := d.ns, digest := chk.digest }
  let d := d.onDir fun x => { x with trial := if trial then some (.capstan chk.digest) else x.trial }
  let d := (List.range 32).foldl (fun d c => d.onCore c fun x => { x with running := true }) d
  (d.onQp 0 fun _ => bootQp 4 (ring.getD 0 0) (ring.getD 1 0) 0).onQp 1 fun _ =>
    { bootQp 5 (ring.getD 2 0) (ring.getD 3 0) 0x11 with logPos := d.logHead }

/-- HOLD applies in MANUFACTURE only (Table 20.1). -/
def Dev.onHold (d : Dev) : Bool := bit d.boot.straps 2 && d.she.life == 0

/-- BOOT_RELEASE (R575, R579): a write of `size` bytes; anything but an aligned 8-byte write, another state, or a writer without the global window is an access error. -/
def execBootRelease (who size : Nat) (chk : ImgChk) (s : State) : Host.Outcome State Fault Refusal :=
  s.run (who < 64 && 1 ≤ size && size ≤ 8) fun d =>
    let open' := d.boot.st == .waitPush || d.boot.st == .recovery
    if 32 ≤ who || !d.hasGlobal who || size != 8 || !open' || d.onHold then d.accessErr who 0 Reg.bootRelease true
    else
      let bs := Memory.readBytes d.mem.flat 0 512
      if d.boot.st = .recovery then
        let r := d.imgReason 1 bs chk true
        if r ≠ 0 then d.onBoot fun b => { b with reason := r }
        else (d.onBoot fun b => { b with sheath := imgHdr bs, standby := {}, shTrial := false, relNs := d.ns }).handOver
      else
        let r := d.pushReason bs chk
        if r ≠ 0 then d.onBoot fun b => { b with reason := r } else d.released who bs chk

/-! ## The verdict and the gates (R581, R582, R588) -/

/-- BOOT_VERIFY_VERDICT (R581): (512 + body) ÷ 10^10 s and 1.2 ms after the release. A fail is no failed trial. -/
def execBootVerifyVerdict (good : Bool) (s : State) : Host.Outcome State Fault Refusal :=
  s.runState true fun s =>
    let b := s.dev.boot
    if b.st ≠ .verify ∨ b.passed.isSome then s
    else
      let s := s.onDev fun d =>
        let d := d.dueNsH (b.relNs + ceilDiv (512 + b.cap.len) 10 + 1200000)
        d.onBoot fun b => { b with verNs := d.ns }
      if good then s.onDev fun d => d.onBoot fun b => { b with passed := some (d.turn + 1) }
      else (s.onDev fun d => (d.onDir fun x => { x with trial := none }).bump Reg.bootFail).toScrub 0x10

/-- GATES_OPEN (R581): at the next turn boundary after a pass. -/
def execGatesOpen (s : State) : Host.Outcome State Fault Refusal :=
  s.run true fun d =>
    match d.boot.passed with
    | none => d
    | some t => d.when (d.boot.st == .verify) fun d => ((d.dueNsH (t * 1024)).onBoot fun b => { b with gated := false, passed := none }).enterBoot .opened 0

/-- BOOT_SCRUB_DONE (R582): the window awaits a new push. -/
def execBootScrubDone (s : State) : Host.Outcome State Fault Refusal :=
  s.run true fun d =>
    d.when (d.boot.st == .scrub) fun d =>
      let d := if d.boot.refill then (d.onDmc fun m => { m with ready := true }).moveLog else d
      d.onBoot fun b => { b with st := .waitPush, refill := false }

/-- TRIAL_TIMEOUT (R588): 60 s of the sheath's timer, 2.4 GHz edges, after the hand-over or the release. -/
def execTrialTimeout (s : State) : Host.Outcome State Fault Refusal :=
  s.runState true fun s =>
    let b := s.dev.boot
    if !b.shTrial && !b.capTrial then s
    else
      let s := s.onDev (Dev.due (b.trialAt + 144000000000))
      if b.capTrial then s.failCapTrial 0x02 else s.failSlotTrial 0x02

end Sys2Proof.Machine
end

