-- ==== Sys2Proof/Machine/Settings.lean ====
section
/-! DEFINITION. The sheath mailbox requests of Table 20.8, the settings journal, flash writes, and FALLBACK (R584 to R590). -/
namespace Sys2Proof.Machine

/-! ## The journal (R584 to R586) -/

/-- Bytes of a record: a header of 16 and its body. -/
def SetRec.size (r : SetRec) : Nat := 16 + r.body.length

/-- Bytes of a half in use, its seal among them. -/
def Journal.used (j : Journal) : Nat := 64 + (j.recs.map SetRec.size).sum

/-- A half has room for n bytes more. -/
def Journal.room (j : Journal) (n : Nat) : Bool := j.used + n ≤ 0x200000

/-- A record as bytes (R584): the CRC-32 covers header and body with its own field as 0. -/
def SetRec.bytes (r : SetRec) : List Byte :=
  let w0 := le 2 r.kind ++ le 2 r.schema ++ le 2 r.body.length ++ le 2 r.inst
  let crc := crc32 (w0 ++ le 4 r.seq ++ le 4 0 ++ r.body)
  w0 ++ le 4 r.seq ++ le 4 crc ++ r.body

/-- The record bytes spell; its sequence is given when it is appended. -/
def recOf (bs : List Byte) : SetRec :=
  { kind := field bs 0 2, schema := field bs 2 2, inst := field bs 6 2, seq := 0, body := (bs.drop 16).take (field bs 4 2) }

/-- Append a record with the next sequence. -/
def Journal.append (r : SetRec) (j : Journal) : Journal := { j with recs := j.recs ++ [{ r with seq := j.next }], next := j.next + 1 }

/-- The result of a settings request: status, records, bytes. -/
def Dev.setDoneWith (st recs n : Nat) : Dev → Dev := Dev.onBoot fun b => { b with setResult := (st, recs, n), setBusy := false }

/-- A request of Table 20.8 by a core: GATED while the gates are closed (R580). -/
def Dev.mailbox (c : Nat) (gatedTo : Dev → Dev) (f : Dev → Dev) : Dev → Dev :=
  Dev.retire c true fun _ d => if d.boot.gated then gatedTo d else f d

/-- A settings request is ignored while one is BUSY (R590). -/
def Dev.settings (c : Nat) (f : Dev → Dev) : Dev → Dev :=
  Dev.retire c true fun _ d => if d.boot.setBusy then d else if d.boot.gated then d.setDoneWith stGated 0 0 else f d

/-- SET_READ (R586 to R588): an incompatible read writes nothing, and fails the capstan trial that made it. -/
def execSetRead (c addr : Nat) (s : State) : Host.Outcome State Fault Refusal :=
  s.runState (c < 32 && addr < 2 ^ 64) fun s =>
    let fits := s.dev.boot.jnl.fits capType s.dev.boot.cap
    let s' := s.onDev (Dev.settings c fun d =>
      if addr % 8 != 0 then d.setDoneWith stBadOperand 0 0
      else if !fits then d.setDoneWith stIncompatible 0 0
      else
        let recs := d.boot.jnl.allInForce
        let bs := (recs.map SetRec.bytes).flatten
        ((d.physWrite addr bs).setDoneWith stDone recs.length bs.length).onBoot fun b => { b with setDone := true })
    let ran := s.dev.coreReady c && !s.dev.boot.gated && !s.dev.boot.setBusy && addr % 8 == 0
    if ran && !fits && s.dev.boot.capTrial then s'.failCapTrial 0x01 else s'

/-- SET_APPEND (R584, R585, R587): one that finds the half full waits for a compaction. -/
def execSetAppend (c addr : Nat) (s : State) : Host.Outcome State Fault Refusal :=
  s.run (c < 32 && addr < 2 ^ 64) (Dev.settings c fun d =>
    let len := field (d.physRead addr 16) 4 2
    let r := recOf (d.physRead addr (16 + len))
    if d.boot.capTrial || d.boot.shTrial then d.setDoneWith stAccessErr 0 0
    else if !(sheathType r.kind || capType r.kind) || 4080 < len then d.setDoneWith stBadOperand 0 0
    else if d.boot.jnl.room r.size then (d.onBoot fun b => { b with jnl := b.jnl.append r }).setDoneWith stDone 1 r.size
    else (d.onBoot fun b => { b with jnlHold := some r.bytes, setBusy := true }).deviceAsk 0x41 0)

/-- The half after a compaction: the records in force, the seal's generation one higher. -/
def Journal.compact (j : Journal) : Journal := { j with gen := j.gen + 1, half := 1 - j.half, recs := j.allInForce }

/-- JOURNAL_COMPACT (R585, R587): held on a trial; an append that waits for it is then made, or FULL. -/
def execJournalCompact (s : State) : Host.Outcome State Fault Refusal :=
  s.run true fun d =>
    d.when (!d.boot.capTrial && !d.boot.shTrial) (Dev.act 0x41 0 0 0 fun _ d =>
      let d := d.onBoot fun b => { b with jnl := b.jnl.compact }
      match d.boot.jnlHold with
      | none => d
      | some bs =>
        let r := recOf bs
        let d := d.onBoot fun b => { b with jnlHold := none }
        if d.boot.jnl.room r.size then (d.onBoot fun b => { b with jnl := b.jnl.append r }).setDoneWith stDone 1 r.size
        else d.setDoneWith stFull 0 0)

/-! ## Commit and select (R587, R588, R590) -/

/-- BOOT_RESULT. -/
def Dev.bootResult (st : Nat) : Dev → Dev := Dev.onBoot fun b => { b with result := st }

/-- BOOT_COMMIT (R587): the digest is committed, its failures forgotten, rollback fuses blown. -/
def execBootCommit (c : Nat) (s : State) : Host.Outcome State Fault Refusal :=
  s.run (c < 32) (Dev.mailbox c (Dev.bootResult stGated) fun d =>
    if !d.boot.capTrial then d.bootResult stNotFound
    else if !d.boot.setDone then d.bootResult stNotReady
    else
      let d := d.onShe fun s => { s with fuses := { s.fuses with rollCap := max s.fuses.rollCap d.boot.cap.roll } }
      ((d.onBoot fun b => { b with capTrial := false }).onDir fun x => { x with
        committed := d.boot.digest, trial := none, rejected := x.rejected.filter fun r => r.digest != d.boot.digest }).bootResult stDone)

/-- BOOT_SELECT (R587, R588, R590): not on trial, not a slot that has failed three times. -/
def execBootSelect (c v : Nat) (s : State) : Host.Outcome State Fault Refusal :=
  s.run (c < 32 && v < 2 ^ 64) (Dev.mailbox c (Dev.bootResult stGated) fun d =>
    if d.boot.capTrial || d.boot.shTrial || 2 ≤ v || 3 ≤ (Map.getD d.boot.dir.slots v {}).count then d.bootResult stBadOperand
    else (d.onBoot fun b => { b with selected := some v }).bootResult stDone)

/-! ## Flash (R571, R590) -/

/-- FLASH_WRITE (R590): the area is erased, then FL_LEN bytes from FL_SRC stand at its start; a slot's record belongs to the images it had. -/
def execFlashWrite (area : Nat) (s : State) : Host.Outcome State Fault Refusal :=
  s.run (area < 16) (Dev.act 0x40 area 0 0 fun _ d =>
    d.when (d.boot.areaOk area) fun d =>
      let base := areaBase area
      let bs := d.physRead d.boot.flSrc d.boot.flLen
      (d.onBoot fun b => { b with
        flash := Memory.writeBytes (b.flash.filter fun e => e.1 < base || base + areaSize area ≤ e.1) base bs }).onDir fun x => { x with
        slots := if area ≤ 4 then Map.del x.slots ((area - 1) % 2) else x.slots })

/-! ## FALLBACK (R589) -/

/-- FALLBACK: its record is written and no completion; the trial fails at the next turn boundary. -/
def execFallback (p : Nat) (s : State) : Host.Outcome State Fault Refusal :=
  s.run true (Dev.runIns p (fun i => i.op == 0x38) fun x i d =>
    if i.a != 0 || i.len != 1 || (d.qp x.qp).slice != 0 || !(i.field == 1 || (0x80 ≤ i.field && i.field ≤ 0xFF)) then .done stBadOperand d 0
    else if !d.boot.capTrial then .done stNotFound d 0
    else
      let d := d.onBoot fun b => { b with fallAt := some (d.turn + 1, i.field) }
      .wait (d.logIns x i stDone (d.nsAt (d.seqFrom + 2 * i.cost))) .fallback none)

end Sys2Proof.Machine
end

