-- ==== Sys2Proof/Machine/Power.lean ====
section
/-! DEFINITION. Power, reference clocks and temperature (R592 to R616). -/
namespace Sys2Proof.Machine

/-! ## Supplies (R600, R602, R603, R605, R614) -/

/-- The main domain goes down (R602): the reel time is latched in standby, and it is held in reset. -/
def State.mainDown (s : State) : State := (s.onDev (Dev.onShe fun x => { x with holdNs := s.dev.ns })).mainReset

/-- PWR_GOOD_FALL (R602, R603). -/
def execPwrGoodFall (s : State) : Host.Outcome State Fault Refusal :=
  s.runAny true fun s => if s.dev.pwr.good then s.mainDown.onDev (Dev.onPwr fun p => { p with good := false }) else s

/-- PWR_GOOD_RISE (R600): while the standby rails are up. -/
def execPwrGoodRise (s : State) : Host.Outcome State Fault Refusal :=
  s.runAny true (State.onDev fun d => d.when d.pwr.stby (Dev.onPwr fun p => { p with good := true }))

/-- The key store and the standby SRAM are empty (R566, R605): the log, the watch, what was owed, the standby manager, PWR_TRIP (R616). -/
def Dev.standbyEmpty (d : Dev) : Dev :=
  (d.zeroKeys.onShe fun s => { s with log := [], logHead := 0, armed := none, owed := false, manager := false, holdNs := 0 }).onPwr fun p =>
    { p with trip := none, tripHold := false }

/-- STANDBY_POWER_UP (R605). -/
def execStandbyPowerUp (s : State) : Host.Outcome State Fault Refusal :=
  s.runAny true (State.onDev fun d => d.when (!d.pwr.stby) fun d => d.standbyEmpty.onPwr fun p => { p with stby := true })

/-- STANDBY_POWER_LOSS (R566, R601): the standby rails go last. -/
def execStandbyPowerLoss (s : State) : Host.Outcome State Fault Refusal :=
  s.runAny true (State.onDev fun d => d.when (d.pwr.stby && !d.pwr.good) fun d =>
    (d.standbyEmpty.onShe fun s => { s with stbyLost := true }).onPwr fun p => { p with stby := false })

/-- THERMAL_TRIP (R614): as a fall of PWR_GOOD; the release waits for SYS_RST# and a lower temperature. -/
def execThermalTrip (sensor : Nat) (s : State) : Host.Outcome State Fault Refusal :=
  s.runState (sensor < 64) fun s =>
    s.mainDown.onDev (Dev.onPwr fun p => { p with trip := some sensor, tripHold := true, sysRst := false })

/-! ## Rails and telemetry (R594 to R598) -/

/-- RAIL_EXCURSION (R594): a main rail, once per excursion. -/
def execRailExcursion (rail : Nat) (s : State) : Host.Outcome State Fault Refusal :=
  s.runAny (rail < 7) (State.onDev fun d =>
    d.when (!d.pwr.rails.contains rail) fun d => (d.onPwr fun p => { p with rails := p.rails ++ [rail] }).bumpIf (!d.boot.held) Reg.pwrRailFault)

/-- RAIL_EXCURSION_END (R594). -/
def execRailExcursionEnd (rail : Nat) (s : State) : Host.Outcome State Fault Refusal :=
  s.runAny (rail < 7) (State.onDev (Dev.onPwr fun p => { p with rails := p.rails.filter (· != rail) }))

/-- AVS_FAULT is set, once per fault (R597). -/
def Dev.avsFails (d : Dev) : Dev := d.when (!d.pwr.avsFault) fun d => (d.onPwr fun p => { p with avsFault := true }).bump Reg.pwrAvsErr

/-- The target moves to a value within 0.65 to 0.85 V; the AVSBus transaction may fail (R596, R597). -/
def Dev.retarget (mv : Nat) (err : Bool) (d : Dev) : Dev :=
  let v := max 650 (min 850 mv)
  if v = d.pwr.target then d
  else
    let d := (d.onPwr fun p => { p with target := v }).bump Reg.pwrAvsStep
    if err then d.avsFails else d

/-- AVS_EVALUATION (R596): `below` says the worst margin is below its threshold, `above` that it is above threshold and hysteresis. -/
def execAvsEvaluation (below above err : Bool) (s : State) : Host.Outcome State Fault Refusal :=
  s.run true fun d =>
    d.when (d.pwr.avs && d.pwr.nextAvs ≤ d.reel.served) fun d =>
      let d := d.onPwr fun p => { p with nextAvs := p.nextAvs + 64 }
      if d.pwr.avsFault then d
      else if below then (d.onPwr fun p => { p with above := 0 }).retarget (d.pwr.target + 5) err
      else if !above then d.onPwr fun p => { p with above := 0 }
      else if 16 ≤ d.pwr.above + 1 then (d.onPwr fun p => { p with above := 0 }).retarget (d.pwr.target - 5) err
      else d.onPwr fun p => { p with above := p.above + 1 }

/-- PMB_ALERT (R598): the STATUS_WORD of every regulator, 0 where none answers (R595). -/
def execPmbAlert (words : List Nat) (s : State) : Host.Outcome State Fault Refusal :=
  s.run (words.length == 9 && words.all (· < 65536)) fun d =>
    (d.onPwr fun p => { p with railS := words.zipIdx.map fun e => (e.2, e.1) }).bump Reg.pwrPmbAlert

/-- TELEMETRY_POLL (R595, R597, R598): voltage, current and status of each rail; three polls in a row more than 15 mV off the target are an AVS fault. -/
def execTelemetryPoll (regs : List (Option (Nat × Nat × Nat))) (s : State) : Host.Outcome State Fault Refusal :=
  s.run (regs.length == 9) fun d =>
    d.when (d.pwr.nextPoll ≤ d.reel.served) fun d =>
      let col (f : Nat × Nat × Nat → Nat) : Map Nat := regs.zipIdx.map fun e => (e.2, (e.1.map f).getD 0)
      let d := d.onPwr fun p => { p with nextPoll := p.nextPoll + 4096, railV := col (·.1), railI := col (·.2.1), railS := col (·.2.2) }
      match (regs[0]?).join with
      | none => d
      | some r =>
        let off := 15 < ((r.1 : Int) - (d.pwr.target : Int)).natAbs
        let d := d.onPwr fun p => { p with readback := r.1 % 4096, off15 := if off then p.off15 + 1 else 0 }
        if 3 ≤ d.pwr.off15 then d.avsFails else d

/-! ## Reference clocks (R56, R609) -/

/-- The lost references of a kind: 0 REFCLK_PL, 1 HP_REFCLK, 2 SP_REFCLK. -/
def Pwr.lost (kind : Nat) (p : Pwr) : Nat := if kind = 0 then p.plLost else if kind = 1 then p.hpLost else p.spLost

/-- Set the lost references of a kind. -/
def Pwr.setLost (kind v : Nat) (p : Pwr) : Pwr :=
  if kind = 0 then { p with plLost := v } else if kind = 1 then { p with hpLost := v } else { p with spLost := v }

/-- A port loses its link with its reference (R252, R360). -/
def Dev.refDown (p : Nat) (d : Dev) : Dev :=
  if !(d.port p).link then d
  else if (d.port p).braid then (if (d.link p).st = .down ∨ (d.link p).lost then d else d.linkLoss p)
  else (d.onPort p fun f => { f with link := false }).portGone p

/-- What the loss of a reference takes down (R609). -/
def Dev.refLoss (kind n : Nat) (d : Dev) : Dev :=
  match kind with
  | 0 => ((d.path.ports.map (·.1)).filter fun p => p / 32 == n).foldl (fun d p => d.refDown p) d
  | 1 => if (d.hp n).link = .down then d else (d.hpDown n).resetPort n
  | _ => d

/-- A reference the device watches: not REFCLK_PL[7:4] of the QN9224-F (Table 0.1), nor that of a host port held in reset by PERST# (R629). -/
def Dev.watched (kind n : Nat) (d : Dev) : Bool :=
  !(kind == 0 && d.variant24 && 4 ≤ n) && !(kind == 1 && (d.hp n).perst)

/-- REFCLK_LOSS (R609). -/
def execRefclkLoss (kind n : Nat) (s : State) : Host.Outcome State Fault Refusal :=
  s.runAny (kind < 3 && n < 8 && (kind == 0 || n < 4)) (State.onDev fun d =>
    d.when (!bit (d.pwr.lost kind) n && d.watched kind n) fun d =>
      let d := d.onPwr fun p => p.setLost kind (p.lost kind + 2 ^ n)
      if d.boot.held then d else (d.refLoss kind n).bump Reg.pwrRefLost)

/-- REFCLK_RETURN (R54, R609): kind 3 is TREF10M_IN, whose candidates are present again. -/
def execRefclkReturn (kind n : Nat) (s : State) : Host.Outcome State Fault Refusal :=
  s.runAny (kind < 4 && n < 8 && (kind == 0 || n < 4)) (State.onDev fun d =>
    if kind = 3 then d.when (!d.boot.held && d.reel.trefLost) fun d => (d.onReel fun r => { r with trefLost := false }).pickFreq
    else d.when (bit (d.pwr.lost kind) n) (Dev.onPwr fun p => p.setLost kind (p.lost kind - 2 ^ n)))

/-- TREF10M_IN_LOSS (R54, R609): its candidates are no longer present. -/
def execTref10mInLoss (s : State) : Host.Outcome State Fault Refusal :=
  s.run true fun d => (d.onReel fun r => { r with trefLost := true }).pickFreq

end Sys2Proof.Machine
end

