-- ==== Sys2Proof/Machine/Clock.lean ====
section
/-! DEFINITION. The turn boundary as a command (R72), with what falls on it outside the packet path: slices, temperatures
(R613, R614), a FALLBACK that is due (R589); and the scheduled reset of a node (R368). -/
namespace Sys2Proof.Machine

/-- Tj: the reading of the hottest sensor, in quarters of a degree (R613). -/
def hottest (ts : List Int) : Int := ts.foldl max (ts.headD 0)

/-- The temperatures read at the boundary: THERM_HIGH from 105 °C until below 102 °C, its entries counted, COLD below −5 °C (R614). -/
def Dev.readTemps (ts : List Int) (d : Dev) : Dev :=
  if ts = [] then d
  else
    let tj := hottest ts
    let high := if d.pwr.high then 408 ≤ tj else 420 ≤ tj
    (d.bumpIf (high && !d.pwr.high) Reg.pwrThermHigh).onPwr fun p => { p with temps := ts, high, cold := tj < -20 }

/-- A FALLBACK that is due fails its trial (R588, R589). -/
def State.fallbackDue (s : State) : State :=
  match s.dev.boot.fallAt with
  | some (t, reason) => if t ≤ s.dev.reel.served then s.failCapTrial reason else s
  | none => s

/-- Everything scheduled for the boundaries reached so far has taken effect: SNAPs, waits, slots, timers, and AT programs that find a place (R40, R63, R72). -/
def Dev.settled (d : Dev) : Bool :=
  let t := d.reel.served
  d.reached t && d.slotOver t && d.timersOver t
    && (16 ≤ d.spl.progs.length || d.spl.atList.all fun x => t < x.turn.getD 0)

/-- The device as it stands at a boundary with SNAPs to capture is kept for them (R148, R635). -/
def State.freeze (s : State) : State := { s with frozen := if s.dev.dueSnap.isSome then some s.dev else none }

/-- TURN_BOUNDARY (R72, R613): the next turn boundary whose effects have not taken place, once those of the last one have; `temps` is what the sensors read, empty where they are not sampled. -/
def execTurnBoundary (temps : List Int) (s : State) : Host.Outcome State Fault Refusal :=
  s.runState (temps.length ≤ 64) fun s =>
    if !s.dev.settled then s
    else
      let s := (s.onDev fun d => (d.boundary.markSlot.sliceBoundary).readTemps temps).freeze
      s.fallbackDue

/-- GLOBAL_RESET (R368): a targeted node resets its main domain at its group's turn. -/
def execGlobalReset (target : Nat) (s : State) : Host.Outcome State Fault Refusal :=
  s.runState true fun s =>
    match s.dev.brd.resets.find? fun e => e.1 == target with
    | none => s
    | some e => (s.onDev fun d => d.dueNs ((e.2 + (d.brd.node - 1) / 256) * 1024)).mainReset

end Sys2Proof.Machine
end

