-- ==== Sys2Proof/Machine/Dispatch.lean ====
section
/-! DEFINITION. The dispatch: one arm per command, each one call of its meaning. -/
namespace Sys2Proof.Machine

/-- The effect of a command on everything but the queue. -/
def exec (i : Instr) (s : State) : Host.Outcome State Fault Refusal :=
  match i with
  | .spliceProgramAccept words => Sys2Proof.Machine.execSpliceProgramAccept words s
  | .atProgramStart => Sys2Proof.Machine.execAtProgramStart s
  | .spliceProgramResume p => Sys2Proof.Machine.execSpliceProgramResume p s
  | .tset p => Sys2Proof.Machine.execTset p s
  | .tdel p => Sys2Proof.Machine.execTdel p s
  | .shadeopen p => Sys2Proof.Machine.execShadeopen p s
  | .tcommit p => Sys2Proof.Machine.execTcommit p s
  | .tcommitFabric p => Sys2Proof.Machine.execTcommitFabric p s
  | .shaderetire p => Sys2Proof.Machine.execShaderetire p s
  | .shaderetireDrainDone p => Sys2Proof.Machine.execShaderetireDrainDone p s
  | .portset p => Sys2Proof.Machine.execPortset p s
  | .qset p => Sys2Proof.Machine.execQset p s
  | .shape p => Sys2Proof.Machine.execShape p s
  | .polset p => Sys2Proof.Machine.execPolset p s
  | .mcset p => Sys2Proof.Machine.execMcset p s
  | .progload p img => Sys2Proof.Machine.execProgload p img s
  | .snap p => Sys2Proof.Machine.execSnap p s
  | .snapFabric p => Sys2Proof.Machine.execSnapFabric p s
  | .calRun p => Sys2Proof.Machine.execCalRun p s
  | .calSetPeriod p => Sys2Proof.Machine.execCalSetPeriod p s
  | .calSuspend p => Sys2Proof.Machine.execCalSuspend p s
  | .calResume p => Sys2Proof.Machine.execCalResume p s
  | .reelsrc p => Sys2Proof.Machine.execReelsrc p s
  | .fence p => Sys2Proof.Machine.execFence p s
  | .fenceClear p => Sys2Proof.Machine.execFenceClear p s
  | .fenceDrainDone p => Sys2Proof.Machine.execFenceDrainDone p s
  | .fenceReset p => Sys2Proof.Machine.execFenceReset p s
  | .waitturn p => Sys2Proof.Machine.execWaitturn p s
  | .waitturnDone p => Sys2Proof.Machine.execWaitturnDone p s
  | .barrier p => Sys2Proof.Machine.execBarrier p s
  | .barrierFabric p => Sys2Proof.Machine.execBarrierFabric p s
  | .barrierComplete p => Sys2Proof.Machine.execBarrierComplete p s
  | .joinSelf p => Sys2Proof.Machine.execJoinSelf p s
  | .joinNode p => Sys2Proof.Machine.execJoinNode p s
  | .joinKnot p => Sys2Proof.Machine.execJoinKnot p s
  | .joinMember p => Sys2Proof.Machine.execJoinMember p s
  | .leaveSelf p => Sys2Proof.Machine.execLeaveSelf p s
  | .leaveSelfDrainDone p => Sys2Proof.Machine.execLeaveSelfDrainDone p s
  | .leaveNode p => Sys2Proof.Machine.execLeaveNode p s
  | .leaveKnot p => Sys2Proof.Machine.execLeaveKnot p s
  | .leaveMember p => Sys2Proof.Machine.execLeaveMember p s
  | .qpsetEnable p => Sys2Proof.Machine.execQpsetEnable p s
  | .qpsetRelease p => Sys2Proof.Machine.execQpsetRelease p s
  | .qpsetLoglineArchive p => Sys2Proof.Machine.execQpsetLoglineArchive p s
  | .qpsetLoglineView p => Sys2Proof.Machine.execQpsetLoglineView p s
  | .quiesce p => Sys2Proof.Machine.execQuiesce p s
  | .abort p ring => Sys2Proof.Machine.execAbort p ring s
  | .slcset p => Sys2Proof.Machine.execSlcset p s
  | .slcsetRelease p => Sys2Proof.Machine.execSlcsetRelease p s
  | .slcreset p => Sys2Proof.Machine.execSlcreset p s
  | .slcresetStallEnd p => Sys2Proof.Machine.execSlcresetStallEnd p s
  | .volsetVolume p => Sys2Proof.Machine.execVolsetVolume p s
  | .volsetExtent p => Sys2Proof.Machine.execVolsetExtent p s
  | .volsetTarget p => Sys2Proof.Machine.execVolsetTarget p s
  | .volsetDrainDone p => Sys2Proof.Machine.execVolsetDrainDone p s
  | .connsetConnection p => Sys2Proof.Machine.execConnsetConnection p s
  | .connsetRelease p => Sys2Proof.Machine.execConnsetRelease p s
  | .connsetGlobal p => Sys2Proof.Machine.execConnsetGlobal p s
  | .fallback p => Sys2Proof.Machine.execFallback p s
  | .rngdraw p => Sys2Proof.Machine.execRngdraw p s
  | .spliceTimeoutExpiry p => Sys2Proof.Machine.execSpliceTimeoutExpiry p s
  | .turnBoundary temps => Sys2Proof.Machine.execTurnBoundary temps s
  | .shadeCommit n => Sys2Proof.Machine.execShadeCommit n s
  | .snapCapture => Sys2Proof.Machine.execSnapCapture s
  | .calibrationSlot => Sys2Proof.Machine.execCalibrationSlot s
  | .helloSend => Sys2Proof.Machine.execHelloSend s
  | .pauseRepeat acct => Sys2Proof.Machine.execPauseRepeat acct s
  | .moderationTimerExpiry q => Sys2Proof.Machine.execModerationTimerExpiry q s
  | .eventBufferClose q => Sys2Proof.Machine.execEventBufferClose q s
  | .loglinePageClose seq => Sys2Proof.Machine.execLoglinePageClose seq s
  | .ptpMessageReceive port dataset sample delay => Sys2Proof.Machine.execPtpMessageReceive port dataset sample delay s
  | .timeMessageReceive port reel16 era eraOffset hops upHold dataset delay => Sys2Proof.Machine.execTimeMessageReceive port reel16 era eraOffset hops upHold dataset delay s
  | .ppsInEdge => Sys2Proof.Machine.execPpsInEdge s
  | .ppsOutPulse => Sys2Proof.Machine.execPpsOutPulse s
  | .reelDiscontinuity => Sys2Proof.Machine.execReelDiscontinuity s
  | .reelSourceLoss entry => Sys2Proof.Machine.execReelSourceLoss entry s
  | .reelHoldoverEnter => Sys2Proof.Machine.execReelHoldoverEnter s
  | .frameArrival port bytes whole rxLen fcsBad sec => Sys2Proof.Machine.execFrameArrival port bytes whole rxLen fcsBad sec s
  | .frameEnd pkt bytes rxLen fcsBad sec => Sys2Proof.Machine.execFrameEnd pkt bytes rxLen fcsBad sec s
  | .macControlFrame port op => Sys2Proof.Machine.execMacControlFrame port op s
  | .pfcFrameReceive port vec quanta => Sys2Proof.Machine.execPfcFrameReceive port vec quanta s
  | .pauseFrameReceive port quanta => Sys2Proof.Machine.execPauseFrameReceive port quanta s
  | .pauseTimerExpiry port cls => Sys2Proof.Machine.execPauseTimerExpiry port cls s
  | .packetDispatch pkt f => Sys2Proof.Machine.execPacketDispatch pkt f s
  | .copyEgressDispatch pkt copy f => Sys2Proof.Machine.execCopyEgressDispatch pkt copy f s
  | .packetRelease pkt copy => Sys2Proof.Machine.execPacketRelease pkt copy s
  | .envelopeExpiry f => Sys2Proof.Machine.execEnvelopeExpiry f s
  | .trapVectorStart f => Sys2Proof.Machine.execTrapVectorStart f s
  | .trapRecordDeliver lay => Sys2Proof.Machine.execTrapRecordDeliver lay s
  | .slowTimeout f => Sys2Proof.Machine.execSlowTimeout f s
  | .slowLineTake f => Sys2Proof.Machine.execSlowLineTake f s
  | .injectionTake f => Sys2Proof.Machine.execInjectionTake f s
  | .nop f word ecc => Sys2Proof.Machine.execNop f word ecc s
  | .aluAdd f g rd ra rb => Sys2Proof.Machine.execAluAdd f g rd ra rb s
  | .aluSub f g rd ra rb => Sys2Proof.Machine.execAluSub f g rd ra rb s
  | .aluAnd f g rd ra rb => Sys2Proof.Machine.execAluAnd f g rd ra rb s
  | .aluOr f g rd ra rb => Sys2Proof.Machine.execAluOr f g rd ra rb s
  | .aluXor f g rd ra rb => Sys2Proof.Machine.execAluXor f g rd ra rb s
  | .aluAndn f g rd ra rb => Sys2Proof.Machine.execAluAndn f g rd ra rb s
  | .aluShl f g rd ra rb => Sys2Proof.Machine.execAluShl f g rd ra rb s
  | .aluShr f g rd ra rb => Sys2Proof.Machine.execAluShr f g rd ra rb s
  | .aluSar f g rd ra rb => Sys2Proof.Machine.execAluSar f g rd ra rb s
  | .aluMov f g rd ra rb => Sys2Proof.Machine.execAluMov f g rd ra rb s
  | .aluMinu f g rd ra rb => Sys2Proof.Machine.execAluMinu f g rd ra rb s
  | .aluMaxu f g rd ra rb => Sys2Proof.Machine.execAluMaxu f g rd ra rb s
  | .aluPopc f g rd ra rb => Sys2Proof.Machine.execAluPopc f g rd ra rb s
  | .aluClz f g rd ra rb => Sys2Proof.Machine.execAluClz f g rd ra rb s
  | .aluMul f g rd ra rb => Sys2Proof.Machine.execAluMul f g rd ra rb s
  | .addi f g rd ra imm => Sys2Proof.Machine.execAddi f g rd ra imm s
  | .andi f g rd ra imm => Sys2Proof.Machine.execAndi f g rd ra imm s
  | .ori f g rd ra imm => Sys2Proof.Machine.execOri f g rd ra imm s
  | .xori f g rd ra imm => Sys2Proof.Machine.execXori f g rd ra imm s
  | .shli f g rd ra imm => Sys2Proof.Machine.execShli f g rd ra imm s
  | .shri f g rd ra imm => Sys2Proof.Machine.execShri f g rd ra imm s
  | .sari f g rd ra imm => Sys2Proof.Machine.execSari f g rd ra imm s
  | .movz f g h rd imm => Sys2Proof.Machine.execMovz f g h rd imm s
  | .movk f g h rd imm => Sys2Proof.Machine.execMovk f g h rd imm s
  | .cmp f g pd cond ra rb low => Sys2Proof.Machine.execCmp f g pd cond ra rb low s
  | .cmpi f g pd cond ra imm => Sys2Proof.Machine.execCmpi f g pd cond ra imm s
  | .plogAnd f g pd pa pb low => Sys2Proof.Machine.execPlogAnd f g pd pa pb low s
  | .plogOr f g pd pa pb low => Sys2Proof.Machine.execPlogOr f g pd pa pb low s
  | .plogXor f g pd pa pb low => Sys2Proof.Machine.execPlogXor f g pd pa pb low s
  | .plogAndn f g pd pa pb low => Sys2Proof.Machine.execPlogAndn f g pd pa pb low s
  | .plogNot f g pd pa pb low => Sys2Proof.Machine.execPlogNot f g pd pa pb low s
  | .plogSet f g pd pa pb low => Sys2Proof.Machine.execPlogSet f g pd pa pb low s
  | .plogClr f g pd pa pb low => Sys2Proof.Machine.execPlogClr f g pd pa pb low s
  | .ext f g rd ra pos len => Sys2Proof.Machine.execExt f g rd ra pos len s
  | .ins f g rd ra pos len => Sys2Proof.Machine.execIns f g rd ra pos len s
  | .mrd f g rd n low => Sys2Proof.Machine.execMrd f g rd n low s
  | .mwr f g ra n low => Sys2Proof.Machine.execMwr f g ra n low s
  | .mwri f g n mid imm => Sys2Proof.Machine.execMwri f g n mid imm s
  | .wld f g rd size indexed ra off ecc => Sys2Proof.Machine.execWld f g rd size indexed ra off ecc s
  | .wst f g rd size indexed ra off => Sys2Proof.Machine.execWst f g rd size indexed ra off s
  | .sld f g rd size region ra imm ecc => Sys2Proof.Machine.execSld f g rd size region ra imm ecc s
  | .sst f g rd size region ra imm => Sys2Proof.Machine.execSst f g rd size region ra imm s
  | .br f g target low => Sys2Proof.Machine.execBr f g target low s
  | .lkx f g rd ra pd v => Sys2Proof.Machine.execLkx f g rd ra pd v s
  | .lkxMac f g rd ra pd v => Sys2Proof.Machine.execLkxMac f g rd ra pd v s
  | .lkl f g rd ra pd v => Sys2Proof.Machine.execLkl f g rd ra pd v s
  | .lka f g rd ra pd v => Sys2Proof.Machine.execLka f g rd ra pd v s
  | .count f g rd ra pd v => Sys2Proof.Machine.execCount f g rd ra pd v s
  | .police f g rd ra pd v => Sys2Proof.Machine.execPolice f g rd ra pd v s
  | .mcrd f g rd ra pd v => Sys2Proof.Machine.execMcrd f g rd ra pd v s
  | .autsub f g rd ra pd v => Sys2Proof.Machine.execAutsub f g rd ra pd v s
  | .autwait f g pd mid b => Sys2Proof.Machine.execAutwait f g pd mid b s
  | .autwaitu f g pd mid b => Sys2Proof.Machine.execAutwaitu f g pd mid b s
  | .autwaitTimeout f => Sys2Proof.Machine.execAutwaitTimeout f s
  | .cltry f g rd ra pd v => Sys2Proof.Machine.execCltry f g rd ra pd v s
  | .clrel f g rd ra pd v => Sys2Proof.Machine.execClrel f g rd ra pd v s
  | .clwait f g rd ra pd v => Sys2Proof.Machine.execClwait f g rd ra pd v s
  | .lnput f g rd ra pd v => Sys2Proof.Machine.execLnput f g rd ra pd v s
  | .lnget f g rd ra pd v => Sys2Proof.Machine.execLnget f g rd ra pd v s
  | .lnputw f g rd ra pd v => Sys2Proof.Machine.execLnputw f g rd ra pd v s
  | .lngetw f g rd ra pd v => Sys2Proof.Machine.execLngetw f g rd ra pd v s
  | .fwd f g high code => Sys2Proof.Machine.execFwd f g high code s
  | .drop f g high code => Sys2Proof.Machine.execDrop f g high code s
  | .trap f g high code => Sys2Proof.Machine.execTrap f g high code s
  | .slow f g high code => Sys2Proof.Machine.execSlow f g high code s
  | .laneResultArrival f lane ecc => Sys2Proof.Machine.execLaneResultArrival f lane ecc s
  | .automatonResultDelivery unit scan => Sys2Proof.Machine.execAutomatonResultDelivery unit scan s
  | .schedulerPick port => Sys2Proof.Machine.execSchedulerPick port s
  | .copyTransmit pkt copy => Sys2Proof.Machine.execCopyTransmit pkt copy s
  | .portLinkLoss port => Sys2Proof.Machine.execPortLinkLoss port s
  | .residueRemovalDone port => Sys2Proof.Machine.execResidueRemovalDone port s
  | .loglineArchiveWrite => Sys2Proof.Machine.execLoglineArchiveWrite s
  | .pageArchiveComplete seq => Sys2Proof.Machine.execPageArchiveComplete seq s
  | .pageArchiveRetry seq => Sys2Proof.Machine.execPageArchiveRetry seq s
  | .chainSegmentReceive port gen set tag bytes => Sys2Proof.Machine.execChainSegmentReceive port gen set tag bytes s
  | .mchWordReceive word crcOk => Sys2Proof.Machine.execMchWordReceive word crcOk s
  | .chainReturnReceive word => Sys2Proof.Machine.execChainReturnReceive word s
  | .chainTagTimeout tag => Sys2Proof.Machine.execChainTagTimeout tag s
  | .autLineReloadDone unit => Sys2Proof.Machine.execAutLineReloadDone unit s
  | .tableLineReloadDone table line => Sys2Proof.Machine.execTableLineReloadDone table line s
  | .staleWindowClose table line => Sys2Proof.Machine.execStaleWindowClose table line s
  | .lookupCacheExpiry lay table shade key => Sys2Proof.Machine.execLookupCacheExpiry lay table shade key s
  | .braidDataReceive port hdr hcrcOk bytes whole rxLen fcsBad sec => Sys2Proof.Machine.execBraidDataReceive port hdr hcrcOk bytes whole rxLen fcsBad sec s
  | .helloReceive port hello faceLends => Sys2Proof.Machine.execHelloReceive port hello faceLends s
  | .creditReceive port grants rxFrames => Sys2Proof.Machine.execCreditReceive port grants rxFrames s
  | .globalReceive port src op target seq turn arg => Sys2Proof.Machine.execGlobalReceive port src op target seq turn arg s
  | .globalReset target => Sys2Proof.Machine.execGlobalReset target s
  | .markerReceive port turn => Sys2Proof.Machine.execMarkerReceive port turn s
  | .mgmtReceive port src dest lease p body => Sys2Proof.Machine.execMgmtReceive port src dest lease p body s
  | .leaseExpiry port => Sys2Proof.Machine.execLeaseExpiry port s
  | .braidLinkLoss port pcs => Sys2Proof.Machine.execBraidLinkLoss port pcs s
  | .linkLossHandlingDone port => Sys2Proof.Machine.execLinkLossHandlingDone port s
  | .maintRequestGrant who code res => Sys2Proof.Machine.execMaintRequestGrant who code res s
  | .serdesScan lane temp bin => Sys2Proof.Machine.execSerdesScan lane temp bin s
  | .serdesRecal port temp bin => Sys2Proof.Machine.execSerdesRecal port temp bin s
  | .dramEye ch dir limit temp bin => Sys2Proof.Machine.execDramEye ch dir limit temp bin s
  | .dramRetrain ch temp bin => Sys2Proof.Machine.execDramRetrain ch temp bin s
  | .dramPatrol ch hard fixed carried => Sys2Proof.Machine.execDramPatrol ch hard fixed carried s
  | .dramTrack ch => Sys2Proof.Machine.execDramTrack ch s
  | .headroom port temp bin => Sys2Proof.Machine.execHeadroom port temp bin s
  | .tcamScrub bad shadowErr => Sys2Proof.Machine.execTcamScrub bad shadowErr s
  | .exactScrub bad shadowErr => Sys2Proof.Machine.execExactScrub bad shadowErr s
  | .autScrub lay bad => Sys2Proof.Machine.execAutScrub lay bad s
  | .flashWrite area => Sys2Proof.Machine.execFlashWrite area s
  | .journalCompact => Sys2Proof.Machine.execJournalCompact s
  | .maintActivityEnd code res => Sys2Proof.Machine.execMaintActivityEnd code res s
  | .retakeLoadTrigger code res => Sys2Proof.Machine.execRetakeLoadTrigger code res s
  | .retakeTempTrigger code res temp => Sys2Proof.Machine.execRetakeTempTrigger code res temp s
  | .hcCrc c f7 rs2 rs1 rd => Sys2Proof.Machine.execHcCrc c f7 rs2 rs1 rd s
  | .hcKey c f7 rs2 rs1 rd => Sys2Proof.Machine.execHcKey c f7 rs2 rs1 rd s
  | .aqSub c f7 rs2 rs1 rd seg => Sys2Proof.Machine.execAqSub c f7 rs2 rs1 rd seg s
  | .aqGet c f7 rs1 rd => Sys2Proof.Machine.execAqGet c f7 rs1 rd s
  | .clTry c rs1 rd => Sys2Proof.Machine.execClTry c rs1 rd s
  | .clWait c rs2 rs1 rd => Sys2Proof.Machine.execClWait c rs2 rs1 rd s
  | .clRel c rs1 rd => Sys2Proof.Machine.execClRel c rs1 rd s
  | .clRead c rs1 rd => Sys2Proof.Machine.execClRead c rs1 rd s
  | .clWaitTimeout c => Sys2Proof.Machine.execClWaitTimeout c s
  | .lnPut c rs2 rs1 rd => Sys2Proof.Machine.execLnPut c rs2 rs1 rd s
  | .lnGet c rs1 rd => Sys2Proof.Machine.execLnGet c rs1 rd s
  | .lnPutw c rs2 rs1 rd => Sys2Proof.Machine.execLnPutw c rs2 rs1 rd s
  | .lnGetw c rs1 rd => Sys2Proof.Machine.execLnGetw c rs1 rd s
  | .coreInterrupt c => Sys2Proof.Machine.execCoreInterrupt c s
  | .coreReset c held => Sys2Proof.Machine.execCoreReset c held s
  | .capRandRead c rd => Sys2Proof.Machine.execCapRandRead c rd s
  | .lanyardNotifyWrite c l v => Sys2Proof.Machine.execLanyardNotifyWrite c l v s
  | .l3ModeSwitch c => Sys2Proof.Machine.execL3ModeSwitch c s
  | .l3SwitchDone => Sys2Proof.Machine.execL3SwitchDone s
  | .rdShared c ln victim back => Sys2Proof.Machine.execRdShared c ln victim back s
  | .rdUnique c ln victim back => Sys2Proof.Machine.execRdUnique c ln victim back s
  | .upgrade c ln => Sys2Proof.Machine.execUpgrade c ln s
  | .evictDirty c ln => Sys2Proof.Machine.execEvictDirty c ln s
  | .evictClean c ln => Sys2Proof.Machine.execEvictClean c ln s
  | .ioRead agent ln => Sys2Proof.Machine.execIoRead agent ln s
  | .ioWrite agent ln mask line => Sys2Proof.Machine.execIoWrite agent ln mask line s
  | .snpShared c ln dirty => Sys2Proof.Machine.execSnpShared c ln dirty s
  | .snpInv c ln dirty => Sys2Proof.Machine.execSnpInv c ln dirty s
  | .ack c ln => Sys2Proof.Machine.execAck c ln s
  | .miss c ln => Sys2Proof.Machine.execMiss c ln s
  | .evicting c ln => Sys2Proof.Machine.execEvicting c ln s
  | .data c ln => Sys2Proof.Machine.execData c ln s
  | .evictAck c ln => Sys2Proof.Machine.execEvictAck c ln s
  | .sqDoorbell q v => Sys2Proof.Machine.execSqDoorbell q v s
  | .cqDoorbell q v => Sys2Proof.Machine.execCqDoorbell q v s
  | .fetchRound engine descs => Sys2Proof.Machine.execFetchRound engine descs s
  | .inject q id frame => Sys2Proof.Machine.execInject q id frame s
  | .netRecvBuf q id => Sys2Proof.Machine.execNetRecvBuf q id s
  | .controlRun q id => Sys2Proof.Machine.execControlRun q id s
  | .eventBuf q id => Sys2Proof.Machine.execEventBuf q id s
  | .completionWrite q => Sys2Proof.Machine.execCompletionWrite q s
  | .perstAssert n => Sys2Proof.Machine.execPerstAssert n s
  | .hostLinkDown n => Sys2Proof.Machine.execHostLinkDown n s
  | .d3hotEntry k => Sys2Proof.Machine.execD3hotEntry k s
  | .d0Return k => Sys2Proof.Machine.execD0Return k s
  | .msixUnmask k v => Sys2Proof.Machine.execMsixUnmask k v s
  | .registerWrite who space off size v => Sys2Proof.Machine.execRegisterWrite who space off size v s
  | .counterLowRead who off => Sys2Proof.Machine.execCounterLowRead who off s
  | .rcRegisterRead who off => Sys2Proof.Machine.execRcRegisterRead who off s
  | .glbSnapViewWrite who v be => Sys2Proof.Machine.execGlbSnapViewWrite who v be s
  | .tblRawSelectWrite who v be => Sys2Proof.Machine.execTblRawSelectWrite who v be s
  | .rawWindowWrite who off size v => Sys2Proof.Machine.execRawWindowWrite who off size v s
  | .rawStatusCommit who off v => Sys2Proof.Machine.execRawStatusCommit who off v s
  | .rawStatusRead who off => Sys2Proof.Machine.execRawStatusRead who off s
  | .bootWindowWrite who off bytes => Sys2Proof.Machine.execBootWindowWrite who off bytes s
  | .sheTamperLatchClear who size v => Sys2Proof.Machine.execSheTamperLatchClear who size v s
  | .pwrTripClear who size v => Sys2Proof.Machine.execPwrTripClear who size v s
  | .mbUp who slice v => Sys2Proof.Machine.execMbUp who slice v s
  | .mbDown who slice v => Sys2Proof.Machine.execMbDown who slice v s
  | .mailboxDelivery slice up bytes => Sys2Proof.Machine.execMailboxDelivery slice up bytes s
  | .storeRead q id scatter => Sys2Proof.Machine.execStoreRead q id scatter s
  | .storeWrite q id scatter => Sys2Proof.Machine.execStoreWrite q id scatter s
  | .storeFlush q id => Sys2Proof.Machine.execStoreFlush q id s
  | .storeTrim q id => Sys2Proof.Machine.execStoreTrim q id s
  | .abortTag q id => Sys2Proof.Machine.execAbortTag q id s
  | .nvmeCompletionReceive part code type => Sys2Proof.Machine.execNvmeCompletionReceive part code type s
  | .storePartTimeout part => Sys2Proof.Machine.execStorePartTimeout part s
  | .relayInboundAccess part off write bytes => Sys2Proof.Machine.execRelayInboundAccess part off write bytes s
  | .rdmaPacketReceive p => Sys2Proof.Machine.execRdmaPacketReceive p s
  | .rdmaAckTimeout conn => Sys2Proof.Machine.execRdmaAckTimeout conn s
  | .gcmEncrypt q id src aad => Sys2Proof.Machine.execGcmEncrypt q id src aad s
  | .gcmDecrypt q id src aad tag => Sys2Proof.Machine.execGcmDecrypt q id src aad tag s
  | .xtsEncrypt q id src => Sys2Proof.Machine.execXtsEncrypt q id src s
  | .xtsDecrypt q id src => Sys2Proof.Machine.execXtsDecrypt q id src s
  | .ctr q id src => Sys2Proof.Machine.execCtr q id src s
  | .keyUnwrap q id blob => Sys2Proof.Machine.execKeyUnwrap q id blob s
  | .keyGen q id => Sys2Proof.Machine.execKeyGen q id s
  | .keyWrap q id => Sys2Proof.Machine.execKeyWrap q id s
  | .keyZero q id => Sys2Proof.Machine.execKeyZero q id s
  | .saSet q id => Sys2Proof.Machine.execSaSet q id s
  | .dramRequestAccept port write a mask line keep => Sys2Proof.Machine.execDramRequestAccept port write a mask line keep s
  | .dramReadReturn ch err dev mirrorBad => Sys2Proof.Machine.execDramReadReturn ch err dev mirrorBad s
  | .dramRefresh ch rank => Sys2Proof.Machine.execDramRefresh ch rank s
  | .dramParityAlert ch => Sys2Proof.Machine.execDramParityAlert ch s
  | .dramTrainingStep ch ok spd => Sys2Proof.Machine.execDramTrainingStep ch ok spd s
  | .dramReady temp => Sys2Proof.Machine.execDramReady temp s
  | .lcToken t => Sys2Proof.Machine.execLcToken t s
  | .tamperAlarm sources ticks => Sys2Proof.Machine.execTamperAlarm sources ticks s
  | .lockdownFuseBlow => Sys2Proof.Machine.execLockdownFuseBlow s
  | .rngStartupDone => Sys2Proof.Machine.execRngStartupDone s
  | .rngHealthFail => Sys2Proof.Machine.execRngHealthFail s
  | .drbgReseed => Sys2Proof.Machine.execDrbgReseed s
  | .sysRstRelease straps copiesOk tj => Sys2Proof.Machine.execSysRstRelease straps copiesOk tj s
  | .sysRstAssert => Sys2Proof.Machine.execSysRstAssert s
  | .flashLoad a b => Sys2Proof.Machine.execFlashLoad a b s
  | .sheathInit dram => Sys2Proof.Machine.execSheathInit dram s
  | .bootRelease who size chk => Sys2Proof.Machine.execBootRelease who size chk s
  | .bootVerifyVerdict good => Sys2Proof.Machine.execBootVerifyVerdict good s
  | .gatesOpen => Sys2Proof.Machine.execGatesOpen s
  | .bootScrubDone => Sys2Proof.Machine.execBootScrubDone s
  | .trialTimeout => Sys2Proof.Machine.execTrialTimeout s
  | .setRead c addr => Sys2Proof.Machine.execSetRead c addr s
  | .setAppend c addr => Sys2Proof.Machine.execSetAppend c addr s
  | .bootCommit c => Sys2Proof.Machine.execBootCommit c s
  | .bootSelect c v => Sys2Proof.Machine.execBootSelect c v s
  | .pwrGoodFall => Sys2Proof.Machine.execPwrGoodFall s
  | .pwrGoodRise => Sys2Proof.Machine.execPwrGoodRise s
  | .standbyPowerUp => Sys2Proof.Machine.execStandbyPowerUp s
  | .avsEvaluation below above err => Sys2Proof.Machine.execAvsEvaluation below above err s
  | .pmbAlert words => Sys2Proof.Machine.execPmbAlert words s
  | .telemetryPoll regs => Sys2Proof.Machine.execTelemetryPoll regs s
  | .railExcursion rail => Sys2Proof.Machine.execRailExcursion rail s
  | .refclkLoss kind n => Sys2Proof.Machine.execRefclkLoss kind n s
  | .thermalTrip sensor => Sys2Proof.Machine.execThermalTrip sensor s
  | .portLinkUp port => Sys2Proof.Machine.execPortLinkUp port s
  | .mchLaneUp out => Sys2Proof.Machine.execMchLaneUp out s
  | .mchLaneDown out => Sys2Proof.Machine.execMchLaneDown out s
  | .perstDeassert n => Sys2Proof.Machine.execPerstDeassert n s
  | .hostLinkL0 n => Sys2Proof.Machine.execHostLinkL0 n s
  | .refclkReturn kind n => Sys2Proof.Machine.execRefclkReturn kind n s
  | .tref10mInLoss => Sys2Proof.Machine.execTref10mInLoss s
  | .standbyPowerLoss => Sys2Proof.Machine.execStandbyPowerLoss s
  | .railExcursionEnd rail => Sys2Proof.Machine.execRailExcursionEnd rail s
  | .cryptoResultRelease q id fault => Sys2Proof.Machine.execCryptoResultRelease q id fault s
  | .oldestWriteWaitExpiry ch => Sys2Proof.Machine.execOldestWriteWaitExpiry ch s
  | .rowIdleClose ch bank => Sys2Proof.Machine.execRowIdleClose ch bank s

end Sys2Proof.Machine
end

