-- ==== Sys2Proof/Safety.lean ====
section
/-! DEFINITION. What the statements say in one word: a safe queue and safe memories, what a command leaves unchanged, and
what the sequencer does around every splice instruction. -/
namespace Sys2Proof.Machine

/-- Every command that waits is one the device can receive. -/
def State.queueWf (s : State) : Prop := ∀ c ∈ s.pending, c.wf = true

/-- The strand scratch, the flat region and DRAM are in the canonical form of `Memory.wf`. -/
def Dev.memOk (d : Dev) : Bool := Memory.wf d.mem.scratch && Memory.wf d.mem.flat && Memory.wf d.mem.dram

/-- Every addressed memory is in the canonical form of `Memory.wf`. -/
def State.memWf (s : State) : Bool := s.dev.memOk && Memory.wf s.dev.boot.flash

/-- An outcome that goes on. -/
def Continues (o : Host.Outcome State Fault Refusal) : Prop := ∃ t, o = .next t

/-- The main domain runs: it is not held in reset (R600). -/
def State.live (s : State) : Prop := s.dev.boot.held = false

/-- Commands of the standby domain, of a supply, a clock or a reset input: they act while the main domain is held in reset too
(R417, R563, R600 to R605, R609). -/
def actsInReset : Instr → Bool
  | .perstAssert _ | .perstDeassert _ | .tamperAlarm _ _ | .sysRstAssert | .sysRstRelease _ _ _ | .pwrGoodFall | .pwrGoodRise
  | .standbyPowerUp | .standbyPowerLoss | .refclkLoss _ _ | .refclkReturn _ _ | .railExcursion _ | .railExcursionEnd _ => true
  | _ => false

/-! ## What a command leaves unchanged -/

/-- The parts of the device, one for each field of `Dev`, and the canonical form of its memories (`form`). -/
inductive Comp where
  | variant24 | pclk | free | drawn | out | ctr | reel | spl | hif | lay | shd | path | tbl | log | aut | brd | cal | mem | dmc
  | boot | cap | rdm | she | pwr | slc | sto | form
  deriving DecidableEq, Repr

/-- Two devices agree in one part; the memories of the first are in their canonical form if those of the second are. -/
def Comp.same (x : Comp) (a b : Dev) : Prop :=
  match x with
  | .variant24 => a.variant24 = b.variant24
  | .pclk => a.pclk = b.pclk
  | .free => a.free = b.free
  | .drawn => a.drawn = b.drawn
  | .out => a.out = b.out
  | .ctr => a.ctr = b.ctr
  | .reel => a.reel = b.reel
  | .spl => a.spl = b.spl
  | .hif => a.hif = b.hif
  | .lay => a.lay = b.lay
  | .shd => a.shd = b.shd
  | .path => a.path = b.path
  | .tbl => a.tbl = b.tbl
  | .log => a.log = b.log
  | .aut => a.aut = b.aut
  | .brd => a.brd = b.brd
  | .cal => a.cal = b.cal
  | .mem => a.mem = b.mem
  | .dmc => a.dmc = b.dmc
  | .boot => a.boot = b.boot
  | .cap => a.cap = b.cap
  | .rdm => a.rdm = b.rdm
  | .she => a.she = b.she
  | .pwr => a.pwr = b.pwr
  | .slc => a.slc = b.slc
  | .sto => a.sto = b.sto
  | .form => b.memOk = true → a.memOk = true

/-- Two devices agree in every part but those listed. -/
def Dev.keeps (changed : List Comp) (a b : Dev) : Prop := ∀ x : Comp, x ∉ changed → x.same b a

/-- A command changes nothing but the listed parts of the device: not the waiting commands, not a snapshot image, no register,
table, queue or byte of memory of another part. -/
def Kept (changed : List Comp) (s t : State) : Prop :=
  t.pending = s.pending ∧ t.snaps = s.snaps ∧ t.frozen = s.frozen ∧ Dev.keeps changed s.dev t.dev

/-- The command runs: `exec` answers a next state, of whose device P holds; the waiting commands and the snapshot images stay. -/
def Acts (c : Instr) (s : State) (P : Dev → Prop) : Prop :=
  ∃ t, exec c s = .next t ∧ t.pending = s.pending ∧ t.snaps = s.snaps ∧ t.frozen = s.frozen ∧ P t.dev

/-- A frame: whenever the command answers a next state, it has changed nothing but the listed parts. -/
def Frame (changed : List Comp) (c : Instr) : Prop := ∀ s t, exec c s = .next t → Kept changed s t

/-- A command answers the state it found. -/
def Unmoved (c : Instr) (s : State) : Prop := exec c s = .next s

/-! ## Around a splice instruction (R36, R136, R139, R143, R152) -/

/-- The parts an appended record may change: a full buffer of a subscriber closes, one of a capstan's lies in its memory. -/
def logged : List Comp := [.out, .ctr, .spl, .hif, .mem, .cap, .slc]

/-- The parts a packet operation may change: its fibre, or what a trap or the end of its program brings. -/
def issued : List Comp := [.pclk, .reel, .out, .ctr, .hif, .lay, .shd, .path, .log, .brd, .mem, .cap, .rdm, .slc]

/-- The parts a claim of tokens may change. -/
def claimed : List Comp := [.cal, .out, .ctr, .spl, .hif, .mem, .cap, .slc]

/-- Program p is in progress and about to execute its instruction i, with room in the log (R37, R136, R154, R451). -/
structure State.atIns (s : State) (p : Nat) (x : Prog) (i : Ins) : Prop where
  live  : s.live
  found : s.dev.prog p = some x
  ins   : insOf x.words = some i
  runs  : s.dev.mayRun x = true
  room  : s.dev.seqRoom = true
  rsv   : i.rsv = false
  may   : s.dev.mayExec x i = true

/-- The sequencer executed the instruction in `cost` cycles of hclk, with one record, and the program goes on behind it or, where
it was the last or does not continue past a status other than DONE, is no longer in progress (R136, R143, R152). -/
def Executed (s t : State) (p : Nat) (x : Prog) (i : Ins) (st cost : Nat) : Prop :=
  t.dev.spl.busy = max s.dev.pclk s.dev.spl.busy + 2 * cost
    ∧ t.dev.count Reg.glbSpliceLogHead = s.dev.count Reg.glbSpliceLogHead + 1
    ∧ if x.left ≤ 1 ∨ (st ≠ stDone ∧ i.cont = false) then t.dev.prog p = none
      else t.dev.prog p = some { x with
        words := x.words.drop i.len, idx := x.idx + 1, left := x.left - 1, phase := .running
        firstBad := if st = stDone then x.firstBad else x.firstBad.or (some (st, x.idx)) }

/-- A table instruction whose target is index n: DRAM answers and its tokens are granted at once (R138, R144, R373 to R376). -/
structure State.atTable (s : State) (p : Nat) (x : Prog) (i : Ins) (n : Nat) : Prop extends State.atIns s p x i where
  shade : s.dev.target x = .inl n
  dram  : s.dev.dmc.ready = true
  fresh : s.dev.holdsFor x.seq = false
  grant : s.dev.grantable s.dev.cal.waiting { who := .prog x.seq, code := 0, res := 0, claims := s.dev.tableClaims i n } = true
  queue : s.dev.cal.placeQ = []

/-- The instruction waits (R37), no record yet, and other programs may run. -/
def Waits (s t : State) (p : Nat) (x : Prog) (w : SpWait) (expiry : Option Nat) (cost : Nat) : Prop :=
  t.dev.prog p = some { x with phase := .waiting w expiry }
    ∧ t.dev.spl.busy = max s.dev.pclk s.dev.spl.busy + 2 * cost ∧ t.dev.spl.cur = none
    ∧ t.dev.count Reg.glbSpliceLogHead = s.dev.count Reg.glbSpliceLogHead

/-- A wait ended: one record, and the program may be resumed (R139). -/
def WaitEnded (s t : State) (p : Nat) (x : Prog) (st : Nat) : Prop :=
  t.dev.prog p = some { x with phase := .ended st }
    ∧ t.dev.count Reg.glbSpliceLogHead = s.dev.count Reg.glbSpliceLogHead + 1

/-! ## Packet operations (R90 to R93, R96, R113, R122) -/

/-- Fibre f as its bundle issues at pclk t: at the bundle's first slot what its operations read is fixed (R92). -/
def State.begun (s : State) (f t : Nat) : Fibre := (s.dev.openBundle f t).fibre f

/-- The next slot of fibre f holds the packet operation c of its program store, and its bundle issues at pclk t: the fibre holds
work, its bundle is fetched, what it reads is there, and the strand is its own then (R90, R91). -/
structure State.slotOp (s : State) (f t : Nat) (c : Instr) (g : BitVec 4) (regs preds : List Nat) (m14 : Bool) : Prop where
  live  : s.live
  num   : f < 4096
  held  : s.dev.fetches f c = true
  opens : s.dev.opens f regs (guardPred g :: preds) m14 = some t

/-- As `slotOp`, and the guard g holds of what the bundle reads. -/
structure State.issuesOp (s : State) (f t : Nat) (c : Instr) (g : BitVec 4) (regs preds : List Nat) (m14 : Bool) : Prop
    extends State.slotOp s f t c g regs preds m14 where
  guard : guardHolds g (s.begun f t).iss = true

/-- The bundle of fibre f issues at pclk t, and of it only fibre f changes: its slot or bundle is done, and the fibre is what P
says; no other fibre, packet, table or byte of memory has changed. -/
def Settles (c : Instr) (s : State) (f t : Nat) (P : Fibre → Prop) : Prop :=
  Acts c s fun d => Dev.keeps [.lay] (s.dev.openBundle f t) d
    ∧ d.lay = { (s.dev.openBundle f t).lay with fibres := d.lay.fibres }
    ∧ (∀ h, h ≠ f → d.fibre h = s.dev.fibre h) ∧ P (d.fibre f)

/-- Fibre f has the registers `upd` gives from those its bundle reads and those it has (or the program counter at a branch's target). -/
def Retires (c : Instr) (s : State) (f t : Nat) (jump : Option Nat) (upd : Arch → Arch → Arch) : Prop :=
  Settles c s f t fun x => x = Fibre.next jump { s.begun f t with arch := upd (s.begun f t).iss (s.begun f t).arch }

/-- As `Retires`, and the registers `keys` are there to be read `lat` pclk after the bundle's issue (R93, Table 3.5). -/
def RetiresAfter (c : Instr) (s : State) (f t lat : Nat) (keys : List Nat) (upd : Arch → Arch → Arch) : Prop :=
  Settles c s f t fun x => x = Fibre.next none
    (Fibre.after ((s.begun f t).at' + lat) keys { s.begun f t with arch := upd (s.begun f t).iss (s.begun f t).arch })

/-- The operation traps with a cause; the bundle that is issuing has no effect (R113). -/
def Traps (c : Instr) (s : State) (f t cause : Nat) : Prop :=
  exec c s = .next (s.onDev fun d => (d.openBundle f t).trapF f cause)

/-- A lane operation of slot 3 is posted (R30, R95): it leaves in the strand's first slot of the lane behind the posts that wait
there and its result is due the lane's latency later; a wait behind another post is counted. -/
def Posts (c : Instr) (s : State) (f lane rd pd : Nat) (op : LaneOp) : Prop :=
  Acts c s fun d =>
    let x := s.dev.fibre f
    let free := Map.getD s.dev.lay.laneFree (4 * (f / 8) + lane) 0
    let leave := laneSlot (f / 8) (max x.at' free)
    Dev.keeps [.lay, .ctr] s.dev d ∧ (∀ h, h ≠ f → d.fibre h = s.dev.fibre h)
      ∧ Map.getD d.lay.laneFree (4 * (f / 8) + lane) 0 = leave + 8
      ∧ d.count (Reg.layLaneWait (fibreLay f)) = s.dev.count (Reg.layLaneWait (fibreLay f)) + (if x.at' + 8 < free then 1 else 0)
      ∧ ∃ r, x.run = some r ∧ d.fibre f = Fibre.next none { x with
          posts := x.posts ++ [{ lane, op, rd, pd, due := leave + op.latency, run := r, m0 := bits (x.iss.getM 0).toNat 0 9 }] }

/-- The strand has no post of fibre f waiting to leave in a lane when its bundle issues (R95). -/
def State.laneOpen (s : State) (f lane : Nat) : Prop :=
  (s.dev.fibre f).posts.any (fun p => p.lane == lane && (s.dev.fibre f).at' < p.due - p.op.latency) = false

/-! ## Capstan instructions (R386, R397, R404) -/

/-- Core c executes an instruction: it runs and waits for nothing. -/
structure State.coreRuns (s : State) (c : Nat) : Prop where
  live  : s.live
  num   : c < 32
  ready : s.dev.coreReady c = true

/-- An instruction of core c is counted as fetched and issued (R396, R412). -/
def Dev.entered (c : Nat) (d : Dev) : Dev := (d.bump (Reg.capCFetched c)).bump (Reg.capCIssued c)

/-- An instruction of core c does what `act` says and retires (R396). -/
def CoreDoes (i : Instr) (s : State) (c : Nat) (act : Dev → Dev) : Prop :=
  Acts i s fun d => d = (act (s.dev.entered c)).bump (Reg.capCRetired c)

/-- An instruction of core c raises an exception and has no other effect; it does not retire (R397, R399). -/
def CoreRaises (i : Instr) (s : State) (c cause : Nat) : Prop :=
  Acts i s fun d => d = (s.dev.entered c).onCore c fun x => { x with exc := some cause }

/-- An instruction of core c is fetched and issued, n of it retire (0 where it waits), and P holds of the device. -/
def CoreActs (i : Instr) (s : State) (c n : Nat) (P : Dev → Prop) : Prop :=
  Acts i s fun d => d.count (Reg.capCFetched c) = s.dev.count (Reg.capCFetched c) + 1
    ∧ d.count (Reg.capCIssued c) = s.dev.count (Reg.capCIssued c) + 1
    ∧ d.count (Reg.capCRetired c) = s.dev.count (Reg.capCRetired c) + BitVec.ofNat 64 n ∧ P d

/-! ## Descriptors (R427, R435) -/

/-- Descriptor e, of an opcode and a queue kind, is the next one of queue pair q that no service has taken. -/
structure State.nextIs (s : State) (kind op q : Nat) (e : Desc) : Prop where
  live : s.live
  num  : q < 65536
  kind : (s.dev.qp q).kind = kind
  next : (s.dev.qp q).nextDesc = some e
  op   : e.op = op
  open' : e.done = false

/-- Descriptor e of a CRYPTO queue pair, of an opcode, waits to be examined (R427, R559). -/
structure State.cryIs (s : State) (op q : Nat) (e : Desc) : Prop where
  live  : s.live
  num   : q < 65536
  kind  : (s.dev.qp q).kind = 3
  found : s.dev.desc q e.id = some e
  op    : e.op = op
  fresh : e.started = false

/-- The operation is under way and nothing else but the descriptor's mark and the slice's debit has changed: its result waits to be
released (R557, R559). -/
def Begins (c : Instr) (s : State) (q : Nat) (e : Desc) (P : CryOp → Prop) : Prop :=
  Acts c s fun d => Dev.keeps [.she, .hif, .slc] s.dev d
    ∧ ∃ o, d.she = { s.dev.she with ops := s.dev.she.ops ++ [o] } ∧ o.q = q ∧ o.desc = e.id ∧ P o

/-- Every key slot named is empty or of the usage asked, 0 asking for none (R551, R559). -/
def Dev.usagesOk (named : List (Nat × Nat)) (d : Dev) : Prop :=
  ∀ e ∈ named, ∀ k, Map.find d.she.slots e.1 = some k → e.2 = 0 ∨ k.usage = e.2

/-- A key slot a slice may name: an empty one, its own, and any for the primary slice (R551). -/
def Dev.ownsSlot (slice n : Nat) (d : Dev) : Prop := ∀ k, Map.find d.she.slots n = some k → slice = 0 ∨ k.owner = slice

/-- A slice may name every slot of a descriptor, its target among them (R551). -/
def Dev.slotsMine (slice : Nat) (named : List (Nat × Nat)) (target : Option Nat) (d : Dev) : Prop :=
  (∀ e ∈ named, d.ownsSlot slice e.1) ∧ ∀ n, target = some n → d.ownsSlot slice n

/-! ## Store commands (R471 to R483) -/

/-- Descriptor e of a STORE queue pair, of opcode op, is examined: it is well formed and the order rule lets its command c start
(R471, R474). -/
structure State.storeIs (s : State) (op q id : Nat) (sc : List (Nat × Nat)) (e : Desc) (c : Cmd) : Prop where
  live  : s.live
  num   : q < 65536
  found : s.dev.desc q id = some e
  fresh : e.started = false
  op'   : e.op = op
  kind  : (s.dev.qp q).kind = 2
  is    : c = cmdOf q id e.gen e.bytes sc
  ok    : storeDescOk e.bytes = true
  sum   : scatterOk e.bytes c = true
  order : (s.dev.qp q).mayStart id c.ordered = true

/-- A command whose parts all go to local targets has started (R480 to R483): it is held under the next number, with the key slot its
volume names, and every part is issued, its relay translation open for the data of a READ or WRITE. -/
def CmdStarts (i : Instr) (s : State) (q : Nat) (c : Cmd) : Prop :=
  Acts i s fun d => (d.desc q c.desc).map (·.started) = some true
    ∧ ∃ x ∈ d.sto.cmds, x = { c with
        id := s.dev.sto.nextCmd, started := true, xts := (Map.find s.dev.sto.vols c.vol).bind (·.xts)
        parts := (c.partsOf s.dev.sto).zipIdx.map fun e => { e.1 with
          id := s.dev.sto.nextPart + e.2, st := .issued s.dev.turn, open' := c.op == 0x40 || c.op == 0x41 } }

/-- Every part of a command is of a local target, and there is one (R487). -/
def State.allLocal (s : State) (c : Cmd) : Prop :=
  c.partsOf s.dev.sto ≠ [] ∧ ∀ p ∈ c.partsOf s.dev.sto, (Map.find s.dev.sto.tgts p.target).map (·.remote) = some false

/-! ## Maintenance activities (R371, R381) -/

/-- An activity on a resource holds its tokens and has not yet run. -/
structure State.activity (s : State) (code res : Nat) (h : Hold) : Prop where
  live : s.live
  held : s.dev.cal.holds.find? (fun h => h.req.code == code && h.req.res == res && !h.ran) = some h

/-- The device once the holder has run, with the conditions it was taken under. -/
def Dev.withRun (h : Hold) (temp : Int) (bin : Nat) (d : Dev) : Dev :=
  { d with cal := { d.cal with holds := d.cal.holds.map fun x => if x = h then { x with ran := true, temp, bin } else x } }

end Sys2Proof.Machine
end

