-- ==== Sys2Proof/Certificates/Slice0/Obligations.lean ====
section
/-! DEFINITION. The statements. `Kept` lists the parts of the device a command may change: every other part, the waiting
commands and the snapshot images are as before. -/
open Sys2Proof Sys2Proof.Machine

/-- QSET, SHAPE, POLSET and MCSET (R262, R272, R274, R169): the addressed queue, shaper, policer or group takes the operands, and every
other one stays. -/
def Obligations.RateAndGroupInstructions : Prop :=
  (∀ s p x i, s.atIns p x i → i.op = 0x11 → i.field < 8 → i.len = 2 → i.a < s.dev.lanes → bits (i.w 0) 0 16 ≠ 0 → i.w 0 < 2 ^ 36 →
    (bits (i.w 0) 16 20 < 4096 ∨ bits (i.w 0) 16 20 = 0xFFFFF) →
    (∀ e ∈ s.dev.path.queues, e.2.shaper = some (bits (i.w 0) 16 20) → e.1 / 8 = i.a) →
    ∃ t, exec (.qset p) s = .next t ∧ Executed s t p x i stDone 32 ∧ Kept (.path :: logged) s t
      ∧ (Map.getD t.dev.path.queues (8 * i.a + i.field) {}).quantum = bits (i.w 0) 0 16
      ∧ (Map.getD t.dev.path.queues (8 * i.a + i.field) {}).shaper =
          (if bits (i.w 0) 16 20 = 0xFFFFF then none else some (bits (i.w 0) 16 20))
      ∧ ∀ k, k ≠ 8 * i.a + i.field → Map.find t.dev.path.queues k = Map.find s.dev.path.queues k)
  ∧ (∀ s p x i n, s.atIns p x i → i.op = 0x12 → x.shaded = true → s.dev.shadeNamed x.shade = some n → (s.dev.shade n).st = .opened →
    i.field < 2 → i.len = 3 → i.a < 4096 → i.w 0 ≤ 1600000000000 → i.w 1 < 2 ^ 32 →
    ∃ t, exec (.shape p) s = .next t ∧ Executed s t p x i stDone 32 ∧ Kept (.shd :: logged) s t
      ∧ Map.find (t.dev.shade n).shapers i.a = some (i.w 0, i.w 1)
      ∧ Map.find (t.dev.shade n).shFill i.a = some (bit i.field 0)
      ∧ (∀ k, k ≠ i.a → Map.find (t.dev.shade n).shapers k = Map.find (s.dev.shade n).shapers k)
      ∧ ∀ m, m ≠ n → t.dev.shade m = s.dev.shade m)
  ∧ (∀ s p x i n, s.atIns p x i → i.op = 0x13 → x.shaded = true → s.dev.shadeNamed x.shade = some n → (s.dev.shade n).st = .opened →
    i.field < 8 → i.len = 4 → i.a < 262144 → i.w 0 ≤ 51200000000000 → i.w 1 ≤ 51200000000000 →
    (bit i.field 1 = true ∨ i.w 0 ≤ i.w 1) →
    ∃ t, exec (.polset p) s = .next t ∧ Executed s t p x i stDone 32 ∧ Kept (.shd :: logged) s t
      ∧ Map.find (t.dev.shade n).policers i.a = some { rfc4115 := bit i.field 1, aware := bit i.field 2, cir := i.w 0, pir := i.w 1,
                                                        cbs := bits (i.w 2) 0 32, pbs := bits (i.w 2) 32 32 }
      ∧ Map.find (t.dev.shade n).polFill i.a = some (bit i.field 0)
      ∧ (∀ k, k ≠ i.a → Map.find (t.dev.shade n).policers k = Map.find (s.dev.shade n).policers k)
      ∧ ∀ m, m ≠ n → t.dev.shade m = s.dev.shade m)
  ∧ (∀ s p x i n, s.atIns p x i → i.op = 0x14 → x.shaded = true → s.dev.shadeNamed x.shade = some n → (s.dev.shade n).st = .opened →
    i.field = 0 → i.len = 5 → i.a < 65536 → portMap i 0 < 2 ^ s.dev.lanes →
    ∃ t, exec (.mcset p) s = .next t ∧ Executed s t p x i stDone 48 ∧ Kept (.shd :: logged) s t
      ∧ Map.find (t.dev.shade n).groups i.a = some (portMap i 0)
      ∧ (∀ k, k ≠ i.a → Map.find (t.dev.shade n).groups k = Map.find (s.dev.shade n).groups k)
      ∧ ∀ m, m ≠ n → t.dev.shade m = s.dev.shade m)

/-- SHADEOPEN, TCOMMIT and SHADERETIRE (R145 to R147): the shade takes its number and state, a commit its turn; a retired shade with no
packet is FREE, one with packets waits until the last of them is done. A shade whose SHADERETIRE times out returns to DRAINING
(R147). -/
def Obligations.ShadeLifecycleInstructions : Prop :=
  ((∀ s p x i b n, s.atIns p x i → i.op = 0x08 → i.field = 0 → i.len = 2 → i.w 0 < 2 ^ 32 →
      (∀ k ∈ s.dev.live, serialGt i.a (s.dev.shade k).num = true) → s.dev.shadeNamed (i.w 0) = some b →
      (List.range 4).find? (fun n => (s.dev.shade n).st == .free) = some n →
      ∃ t, exec (.shadeopen p) s = .next t ∧ Executed s t p x i stDone 64 ∧ Kept ([.shd, .tbl, .brd] ++ logged) s t
        ∧ (t.dev.shade n).st = .opened ∧ (t.dev.shade n).num = i.a ∧ (t.dev.shade n).resident = 0
        ∧ (t.dev.shade n).sets = (s.dev.shade b).sets ∧ (t.dev.shade n).groups = (s.dev.shade b).groups
        ∧ (t.dev.shade n).shapers = (s.dev.shade b).shapers ∧ (t.dev.shade n).policers = (s.dev.shade b).policers
        ∧ ∀ m, m ≠ n → t.dev.shade m = s.dev.shade m)
    ∧ (∀ s p x i n, s.atIns p x i → i.op = 0x09 → i.field = 0 → i.len = 2 → i.w 0 < 2 ^ 54 → i.w 0 ≤ s.dev.turn + 2 ^ 32 →
      s.dev.turn + 2 ≤ i.w 0 → s.dev.shadeNamed i.a = some n → (s.dev.shade n).st = .opened →
      (∀ k ∈ s.dev.live, ((s.dev.shade k).st = .current ∨ (s.dev.shade k).st = .pending) → serialGt i.a (s.dev.shade k).num = true) →
      (∀ k ∈ s.dev.live, (s.dev.shade k).st = .pending → (s.dev.shade k).turn < i.w 0) →
      ∃ t, exec (.tcommit p) s = .next t ∧ Executed s t p x i stDone 32 ∧ Kept (.shd :: logged) s t
        ∧ t.dev.shade n = { s.dev.shade n with st := .pending, turn := i.w 0, fabric := false }
        ∧ ∀ m, m ≠ n → t.dev.shade m = s.dev.shade m)
    ∧ (∀ s p x i n, s.atIns p x i → i.op = 0x09 → i.field = 0 → i.len = 2 → bit (i.w 0) 63 = true → bits (i.w 0) 54 9 = 0 →
      bits (i.w 0) 0 54 ≤ s.dev.turn + 2 ^ 32 → s.dev.turn + max 2 s.dev.lead ≤ bits (i.w 0) 0 54 →
      s.dev.shadeNamed i.a = some n → (s.dev.shade n).st = .opened →
      (∀ k ∈ s.dev.live, ((s.dev.shade k).st = .current ∨ (s.dev.shade k).st = .pending) → serialGt i.a (s.dev.shade k).num = true) →
      (∀ k ∈ s.dev.live, (s.dev.shade k).st = .pending → (s.dev.shade k).turn < bits (i.w 0) 0 54) →
      ∃ t, exec (.tcommitFabric p) s = .next t ∧ Executed s t p x i stDone 32 ∧ Kept ([.shd, .brd] ++ logged) s t
        ∧ t.dev.shade n = { s.dev.shade n with st := .pending, turn := bits (i.w 0) 0 54, fabric := true }
        ∧ t.dev.brd.seq = (s.dev.brd.seq + 1) % 2 ^ 32
        ∧ ∀ m, m ≠ n → t.dev.shade m = s.dev.shade m)
    ∧ (∀ s p x i n, s.atIns p x i → i.op = 0x0A → i.field = 0 → i.len = 2 → 0 < i.w 0 → i.w 0 < 2 ^ 32 → s.dev.shadeNamed i.a = some n →
      (s.dev.shade n).st = .opened →
      ∃ t, exec (.shaderetire p) s = .next t ∧ Executed s t p x i stDone 64 ∧ Kept ([.shd, .tbl, .brd, .lay, .path] ++ logged) s t
        ∧ (t.dev.shade n).st = .free ∧ ∀ m, m ≠ n → t.dev.shade m = s.dev.shade m)
    ∧ (∀ s p x i n, s.atIns p x i → i.op = 0x0A → i.field = 0 → i.len = 2 → 0 < i.w 0 → i.w 0 < 2 ^ 32 → s.dev.shadeNamed i.a = some n →
      (s.dev.shade n).st = .draining → (s.dev.shade n).resident ≠ 0 →
      ∃ t, exec (.shaderetire p) s = .next t ∧ Waits s t p x (.retire n (s.dev.shade n).resident) (some (s.dev.turn + i.w 0)) 64
        ∧ Kept [.shd, .spl] s t ∧ t.dev.shade n = { s.dev.shade n with st := .retiring }
        ∧ ∀ m, m ≠ n → t.dev.shade m = s.dev.shade m)
    ∧ ∀ s p x i n asked e, s.live → s.dev.prog p = some x → insOf x.words = some i → x.phase = .waiting (.retire n asked) e →
      (s.dev.shade n).resident = 0 →
      ∃ t, exec (.shaderetireDrainDone p) s = .next t ∧ Kept ([.shd, .tbl, .brd, .lay, .path] ++ logged) s t
        ∧ (t.dev.shade n).st = .free ∧ t.dev.prog p = some { x with phase := .ended stDone }
        ∧ ∀ m, m ≠ n → t.dev.shade m = s.dev.shade m)
  ∧ (∀ s p x i n k e, s.live → s.dev.prog p = some x → insOf x.words = some i → x.phase = .waiting (.retire n k) (some e) →
      s.dev.reached e = true → (s.dev.shade n).resident ≠ 0 →
      ∃ t, exec (.spliceTimeoutExpiry p) s = .next t ∧ Kept ([.pclk, .reel, .shd] ++ logged) s t ∧ WaitEnded s t p x stTimeout
        ∧ t.dev.shade n = { s.dev.shade n with st := .draining } ∧ ∀ m, m ≠ n → t.dev.shade m = s.dev.shade m)

/-- TSET and TDEL (R138, R144, R190 to R214, R377): the entry of the key stands in the target shade's index afterwards, or is gone from
it, and every entry of another key stands as before; FULL where neither a free line nor the index's own line takes it, and NOT_FOUND
where it does not stand; a counter TSET sets the counter's value for its commit; operands out of range, a target that is not OPEN,
DRAM that is not ready and tokens that others hold are answered as Table 4.6 orders. The line a MAC, exact or ACL entry takes, the
LPM moves and the freed line's contents are the model's (logs 18 and 72). -/
def Obligations.TableInstructions : Prop :=
  (∀ s p x i n, s.atTable p x i n → i.op = 0x01 → i.field ≤ 1 → tsetOk i = true →
    (((ways i.field (tableKey i)).any (s.dev.tbl.freeLine i.field) = true
        ∨ ∃ l e, (s.dev.tbl.holders i.field n (tableKey i)).head? = some l ∧ Map.find (s.dev.tbl.lines i.field) l = some e ∧ e.mask = 2 ^ n) →
      ∃ t, exec (.tset p) s = .next t ∧ Executed s t p x i stDone 96 ∧ Kept ([.tbl, .lay] ++ logged) s t
        ∧ (∃ l e, Map.find (t.dev.tbl.lines i.field) l = some e ∧ l ∈ ways i.field (tableKey i) ∧ e.key = tableKey i ∧ bit e.mask n = true
            ∧ e.result = BitVec.ofNat 64 (i.w (keyWords i)))
        ∧ (∀ l e, Map.find (s.dev.tbl.lines i.field) l = some e → e.key ≠ tableKey i → e.mask ≠ 0 →
            Map.find (t.dev.tbl.lines i.field) l = some e)
        ∧ ∃ m e r, t.dev.tbl = { s.dev.tbl with mac := m, exact := e, rawLpm := r })
    ∧ ((ways i.field (tableKey i)).any (s.dev.tbl.freeLine i.field) = false →
      (∀ l e, (s.dev.tbl.holders i.field n (tableKey i)).head? = some l → Map.find (s.dev.tbl.lines i.field) l = some e → e.mask ≠ 2 ^ n) →
      ∃ t, exec (.tset p) s = .next t ∧ Executed s t p x i stFull 96 ∧ Kept logged s t
        ∧ t.dev.count Reg.tblLearnFail = s.dev.count Reg.tblLearnFail + (if i.field = 0 then 1 else 0)))
  ∧ (∀ s p x i n, s.atTable p x i n → i.op = 0x01 → i.field = 2 → bit i.a 8 = false → tsetOk i = true →
    (narrowBand.fits (i.a % 256) s.dev.tbl.narrowRoom s.dev.tbl.narrow = true →
      ∃ t moves, exec (.tset p) s = .next t ∧ Executed s t p x i stDone (160 + 2 * moves) ∧ Kept ([.tbl, .lay] ++ logged) s t
        ∧ t.dev.count Reg.tblLpmMove = s.dev.count Reg.tblLpmMove + BitVec.ofNat 64 moves
        ∧ (∃ r ∈ t.dev.tbl.narrow, r.plen = i.a % 256 ∧ r.key = tableKey i ∧ bit r.mask n = true
            ∧ r.result = BitVec.ofNat 64 (i.w (keyWords i)))
        ∧ (∀ r ∈ s.dev.tbl.narrow, r.mask ≠ 0 → r.isEntry (i.a % 256) (tableKey i) n = false → r ∈ t.dev.tbl.narrow)
        ∧ ((s.dev.tbl.narrow.map Row.plen).Pairwise (· ≥ ·) → (t.dev.tbl.narrow.map Row.plen).Pairwise (· ≥ ·))
        ∧ ∃ l r, t.dev.tbl = { s.dev.tbl with narrow := l, rawLpm := r })
    ∧ (narrowBand.fits (i.a % 256) s.dev.tbl.narrowRoom s.dev.tbl.narrow = false →
      s.dev.tbl.narrow.any (Row.isEntry (i.a % 256) (tableKey i) n) = false →
      ∃ t, exec (.tset p) s = .next t ∧ Executed s t p x i stFull 160 ∧ Kept logged s t))
  ∧ (∀ s p x i n, s.atTable p x i n → i.op = 0x01 → i.field = 2 → bit i.a 8 = true → tsetOk i = true →
    (wideBand.fits (i.a % 256) s.dev.tbl.wideRoom s.dev.tbl.wide = true →
      s.dev.tbl.wide.any (fun q => q.isEntry (i.a % 256) (tableKey i) n) = false →
      ∃ t moves, exec (.tset p) s = .next t ∧ Executed s t p x i stDone (160 + 2 * moves) ∧ Kept ([.tbl, .lay] ++ logged) s t
        ∧ t.dev.count Reg.tblLpmMove = s.dev.count Reg.tblLpmMove + BitVec.ofNat 64 moves
        ∧ (∃ q ∈ t.dev.tbl.wide, ∃ r ∈ q.rows, r.plen = i.a % 256 ∧ r.key = tableKey i ∧ bit r.mask n = true
            ∧ r.result = BitVec.ofNat 64 (i.w (keyWords i)))
        ∧ (∀ q ∈ s.dev.tbl.wide, ∀ r ∈ q.rows, r.mask ≠ 0 → ∃ q' ∈ t.dev.tbl.wide, r ∈ q'.rows)
        ∧ ∃ l r, t.dev.tbl = { s.dev.tbl with wide := l, rawLpm := r })
    ∧ (wideBand.fits (i.a % 256) s.dev.tbl.wideRoom s.dev.tbl.wide = false → (∀ q ∈ s.dev.tbl.wide, q.plen = i.a % 256 → q.half = false) →
      s.dev.tbl.wide.any (fun q => q.isEntry (i.a % 256) (tableKey i) n) = false →
      ∃ t, exec (.tset p) s = .next t ∧ Executed s t p x i stFull 160 ∧ Kept logged s t))
  ∧ (∀ s p x i n T moves, s.atTable p x i n → i.op = 0x01 → i.field = 2 → tsetOk i = true → s.dev.tbl.tset i n = some (T, moves) →
    ∃ t, exec (.tset p) s = .next t ∧ Executed s t p x i stDone (160 + 2 * moves) ∧ Kept ([.tbl, .lay] ++ logged) s t
      ∧ t.dev.tbl = T.trimRaw ∧ t.dev.tbl.acl = s.dev.tbl.acl ∧ t.dev.tbl.mac = s.dev.tbl.mac ∧ t.dev.tbl.exact = s.dev.tbl.exact)
  ∧ (∀ s p x i n, s.atTable p x i n → i.op = 0x01 → i.field = 3 → tsetOk i = true →
    ((∃ r, r < 65536 ∧ (Map.find s.dev.tbl.acl r).all (fun e => e.mask == 0) = true) →
      ∃ t, exec (.tset p) s = .next t ∧ Executed s t p x i stDone 200 ∧ Kept ([.tbl, .lay] ++ logged) s t
        ∧ (∃ l, Map.find t.dev.tbl.acl l = some { pos := i.a, key := tableKey i, cmask := aclMask i, action := BitVec.ofNat 64 (i.w 20),
                                                  mask := 2 ^ n }
            ∧ ∀ k e, k ≠ l → (∀ e, (k, e) ∈ s.dev.tbl.acl → e.pos ≠ i.a) → Map.find s.dev.tbl.acl k = some e →
                Map.find t.dev.tbl.acl k = some e)
        ∧ ∃ a r, t.dev.tbl = { s.dev.tbl with acl := a, rawLpm := r })
    ∧ ((∀ r, r < 65536 → (Map.find s.dev.tbl.acl r).all (fun e => e.mask == 0) = false) → s.dev.tbl.aclAt n i.a = none →
      ∃ t, exec (.tset p) s = .next t ∧ Executed s t p x i stFull 200 ∧ Kept logged s t))
  ∧ (∀ s p x i n, s.atIns p x i → i.op = 0x01 → i.field = 4 → tsetOk i = true → s.dev.target x = .inl n →
    ∃ t, exec (.tset p) s = .next t ∧ Executed s t p x i stDone 40 ∧ Kept (.shd :: logged) s t
      ∧ Map.find (t.dev.shade n).ctrSet i.a = some (BitVec.ofNat 64 (i.w 0), BitVec.ofNat 64 (i.w 1))
      ∧ ∀ m, m ≠ n → t.dev.shade m = s.dev.shade m)
  ∧ (∀ s p x i n, s.atTable p x i n → i.op = 0x02 → i.field ≤ 1 → tdelOk i = true →
    (∀ l e, s.dev.tbl.holders i.field n (tableKey i) = [l] → Map.find (s.dev.tbl.lines i.field) l = some e →
      ∃ t, exec (.tdel p) s = .next t ∧ Executed s t p x i stDone 96 ∧ Kept ([.tbl, .lay] ++ logged) s t
        ∧ Map.find (t.dev.tbl.lines i.field) l = some { e with mask := setBits e.mask n 1 0 }
        ∧ (∀ k, k ≠ l → Map.find (t.dev.tbl.lines i.field) k = Map.find (s.dev.tbl.lines i.field) k)
        ∧ ∃ m e r, t.dev.tbl = { s.dev.tbl with mac := m, exact := e, rawLpm := r })
    ∧ (s.dev.tbl.holders i.field n (tableKey i) = [] →
      ∃ t, exec (.tdel p) s = .next t ∧ Executed s t p x i stNotFound 96 ∧ Kept logged s t))
  ∧ (∀ s p x i n, s.atTable p x i n → i.op = 0x02 → i.field = 2 → tdelOk i = true →
    (∀ T moves, s.dev.tbl.tdel i n = some (T, moves) →
      ∃ t, exec (.tdel p) s = .next t ∧ Executed s t p x i stDone (160 + 2 * moves) ∧ Kept ([.tbl, .lay] ++ logged) s t ∧ t.dev.tbl = T.trimRaw
        ∧ t.dev.count Reg.tblLpmMove = s.dev.count Reg.tblLpmMove + BitVec.ofNat 64 moves)
    ∧ (bit i.a 8 = false → (s.dev.tbl.narrow.filter (Row.isEntry (i.a % 256) (tableKey i) n)).length = 1 →
      ∃ t moves, exec (.tdel p) s = .next t ∧ Executed s t p x i stDone (160 + 2 * moves) ∧ Kept ([.tbl, .lay] ++ logged) s t
        ∧ t.dev.tbl.narrow.any (Row.isEntry (i.a % 256) (tableKey i) n) = false
        ∧ ∀ r ∈ s.dev.tbl.narrow, r.isEntry (i.a % 256) (tableKey i) n = false → r ∈ t.dev.tbl.narrow)
    ∧ ((if bit i.a 8 then s.dev.tbl.wide.any (fun q => q.isEntry (i.a % 256) (tableKey i) n)
        else s.dev.tbl.narrow.any (Row.isEntry (i.a % 256) (tableKey i) n)) = false →
      ∃ t, exec (.tdel p) s = .next t ∧ Executed s t p x i stNotFound 160 ∧ Kept logged s t))
  ∧ (∀ s p x i n, s.atTable p x i n → i.op = 0x02 → i.field = 3 → tdelOk i = true →
    (∀ l e, s.dev.tbl.aclAt n i.a = some (l, e) → Map.find s.dev.tbl.acl l = some e →
      ∃ t, exec (.tdel p) s = .next t ∧ Executed s t p x i stDone 200 ∧ Kept ([.tbl, .lay] ++ logged) s t
        ∧ Map.find t.dev.tbl.acl l = some { e with mask := setBits e.mask n 1 0 }
        ∧ (∀ k, k ≠ l → Map.find t.dev.tbl.acl k = Map.find s.dev.tbl.acl k)
        ∧ ∃ a r, t.dev.tbl = { s.dev.tbl with acl := a, rawLpm := r })
    ∧ (s.dev.tbl.aclAt n i.a = none → ∃ t, exec (.tdel p) s = .next t ∧ Executed s t p x i stNotFound 200 ∧ Kept logged s t))
  ∧ ∀ s p x i, s.atIns p x i →
    (i.op = 0x01 → tsetOk i = false → ∃ t, exec (.tset p) s = .next t ∧ Executed s t p x i stBadOperand i.cost ∧ Kept logged s t)
    ∧ (i.op = 0x02 → tdelOk i = false → ∃ t, exec (.tdel p) s = .next t ∧ Executed s t p x i stBadOperand i.cost ∧ Kept logged s t)
    ∧ (∀ st, i.op = 0x01 → tsetOk i = true → s.dev.target x = .inr st →
      ∃ t, exec (.tset p) s = .next t ∧ Executed s t p x i st i.cost ∧ Kept logged s t)
    ∧ (∀ st, i.op = 0x02 → tdelOk i = true → s.dev.target x = .inr st →
      ∃ t, exec (.tdel p) s = .next t ∧ Executed s t p x i st i.cost ∧ Kept logged s t)
    ∧ (∀ n, i.op = 0x01 → i.field ≤ 3 → tsetOk i = true → s.dev.target x = .inl n → s.dev.dmc.ready = false →
      ∃ t, exec (.tset p) s = .next t ∧ Executed s t p x i stNotReady i.cost ∧ Kept logged s t)
    ∧ ∀ n r, i.op = 0x01 → i.field ≤ 3 → tsetOk i = true → s.dev.target x = .inl n → s.dev.dmc.ready = true → s.dev.holdsFor x.seq = false →
      r = { who := .prog x.seq, code := 0, res := 0, claims := s.dev.tableClaims i n } → s.dev.grantable s.dev.cal.waiting r = false →
      s.dev.cal.spliceWaits < 64 →
      ∃ t, exec (.tset p) s = .next t ∧ Kept (.cal :: logged) s t ∧ t.dev.prog p = some { x with phase := .deferred }
        ∧ t.dev.cal = { s.dev.cal with waiting := s.dev.cal.waiting ++ [r] } ∧ t.dev.count Reg.calDefer = s.dev.count Reg.calDefer + 1
        ∧ t.dev.count Reg.glbSpliceLogHead = s.dev.count Reg.glbSpliceLogHead + 1

/-- FENCE (R149, R359, R368): the target is fenced, at once DONE when nothing is resident there, else waiting for the drain; CLEAR lifts
the fence; kind 3 registers and floods a RESET. WAITTURN, BARRIER and the waits of R37 (R142, R367, R642): the wait is for the turn
the operands give, and ends at it or, with TIMEOUT, at its expiry. -/
def Obligations.FenceAndWaitInstructions : Prop :=
  ((∀ s p x i, s.atIns p x i → i.op = 0x28 → i.field ≤ 2 → i.len = 2 → 0 < i.w 0 → i.w 0 < 2 ^ 32 → s.dev.fenceTarget i.field i.a = true →
      fenceKey i.field i.a ∉ s.dev.spl.fences → s.dev.residentOf (fenceKey i.field i.a).1 (fenceKey i.field i.a).2 = 0 →
      ∃ t, exec (.fence p) s = .next t ∧ Executed s t p x i stDone 32 ∧ Kept logged s t
        ∧ t.dev.spl.fences = s.dev.spl.fences ++ [fenceKey i.field i.a])
    ∧ (∀ s p x i, s.atIns p x i → i.op = 0x28 → i.field ≤ 2 → i.len = 2 → 0 < i.w 0 → i.w 0 < 2 ^ 32 → s.dev.fenceTarget i.field i.a = true →
      fenceKey i.field i.a ∉ s.dev.spl.fences → s.dev.residentOf (fenceKey i.field i.a).1 (fenceKey i.field i.a).2 ≠ 0 →
      ∃ t, exec (.fence p) s = .next t ∧ Kept [.spl] s t ∧ t.dev.spl.fences = s.dev.spl.fences ++ [fenceKey i.field i.a]
        ∧ Waits s t p x (.fence (fenceKey i.field i.a).1 (fenceKey i.field i.a).2) (some (s.dev.turn + i.w 0)) 32)
    ∧ (∀ s p x i, s.atIns p x i → i.op = 0x28 → 4 ≤ i.field → i.field ≤ 6 → i.len = 2 → i.w 0 < 2 ^ 32 →
      s.dev.fenceTarget (i.field % 4) i.a = true → (∀ y ∈ s.dev.spl.progs, ∀ w e, y.phase ≠ .waiting w e) →
      ∃ t, exec (.fenceClear p) s = .next t ∧ Executed s t p x i stDone 32 ∧ Kept logged s t
        ∧ t.dev.spl.fences = s.dev.spl.fences.filter (· != fenceKey (i.field % 4) i.a))
    ∧ (∀ s p x i, s.atIns p x i → i.op = 0x28 → i.field = 3 → i.len = 2 → i.a < 2 ^ 24 → i.w 0 < 2 ^ 32 → s.dev.lead ≤ i.w 0 →
      s.dev.resetPending i.a = false →
      ∃ t, exec (.fenceReset p) s = .next t ∧ Executed s t p x i stDone 32 ∧ Kept (.brd :: logged) s t
        ∧ t.dev.brd.resets = s.dev.brd.resets ++ [(i.a, s.dev.turn + i.w 0)] ∧ t.dev.brd.seq = (s.dev.brd.seq + 1) % 2 ^ 32)
    ∧ ∀ s p x i k t0 e, s.live → s.dev.prog p = some x → insOf x.words = some i → x.phase = .waiting (.fence k t0) e →
      s.dev.residentOf k t0 = 0 →
      ∃ t, exec (.fenceDrainDone p) s = .next t ∧ Kept logged s t ∧ WaitEnded s t p x stDone)
  ∧ ((∀ s p x i, s.atIns p x i → i.op = 0x29 → i.field = 0 → i.a = 0 → i.len = 2 → i.w 0 < 2 ^ 54 → i.w 0 ≤ s.dev.turn →
      ∃ t, exec (.waitturn p) s = .next t ∧ Executed s t p x i stDone 16 ∧ Kept logged s t)
    ∧ (∀ s p x i, s.atIns p x i → i.op = 0x29 → i.field = 0 → i.a = 0 → i.len = 2 → i.w 0 < 2 ^ 54 → s.dev.turn < i.w 0 →
      i.w 0 ≤ s.dev.turn + 2 ^ 32 →
      ∃ t, exec (.waitturn p) s = .next t ∧ Waits s t p x (.turn (i.w 0)) none 16 ∧ Kept [.spl] s t)
    ∧ (∀ s p x i t0 e, s.live → s.dev.prog p = some x → insOf x.words = some i → x.phase = .waiting (.turn t0) e → s.dev.reached t0 = true →
      ∃ t, exec (.waitturnDone p) s = .next t ∧ Kept ([.pclk, .reel] ++ logged) s t ∧ WaitEnded s t p x stDone
        ∧ t.dev.pclk = s.dev.pclk + s.dev.pclk % 2)
    ∧ (∀ s p x i, s.atIns p x i → i.op = 0x2A → i.field = 0 → i.a < 2 ^ 16 → i.len = 1 →
      ∃ t, exec (.barrier p) s = .next t ∧ Waits s t p x (.barrier (max s.dev.turn s.dev.reel.served + 1) false false) none 32
        ∧ Kept [.spl] s t)
    ∧ (∀ s p x i, s.atIns p x i → i.op = 0x2A → i.field = 1 → i.a < 2 ^ 16 → i.len = 1 →
      ∃ t, exec (.barrierFabric p) s = .next t ∧ Kept [.spl] s t
        ∧ Waits s t p x (.barrier (ceilDiv (s.dev.ns + 2 * s.dev.brd.h * s.dev.brd.hopNs) 1024) true (s.dev.reel.st != .locked)) none 32)
    ∧ (∀ s p x i t0 f b e, s.live → s.dev.prog p = some x → insOf x.words = some i → x.phase = .waiting (.barrier t0 f b) e →
      s.dev.reached t0 = true →
      ∃ t, exec (.barrierComplete p) s = .next t ∧ Kept ([.pclk, .reel] ++ logged) s t
        ∧ WaitEnded s t p x (if f && (b || s.dev.reel.st != .locked) then stTimeout else stDone)
        ∧ t.dev.pclk = s.dev.pclk + s.dev.pclk % 2)
    ∧ ∀ s p x i w e, s.live → s.dev.prog p = some x → insOf x.words = some i → x.phase = .waiting w (some e) →
      s.dev.reached e = true → s.dev.awaited w = false → (∀ n k, w ≠ .retire n k) →
      ∃ t, exec (.spliceTimeoutExpiry p) s = .next t ∧ Kept ([.pclk, .reel] ++ logged) s t ∧ WaitEnded s t p x stTimeout)

/-- Programs are accepted, started and resumed (R36, R37, R73, R75, R136): in the order offered, but that a queue waiting for a place or
an AT entry is passed by, an AT program at its turn when one of the 16 places is free. PROGLOAD (R81, R103): the image becomes the
program set of the named lays in the target shade, and of no other lay or shade. REELSRC, PORTSET, RNGDRAW and FALLBACK (R53, R150,
R151, R589). A port that PORTSET takes down has the new configuration as one that it leaves up, where nothing but the packet path
and the braid changes. -/
def Obligations.ProgramInstructions : Prop :=
  ((∀ s words o, s.live → s.dev.nextOffer = some o → words.length ≤ 65536 → headerOk words = true →
      s.dev.logKept + 3 ≤ s.dev.room → (s.dev.progOf o words).turn = none → s.dev.spl.progs.length < 16 →
      ∃ t, exec (.spliceProgramAccept words) s = .next t ∧ Kept [.spl, .ctr] s t
        ∧ t.dev.spl.progs = s.dev.spl.progs ++ [s.dev.progOf o words] ∧ t.dev.spl.offers = s.dev.spl.offers.erase o
        ∧ t.dev.spl.nextSeq = s.dev.spl.nextSeq + 1 ∧ t.dev.spl.atList = s.dev.spl.atList
        ∧ t.dev.count Reg.glbSpliceAccept = s.dev.count Reg.glbSpliceAccept + 1)
    ∧ (∀ s words o t0, s.live → s.dev.nextOffer = some o → words.length ≤ 65536 → headerOk words = true →
      s.dev.logKept + 3 ≤ s.dev.room → (s.dev.progOf o words).turn = some t0 → s.dev.turn < t0 → t0 ≤ s.dev.turn + 2 ^ 32 → s.dev.spl.atList.length < 1024 →
      ∃ t, exec (.spliceProgramAccept words) s = .next t ∧ Kept [.spl, .ctr] s t
        ∧ t.dev.spl.atList = s.dev.spl.atList ++ [s.dev.progOf o words] ∧ t.dev.spl.offers = s.dev.spl.offers.erase o ∧ t.dev.spl.progs = s.dev.spl.progs)
    ∧ (∀ s x, s.live → s.dev.nextAt = some x → s.dev.reached (x.turn.getD 0) = true →
      s.dev.slotOver (x.turn.getD 0) = true → s.dev.timersOver (x.turn.getD 0) = true → s.dev.spl.progs.length < 16 →
      ∃ t, exec .atProgramStart s = .next t ∧ Kept [.spl, .pclk, .reel] s t ∧ t.dev.spl.progs = s.dev.spl.progs ++ [x]
        ∧ t.dev.spl.atList = s.dev.spl.atList.filter (·.seq != x.seq))
    ∧ ∀ s p x i, s.live → s.dev.prog p = some x → insOf x.words = some i → x.phase = .ended stDone → s.dev.spl.cur = none → 2 ≤ x.left →
      ∃ t, exec (.spliceProgramResume p) s = .next t ∧ Kept [.spl, .hif, .ctr] s t
        ∧ t.dev.prog p = some { x with words := x.words.drop i.len, idx := x.idx + 1, left := x.left - 1, phase := .running })
  ∧ (∀ s p x i n (img : Image) set, s.atIns p x i → set = { img.set with x := i.field, strands := bits (i.w 1) 48 16 } → i.op = 0x18 → i.field ≤ 4 → i.a ≠ 0 → i.len = 3 → bits (i.w 1) 32 16 = 0 →
      (s.dev.variant24 = true → i.a < 2 ^ 16) → s.dev.target x = .inl n → img.digestOk = true →
      (bit s.dev.she.policy 0 = true ∨ img.header = true → img.signedOk = true) → setBlocks img.set = false → envelopesOk img.set = true →
      (setSlows img.set = true → i.field ≠ 0) →
      (∀ l ∈ bitList i.a 32, s.dev.fits n l set = true) →
      (img.set.autBytes = 0 ∨ (s.dev.cal.holds = [] ∧ s.dev.cal.waiting = [] ∧ s.dev.cal.placeQ = [])) →
      ∃ t, exec (.progload p img) s = .next t ∧ Executed s t p x i stDone (2048 + ceilDiv (bits (i.w 1) 0 32) 16)
        ∧ Kept ([.shd, .path, .lay] ++ logged) s t
        ∧ t.dev.shade n = { s.dev.shade n with
            sets := (bitList i.a 32).foldl (fun m l => Map.put m l set) (s.dev.shade n).sets
            loads := (bitList i.a 32).foldl (fun m l => Map.put m l (s.dev.lay.loads + 1)) (s.dev.shade n).loads }
        ∧ t.dev.lay = { s.dev.lay with loads := s.dev.lay.loads + 1 }
        ∧ ∀ m, m ≠ n → t.dev.shade m = s.dev.shade m)
  ∧ ((∀ s p x i, s.atIns p x i → i.op = 0x22 → i.field < 16 → i.len = 3 → i.a < 2 ^ 12 → bits i.a 0 4 ≤ 6 → bits (i.w 0) 24 8 = 0 →
      (bits i.a 0 4 = 1 ∨ bits i.a 0 4 = 2 ∨ bits i.a 0 4 = 4 → bits i.a 4 8 < s.dev.lanes) →
      ∃ t, exec (.reelsrc p) s = .next t ∧ Executed s t p x i stDone 32 ∧ Kept (.reel :: logged) s t
        ∧ (bits i.a 0 4 = 0 → Map.find t.dev.reel.cands i.field = none)
        ∧ (bits i.a 0 4 ≠ 0 → ∃ c, Map.find t.dev.reel.cands i.field = some c ∧ c.kind = bits i.a 0 4 ∧ c.port = bits i.a 4 8
          ∧ c.prio1 = bits (i.w 0) 0 8 ∧ c.prio2 = bits (i.w 0) 8 8 ∧ c.selPrio = bits (i.w 0) 16 8
          ∧ c.asym = signed 32 (bits (i.w 0) 32 32) ∧ c.floorU = bits (i.w 1) 0 32 ∧ c.ageA = bits (i.w 1) 32 32)
        ∧ ∀ e, e ≠ i.field → Map.find t.dev.reel.cands e = Map.find s.dev.reel.cands e)
    ∧ (∀ s p x i, s.atIns p x i → i.op = 0x10 → s.dev.portsetOk i = true → s.dev.fenced 0 i.a = false → s.dev.fenced 1 i.a = false →
      ∃ t, exec (.portset p) s = .next t
        ∧ (∃ y, Map.find t.dev.path.ports i.a = some y
          ∧ { y with link := false, removing := false } = portOf (i.w 0) (i.w 1))
        ∧ (((s.dev.port i.a).differs (portOf (i.w 0) (i.w 1)) = false
              ∧ ((s.dev.port i.a).enable = true → (portOf (i.w 0) (i.w 1)).enable = true)) ∨ Map.find s.dev.path.ports i.a = none →
            Executed s t p x i stDone 48 ∧ Kept ([.path, .brd] ++ logged) s t
            ∧ ∀ q, q ≠ i.a → t.dev.port q = s.dev.port q))
    ∧ (∀ s p x i, s.atIns p x i → i.op = 0x39 → i.field = 0 → i.len = 2 → 1 ≤ i.a → i.a ≤ 4096 → s.dev.she.rng = .ready →
      ∃ t, exec (.rngdraw p) s = .next t ∧ Executed s t p x i stDone (32 + ceilDiv i.a 16) ∧ Kept ([.drawn, .she] ++ logged) s t
        ∧ t.dev.she = { s.dev.she with draws := s.dev.she.draws + 1 })
    ∧ ∀ s p x i, s.atIns p x i → i.op = 0x38 → i.a = 0 → i.len = 1 → (s.dev.qp x.qp).slice = 0 →
      (i.field = 1 ∨ (0x80 ≤ i.field ∧ i.field ≤ 0xFF)) → s.dev.boot.capTrial = true →
      ∃ t, exec (.fallback p) s = .next t ∧ Kept (.boot :: logged) s t
        ∧ t.dev.prog p = some { x with phase := .waiting .fallback none }
        ∧ t.dev.spl.busy = max s.dev.pclk s.dev.spl.busy + 64 ∧ t.dev.boot = { s.dev.boot with fallAt := some (s.dev.turn + 1, i.field) }
        ∧ t.dev.count Reg.glbSpliceLogHead = s.dev.count Reg.glbSpliceLogHead + 1)

/-- JOIN and LEAVE (R350, R351, R358, R359): the entry of the target shade is written, or its membership taken away; a node's own
identifier waits in the shade for its commit, and a LEAVE SELF for the drain of transit. -/
def Obligations.JoinAndLeaveInstructions : Prop :=
  (∀ s p x i n, s.atIns p x i → i.op = 0x2B → i.field = 0 → i.len = 2 → 1 ≤ i.a → i.a ≤ 0xFFFF → bits (i.w 0) 6 10 = 0 →
    bits (i.w 0) 32 32 = 0 → s.dev.target x = .inl n →
    ∃ t, exec (.joinSelf p) s = .next t ∧ Executed s t p x i stDone 64 ∧ Kept (.shd :: logged) s t
      ∧ t.dev.shade n = { s.dev.shade n with joinSelf := some (i.a, bits (i.w 0) 0 6, bits (i.w 0) 16 16), dropSelf := false }
      ∧ ∀ m, m ≠ n → t.dev.shade m = s.dev.shade m)
  ∧ (∀ s p x i n, s.atIns p x i → i.op = 0x2B → i.field = 1 → i.len = 3 → 1 ≤ i.a → i.a ≤ 0xFFFF → s.dev.joinOk i = true →
    s.dev.target x = .inl n → s.dev.hopFenced i = false → (leaveRoutes n i.a s.dev.brd.nodes).length < 65536 →
    ∃ t, exec (.joinNode p) s = .next t ∧ Executed s t p x i stDone 64 ∧ Kept (.brd :: logged) s t
      ∧ t.dev.brd = { s.dev.brd with nodes := leaveRoutes n i.a s.dev.brd.nodes ++
          [{ id := i.a, mask := 2 ^ n, hops := hopsOf i, adaptive := bit (i.w 0) 3, gap := bits (i.w 0) 4 4, face := 0 }] })
  ∧ (∀ s p x i n, s.atIns p x i → i.op = 0x2B → i.field = 2 → i.len = 4 → 0x10000 ≤ i.a → i.a ≤ 0xEFFFFF → 1 ≤ i.w 2 → i.w 2 ≤ 0xEFFFFF →
    s.dev.joinOk i = true → s.dev.target x = .inl n → s.dev.hopFenced i = false →
    (leaveRoutes n i.a s.dev.brd.knots).length + s.dev.brd.members.length < 16384 →
    ∃ t, exec (.joinKnot p) s = .next t ∧ Executed s t p x i stDone 64 ∧ Kept (.brd :: logged) s t
      ∧ t.dev.brd = { s.dev.brd with knots := leaveRoutes n i.a s.dev.brd.knots ++
          [{ id := i.a, mask := 2 ^ n, hops := hopsOf i, adaptive := bit (i.w 0) 3, gap := bits (i.w 0) 4 4, face := i.w 2 }] })
  ∧ (∀ s p x i n, s.atIns p x i → i.op = 0x2B → i.field = 3 → i.len = 2 → 0x10000 ≤ i.a → i.a ≤ 0xEFFFFF → i.w 0 < 8 →
    (bit (i.w 0) 2 = true → bit (i.w 0) 0 = true) → s.dev.target x = .inl n → (routeIn s.dev.brd.knots n i.a).isSome = true →
    s.dev.brd.knots.length + (leaveMembers n i.a s.dev.brd.members).length < 16384 →
    ∃ t, exec (.joinMember p) s = .next t ∧ Executed s t p x i stDone 64 ∧ Kept (.brd :: logged) s t
      ∧ t.dev.brd = { s.dev.brd with members := leaveMembers n i.a s.dev.brd.members ++
          [{ id := i.a, mask := 2 ^ n, face := bit (i.w 0) 0, gateway := bit (i.w 0) 1, lender := bit (i.w 0) 2 }] })
  ∧ (∀ s p x i n, s.atIns p x i → i.op = 0x2C → i.field = 0 → i.len = 2 → i.a < 2 ^ 24 → 0 < i.w 0 → i.w 0 < 2 ^ 32 →
    s.dev.target x = .inl n → (2, 0) ∉ s.dev.spl.fences → s.dev.residentOf 2 0 = 0 →
    ∃ t, exec (.leaveSelf p) s = .next t ∧ Executed s t p x i stDone 64 ∧ Kept (.shd :: logged) s t
      ∧ t.dev.shade n = { s.dev.shade n with dropSelf := true, joinSelf := none } ∧ t.dev.spl.fences = s.dev.spl.fences ++ [(2, 0)])
  ∧ (∀ s p x i n, s.atIns p x i → i.op = 0x2C → i.field = 0 → i.len = 2 → i.a < 2 ^ 24 → 0 < i.w 0 → i.w 0 < 2 ^ 32 →
    s.dev.target x = .inl n → (2, 0) ∉ s.dev.spl.fences → s.dev.residentOf 2 0 ≠ 0 →
    ∃ t, exec (.leaveSelf p) s = .next t ∧ Waits s t p x .leaveSelf (some (s.dev.turn + i.w 0)) 64 ∧ Kept [.spl] s t
      ∧ t.dev.spl.fences = s.dev.spl.fences ++ [(2, 0)])
  ∧ (∀ s p x i n e, s.live → s.dev.prog p = some x → insOf x.words = some i → x.phase = .waiting .leaveSelf e →
    s.dev.residentOf 2 0 = 0 → s.dev.shadeNamed x.shade = some n →
    ∃ t, exec (.leaveSelfDrainDone p) s = .next t ∧ Kept (.shd :: logged) s t ∧ WaitEnded s t p x stDone
      ∧ t.dev.shade n = { s.dev.shade n with dropSelf := true, joinSelf := none })
  ∧ (∀ s p x i n, s.atIns p x i → i.op = 0x2C → i.field = 1 → i.len = 1 → i.a < 2 ^ 24 → s.dev.target x = .inl n →
    (routeIn s.dev.brd.nodes n i.a).isSome = true →
    ∃ t, exec (.leaveNode p) s = .next t ∧ Executed s t p x i stDone 64 ∧ Kept (.brd :: logged) s t
      ∧ t.dev.brd = { s.dev.brd with nodes := leaveRoutes n i.a s.dev.brd.nodes })
  ∧ (∀ s p x i n, s.atIns p x i → i.op = 0x2C → i.field = 2 → i.len = 1 → i.a < 2 ^ 24 → s.dev.target x = .inl n →
    (routeIn s.dev.brd.knots n i.a).isSome = true →
    ∃ t, exec (.leaveKnot p) s = .next t ∧ Executed s t p x i stDone 64 ∧ Kept (.brd :: logged) s t
      ∧ t.dev.brd = { s.dev.brd with knots := leaveRoutes n i.a s.dev.brd.knots })
  ∧ ∀ s p x i n, s.atIns p x i → i.op = 0x2C → i.field = 3 → i.len = 1 → i.a < 2 ^ 24 → s.dev.target x = .inl n →
    (s.dev.member n i.a).isSome = true →
    ∃ t, exec (.leaveMember p) s = .next t ∧ Executed s t p x i stDone 64 ∧ Kept (.brd :: logged) s t
      ∧ t.dev.brd = { s.dev.brd with members := leaveMembers n i.a s.dev.brd.members }

/-- SNAP (R148, R366): the snapshot joins those that wait, at most four; with FABRIC it is flooded to the braid too. CAL (R379, R380):
RUN waits for the next slot; SET_PERIOD, SUSPEND and RESUME change the period of the one activity they name. -/
def Obligations.SnapAndCalInstructions : Prop :=
  ((∀ s p x i, s.atIns p x i → i.op = 0x20 → i.field = 0 → i.len = 2 → i.a < 2 ^ 19 → i.w 0 < 2 ^ 54 → s.dev.turn < i.w 0 →
      i.w 0 ≤ s.dev.turn + 2 ^ 32 → s.dev.spl.snaps.length < 4 →
      ∃ t, exec (.snap p) s = .next t ∧ Executed s t p x i stDone 32 ∧ Kept logged s t
        ∧ t.dev.spl.snaps = s.dev.spl.snaps ++ [⟨i.w 0, i.a, false⟩])
    ∧ ∀ s p x i, s.atIns p x i → i.op = 0x20 → i.field = 1 → i.len = 2 → i.a < 2 ^ 19 → i.w 0 < 2 ^ 54 → s.dev.turn < i.w 0 →
      s.dev.turn + s.dev.lead ≤ i.w 0 → i.w 0 ≤ s.dev.turn + 2 ^ 32 → s.dev.spl.snaps.length < 4 →
      ∃ t, exec (.snapFabric p) s = .next t ∧ Executed s t p x i stDone 32 ∧ Kept (.brd :: logged) s t
        ∧ t.dev.spl.snaps = s.dev.spl.snaps ++ [⟨i.w 0, i.a, true⟩] ∧ t.dev.brd.seq = (s.dev.brd.seq + 1) % 2 ^ 32)
  ∧ ((∀ s p x i, s.atIns p x i → i.op = 0x21 → i.w 0 % 4 = 0 → s.dev.calOk i = true → s.dev.calNotReady i.field = false →
      s.dev.flashOk i.field i.a = true →
      ∃ t, exec (.calRun p) s = .next t ∧ Waits s t p x (.activity i.field i.a) none 48 ∧ Kept [.cal, .spl] s t
        ∧ t.dev.cal = { s.dev.cal with asked := s.dev.cal.asked ++ [{ who := .prog x.seq, code := i.field, res := i.a, claims := [], turn := s.dev.reel.served }] })
    ∧ (∀ s p x i, s.atIns p x i → i.op = 0x21 → i.w 0 % 4 = 1 → s.dev.calOk i = true → s.dev.calNotReady i.field = false →
      ∃ t, exec (.calSetPeriod p) s = .next t ∧ Executed s t p x i stDone 48 ∧ Kept (.cal :: logged) s t
        ∧ t.dev.period i.field i.a = { s.dev.period i.field i.a with
            turns := if bits (i.w 0) 32 32 = 0 then none else some (bits (i.w 0) 32 32), next := s.dev.turn + bits (i.w 0) 32 32 }
        ∧ (∀ k, k ≠ calKey i.field i.a → Map.find t.dev.cal.periods k = Map.find s.dev.cal.periods k)
        ∧ t.dev.cal = { s.dev.cal with periods := t.dev.cal.periods, scrub := Map.del s.dev.cal.scrub (calKey i.field i.a) })
    ∧ (∀ s p x i, s.atIns p x i → i.op = 0x21 → i.w 0 % 4 = 2 → s.dev.calOk i = true → s.dev.calNotReady i.field = false →
      ∃ t, exec (.calSuspend p) s = .next t ∧ Executed s t p x i stDone 48 ∧ Kept (.cal :: logged) s t
        ∧ t.dev.period i.field i.a = { s.dev.period i.field i.a with suspended := true }
        ∧ (∀ k, k ≠ calKey i.field i.a → Map.find t.dev.cal.periods k = Map.find s.dev.cal.periods k)
        ∧ t.dev.cal = { s.dev.cal with periods := t.dev.cal.periods })
    ∧ ∀ s p x i, s.atIns p x i → i.op = 0x21 → i.w 0 % 4 = 3 → s.dev.calOk i = true → s.dev.calNotReady i.field = false →
      ∃ t, exec (.calResume p) s = .next t ∧ Executed s t p x i stDone 48 ∧ Kept (.cal :: logged) s t
        ∧ t.dev.period i.field i.a = { s.dev.period i.field i.a with suspended := false, next := s.dev.turn + 1 }
        ∧ (∀ k, k ≠ calKey i.field i.a → Map.find t.dev.cal.periods k = Map.find s.dev.cal.periods k)
        ∧ t.dev.cal = { s.dev.cal with periods := t.dev.cal.periods, scrub := Map.del s.dev.cal.scrub (calKey i.field i.a) })

/-- QPSET of a queue pair (R424 to R426): ENABLE makes it ACTIVE with the settings of its words; without it an IDLE one is released. The
steering of a NET_RECV queue and the tags of what the queue pair held go with it. QUIESCE and ABORT of another queue pair of the
submitter's (R442 to R444): an ACTIVE one becomes QUIESCING, or IDLE with nothing outstanding; an aborted one is ABORTING or IDLE.
Both wait for it to be IDLE. One of the submitter itself, or of a queue pair that is DISABLED or IDLE, completes BAD_OPERAND (R444).
QPSET of the archive binding and of a view of the logline (R303). -/
def Obligations.QueuePairInstructions : Prop :=
  ((∀ s p x i, s.atIns p x i → i.op = 0x30 → i.field ≠ 6 → bit (i.w 2) 32 = true → s.dev.qpsetOk i = true →
      (bit (i.w 2) 33 = true ∨ (s.dev.countQps fun k y => k != i.a && !y.capstan && y.fnKey == (qpOf i).fnKey) < 2048) →
      (s.dev.countQps fun k y => k != i.a && y.slice == (qpOf i).slice) < 256 →
      (i.field = 2 → (s.dev.countQps fun k y => k != i.a && y.kind == 2) < 4096) →
      ∃ t, exec (.qpsetEnable p) s = .next t ∧ Executed s t p x i stDone 48 ∧ Kept logged s t
        ∧ (t.dev.qp i.a).st = .active ∧ (t.dev.qp i.a).kind = i.field ∧ (t.dev.qp i.a).slice = bits (i.w 2) 50 12
        ∧ (t.dev.qp i.a).sqBase = i.w 0 ∧ (t.dev.qp i.a).cqBase = i.w 1 ∧ (t.dev.qp i.a).sqDepth = 2 ^ (bits (i.w 2) 0 4 + 6)
        ∧ (t.dev.qp i.a).cqDepth = 2 ^ (bits (i.w 2) 4 4 + 6) ∧ (t.dev.qp i.a).weight = bits (i.w 2) 8 8
        ∧ (t.dev.qp i.a).burst = bits (i.w 2) 16 16 ∧ (t.dev.qp i.a).prod = 0 ∧ (t.dev.qp i.a).fetched = 0
        ∧ (i.field = 1 ∧ bit (i.w 4) 12 = true →
            Map.find t.dev.hif.steer (bits (i.w 4) 0 8) = some (i.a, bits (i.w 4) 8 4)))
    ∧ ∀ s p x i, s.atIns p x i → i.op = 0x30 → i.field ≤ 5 → bit (i.w 2) 32 = false → i.len = 6 → i.a < 65536 →
      (s.dev.qp i.a).st = .idle →
      ∃ t, exec (.qpsetRelease p) s = .next t ∧ Executed s t p x i stDone 48 ∧ Kept logged s t
        ∧ Map.find t.dev.hif.qps i.a = none ∧ (t.dev.qp i.a).st = .disabled)
  ∧ ((∀ s p x i, s.atIns p x i → i.op = 0x31 → i.field = 0 → i.len = 2 → 0 < i.w 0 → i.w 0 < 2 ^ 32 → s.dev.stoppable x i.a = true →
      ∃ t, exec (.quiesce p) s = .next t ∧ Waits s t p x (.quiesce i.a) (some (s.dev.turn + i.w 0)) 32 ∧ Kept [.hif, .spl] s t
        ∧ t.dev.qp i.a = Qp.settle { s.dev.qp i.a with st := if (s.dev.qp i.a).st = .active then .quiescing else (s.dev.qp i.a).st }
        ∧ ∀ q, q ≠ i.a → t.dev.qp q = s.dev.qp q)
    ∧ (∀ s p x i ring, s.atIns p x i → (i.a = x.qp ∨ (s.dev.qp i.a).st = .disabled ∨ (s.dev.qp i.a).st = .idle) →
      (i.op = 0x31 → ∃ t, exec (.quiesce p) s = .next t ∧ Executed s t p x i stBadOperand 32 ∧ Kept logged s t)
      ∧ (i.op = 0x32 → ∃ t, exec (.abort p ring) s = .next t ∧ Executed s t p x i stBadOperand 32 ∧ Kept logged s t))
    ∧ ∀ s p x i ring, s.atIns p x i → i.op = 0x32 → i.field = 0 → i.len = 1 → s.dev.stoppable x i.a = true →
      ∃ t, exec (.abort p ring) s = .next t
        ∧ ((s.dev.qp i.a).kind = 1 ∨ (s.dev.qp i.a).kind = 5 → (s.dev.qp i.a).bufs = [] → (s.dev.qp i.a).descs = [] →
            (s.dev.qp i.a).prod ≤ (s.dev.qp i.a).fetched →
            Waits s t p x (.abort i.a) none 32 ∧ Kept [.hif, .spl] s t
            ∧ t.dev.qp i.a = Qp.settle { s.dev.qp i.a with st := .aborting } ∧ ∀ q, q ≠ i.a → t.dev.qp q = s.dev.qp q))
  ∧ ((∀ s p x i, s.atIns p x i → i.op = 0x30 → i.field = 6 → bit (i.w 0) 0 = true → i.len = 10 → i.a = 0 → bit (i.w 0) 1 = false →
      bits (i.w 0) 3 29 = 0 → portMap i 1 &&& portMap i 5 = 0 →
      portMap i 1 < 2 ^ s.dev.lanes → portMap i 5 < 2 ^ s.dev.lanes → bit (i.w 0) 2 = true → bits (i.w 0) 32 32 < 16384 →
      ∃ t, exec (.qpsetLoglineArchive p) s = .next t ∧ Executed s t p x i stDone 48 ∧ Kept (.log :: logged) s t
        ∧ t.dev.log = { s.dev.log with archive := some (bits (i.w 0) 32 32, portMap i 1, portMap i 5), archVol := some (bits (i.w 0) 32 32) })
    ∧ (∀ s p x i, s.atIns p x i → i.op = 0x30 → i.field = 6 → bit (i.w 0) 0 = true → i.len = 10 → i.a = 0 → bit (i.w 0) 1 = false →
      bits (i.w 0) 3 29 = 0 → portMap i 1 &&& portMap i 5 = 0 →
      portMap i 1 < 2 ^ s.dev.lanes → portMap i 5 < 2 ^ s.dev.lanes → bit (i.w 0) 2 = false →
      ∃ t, exec (.qpsetLoglineArchive p) s = .next t ∧ Executed s t p x i stDone 48 ∧ Kept (.log :: logged) s t
        ∧ t.dev.log = { s.dev.log with archive := none, archVol := none })
    ∧ (∀ s p x i, s.atIns p x i → i.op = 0x30 → i.field = 6 → bit (i.w 0) 0 = false → i.len = 10 → i.a < 64 → bits (i.w 0) 15 17 = 0 →
      bits (i.w 0) 48 16 = 0 → portMap i 1 < 2 ^ s.dev.lanes → bit (i.w 0) 2 = true → (s.dev.qp (viewOf i).qp).st = .active → (s.dev.qp (viewOf i).qp).kind = 5 →
      (s.dev.qp (viewOf i).qp).slice = (viewOf i).slice →
      ∃ t, exec (.qpsetLoglineView p) s = .next t ∧ Executed s t p x i stDone 48 ∧ Kept (.log :: logged) s t
        ∧ (∃ v, Map.find t.dev.log.views i.a = some v ∧ { v with held := (viewOf i).held, span := (viewOf i).span } = viewOf i)
        ∧ (∀ k, k ≠ i.a → Map.find t.dev.log.views k = Map.find s.dev.log.views k)
        ∧ t.dev.log = { s.dev.log with views := t.dev.log.views })
    ∧ ∀ s p x i, s.atIns p x i → i.op = 0x30 → i.field = 6 → bit (i.w 0) 0 = false → i.len = 10 → i.a < 64 → bits (i.w 0) 15 17 = 0 →
      bits (i.w 0) 48 16 = 0 → portMap i 1 < 2 ^ s.dev.lanes → bit (i.w 0) 2 = false →
      ∃ t, exec (.qpsetLoglineView p) s = .next t ∧ Executed s t p x i stDone 48 ∧ Kept (.log :: logged) s t
        ∧ t.dev.log = { s.dev.log with views := Map.del s.dev.log.views i.a })

/-- SLCSET (R453 to R455): a slice that is not enabled is enabled with full buckets; an enabled one keeps its settings until the next
boundary, its manager changed at once; a released one is gone with its key slots and views. SLCRESET and the end of its stall (R461,
R463): every command goes on; a slice to which no queue pair is bound takes the next generation, 1 after 65535, and its mailboxes
hold no message. -/
def Obligations.SliceInstructions : Prop :=
  ((∀ s p x i, s.atIns p x i → i.op = 0x33 → bit (i.w 0) 0 = true → i.field = 0 → i.len = 13 →
      s.dev.mayName (s.dev.qp x.qp).slice i.a = true → s.dev.slcsetOk i = true → s.dev.slice i.a = none →
      (bit (i.w 0) 8 = true ∨ (Map.keysWhere s.dev.slc fun n z =>
        n != i.a && !z.capstan && z.port == (sliceOf i).port && z.fn == (sliceOf i).fn).length < 1024) →
      ∃ t, exec (.slcset p) s = .next t ∧ Executed s t p x i stDone 48 ∧ Kept logged s t
        ∧ ∃ y, t.dev.slice i.a = some y ∧ { y with levels := (sliceOf i).levels } = sliceOf i)
    ∧ (∀ s p x i z, s.atIns p x i → i.op = 0x33 → bit (i.w 0) 0 = true → i.field = 0 → i.len = 13 →
      s.dev.mayName (s.dev.qp x.qp).slice i.a = true → s.dev.slcsetOk i = true → s.dev.slice i.a = some z →
      (bit (i.w 0) 8 = true ∨ (Map.keysWhere s.dev.slc fun n z =>
        n != i.a && !z.capstan && z.port == (sliceOf i).port && z.fn == (sliceOf i).fn).length < 1024) →
      ∃ t, exec (.slcset p) s = .next t ∧ Executed s t p x i stDone 48 ∧ Kept logged s t
        ∧ ∃ y, t.dev.slice i.a = some y ∧ y.cfg = z.cfg ∧ y.next = some (slcCfgOf i) ∧ y.mgr = bits (i.w 0) 35 12 ∧ y.gen = z.gen)
    ∧ ∀ s p x i, s.atIns p x i → i.op = 0x33 → bit (i.w 0) 0 = false → i.field = 0 → i.len = 13 →
      s.dev.mayName (s.dev.qp x.qp).slice i.a = true → s.dev.qpsOf i.a = [] →
      (∀ e ∈ s.dev.she.slots, e.2.owner = i.a → e.2.refs = 0 ∧ s.dev.slotBusy e.1 = false) →
      ∃ t, exec (.slcsetRelease p) s = .next t ∧ Executed s t p x i stDone 48 ∧ Kept ([.she, .log] ++ logged) s t
        ∧ t.dev.slice i.a = none ∧ t.dev.she = { s.dev.she with slots := s.dev.she.slots.filter fun e => e.2.owner != i.a }
        ∧ t.dev.log = { s.dev.log with views := s.dev.log.views.filter fun e => e.2.slice != i.a })
  ∧ ((∀ s p x i y, s.atIns p x i → i.op = 0x34 → i.field = 0 → i.len = 1 → s.dev.mayReset (s.dev.qp x.qp).slice i.a = true →
      s.dev.slice i.a = some y →
      ∃ t, exec (.slcreset p) s = .next t
        ∧ (s.dev.qpsOf i.a = [] → ∃ z, t.dev.slice i.a = some z ∧ z.gen = (if y.gen = 65535 then 1 else y.gen + 1)
            ∧ z.up.msg = none ∧ z.up.unack = false ∧ z.down.msg = none ∧ z.down.unack = false ∧ z.cfg = y.cfg ∧ z.role = y.role))
    ∧ ∀ s p x i n e y, s.live → s.dev.prog p = some x → insOf x.words = some i → x.phase = .waiting (.sliceReset n) e →
      (s.dev.busyGens n).length < 4 → s.dev.slice n = some y →
      ∃ t, exec (.slcresetStallEnd p) s = .next t
        ∧ (s.dev.qpsOf n = [] → ∃ z, t.dev.slice n = some z ∧ z.gen = (if y.gen = 65535 then 1 else y.gen + 1) ∧ z.resetWait = false
            ∧ z.up.msg = none ∧ z.up.unack = false ∧ z.down.msg = none ∧ z.down.unack = false ∧ z.cfg = y.cfg))

/-- Mailboxes (R457 to R459): a send of the current generation that finds the direction free is taken, one of another generation only
counted; another reader's write is an access error; a delivery hands on the message with the next sequence number. -/
def Obligations.Mailboxes : Prop :=
  (∀ s n x v, s.live → n < 4096 → v < 2 ^ 64 → s.dev.slice n = some x → x.capstan = false → 8 * x.port + x.fn < 64 →
    bits v 32 16 = x.gen → bits v 0 12 ≤ 2040 → bits v 0 12 % 8 = 0 →
    (0 < bits v 0 12 → x.up.unack = false →
      ∃ t, exec (.mbUp (8 * x.port + x.fn) n v) s = .next t ∧ Kept [.slc] s t
        ∧ t.dev.slice n = some { x with down := x.down.ackd (bit v 12), up := { x.up with unack := true, msg := some (bits v 0 12, x.gen) } }
        ∧ ∀ m, m ≠ n → t.dev.slice m = s.dev.slice m)
    ∧ (0 < bits v 0 12 → x.up.unack = true →
      ∃ t, exec (.mbUp (8 * x.port + x.fn) n v) s = .next t ∧ Kept [.slc, .ctr] s t
        ∧ t.dev.slice n = some { x with down := x.down.ackd (bit v 12) } ∧ t.dev.count Reg.slcMbBusy = s.dev.count Reg.slcMbBusy + 1)
    ∧ (bits v 0 12 = 0 →
      ∃ t, exec (.mbUp (8 * x.port + x.fn) n v) s = .next t ∧ Kept [.slc] s t
        ∧ t.dev.slice n = some { x with down := x.down.ackd (bit v 12) } ∧ ∀ m, m ≠ n → t.dev.slice m = s.dev.slice m))
  ∧ (∀ s n x m v w, s.live → n < 4096 → v < 2 ^ 64 → s.dev.slice n = some x → s.dev.slice x.mgr = some m →
    w = (if m.capstan then 32 + m.core else 8 * m.port + m.fn) → w < 64 → bits v 32 16 = x.gen →
    0 < bits v 0 12 → bits v 0 12 ≤ 2040 → bits v 0 12 % 8 = 0 → x.down.unack = false → x.orphan = false →
    ∃ t, exec (.mbDown w n v) s = .next t ∧ Kept [.slc] s t
      ∧ t.dev.slice n = some { x with up := x.up.ackd (bit v 12), down := { x.down with unack := true, msg := some (bits v 0 12, x.gen) } }
      ∧ ∀ k, k ≠ n → t.dev.slice k = s.dev.slice k)
  ∧ (∀ s n x v, s.live → n < 4096 → v < 2 ^ 64 → s.dev.slice n = some x → x.capstan = false → 8 * x.port + x.fn < 64 →
    bits v 32 16 ≠ x.gen →
    ∃ t, exec (.mbUp (8 * x.port + x.fn) n v) s = .next t ∧ Kept [.ctr] s t
      ∧ t.dev.count Reg.hifDbStale = s.dev.count Reg.hifDbStale + 1)
  ∧ (∀ s n who v, s.live → who < 64 → n < 4096 → v < 2 ^ 64 → s.dev.slice n = none →
    ∃ t, exec (.mbUp who n v) s = .next t ∧ Kept [.ctr, .hif] s t
      ∧ t.dev.count Reg.hifAccessErr = s.dev.count Reg.hifAccessErr + 1)
  ∧ ∀ s n up bytes x l g, s.live → n < 4096 → s.dev.slice n = some x → (if up then x.up else x.down).msg = some (l, g) →
    ∃ t, exec (.mailboxDelivery n up bytes) s = .next t ∧ Kept [.slc, .hif, .out, .ctr, .mem, .cap] s t
      ∧ t.dev.slice n = some (if up then { x with up := { x.up with msg := none, seq := (x.up.seq + 1) % 65536 } }
          else { x with down := { x.down with msg := none, seq := (x.down.seq + 1) % 65536 } })
      ∧ ∀ k, k ≠ n → t.dev.slice k = s.dev.slice k

/-- CONNSET (R496 to R498): the steering pair, the port and the count of connections; a connection ACTIVE with the context of its words,
its key unwrapped under the slot it names; a released connection's context is cleared. VOLSET (R478 to R480): a volume, an extent
and a target are entered as their words give them, and deleted; a deletion that a command in the old mapping holds up waits for it. -/
def Obligations.ConnectionAndVolumeInstructions : Prop :=
  ((∀ s p x i, s.atIns p x i → i.op = 0x36 → i.field = 0 → i.a = 0 → i.len = 3 → i.w 0 = 1 → bits (i.w 1) 16 16 ≠ 4791 →
      1024 ≤ bits (i.w 1) 32 18 → bits (i.w 1) 32 18 ≤ 131072 → bits (i.w 1) 50 14 = 0 → bits (i.w 1) 0 8 ≠ bits (i.w 1) 8 8 →
      (∀ e ∈ s.dev.rdm.conns, e.2.st = .disabled) → Map.find s.dev.hif.steer (bits (i.w 1) 0 8) = none →
      Map.find s.dev.hif.steer (bits (i.w 1) 8 8) = none →
      ∃ t, exec (.connsetGlobal p) s = .next t ∧ Executed s t p x i stDone 64 ∧ Kept (.rdm :: logged) s t
        ∧ t.dev.rdm = { s.dev.rdm with
            set := true, plain := bits (i.w 1) 0 8, enc := bits (i.w 1) 8 8, port := bits (i.w 1) 16 16, count := bits (i.w 1) 32 18 })
    ∧ (∀ s p x i, s.atIns p x i → i.op = 0x36 → i.w 0 % 4 = 0 → bit (i.w 0) 2 = true → s.dev.dmc.ready = true → s.dev.rdm.set = true →
      i.a < s.dev.rdm.count → s.dev.connOk i = true → (s.dev.conn i.a).st = .disabled → bit (i.w 0) 3 = false →
      ∃ t, exec (.connsetConnection p) s = .next t ∧ Executed s t p x i stDone 64 ∧ Kept (.rdm :: logged) s t
        ∧ t.dev.rdm = { s.dev.rdm with conns := Map.put s.dev.rdm.conns i.a (connOf i) })
    ∧ (∀ s p x i, s.atIns p x i → i.op = 0x36 → i.w 0 % 4 = 0 → bit (i.w 0) 2 = true → s.dev.dmc.ready = true → s.dev.rdm.set = true →
      i.a < s.dev.rdm.count → s.dev.connOk i = true → (s.dev.conn i.a).st = .disabled → bit (i.w 0) 3 = true →
      ∃ t, exec (.connsetConnection p) s = .next t ∧ Kept ([.rdm, .she] ++ logged) s t
        ∧ match s.dev.connKey (s.dev.qp x.qp).slice i with
          | none => Executed s t p x i stBadOperand 64 ∧ t.dev.rdm = s.dev.rdm
          | some (n, key) => Executed s t p x i stDone 64
            ∧ t.dev.rdm = { s.dev.rdm with conns := Map.put s.dev.rdm.conns i.a { connOf i with keySlot := some n, key } }
            ∧ (∀ k, Map.find s.dev.she.slots n = some k → Map.find t.dev.she.slots n = some { k with refs := k.refs + 1 })
            ∧ ∀ m, m ≠ n → Map.find t.dev.she.slots m = Map.find s.dev.she.slots m)
    ∧ ∀ s p x i, s.atIns p x i → i.op = 0x36 → i.w 0 % 4 = 0 → bit (i.w 0) 2 = false → s.dev.dmc.ready = true → s.dev.rdm.set = true →
      i.a < s.dev.rdm.count → i.field = 0 → i.len = (if bit (i.w 0) 3 then 17 else 11) → (s.dev.conn i.a).st ≠ .disabled →
      ∃ t, exec (.connsetRelease p) s = .next t
        ∧ ((∀ c ∈ s.dev.sto.cmds, ∀ y ∈ c.parts, y.conn ≠ some i.a) →
            Executed s t p x i stDone 64 ∧ Kept ([.rdm, .she] ++ logged) s t
            ∧ t.dev.rdm = { s.dev.rdm with conns := Map.del s.dev.rdm.conns i.a, cached := s.dev.rdm.cached.filter (· != i.a) }))
  ∧ ((∀ s p x i (v : Vol), s.atIns p x i → v = ⟨bit (i.w 0) 3, if bit (i.w 0) 4 then some (bits (i.w 0) 5 8) else none, i.w 1⟩ →
      i.op = 0x35 → i.w 0 % 4 = 0 → i.field = 0 → i.len = 3 → i.a < 16384 → bits (i.w 0) 13 51 = 0 →
      i.w 1 < 2 ^ 42 → s.dev.dmc.ready = true → bit (i.w 0) 2 = true →
      (bit (i.w 0) 4 = true → (s.dev.slotFor (s.dev.qp x.qp).slice 3 (bits (i.w 0) 5 8)).isSome = true) →
      (∀ e ∈ s.dev.sto.exts, e.2.vol = i.a → e.2.first + e.2.len ≤ i.w 1) →
      ∃ t, exec (.volsetVolume p) s = .next t ∧ Executed s t p x i stDone 64 ∧ Kept ([.sto, .she] ++ logged) s t
        ∧ t.dev.sto = { s.dev.sto with vols := Map.put s.dev.sto.vols i.a v })
    ∧ (∀ s p x i, s.atIns p x i → i.op = 0x35 → i.w 0 % 4 = 0 → i.field = 0 → i.len = 3 → i.a < 16384 → bits (i.w 0) 13 51 = 0 →
      i.w 1 < 2 ^ 42 → s.dev.dmc.ready = true → bit (i.w 0) 2 = false →
      ∃ t, exec (.volsetVolume p) s = .next t
        ∧ t.dev.sto = { s.dev.sto with vols := Map.del s.dev.sto.vols i.a }
        ∧ (s.dev.sto.draining i.a s.dev.sto.nextCmd = false → Executed s t p x i stDone 64 ∧ Kept ([.sto, .she] ++ logged) s t)
        ∧ (s.dev.sto.draining i.a s.dev.sto.nextCmd = true →
            Waits s t p x (.volume i.a s.dev.sto.nextCmd) none 64 ∧ Kept [.sto, .she, .spl] s t))
    ∧ (∀ s p x i e, s.atIns p x i → i.op = 0x35 → i.w 0 % 4 = 1 → i.field = 0 → i.len = 5 → i.a < 16384 → bits (i.w 0) 3 9 = 0 →
      bits (i.w 0) 32 32 = 0 → i.w 1 < 2 ^ 42 → bits (i.w 2) 42 22 = 0 → s.dev.dmc.ready = true → bit (i.w 0) 2 = true →
      e = ({ vol := i.a, first := i.w 1, len := bits (i.w 2) 0 32, target := bits (i.w 2) 32 10, at' := i.w 3 } : Ext) →
      0 < e.len → s.dev.sto.mappedBut (bits (i.w 0) 12 20) + e.len ≤ 2 ^ 42 →
      (∃ v, Map.find s.dev.sto.vols i.a = some v ∧ e.first + e.len ≤ v.size) → (Map.find s.dev.sto.tgts e.target).isSome = true →
      (∀ o ∈ s.dev.sto.exts, o.1 ≠ bits (i.w 0) 12 20 → o.2.meets e.vol e.first e.len = false) →
      ∃ t, exec (.volsetExtent p) s = .next t ∧ t.dev.sto = { s.dev.sto with exts := Map.put s.dev.sto.exts (bits (i.w 0) 12 20) e }
        ∧ (Map.find s.dev.sto.exts (bits (i.w 0) 12 20) = none → Executed s t p x i stDone 64 ∧ Kept (.sto :: logged) s t))
    ∧ (∀ s p x i o, s.atIns p x i → i.op = 0x35 → i.w 0 % 4 = 1 → i.field = 0 → i.len = 5 → i.a < 16384 → bits (i.w 0) 3 9 = 0 →
      bits (i.w 0) 32 32 = 0 → i.w 1 < 2 ^ 42 → bits (i.w 2) 42 22 = 0 → s.dev.dmc.ready = true → bit (i.w 0) 2 = false →
      Map.find s.dev.sto.exts (bits (i.w 0) 12 20) = some o →
      ∃ t, exec (.volsetExtent p) s = .next t ∧ t.dev.sto = { s.dev.sto with exts := Map.del s.dev.sto.exts (bits (i.w 0) 12 20) }
        ∧ (s.dev.sto.draining o.vol s.dev.sto.nextCmd = false → Executed s t p x i stDone 64 ∧ Kept (.sto :: logged) s t)
        ∧ (s.dev.sto.draining o.vol s.dev.sto.nextCmd = true →
            Waits s t p x (.volume o.vol s.dev.sto.nextCmd) none 64 ∧ Kept [.sto, .spl] s t))
    ∧ (∀ s p x i, s.atIns p x i → i.op = 0x35 → i.w 0 % 4 = 2 → i.field = 0 → i.len = 4 → bits (i.w 0) 10 4 ≤ 8 → bits (i.w 0) 14 50 = 0 →
      bits (i.w 2) 36 28 = 0 → s.dev.dmc.ready = true → i.a < 1024 → bit (i.w 0) 2 = true →
      ∃ t, exec (.volsetTarget p) s = .next t ∧ Executed s t p x i stDone 64 ∧ Kept (.sto :: logged) s t
        ∧ (∃ y, Map.find t.dev.sto.tgts i.a = some y ∧ y.online = bit (i.w 0) 3 ∧ y.remote = bit (i.w 0) 4 ∧ y.lba512 = bit (i.w 0) 5
            ∧ y.link = bits (i.w 0) 6 4 ∧ y.limit = bits (i.w 0) 10 4 ∧ y.nsid = bits (i.w 1) 0 32
            ∧ y.timeout = (if bits (i.w 1) 32 32 = 0 then 7812500 else bits (i.w 1) 32 32) ∧ y.routing = bits (i.w 2) 0 16
            ∧ y.conn = bits (i.w 2) 16 17 ∧ y.conns = bits (i.w 2) 33 3 + 1)
        ∧ (∀ k, k ≠ i.a → Map.find t.dev.sto.tgts k = Map.find s.dev.sto.tgts k)
        ∧ t.dev.sto = { s.dev.sto with tgts := t.dev.sto.tgts })
    ∧ (∀ s p x i, s.atIns p x i → i.op = 0x35 → i.w 0 % 4 = 2 → i.field = 0 → i.len = 4 → bits (i.w 0) 10 4 ≤ 8 → bits (i.w 0) 14 50 = 0 →
      bits (i.w 2) 36 28 = 0 → s.dev.dmc.ready = true → i.a < 1024 → bit (i.w 0) 2 = false → (∀ e ∈ s.dev.sto.exts, e.2.target ≠ i.a) →
      ∃ t, exec (.volsetTarget p) s = .next t ∧ Executed s t p x i stDone 64 ∧ Kept (.sto :: logged) s t
        ∧ t.dev.sto = { s.dev.sto with tgts := Map.del s.dev.sto.tgts i.a })
    ∧ ∀ s p x i v cut e, s.live → s.dev.prog p = some x → insOf x.words = some i → x.phase = .waiting (.volume v cut) e →
      s.dev.sto.draining v cut = false →
      ∃ t, exec (.volsetDrainDone p) s = .next t ∧ Kept logged s t ∧ WaitEnded s t p x stDone)

/-- A port's link is lost or comes up, and received pause (R160, R252, R278, R280, R347): a member port that loses its link with nothing
owed to it stops linking at once and is then removed; a port that comes up carries frames, in braid mode from HELLO; a MAC control
frame is consumed; PFC sets the timers of the classes its vector and the port name, PAUSE all eight, for quanta of 512 bit times; at
its time a timer runs out. -/
def Obligations.PortAndPauseEvents : Prop :=
  (∀ s p, s.live → p < 256 → (s.dev.port p).link = true → (s.dev.port p).braid = false → s.dev.copiesOf p = [] →
    s.dev.cal.holds = [] → s.dev.cal.waiting = [] →
    Acts (.portLinkLoss p) s fun d => d.portUp p = false ∧ (d.port p).removing = true
      ∧ (∀ c < 8, Map.find d.path.pauseEnd (8 * p + c) = none) ∧ ∀ q, q ≠ p → d.port q = s.dev.port q)
  ∧ (∀ s p, s.live → p < 256 → (s.dev.port p).removing = true → s.dev.copiesOf p = [] →
    Acts (.residueRemovalDone p) s fun d => d.port p = { s.dev.port p with removing := false }
      ∧ (∀ c < 8, (d.queue (8 * p + c)).deficit = 0 ∧ (d.queue (8 * p + c)).awarded = false) ∧ Map.find d.path.rrNext p = some 0
      ∧ ∀ q, q ≠ p → d.port q = s.dev.port q)
  ∧ (∀ s p, s.live → p < 256 → (s.dev.port p).enable = true → (s.dev.port p).link = false → s.dev.boot.gated = false →
    bit s.dev.pwr.plLost (p / 32) = false →
    Acts (.portLinkUp p) s fun d => d.port p = { s.dev.port p with link := true }
      ∧ (∀ q, q ≠ p → d.port q = s.dev.port q)
      ∧ if (s.dev.port p).braid then (d.link p).st = .hello ∧ ∀ q, q ≠ p → d.link q = s.dev.link q else d.brd = s.dev.brd)
  ∧ (∀ s p op, s.live → p < 256 → op < 65536 → Acts (.macControlFrame p op) s fun d => d = s.dev)
  ∧ (∀ s p vec qs, s.live → p < 256 → vec < 256 → qs.length = 8 → (∀ q ∈ qs, q < 65536) → s.dev.portUp p = true →
    Acts (.pfcFrameReceive p vec qs) s fun d =>
      if (s.dev.port p).braid = true ∨ (List.range 8).all (fun c => !(bit vec c && bit (s.dev.port p).pfc c)) then d = s.dev.bump Reg.schedPauseIgnored
      else d.count Reg.schedPauseRx = s.dev.count Reg.schedPauseRx + 1
        ∧ (∀ c < 8, Map.find d.path.pauseEnd (8 * p + c) =
            if bit vec c && bit (s.dev.port p).pfc c then
              (if qs.getD c 0 = 0 then none else some (s.dev.pclk + (s.dev.port p).wirePclk (64 * qs.getD c 0)))
            else Map.find s.dev.path.pauseEnd (8 * p + c))
        ∧ ∀ k, k / 8 ≠ p → Map.find d.path.pauseEnd k = Map.find s.dev.path.pauseEnd k)
  ∧ (∀ s p n, s.live → p < 256 → n < 65536 → s.dev.portUp p = true →
    Acts (.pauseFrameReceive p n) s fun d =>
      if (s.dev.port p).pause = true ∧ (s.dev.port p).braid = false then
        d.count Reg.schedPauseRx = s.dev.count Reg.schedPauseRx + 1
          ∧ (∀ c < 8, Map.find d.path.pauseEnd (8 * p + c) =
              if n = 0 then none else some (s.dev.pclk + (s.dev.port p).wirePclk (64 * n)))
          ∧ ∀ k, k / 8 ≠ p → Map.find d.path.pauseEnd k = Map.find s.dev.path.pauseEnd k
      else d = s.dev.bump Reg.schedPauseIgnored)
  ∧ (∀ s p c t, s.live → p < 256 → c < 8 → Map.find s.dev.path.pauseEnd (8 * p + c) = some t →
    Acts (.pauseTimerExpiry p c) s fun d => d.pclk = max t s.dev.pclk ∧ Map.find d.path.pauseEnd (8 * p + c) = none
      ∧ ∀ k, k ≠ 8 * p + c → Map.find d.path.pauseEnd k = Map.find s.dev.path.pauseEnd k)
  ∧ ∀ s k, s.live → (s.dev.acct k).xoff = true → 16 ≤ (s.dev.acct k).xTurns → s.dev.boot.gated = false →
    (s.dev.port (acctPort k)).braid = false → s.dev.portUp (acctPort k) = true →
    Acts (.pauseRepeat k) s fun d => (d.acct k).xTurns = (s.dev.acct k).xTurns - 16 ∧ (d.acct k).xoff = true
      ∧ d.out = s.dev.out ++
        if (s.dev.port (acctPort k)).pfc ≠ 0 then
          [⟨.macControl, [acctPort k, 0x0101, if k < 256 then (s.dev.port (acctPort k)).pfc else 2 ^ ((k - 256) % 8), 0xFFFF], []⟩]
        else if (s.dev.port (acctPort k)).pause then [⟨.macControl, [acctPort k, 0x0001, 0, 0xFFFF], []⟩] else []

/-- The reel's sources (R54 to R62): a lost selected source of a LOCKED reel is followed by HOLDOVER at the next boundary, where the
bound starts from the sync bound; an Announce or TIME makes its entry present with its dataset; PPS_IN its own; a pending
discontinuity takes effect at the next boundary: the reel steps forward by the correction, or the era offset takes a step back. -/
def Obligations.ReelSourceEvents : Prop :=
  (∀ s e c, s.live → e < 16 → Map.find s.dev.reel.cands e = some c → s.dev.silentSource e = true →
    Acts (.reelSourceLoss e) s fun d => Map.find d.reel.cands e = some { c with present := false }
      ∧ (s.dev.reel.src = some e → s.dev.reel.loss = false → (s.dev.reel.st = .locked ∨ s.dev.reel.st = .acquiring) →
          d.reel.loss = true ∧ d.reel.lossTurn = s.dev.turn ∧ d.reel.st = s.dev.reel.st)
      ∧ ∀ k, k ≠ e → Map.find d.reel.cands k = Map.find s.dev.reel.cands k)
  ∧ (∀ s, s.live → s.dev.reel.loss = true →
    Acts .reelHoldoverEnter s fun d => d.reel.st = .holdover ∧ d.reel.src = none ∧ d.reel.loss = false ∧ d.reel.slew = 0
      ∧ d.reel.holdB0 = 4 + 2 * s.dev.hopDist ∧ d.reel.holdNs = 4 + 2 * s.dev.hopDist ∧ d.reel.holdStart = d.ns)
  ∧ (∀ s p ds sample delay e c, s.live → p < 256 → s.dev.portUp p = true → (s.dev.port p).braid = false → s.dev.entryOn 1 p = some e →
    Map.find s.dev.reel.cands e = some c → s.dev.reel.src ≠ some e → s.dev.reel.loss = true →
    Acts (.ptpMessageReceive p ds sample delay) s fun d =>
      Map.find d.reel.cands e = some { c with present := true, dataset := ds.or c.dataset, heardNs := s.dev.ns }
      ∧ ∀ k, k ≠ e → Map.find d.reel.cands k = Map.find s.dev.reel.cands k)
  ∧ (∀ s p (t : Nat) e, s.live → p < 256 → s.dev.portUp p = true → (s.dev.port p).braid = false → s.dev.entryOn 1 p = some e →
    s.dev.reel.src = some e → s.dev.reel.loss = false → (∀ x ∈ s.dev.reel.cands, x.2.kind ≠ 3) →
    (s.dev.onCand e fun c => { c with present := true }).bestTime = some e →
    (((t : Int) + 16 * s.dev.reel.eraOffset + (s.dev.cand e).correct - s.dev.reel16).natAbs ≤ 16000000) →
    Acts (.ptpMessageReceive p none (some t) none) s fun d =>
      d.reel.phaseErr = (t : Int) + 16 * s.dev.reel.eraOffset + (s.dev.cand e).correct - s.dev.reel16
      ∧ d.reel.slew = d.reel.phaseErr * 1500 ∧ d.reel.unapplied = 0 ∧ d.reel.held = []
      ∧ d.reel.good = if d.reel.phaseErr.natAbs < 800 then s.dev.reel.good + 1 else 0)
  ∧ (∀ s p r era off hops h ds delay, s.live → p < 256 → era < 65536 → (s.dev.port p).braid = true → (s.dev.link p).st ≠ .down →
    (s.dev.link p).lost = false → s.dev.entryOn 2 p = none →
    Acts (.timeMessageReceive p r era off hops h ds delay) s fun d => (d.link p).heard = true ∧ d.reel = s.dev.reel
      ∧ d.link p = { s.dev.link p with heard := true, delay := delay.getD (s.dev.link p).delay, peerTime := r, rxTime := s.dev.reel16.toNat })
  ∧ (∀ s p r era off hops h ds e c, s.live → p < 256 → era < 65536 → (s.dev.port p).braid = true → (s.dev.link p).st ≠ .down →
    (s.dev.link p).lost = false → s.dev.entryOn 2 p = some e → Map.find s.dev.reel.cands e = some c → s.dev.reel.src ≠ some e →
    s.dev.reel.loss = true →
    Acts (.timeMessageReceive p r era off hops h ds none) s fun d =>
      Map.find d.reel.cands e = some { c with present := true, dataset := ds.or c.dataset, hops, upHold := h, heardNs := s.dev.ns }
      ∧ (d.link p).heard = true)
  ∧ (∀ s e c, s.live → (s.dev.reel.cands.find? fun e => e.2.kind == 3) = some (e, c) → Map.find s.dev.reel.cands e = some c →
    s.dev.reel.loss = true →
    Acts .ppsInEdge s fun d => Map.find d.reel.cands e = some { c with present := true, heardNs := s.dev.ns } ∧ d.reel.src = s.dev.reel.src)
  ∧ (∀ s, s.live → s.dev.reel.st ≠ .free → s.dev.boot.gated = false → s.dev.reel.pps = false →
    Acts .ppsOutPulse s fun d => d.reel.pps = true
      ∧ d.out = s.dev.out ++ [⟨.pps, [ceilDiv s.dev.ns (10 ^ 9) * 10 ^ 9], []⟩])
  ∧ ∀ s x, s.live → s.dev.reel.disc = some x →
    Acts .reelDiscontinuity s fun d => d.reel.disc = none ∧ d.reel.held = [] ∧ d.reel.slew = 0
      ∧ d.reel.era = (match x.adopt with | some a => a.1 | none => (s.dev.reel.era + 1) % 65536)
      ∧ d.reel.eraOffset = (match x.adopt with
          | some a => a.2
          | none => if x.d < 0 then s.dev.reel.eraOffset + (-x.d).toNat else s.dev.reel.eraOffset)
      ∧ d.reel.time = s.dev.toBoundary.reel.time + nsUnits * x.d.toNat

/-- A turn boundary's commands (R63, R72, R180, R188, R243, R295, R365, R368, R441, R446, R613, R614, R635): a commit makes the PENDING
shade CURRENT and the former one DRAINING, a capture leaves the images of every named block, a boundary serves the next turn and
reads the sensors, a scheduled reset holds the node, a moderation timer sends its message, an event buffer closes, a page of the
logline closes. -/
def Obligations.TurnBoundaryEvents : Prop :=
  (∀ s n, s.live → n < 4 → (s.dev.shade n).st = .pending → s.dev.atTurn (s.dev.shade n).turn = true →
    s.dev.nextCommit (s.dev.shade n).turn = some n → s.dev.reel.disc = none → s.dev.current ≠ n →
    (∀ x ∈ s.dev.spl.snaps, (s.dev.shade n).turn ≤ x.turn) →
    Acts (.shadeCommit n) s fun d => (d.shade n).st = .current ∧ (d.shade s.dev.current).st = .draining
      ∧ (d.shade n).epoch = (if (s.dev.shade n).fabric then (s.dev.epoch + 1) % 4 else s.dev.epoch)
      ∧ (∀ id h hop, (s.dev.shade n).joinSelf = some (id, h, hop) → d.brd.node = id ∧ d.brd.h = h)
      ∧ ∀ m, m ≠ n → m ≠ s.dev.current → d.shade m = s.dev.shade m)
  ∧ (∀ s x, s.live → s.dev.dueSnap = some x →
    ∃ t, exec .snapCapture s = .next t ∧ t.pending = s.pending
      ∧ (∀ k < 19, Map.find t.snaps k = if bit x.mask k then some ⟨x.turn, s.frozen.getD s.dev⟩ else Map.find s.snaps k)
      ∧ t.frozen = (if t.dev.dueSnap.isSome then s.frozen else none)
      ∧ t.dev.spl.snaps = s.dev.spl.snaps.filter (· != x)
      ∧ (x.fabric = false → Dev.keeps [.out, .ctr, .spl, .hif, .log, .mem, .cap, .slc] s.dev t.dev))
  ∧ (∀ s temps, s.live → temps.length ≤ 64 → s.dev.settled = false → Unmoved (.turnBoundary temps) s)
  ∧ (∀ s temps, s.live → temps.length ≤ 64 → s.dev.settled = true → s.dev.boot.fallAt = none →
    ∃ t, exec (.turnBoundary temps) s = .next t ∧ t.pending = s.pending ∧ t.snaps = s.snaps
      ∧ t.frozen = (if t.dev.dueSnap.isSome then some t.dev else none)
      ∧ (s.dev.reel.stepTo = none → t.dev.reel.served = s.dev.reel.served + 1)
      ∧ (temps ≠ [] → t.dev.pwr.temps = temps ∧ t.dev.pwr.cold = decide (hottest temps < -20)
          ∧ t.dev.pwr.high = decide ((if s.dev.pwr.high then 408 else 420) ≤ hottest temps)))
  ∧ (∀ s target e, s.live → s.dev.brd.resets.find? (fun e => e.1 == target) = some e →
    ∃ t, exec (.globalReset target) s = .next t ∧ t.pending = s.pending ∧ t.snaps = [] ∧ t.dev.boot.held = true
      ∧ t.dev.boot.flash = s.dev.boot.flash ∧ t.dev.boot.dir = s.dev.boot.dir ∧ t.dev.she.fuses = s.dev.she.fuses)
  ∧ (∀ s q t, s.live → q < 65536 → (s.dev.qp q).timerAt = some t → s.dev.reached t = true → s.dev.slotOver t = true →
    Acts (.moderationTimerExpiry q) s fun d => (d.qp q).timerAt = none
      ∧ ((s.dev.qp q).capstan = true → d.out = s.dev.out ++ [⟨.capInterrupt, [(s.dev.qp q).lidx, q], []⟩] ∧ (d.qp q).unsig = 0
          ∧ d.count (Reg.hifQpMsg q) = s.dev.count (Reg.hifQpMsg q) + 1))
  ∧ (∀ s q b rest t, s.live → q < 65536 → (s.dev.qp q).bufs = b :: rest → b.first = some t → s.dev.reached (t + 1) = true →
    Acts (.eventBufferClose q) s fun d => (d.qp q).bufs = rest
      ∧ (∀ e, (s.dev.qp q).descs.find? (fun e => e.id == b.desc) = some e → e.done = false →
          (d.qp q).held = (s.dev.qp q).held ++ [{ tag := field e.bytes 2 2, status := 0, gen := e.gen, dws := [b.used, b.count], desc := some b.desc }])
      ∧ ∀ k, k ≠ q → d.qp k = s.dev.qp k)
  ∧ ∀ s seq, s.live →
    Acts (.loglinePageClose seq) s fun d =>
      d.log.pages = s.dev.log.pages.map (fun p => { p with closed := p.closed ||
        (p.seq == seq && (decide (p.turn + 64 ≤ s.dev.turn) || decide (4092 ≤ p.slots) || p.anchor != s.dev.log.anchor)) })
      ∧ d = { s.dev with log := { s.dev.log with pages := d.log.pages } }

/-- The boot sequence (R568 to R591): the release of reset samples the straps, FLASH_LOAD runs the active slot whose images are
accepted, SHEATH_INIT reads the settings, a release verifies a pushed image while it runs, the verdict opens the gates at the next
boundary or begins a scrub, and a trial that outlasts its timer has failed. -/
def Obligations.BootSequence : Prop :=
  (∀ s straps ok tj, straps < 8 → s.dev.boot.held = true → s.dev.pwr.mayRelease tj = true →
    ∃ t, exec (.sysRstRelease straps ok tj) s = .next t ∧ t.pending = s.pending ∧ t.live ∧ t.dev.boot.st = .rom
      ∧ t.dev.boot.straps = straps ∧ t.dev.pwr.sysRst = false ∧ t.dev.she.fuses.deviceId = s.dev.she.fuses.deviceId)
  ∧ (∀ s, ∃ t, exec .sysRstAssert s = .next t ∧ t.pending = s.pending ∧ t.snaps = [] ∧ t.dev.boot.held = true
      ∧ t.dev.pwr.sysRst = true ∧ t.dev.boot.flash = s.dev.boot.flash ∧ t.dev.she.slots.map (·.1) = s.dev.she.slots.map (·.1))
  ∧ (∀ s a b, s.live → s.dev.boot.st = .rom → s.dev.boot.dir.trial = none → s.dev.boot.selected = none → s.dev.forced = false →
    s.dev.boot.dir.active < 2 → s.dev.slotReason s.dev.boot.dir.active (if s.dev.boot.dir.active = 0 then a else b) = 0 →
    ∃ t, exec (.flashLoad a b) s = .next t ∧ t.pending = s.pending ∧ t.dev.boot.st = .sheathInit
      ∧ t.dev.boot.slot = s.dev.boot.dir.active ∧ t.dev.boot.shTrial = false ∧ t.dev.she.manager = true ∧ t.dev.pwr.avs = true)
  ∧ (∀ s a b, s.live → s.dev.boot.st = .rom → s.dev.boot.dir.trial = none → s.dev.forced = true →
    ∃ t, exec (.flashLoad a b) s = .next t ∧ t.pending = s.pending ∧ t.dev.boot.st = .recovery ∧ (t.dev.hp 0).released = true
      ∧ (t.dev.hp 0).fnCount = 1)
  ∧ (∀ s dram, s.live → s.dev.boot.st = .sheathInit → s.dev.boot.jnl.fits sheathType s.dev.boot.sheath = true →
    ∃ t, exec (.sheathInit dram) s = .next t ∧ t.pending = s.pending ∧ t.dev.boot.st = .waitPush
      ∧ (∀ n < 4, (t.dev.hp n).released = true ∧ (t.dev.hp n).manager = bit s.dev.she.policy (3 + n)
          ∧ (t.dev.hp n).fnCount = portFns (s.dev.boot.jnl.inForce 8 0) n)
      ∧ (s.dev.boot.shTrial = true → t.dev.boot.dir.active = s.dev.boot.slot ∧ t.dev.boot.dir.trial = none ∧ t.dev.boot.shTrial = false))
  ∧ (∀ s who chk, s.live → who < 32 → s.dev.hasGlobal who = true → s.dev.boot.st = .waitPush → s.dev.onHold = false →
    s.dev.pushReason (Memory.readBytes s.dev.mem.flat 0 512) chk = 0 →
    Acts (.bootRelease who 8 chk) s fun d => d.boot.st = .verify ∧ d.boot.reason = 0 ∧ d.boot.ranCap = true
      ∧ d.boot.capTrial = (chk.digest != s.dev.boot.dir.committed) ∧ (∀ c < 32, (d.core c).running = true)
      ∧ (d.qp 0).st = .active ∧ (d.qp 0).kind = 4 ∧ (d.qp 1).st = .active ∧ (d.qp 1).kind = 5)
  ∧ (∀ s, s.live → s.dev.boot.st = .verify → s.dev.boot.passed = none →
    ∃ t, exec (.bootVerifyVerdict true) s = .next t ∧ t.pending = s.pending ∧ t.dev.boot.passed = some (t.dev.turn + 1)
      ∧ t.dev.boot.st = .verify ∧ t.dev.boot.verNs = t.dev.ns)
  ∧ (∀ s, s.live → s.dev.boot.st = .verify → s.dev.boot.passed = none →
    ∃ t, exec (.bootVerifyVerdict false) s = .next t ∧ t.pending = s.pending ∧ t.snaps = [] ∧ t.dev.boot.st = .scrub
      ∧ t.dev.boot.reason = 0x10 ∧ t.dev.boot.gated = true)
  ∧ (∀ s n, s.live → s.dev.boot.st = .verify → s.dev.boot.passed = some n →
    Acts .gatesOpen s fun d => d.boot.st = .opened ∧ d.boot.gated = false ∧ d.boot.passed = none)
  ∧ (∀ s, s.live → s.dev.boot.st = .scrub →
    Acts .bootScrubDone s fun d => d.boot.st = .waitPush ∧ (s.dev.boot.refill = true → d.dmc.ready = true))
  ∧ (∀ s g, s.live → s.dev.boot.capTrial = true → s.dev.boot.dir.trial = some (.capstan g) →
    (∀ r ∈ s.dev.boot.dir.rejected, r.count ≤ 3) →
    ∃ t, exec .trialTimeout s = .next t ∧ t.pending = s.pending ∧ t.dev.boot.st = .scrub ∧ t.dev.boot.reason = 2
      ∧ t.dev.boot.dir.trial = none ∧ t.dev.boot.capTrial = false
      ∧ ∃ r ∈ t.dev.boot.dir.rejected, r.digest = g ∧ r.reason = 2)
  ∧ ∀ s n, s.live → s.dev.boot.shTrial = true → s.dev.boot.capTrial = false → s.dev.boot.dir.trial = some (.slot n) →
    ∃ t, exec .trialTimeout s = .next t ∧ t.pending = s.pending ∧ t.dev.boot.held = true ∧ t.dev.boot.dir.trial = none
      ∧ (Map.getD t.dev.boot.dir.slots n {}).count = min 3 ((Map.getD s.dev.boot.dir.slots n {}).count + 1)

/-- Power, supplies and reference clocks (R594 to R598, R600 to R605, R609, R614): the fall of a supply and a thermal trip hold the main
domain in reset with the reel time latched; the standby rails empty what they held; a rail excursion counts once; a target moves by
5 mV; polls and alerts record what the regulators say; a lost reference is recorded until it returns. -/
def Obligations.PowerAndClockEvents : Prop :=
  (∀ s, s.dev.pwr.good = true →
    ∃ t, exec .pwrGoodFall s = .next t ∧ t.pending = s.pending ∧ t.snaps = [] ∧ t.dev.boot.held = true ∧ t.dev.pwr.good = false
      ∧ t.dev.she.holdNs = s.dev.ns ∧ t.dev.she.fuses = s.dev.she.fuses)
  ∧ (∀ s, s.dev.pwr.stby = true → Acts .pwrGoodRise s fun d => d = { s.dev with pwr := { s.dev.pwr with good := true } })
  ∧ (∀ s, s.dev.pwr.stby = false →
    Acts .standbyPowerUp s fun d => d.pwr.stby = true ∧ d.she.slots = [] ∧ d.she.log = [] ∧ d.she.armed = none ∧ d.pwr.trip = none)
  ∧ (∀ s, s.dev.pwr.stby = true → s.dev.pwr.good = false →
    Acts .standbyPowerLoss s fun d => d.pwr.stby = false ∧ d.she.stbyLost = true ∧ d.she.slots = [] ∧ d.she.log = []
      ∧ d.she.fuses = s.dev.she.fuses)
  ∧ (∀ s k, s.live → k < 64 →
    ∃ t, exec (.thermalTrip k) s = .next t ∧ t.pending = s.pending ∧ t.snaps = [] ∧ t.dev.boot.held = true
      ∧ t.dev.pwr.trip = some k ∧ t.dev.pwr.tripHold = true ∧ t.dev.she.holdNs = s.dev.ns)
  ∧ (∀ s r, s.live → r < 7 → r ∉ s.dev.pwr.rails →
    Acts (.railExcursion r) s fun d => r ∈ d.pwr.rails ∧ d.count Reg.pwrRailFault = s.dev.count Reg.pwrRailFault + 1)
  ∧ (∀ s r, s.live → r < 7 → Acts (.railExcursionEnd r) s fun d => r ∉ d.pwr.rails ∧ ∀ k, k ≠ r → (k ∈ d.pwr.rails ↔ k ∈ s.dev.pwr.rails))
  ∧ (∀ s above, s.live → s.dev.pwr.avs = true → s.dev.pwr.nextAvs ≤ s.dev.reel.served → s.dev.pwr.avsFault = false →
    650 ≤ s.dev.pwr.target → s.dev.pwr.target + 5 ≤ 850 →
    Acts (.avsEvaluation true above false) s fun d => d.pwr.target = s.dev.pwr.target + 5 ∧ d.pwr.above = 0
      ∧ d.pwr.nextAvs = s.dev.pwr.nextAvs + 64 ∧ d.count Reg.pwrAvsStep = s.dev.count Reg.pwrAvsStep + 1)
  ∧ (∀ s, s.live → s.dev.pwr.avs = true → s.dev.pwr.nextAvs ≤ s.dev.reel.served → s.dev.pwr.avsFault = false →
    655 ≤ s.dev.pwr.target → s.dev.pwr.target ≤ 850 → s.dev.pwr.above = 15 →
    Acts (.avsEvaluation false true false) s fun d => d.pwr.target = s.dev.pwr.target - 5 ∧ d.pwr.above = 0)
  ∧ (∀ s ws, s.live → ws.length = 9 → (∀ w ∈ ws, w < 65536) →
    Acts (.pmbAlert ws) s fun d => d.count Reg.pwrPmbAlert = s.dev.count Reg.pwrPmbAlert + 1
      ∧ d.pwr.railS = ws.zipIdx.map fun e => (e.2, e.1))
  ∧ (∀ s regs (v i w : Nat) rest, s.live → regs = some (v, i, w) :: rest → regs.length = 9 → s.dev.pwr.nextPoll ≤ s.dev.reel.served →
    ((v : Int) - s.dev.pwr.target).natAbs ≤ 15 →
    Acts (.telemetryPoll regs) s fun d => d.pwr.nextPoll = s.dev.pwr.nextPoll + 4096 ∧ d.pwr.readback = v % 4096 ∧ d.pwr.off15 = 0
      ∧ Map.find d.pwr.railV 0 = some v ∧ Map.find d.pwr.railI 0 = some i ∧ Map.find d.pwr.railS 0 = some w)
  ∧ (∀ s n, n < 8 → bit s.dev.pwr.plLost n = false → s.dev.watched 0 n = true → s.dev.boot.held = true →
    Acts (.refclkLoss 0 n) s fun d => d = { s.dev with pwr := { s.dev.pwr with plLost := s.dev.pwr.plLost + 2 ^ n } })
  ∧ (∀ s n, s.live → n < 4 → bit s.dev.pwr.spLost n = false →
    Acts (.refclkLoss 2 n) s fun d => d.pwr.spLost = s.dev.pwr.spLost + 2 ^ n
      ∧ d.count Reg.pwrRefLost = s.dev.count Reg.pwrRefLost + 1 ∧ d.path = s.dev.path ∧ d.hif = s.dev.hif)
  ∧ (∀ s n, s.live → n < 4 → bit s.dev.pwr.hpLost n = false → (s.dev.hp n).perst = false →
    Acts (.refclkLoss 1 n) s fun d => d.pwr.hpLost = s.dev.pwr.hpLost + 2 ^ n
      ∧ ((s.dev.hp n).link = .down → d = ({ s.dev with pwr := { s.dev.pwr with hpLost := s.dev.pwr.hpLost + 2 ^ n } }).bump Reg.pwrRefLost))
  ∧ (∀ s n, n < 8 → bit s.dev.pwr.plLost n = true →
    Acts (.refclkReturn 0 n) s fun d => d = { s.dev with pwr := { s.dev.pwr with plLost := s.dev.pwr.plLost - 2 ^ n } })
  ∧ (∀ s n, s.live → n < 4 → s.dev.reel.trefLost = true →
    Acts (.refclkReturn 3 n) s fun d => d.reel.trefLost = false ∧ d.reel.cands = s.dev.reel.cands ∧ d.pwr = s.dev.pwr)
  ∧ ∀ s, s.live →
    Acts .tref10mInLoss s fun d => d.reel.trefLost = true ∧ d.reel.cands = s.dev.reel.cands ∧ d.reel.src = s.dev.reel.src
      ∧ ∀ e, d.reel.freq = some e → ∃ x ∈ s.dev.reel.cands, x.1 = e ∧ x.2.kind ≠ 5

/-- Frames and copies (R160 to R165, R176, R263 to R267, R286, R287, R580): a frame that arrives enters as a packet of its port, or
takes its fault at once; the end of an incomplete one settles its counts, or gives it the fate of its fault; a scheduler pick takes
the head copy of an eligible queue by the deficit round robin of R266; a copy crosses the transmit lands with its FCS and takes
FORWARDED, is under way where its frame is incomplete, and takes TX_GATED while the outputs are gated. -/
def Obligations.FrameAndTransmitEvents : Prop :=
  (∀ s p bytes n fcs sec c, s.live → p < 256 → s.dev.portUp p = true → (s.dev.port p).braid = false → (s.dev.port p).macsec = false →
    s.dev.arrivalOk p bytes (decide (n ≤ 256)) n = true → isMacControl bytes = false → c = ceilDiv (bytes.take 9416).length 256 →
    (s.dev.takeCells (arrAcct p) 1 c).2.placed = c →
    ((n ≤ 256 → 64 ≤ n ∧ fcs = false) →
      Acts (.frameArrival p bytes (decide (n ≤ 256)) n fcs sec) s fun d =>
        (∃ q, d.pkt s.dev.path.nextPkt = some q ∧ q.iport = p ∧ q.bytes = bytes.take 9416 ∧ q.whole = decide (n ≤ 256) ∧ q.rxLen = n
          ∧ q.place = .arrival ∧ q.refNs = s.dev.ns ∧ q.due = s.dev.pclk + (s.dev.port p).lRx + 96 ∧ q.lay = p / 8 ∧ q.cells = c
          ∧ q.acct = arrAcct p ∧ q.copies = [] ∧ q.fault = false ∧ q.fate = none ∧ q.cls = (s.dev.port p).defCls
          ∧ q.domain = (s.dev.port p).domain)
        ∧ d.path.nextPkt = s.dev.path.nextPkt + 1 ∧ (∀ j, j ≠ s.dev.path.nextPkt → d.pkt j = s.dev.pkt j)
        ∧ d.count (Reg.logIn (fateRow p)) = s.dev.count (Reg.logIn (fateRow p)) + 1
        ∧ d.count (Reg.logResident (fateRow p)) = s.dev.count (Reg.logResident (fateRow p)) + 1)
    ∧ (n ≤ 256 → (n < 64 ∨ fcs = true) →
      Acts (.frameArrival p bytes (decide (n ≤ 256)) n fcs sec) s fun d =>
        d.pkt s.dev.path.nextPkt = none ∧ (∀ j, j ≠ s.dev.path.nextPkt → d.pkt j = s.dev.pkt j)
        ∧ d.count (Reg.fate (fateRow p) (if n < 64 then fRunt else fFcs))
            = s.dev.count (Reg.fate (fateRow p) (if n < 64 then fRunt else fFcs)) + 1
        ∧ d.count (Reg.logIn (fateRow p)) = s.dev.count (Reg.logIn (fateRow p)) + 1
        ∧ d.count (Reg.logResident (fateRow p)) = s.dev.count (Reg.logResident (fateRow p))))
  ∧ (∀ s p bytes n fcs sec, s.live → p < 256 → s.dev.portUp p = false ∨ isMacControl bytes = true →
    Unmoved (.frameArrival p bytes (decide (n ≤ 256)) n fcs sec) s)
  ∧ (∀ s k p g bytes n fcs sec c, s.live → s.dev.pkt k = some p → p.whole = false → p.place = .ingress g → p.fault = false →
    p.final = false → p.fate = none → p.term = none → p.copies = [] → p.toHost = [] → (s.dev.port (p.iport % 256)).macsec = false →
    c = ceilDiv (min 9416 (p.rxBytes + bytes.length)) 256 - p.cells →
    (p.stop = true ∨ (s.dev.takeCells p.acct (s.dev.shareOf p) c).2.placed = c) →
    (64 ≤ n → n ≤ 9416 → fcs = false →
      ∃ t, exec (.frameEnd k bytes n fcs sec) s = .next t ∧ t.pending = s.pending ∧ t.frozen = s.frozen
        ∧ (∃ q, t.dev.pkt k = some q ∧ q.whole = true ∧ q.rxLen = n ∧ q.bytes = (p.bytes ++ bytes).take (9416 + 256) ∧ q.fault = false
          ∧ q.fate = none ∧ q.place = .ingress g ∧ q.final = false ∧ q.counts = [] ∧ q.polices = [])
        ∧ t.dev.tbl.counters = p.counts.foldl (fun m e => Map.modify m e.1 (0, 0) fun v =>
            (v.1, v.2 + BitVec.ofNat 64 ((((p.bytes ++ bytes).take (9416 + 256)).length : Int) + e.2).toNat)) s.dev.tbl.counters
        ∧ ∀ j, j ≠ k → t.dev.pkt j = s.dev.pkt j)
    ∧ ((n < 64 ∨ 9416 < n ∨ fcs = true) →
      ∃ t f, exec (.frameEnd k bytes n fcs sec) s = .next t ∧ t.pending = s.pending ∧ t.snaps = s.snaps ∧ t.frozen = s.frozen
        ∧ f = (if n < 64 then fRunt else if 9416 < n then fOversize else fFcs)
        ∧ (∃ q, t.dev.pkt k = some q ∧ q.whole = true ∧ q.fault = true ∧ q.fate = some f ∧ q.final = true ∧ q.place = .ingress g)
        ∧ t.dev.count (Reg.fate (fateRow p.iport) f) = s.dev.count (Reg.fate (fateRow p.iport) f) + 1
        ∧ t.dev.count (Reg.logResident (fateRow p.iport)) = s.dev.count (Reg.logResident (fateRow p.iport)) - 1
        ∧ ∀ j, j ≠ k → t.dev.pkt j = s.dev.pkt j))
  ∧ (∀ s k p bytes n fcs sec, s.live → s.dev.pkt k = some p → p.whole = true → Unmoved (.frameEnd k bytes n fcs sec) s)
  ∧ (∀ s k c p x t, s.live → s.dev.pkt k = some p → s.dev.copy k c = some x → x.pos = .transmit → x.fate = none → x.mirror = false →
    (s.dev.link x.port).lost = false → s.dev.beginsAt k c x = some t →
    (p.whole = true → s.dev.boot.gated = false → (s.dev.port x.port).macsec = false →
      Acts (.copyTransmit k c) s fun d =>
        d.pclk = max (t + (s.dev.port x.port).lTx) s.dev.pclk
        ∧ (∃ body o, body = (x.frame p).dropLast.dropLast.dropLast.dropLast
          ∧ d.out = s.dev.out ++
            (if (s.dev.port x.port).braid then ⟨.braidFrame, [x.port], dataHeader (s.dev.txHeader p) ++ (body ++ le 4 (crc32 body))⟩
              else ⟨.frame, [x.port], body ++ le 4 (crc32 body)⟩) :: o)
        ∧ d.count (Reg.egFate x.port fForwarded) = s.dev.count (Reg.egFate x.port fForwarded) + 1
        ∧ d.count (Reg.logEgQueued x.port) = s.dev.count (Reg.logEgQueued x.port) - 1
        ∧ d.count (Reg.logCopiesTx (fateRow p.iport)) = s.dev.count (Reg.logCopiesTx (fateRow p.iport)) + 1
        ∧ ∀ y, d.copy k c = some y → y.fate = some fForwarded ∧ y.pos = .gone)
    ∧ (p.whole = false → s.dev.boot.gated = false → (s.dev.port x.port).macsec = false →
      Acts (.copyTransmit k c) s fun d => d.pclk = max (t + (s.dev.port x.port).lTx) s.dev.pclk
        ∧ d.copy k c = some { x with pos := .sending, txNs := some d.ns, read := p.cells, mac := none })
    ∧ (s.dev.boot.gated = true →
      Acts (.copyTransmit k c) s fun d => d.pclk = max (t + (s.dev.port x.port).lTx) s.dev.pclk
        ∧ d.count (Reg.egFate x.port fTxGated) = s.dev.count (Reg.egFate x.port fTxGated) + 1
        ∧ d.count (Reg.logEgQueued x.port) = s.dev.count (Reg.logEgQueued x.port) - 1
        ∧ ∀ y, d.copy k c = some y → y.fate = some fTxGated ∧ y.pos = .gone))
  ∧ (∀ s k c p x, s.live → s.dev.pkt k = some p → s.dev.copy k c = some x → s.dev.beginsAt k c x = none → Unmoved (.copyTransmit k c) s)
  ∧ (∀ s p, s.live → p < 256 → s.dev.refilled = false → Unmoved (.schedulerPick p) s)
  ∧ (∀ s p, s.live → p < 256 → s.dev.refilled = true → (∃ k < 8, s.dev.eligible (8 * p + k) = true) →
    (∀ k < 8, 0 < (s.dev.queue (8 * p + k)).quantum) →
    Acts (.schedulerPick p) s fun d => ∃ k < 8, s.dev.eligible (8 * p + k) = true
      ∧ ∃ j c q x y ls e, s.dev.headCopy (8 * p + k) = some (j, c, q, x)
        ∧ d.copy j c = some y ∧ y.pos = (if q.transit.isSome then .transmit else .picked)
        ∧ y.due = s.dev.pclk + (if q.transit.isSome then 720 else 120)
        ∧ Map.find d.path.lines p = some (ls ++ [e]) ∧ e.pkt = j ∧ e.copy = c ∧ e.bytes = q.charge
        ∧ d.count (Reg.schedQTxCopies (8 * p + k)) = s.dev.count (Reg.schedQTxCopies (8 * p + k)) + 1
        ∧ d.count (Reg.schedQTxBytes (8 * p + k)) = s.dev.count (Reg.schedQTxBytes (8 * p + k)) + BitVec.ofNat 64 q.charge)
  ∧ (∀ s p k j c q x def', s.live → p < 256 → s.dev.refilled = true → k = Map.getD s.dev.path.rrNext p 0 → k < 8 →
    s.dev.eligible (8 * p + k) = true → s.dev.headCopy (8 * p + k) = some (j, c, q, x) → x.port = p → x.cls = k →
    def' = (s.dev.queue (8 * p + k)).deficit + (if (s.dev.queue (8 * p + k)).awarded then 0 else ((s.dev.queue (8 * p + k)).quantum : Int)) →
    (q.charge : Int) ≤ def' →
    Acts (.schedulerPick p) s fun d =>
      (d.queue (8 * p + k)).copies = (s.dev.queue (8 * p + k)).copies.filter (· != (j, c))
      ∧ (if (s.dev.queue (8 * p + k)).copies.filter (· != (j, c)) = [] then
          (d.queue (8 * p + k)).deficit = 0 ∧ (d.queue (8 * p + k)).awarded = false ∧ Map.find d.path.rrNext p = some ((k + 1) % 8)
        else (d.queue (8 * p + k)).deficit = def' - q.charge ∧ (d.queue (8 * p + k)).awarded = true ∧ Map.find d.path.rrNext p = some k)
      ∧ ∀ n, n ≠ 8 * p + k → d.queue n = s.dev.queue n)
  ∧ (∀ s p, s.live → p < 256 → s.dev.refilled = true → (∀ k < 8, s.dev.eligible (8 * p + k) = false) →
    Acts (.schedulerPick p) s fun d => d.path.queues = s.dev.path.queues ∧ d.path.lines = s.dev.path.lines
      ∧ d.path.rrNext = s.dev.path.rrNext ∧ d.path.shapers = s.dev.path.shapers)
  ∧ ∀ (elig : Nat → Bool) (quantum charge : Nat → Nat) next (st : DrrState), next < 8 → st.length = 8 →
    (∃ k < 8, elig k = true) → (∀ k, 0 < quantum k) →
    ∃ k st', drrPick elig quantum charge ((List.range 8).map fun n => (next + n) % 8) (drrRounds elig charge st) st = (some k, st')
      ∧ k < 8 ∧ elig k = true

/-- Fibres (R99 to R101, R104, R107, R109, R115, R116, R162, R173, R438): a free fibre takes a packet, a copy, a slow-line packet or an
injection at the start of its program; a packet leaves at D + E; an envelope that runs out, or a slow program of 1,048,576 pclk,
traps; the trap vector starts 16 pclk after its trap; a trap record is delivered. -/
def Obligations.FibreEvents : Prop :=
  (∀ s k f p n e, s.live → f < 4096 → s.dev.pkt k = some p → (p.place = .arrival ∨ p.place = .waiting) → p.fault = false →
    p.transit = none → fibreLay f = p.lay → s.dev.freeFibre f = true →
    (s.dev.due (p.due - 7)).shadeAt ((s.dev.due (p.due - 7)).dispatchAt f p.due) = n → s.dev.fastPath n f = true → (s.dev.progSet n p.lay).ingress = some e →
    Acts (.packetDispatch k f) s fun d => (d.fibre f).pc = e.pc ∧ (d.fibre f).slot = 0
      ∧ (d.fibre f).arch = { m := p.ingressMeta n, win := windowOf p.bytes }
      ∧ (d.fibre f).run = some { role := .ingress, pkt := k, shade := n, e := e.e, d := (s.dev.due (p.due - 7)).dispatchAt f p.due }
      ∧ (d.fibre f).fetch = slotBy f ((s.dev.due (p.due - 7)).dispatchAt f p.due)
      ∧ ∃ q, d.pkt k = some q ∧ q.place = .ingress f ∧ q.shade = n)
  ∧ (∀ s k c f p x e, s.live → f < 4096 → s.dev.pkt k = some p → s.dev.copy k c = some x → x.pos = .picked →
    (s.dev.port x.port).removing = false → (x.cut = true ∧ 256 ≤ p.out.length ∨ p.whole = true) → fibreLay f = x.port / 8 → s.dev.fastPath p.shade f = true →
    s.dev.freeFibre f = true → (s.dev.progSet p.shade (x.port / 8)).egress = some e →
    Acts (.copyEgressDispatch k c f) s fun d => (d.fibre f).pc = e.pc ∧ (d.fibre f).slot = 0
      ∧ (d.fibre f).arch.win = windowOf p.out
      ∧ ∃ r, (d.fibre f).run = some r ∧ r.role = .egress ∧ r.pkt = k ∧ r.copy = c ∧ r.shade = p.shade ∧ r.e = e.e)
  ∧ (∀ s k p t, s.live → s.dev.pkt k = some p → p.place = .releaseLine t → s.dev.keeper k none = none →
    Acts (.packetRelease k none) s fun d =>
      d = if p.term = some .slow then (s.dev.due t).toSlowLine k p.lay else (s.dev.due t).release k)
  ∧ (∀ s k c x t, s.live → s.dev.copy k c = some x → x.pos = .egressLine t → s.dev.keeper k (some c) = none →
    Acts (.packetRelease k (some c)) s fun d => d = (s.dev.due t).releaseCopy k c)
  ∧ (∀ s f r, s.live → f < 4096 → (s.dev.fibre f).run = some r → r.role = .ingress → (s.dev.fibre f).trapped = none →
    (s.dev.fibre f).parked = false → (s.dev.fibre f).ended = none →
    Acts (.envelopeExpiry f) s fun d => d = (s.dev.due (r.d + r.e)).trapF f 0x01
      ∧ (d.fibre f).trapped = some ⟨0x01, max (r.d + r.e) s.dev.pclk⟩)
  ∧ (∀ s f r, s.live → f < 4096 → (s.dev.fibre f).run = some r → r.role = .slow → (s.dev.fibre f).ended = none →
    Acts (.slowTimeout f) s fun d => d = (s.dev.due (r.d + 1048576)).trapF f 0x09
      ∧ (d.fibre f).trapped = some ⟨0x09, max (r.d + 1048576) s.dev.pclk⟩)
  ∧ (∀ s f t r e, s.live → f < 4096 → (s.dev.fibre f).trapped = some t → (s.dev.fibre f).run = some r →
    (s.dev.progSet r.shade (fibreLay f)).vector = some e →
    Acts (.trapVectorStart f) s fun d => (d.fibre f).pc = e.pc ∧ (d.fibre f).trapped = none ∧ (d.fibre f).slot = 0
      ∧ (d.fibre f).run = some { r with role := .vector, d := max (t.t + 16) s.dev.pclk, e := e.e }
      ∧ bits ((d.fibre f).arch.getM 15).toNat 8 8 = t.cause % 256)
  ∧ (∀ s lay body rest, s.live → lay < 32 → (s.dev.layOf lay).trapLine = body :: rest →
    ((s.dev.subscribers 1 lay).filter s.dev.waitable).all (fun q => s.dev.hasRoom (eventBytes 2 body).length q) = true →
    Acts (.trapRecordDeliver lay) s fun d => (d.layOf lay).trapLine = rest ∧ ∀ l, l ≠ lay → d.layOf l = s.dev.layOf l)
  ∧ (∀ s f k rest p e, s.live → f < 4096 → (s.dev.layOf (fibreLay f)).slowLine = k :: rest → s.dev.pkt k = some p → p.fault = false →
    s.dev.slowEntry (fibreLay f) p.shade = some e → s.dev.exception p.shade f = true → s.dev.freeFibre f = true →
    (p.whole = true ∨ 256 ≤ p.bytes.length) →
    Acts (.slowLineTake f) s fun d => (d.layOf (fibreLay f)).slowLine = rest ∧ (d.fibre f).pc = e.pc
      ∧ (d.fibre f).run = some { role := .slow, pkt := k, shade := p.shade, d := s.dev.pclk }
      ∧ ∃ q, d.pkt k = some q ∧ q.place = .slow f)
  ∧ ∀ s f j rest e, s.live → f < 4096 → ((s.dev.retryInject 4096).layOf (fibreLay f)).inject = j :: rest →
    (s.dev.retryInject 4096).slowEntry (fibreLay f) (s.dev.retryInject 4096).current = some e →
    (s.dev.retryInject 4096).exception (s.dev.retryInject 4096).current f = true → (s.dev.retryInject 4096).freeFibre f = true →
    Acts (.injectionTake f) s fun d => (d.layOf (fibreLay f)).inject = rest ∧ (d.fibre f).pc = e.pc
      ∧ ∃ r, (d.fibre f).run = some r ∧ r.role = .slow ∧ r.pkt = (s.dev.retryInject 4096).path.nextPkt

/-- The ALU operations of two registers (Table 4.2): the result of what the bundle reads, written to rd, there to be read by the next
bundle, or 3 pclk after issue for MUL (Table 3.5); nothing else but the slot changes. The operations with an immediate and the field
operations (Table 4.2, R124), which trap where the field runs past bit 63. Compares and predicate logic (Table 4.2, R84, R127): p0
reads 1 and a write to it is ignored. -/
def Obligations.ArithmeticOperations : Prop :=
  ((∀ s f t g rd ra rb, s.issuesOp f t (.aluAdd f g rd ra rb) g [ra.toNat, rb.toNat] [] false →
      Retires (.aluAdd f g rd ra rb) s f t none fun i a => a.setW rd.toNat (i.getW ra.toNat + i.getW rb.toNat))
    ∧ (∀ s f t g rd ra rb, s.issuesOp f t (.aluSub f g rd ra rb) g [ra.toNat, rb.toNat] [] false →
      Retires (.aluSub f g rd ra rb) s f t none fun i a => a.setW rd.toNat (i.getW ra.toNat - i.getW rb.toNat))
    ∧ (∀ s f t g rd ra rb, s.issuesOp f t (.aluAnd f g rd ra rb) g [ra.toNat, rb.toNat] [] false →
      Retires (.aluAnd f g rd ra rb) s f t none fun i a => a.setW rd.toNat (i.getW ra.toNat &&& i.getW rb.toNat))
    ∧ (∀ s f t g rd ra rb, s.issuesOp f t (.aluOr f g rd ra rb) g [ra.toNat, rb.toNat] [] false →
      Retires (.aluOr f g rd ra rb) s f t none fun i a => a.setW rd.toNat (i.getW ra.toNat ||| i.getW rb.toNat))
    ∧ (∀ s f t g rd ra rb, s.issuesOp f t (.aluXor f g rd ra rb) g [ra.toNat, rb.toNat] [] false →
      Retires (.aluXor f g rd ra rb) s f t none fun i a => a.setW rd.toNat (i.getW ra.toNat ^^^ i.getW rb.toNat))
    ∧ (∀ s f t g rd ra rb, s.issuesOp f t (.aluAndn f g rd ra rb) g [ra.toNat, rb.toNat] [] false →
      Retires (.aluAndn f g rd ra rb) s f t none fun i a => a.setW rd.toNat (i.getW ra.toNat &&& ~~~(i.getW rb.toNat)))
    ∧ (∀ s f t g rd ra rb, s.issuesOp f t (.aluShl f g rd ra rb) g [ra.toNat, rb.toNat] [] false →
      Retires (.aluShl f g rd ra rb) s f t none fun i a => a.setW rd.toNat (i.getW ra.toNat <<< ((i.getW rb.toNat).toNat % 64)))
    ∧ (∀ s f t g rd ra rb, s.issuesOp f t (.aluShr f g rd ra rb) g [ra.toNat, rb.toNat] [] false →
      Retires (.aluShr f g rd ra rb) s f t none fun i a => a.setW rd.toNat (i.getW ra.toNat >>> ((i.getW rb.toNat).toNat % 64)))
    ∧ (∀ s f t g rd ra rb, s.issuesOp f t (.aluSar f g rd ra rb) g [ra.toNat, rb.toNat] [] false →
      Retires (.aluSar f g rd ra rb) s f t none fun i a => a.setW rd.toNat ((i.getW ra.toNat).sshiftRight ((i.getW rb.toNat).toNat % 64)))
    ∧ (∀ s f t g rd ra rb, s.issuesOp f t (.aluMinu f g rd ra rb) g [ra.toNat, rb.toNat] [] false →
      Retires (.aluMinu f g rd ra rb) s f t none fun i a => a.setW rd.toNat (if i.getW ra.toNat ≤ i.getW rb.toNat then i.getW ra.toNat else i.getW rb.toNat))
    ∧ (∀ s f t g rd ra rb, s.issuesOp f t (.aluMaxu f g rd ra rb) g [ra.toNat, rb.toNat] [] false →
      Retires (.aluMaxu f g rd ra rb) s f t none fun i a => a.setW rd.toNat (if i.getW ra.toNat ≤ i.getW rb.toNat then i.getW rb.toNat else i.getW ra.toNat))
    ∧ (∀ s f t g rd ra rb, s.issuesOp f t (.aluMul f g rd ra rb) g [ra.toNat, rb.toNat] [] false →
      RetiresAfter (.aluMul f g rd ra rb) s f t 3 [rd.toNat] fun i a => a.setW rd.toNat (i.getW ra.toNat * i.getW rb.toNat))
    ∧ (∀ s f t g rd ra rb, s.issuesOp f t (.aluMov f g rd ra rb) g [ra.toNat] [] false →
      Retires (.aluMov f g rd ra rb) s f t none fun i a => a.setW rd.toNat (i.getW ra.toNat))
    ∧ (∀ s f t g rd ra rb, s.issuesOp f t (.aluPopc f g rd ra rb) g [ra.toNat] [] false →
      Retires (.aluPopc f g rd ra rb) s f t none fun i a => a.setW rd.toNat (BitVec.ofNat 64 ((List.range 64).countP fun k => (i.getW ra.toNat).getLsbD k)))
    ∧ ∀ s f t g rd ra rb, s.issuesOp f t (.aluClz f g rd ra rb) g [ra.toNat] [] false →
      Retires (.aluClz f g rd ra rb) s f t none fun i a => a.setW rd.toNat (BitVec.ofNat 64 (leadingZeros 64 (i.getW ra.toNat))))
  ∧ ((∀ s f t g rd ra imm, s.issuesOp f t (.addi f g rd ra imm) g [ra.toNat] [] false →
      Retires (.addi f g rd ra imm) s f t none fun i a => a.setW rd.toNat (i.getW ra.toNat + imm.signExtend 64))
    ∧ (∀ s f t g rd ra imm, s.issuesOp f t (.andi f g rd ra imm) g [ra.toNat] [] false →
      Retires (.andi f g rd ra imm) s f t none fun i a => a.setW rd.toNat (i.getW ra.toNat &&& imm.zeroExtend 64))
    ∧ (∀ s f t g rd ra imm, s.issuesOp f t (.ori f g rd ra imm) g [ra.toNat] [] false →
      Retires (.ori f g rd ra imm) s f t none fun i a => a.setW rd.toNat (i.getW ra.toNat ||| imm.zeroExtend 64))
    ∧ (∀ s f t g rd ra imm, s.issuesOp f t (.xori f g rd ra imm) g [ra.toNat] [] false →
      Retires (.xori f g rd ra imm) s f t none fun i a => a.setW rd.toNat (i.getW ra.toNat ^^^ imm.zeroExtend 64))
    ∧ (∀ s f t g rd ra imm, s.issuesOp f t (.shli f g rd ra imm) g [ra.toNat] [] false → imm.toNat < 64 →
      Retires (.shli f g rd ra imm) s f t none fun i a => a.setW rd.toNat (i.getW ra.toNat <<< imm.toNat))
    ∧ (∀ s f t g rd ra imm, s.issuesOp f t (.shri f g rd ra imm) g [ra.toNat] [] false → imm.toNat < 64 →
      Retires (.shri f g rd ra imm) s f t none fun i a => a.setW rd.toNat (i.getW ra.toNat >>> imm.toNat))
    ∧ (∀ s f t g rd ra imm, s.issuesOp f t (.sari f g rd ra imm) g [ra.toNat] [] false → imm.toNat < 64 →
      Retires (.sari f g rd ra imm) s f t none fun i a => a.setW rd.toNat ((i.getW ra.toNat).sshiftRight imm.toNat))
    ∧ (∀ s f t g h rd imm, s.issuesOp f t (.movz f g h rd imm) g [] [] false →
      Retires (.movz f g h rd imm) s f t none fun _ a => a.setW rd.toNat (imm.zeroExtend 64 <<< (16 * h.toNat)))
    ∧ (∀ s f t g h rd imm, s.issuesOp f t (.movk f g h rd imm) g [rd.toNat] [] false →
      Retires (.movk f g h rd imm) s f t none fun i a => a.setW rd.toNat
        ((i.getW rd.toNat &&& ~~~(0xFFFF#64 <<< (16 * h.toNat))) ||| (imm.zeroExtend 64 <<< (16 * h.toNat))))
    ∧ (∀ s f t g rd ra pos len, s.issuesOp f t (.ext f g rd ra pos len) g [ra.toNat] [] false → pos.toNat + len.toNat < 64 →
      Retires (.ext f g rd ra pos len) s f t none fun i a => a.setW rd.toNat (BitVec.ofNat 64 ((i.getW ra.toNat).toNat / 2 ^ pos.toNat % 2 ^ (len.toNat + 1))))
    ∧ ∀ s f t g rd ra pos len, s.issuesOp f t (.ins f g rd ra pos len) g [rd.toNat, ra.toNat] [] false → pos.toNat + len.toNat < 64 →
      Retires (.ins f g rd ra pos len) s f t none fun i a => a.setW rd.toNat
        (BitVec.ofNat 64 (setBits (i.getW rd.toNat).toNat pos.toNat (len.toNat + 1) (i.getW ra.toNat).toNat)))
  ∧ ((∀ s f t g pd cond ra rb low, s.issuesOp f t (.cmp f g pd cond ra rb low) g [ra.toNat, rb.toNat] [] false → cond ≠ 7 →
      Retires (.cmp f g pd cond ra rb low) s f t none fun i a => a.setP pd.toNat (condHolds cond (i.getW ra.toNat) (i.getW rb.toNat)))
    ∧ (∀ s f t g pd cond ra imm, s.issuesOp f t (.cmpi f g pd cond ra imm) g [ra.toNat] [] false → cond ≠ 7 →
      Retires (.cmpi f g pd cond ra imm) s f t none fun i a => a.setP pd.toNat (condHolds cond (i.getW ra.toNat) (imm.signExtend 64)))
    ∧ (∀ s f t g pd pa pb low, s.issuesOp f t (.plogAnd f g pd pa pb low) g [] [pa.toNat, pb.toNat] false → low = 0 →
      Retires (.plogAnd f g pd pa pb low) s f t none fun i a => a.setP pd.toNat (i.getP pa.toNat && i.getP pb.toNat))
    ∧ (∀ s f t g pd pa pb low, s.issuesOp f t (.plogOr f g pd pa pb low) g [] [pa.toNat, pb.toNat] false → low = 0 →
      Retires (.plogOr f g pd pa pb low) s f t none fun i a => a.setP pd.toNat (i.getP pa.toNat || i.getP pb.toNat))
    ∧ (∀ s f t g pd pa pb low, s.issuesOp f t (.plogXor f g pd pa pb low) g [] [pa.toNat, pb.toNat] false → low = 0 →
      Retires (.plogXor f g pd pa pb low) s f t none fun i a => a.setP pd.toNat (i.getP pa.toNat != i.getP pb.toNat))
    ∧ (∀ s f t g pd pa pb low, s.issuesOp f t (.plogAndn f g pd pa pb low) g [] [pa.toNat, pb.toNat] false → low = 0 →
      Retires (.plogAndn f g pd pa pb low) s f t none fun i a => a.setP pd.toNat (i.getP pa.toNat && !i.getP pb.toNat))
    ∧ (∀ s f t g pd pa pb low, s.issuesOp f t (.plogNot f g pd pa pb low) g [] [pa.toNat] false → low = 0 →
      Retires (.plogNot f g pd pa pb low) s f t none fun i a => a.setP pd.toNat (!i.getP pa.toNat))
    ∧ (∀ s f t g pd pa pb low, s.issuesOp f t (.plogSet f g pd pa pb low) g [] [] false → low = 0 →
      Retires (.plogSet f g pd pa pb low) s f t none fun _ a => a.setP pd.toNat (true))
    ∧ (∀ s f t g pd pa pb low, s.issuesOp f t (.plogClr f g pd pa pb low) g [] [] false → low = 0 →
      Retires (.plogClr f g pd pa pb low) s f t none fun _ a => a.setP pd.toNat (false))
    ∧ (∀ (a : Arch) n v, a.getP 0 = true ∧ a.setP 0 v = a ∧ (a.setP n v).getP 0 = true)
    ∧ (∀ a : Arch, guardHolds 0 a = true)
    ∧ (∀ a b : W, (condHolds 0 a b = true ↔ a = b) ∧ (condHolds 1 a b = true ↔ a ≠ b) ∧ (condHolds 2 a b = true ↔ a < b)
      ∧ (condHolds 3 a b = true ↔ b ≤ a) ∧ (condHolds 4 a b = true ↔ a.toInt < b.toInt) ∧ (condHolds 5 a b = true ↔ b.toInt ≤ a.toInt)
      ∧ (condHolds 6 a b = true ↔ a &&& b ≠ 0))
    ∧ (∀ s f t g pd ra rb low, s.slotOp f t (.cmp f g pd 7 ra rb low) g [ra.toNat, rb.toNat] [] false →
      Traps (.cmp f g pd 7 ra rb low) s f t 0x04)
    ∧ (∀ s f t g pd ra imm, s.slotOp f t (.cmpi f g pd 7 ra imm) g [ra.toNat] [] false →
      Traps (.cmpi f g pd 7 ra imm) s f t 0x04)
    ∧ (∀ s f t g rd ra pos len, s.slotOp f t (.ext f g rd ra pos len) g [ra.toNat] [] false →
      64 < pos.toNat + (len.toNat + 1) → Traps (.ext f g rd ra pos len) s f t 0x04)
    ∧ ∀ s f t g rd ra pos len, s.slotOp f t (.ins f g rd ra pos len) g [rd.toNat, ra.toNat] [] false →
      64 < pos.toNat + (len.toNat + 1) → Traps (.ins f g rd ra pos len) s f t 0x04)

/-- Metadata, window, strand store, branch, NOP and the terminals (Table 4.2, R84 to R87, R96, R97, R112, R122, R125, R131): a load or
store within its window or region, a metadata write of the fields a program may write, a branch to its target with at most two
bundles squashed, and the end of the program with its terminal. What a terminal leaves (R101, R107): an ingress program that ends
with no lane operation outstanding and room in the release line frees its fibre, and its packet leaves at D + E with the registers
the program left. -/
def Obligations.MemoryAndControlOperations : Prop :=
  ((∀ s f t g rd n, s.issuesOp f t (.mrd f g rd n 0) g (if n = 15 then [64] else if n = 14 then [65] else []) [] (n == 14) →
      Retires (.mrd f g rd n 0) s f t none fun i a => a.setW rd.toNat (i.getM n.toNat))
    ∧ (∀ s f t g ra n, s.issuesOp f t (.mwr f g ra n 0) g [ra.toNat] [] false →
      metaTraps (((s.dev.fibre f).run.map (·.out)).getD false) n.toNat ((s.begun f t).iss.getM n.toNat)
        ((s.begun f t).iss.getW ra.toNat) = false →
      Retires (.mwr f g ra n 0) s f t none fun i a => a.setM n.toNat
        (let rw := BitVec.ofNat 64 (metaRw (((s.dev.fibre f).run.map (·.out)).getD false) n.toNat)
         (a.getM n.toNat &&& ~~~rw) ||| (i.getW ra.toNat &&& rw)))
    ∧ (∀ s f t g n (imm : BitVec 12), s.issuesOp f t (.mwri f g n 0 imm) g [] [] false →
      metaTraps (((s.dev.fibre f).run.map (·.out)).getD false) n.toNat ((s.begun f t).iss.getM n.toNat) (imm.zeroExtend 64) = false →
      Retires (.mwri f g n 0 imm) s f t none fun _ a => a.setM n.toNat
        (let rw := BitVec.ofNat 64 (metaRw (((s.dev.fibre f).run.map (·.out)).getD false) n.toNat)
         (a.getM n.toNat &&& ~~~rw) ||| (imm.zeroExtend 64 &&& rw)))
    ∧ (∀ s f t g rd size ix ra off, s.issuesOp f t (.wld f g rd size ix ra off 0) g (windowRegs ix ra) [] false →
      inWindow (windowAddr (s.begun f t).iss ix ra off) (2 ^ size.toNat) = true →
      RetiresAfter (.wld f g rd size ix ra off 0) s f t 2 [rd.toNat] fun i a => a.setW rd.toNat
        (BitVec.ofNat 64 (ofBe (Memory.readBytes i.win (windowAddr i ix ra off + 64).toNat (2 ^ size.toNat)))))
    ∧ (∀ s f t g rd size ix ra off, s.issuesOp f t (.wst f g rd size ix ra off) g (rd.toNat :: windowRegs ix ra) [] false →
      inWindow (windowAddr (s.begun f t).iss ix ra off) (2 ^ size.toNat) = true →
      Retires (.wst f g rd size ix ra off) s f t none fun i a =>
        { a with win := Memory.writeBytes a.win (windowAddr i ix ra off + 64).toNat (be (2 ^ size.toNat) (i.getW rd.toNat).toNat)
                 dirt := a.dirt ||| segments (windowAddr i ix ra off) (2 ^ size.toNat) })
    ∧ (∀ s f t g rd size region ra imm, s.issuesOp f t (.sld f g rd size region ra imm 0) g [ra.toNat] [] false → region ≠ 3 →
      storeAddr (s.begun f t).iss size ra imm + 2 ^ size.toNat ≤ regionSize region →
      RetiresAfter (.sld f g rd size region ra imm 0) s f t 3 [rd.toNat] fun i a => a.setW rd.toNat (BitVec.ofNat 64 (ofLe
        (s.dev.loadStore f (s.begun f t) region (storeAddr i size ra imm) (2 ^ size.toNat)))))
    ∧ (∀ s f t g rd size ra imm, s.issuesOp f t (.sst f g rd size 0 ra imm) g [rd.toNat, ra.toNat] [] false →
      storeAddr (s.begun f t).iss size ra imm + 2 ^ size.toNat ≤ 704 →
      Retires (.sst f g rd size 0 ra imm) s f t none fun i a =>
        { a with scr := Memory.writeBytes a.scr (storeAddr i size ra imm) (le (2 ^ size.toNat) (i.getW rd.toNat).toNat) })
    ∧ (∀ s f t g rd size ra imm, s.issuesOp f t (.sst f g rd size 2 ra imm) g [rd.toNat, ra.toNat] [] false →
      storeAddr (s.begun f t).iss size ra imm + 2 ^ size.toNat ≤ 24576 →
      Acts (.sst f g rd size 2 ra imm) s fun d =>
        (d.fibre f).arch = (s.begun f t).arch
        ∧ d.mem.scratch = Memory.writeBytes s.dev.mem.scratch (24576 * (f / 8) + storeAddr (s.begun f t).iss size ra imm)
            (le (2 ^ size.toNat) ((s.begun f t).iss.getW rd.toNat).toNat)
        ∧ d.mem = { s.dev.mem with scratch := d.mem.scratch } ∧ Dev.keeps [.pclk, .reel, .lay, .mem] s.dev d)
    ∧ (∀ s f t g target, s.issuesOp f t (.br f g target 0) g [] [] false → (s.dev.fibre f).slot = 3 →
      Acts (.br f g target 0) s fun d => (d.fibre f).pc = target.toNat ∧ (d.fibre f).slot = 0
        ∧ (d.fibre f).arch = (s.dev.fibre f).arch ∧ (d.fibre f).fetch = (s.dev.fibre f).at' + 4 ∧ (∀ h, h ≠ f → d.fibre h = s.dev.fibre h) ∧ d.free = s.dev.free + 1
        ∧ ∃ n ≤ 2, d.count (Reg.layFetchSquash (fibreLay f)) = s.dev.count (Reg.layFetchSquash (fibreLay f)) + BitVec.ofNat 64 n)
    ∧ (∀ s f t, s.issuesOp f t (.nop f 0 0) 0 [] [] false → Retires (.nop f 0 0) s f t none fun _ a => a)
    ∧ (∀ s f t w, s.live → f < 4096 → s.dev.opens f [] [] false = some t → (s.dev.fibre f).slot = 0 →
      Acts (.nop f w 1) s fun d => d = s.dev.bump (Reg.layPstoreCorrect (fibreLay f)))
    ∧ (∀ s f t w, s.live → f < 4096 → s.dev.opens f [] [] false = some t → (s.dev.fibre f).slot = 0 → Traps (.nop f w 2) s f t 0x06)
    ∧ (∀ s f t g code, s.issuesOp f t (.fwd f g 0 code) g [] [] false → (s.dev.fibre f).slot = 3 →
      badLength (s.dev.fibre f) (s.dev.fibre f).arch = false →
      exec (.fwd f g 0 code) s = .next (s.onDev fun d => (d.onFibre f (Fibre.next none)).finish f .fwd))
    ∧ (∀ s f t g (code : BitVec 8), s.issuesOp f t (.drop f g 0 code) g [] [] false → (s.dev.fibre f).slot = 3 →
      (code = 0x17 ∨ (0x40 ≤ code.toNat ∧ code.toNat ≤ 0xEF)) →
      exec (.drop f g 0 code) s = .next (s.onDev fun d =>
        (d.onFibre f (Fibre.next none)).finish f (.drop code.toNat)))
    ∧ (∀ s f t g code, s.issuesOp f t (.trap f g 0 code) g [] [] false → (s.dev.fibre f).slot = 3 →
      exec (.trap f g 0 code) s = .next (s.onDev fun d =>
        (d.onFibre f (Fibre.next none)).finish f (.trap code.toNat)))
    ∧ ∀ s f t g code r, s.issuesOp f t (.slow f g 0 code) g [] [] false → (s.dev.fibre f).slot = 3 → (s.dev.fibre f).run = some r →
      r.role ≠ .egress → badLength (s.dev.fibre f) (s.dev.fibre f).arch = false →
      exec (.slow f g 0 code) s = .next (s.onDev fun d => (d.onFibre f (Fibre.next none)).finish f .slow))
  ∧ (∀ (d : Dev) f t r p, (d.fibre f).run = some r → r.role = .ingress → d.pkt r.pkt = some p → (d.fibre f).posts = [] →
      (d.fibre f).parked = false →
      (((d.onFibre f fun x => { x with ended := some t }).stash f t).abandonSubs f).releaseLine (fibreLay f) < 256 →
      ((d.finish f t).fibre f).run = none
        ∧ ∃ q, (d.finish f t).pkt r.pkt = some q ∧ q.place = .releaseLine (r.d + r.e) ∧ q.term = some t ∧ q.m = (d.fibre f).arch.m
          ∧ q.bytes = p.bytes ∧ q.copies = p.copies)

/-- The lane operations (Table 4.3, R30, R95, R123, R128, R129, R163, R193, R315): each is posted to its lane with the key, index or
charge the registers give, from slot 3 of a bundle. -/
def Obligations.LaneOperations : Prop :=
  (∀ s f t g rd ra pd, s.issuesOp f t (.lkx f g rd ra pd 0) g [ra.toNat, ra.toNat + 1] [] false → (s.dev.fibre f).slot = 3 →
    ra.toNat < 31 → s.laneOpen f 0 →
    Posts (.lkx f g rd ra pd 0) s f 0 rd.toNat pd.toNat (.exact (((s.begun f t).iss.getW ra.toNat).toNat * 2 ^ 32
      + ((s.begun f t).iss.getW (ra.toNat + 1)).toNat % 2 ^ 32)))
  ∧ (∀ s f t g rd ra pd (v : BitVec 9), s.issuesOp f t (.lkxMac f g rd ra pd v) g [ra.toNat] [] false → (s.dev.fibre f).slot = 3 →
    v.getLsbD 8 = true → bits v.toNat 2 6 = 0 → s.laneOpen f 0 →
    Posts (.lkxMac f g rd ra pd v) s f 0 rd.toNat pd.toNat
      (.mac (v.getLsbD 0) (v.getLsbD 1) ((s.begun f t).iss.getW ra.toNat).toNat))
  ∧ (∀ s f t g rd ra pd, s.issuesOp f t (.lkl f g rd ra pd 0) g [ra.toNat] [] false → (s.dev.fibre f).slot = 3 → s.laneOpen f 1 →
    Posts (.lkl f g rd ra pd 0) s f 1 rd.toNat pd.toNat (.lpm false ((s.begun f t).iss.getW ra.toNat).toNat))
  ∧ (∀ s f t g rd ra pd, s.issuesOp f t (.lkl f g rd ra pd 1) g [ra.toNat, ra.toNat + 1] [] false → (s.dev.fibre f).slot = 3 →
    ra.toNat < 31 → s.laneOpen f 1 →
    Posts (.lkl f g rd ra pd 1) s f 1 rd.toNat pd.toNat (.lpm true (((s.begun f t).iss.getW ra.toNat).toNat * 2 ^ 64
      + ((s.begun f t).iss.getW (ra.toNat + 1)).toNat)))
  ∧ (∀ s f t g rd ra pd (v : BitVec 9), s.issuesOp f t (.lka f g rd ra pd v) g ((List.range 10).map (ra.toNat + ·)) [] false →
    (s.dev.fibre f).slot = 3 → v.toNat < 16 → ra.toNat ≤ 22 → s.laneOpen f 2 →
    Posts (.lka f g rd ra pd v) s f 2 rd.toNat pd.toNat
      (.acl v.toNat (setBits (keyOf (s.begun f t).iss ra.toNat 10) 636 4 v.toNat)))
  ∧ (∀ s f t g rd ra pd, s.issuesOp f t (.count f g rd ra pd 0) g [ra.toNat] [] false → (s.dev.fibre f).slot = 3 → s.laneOpen f 3 →
    Posts (.count f g rd ra pd 0) s f 3 rd.toNat pd.toNat (.count ((s.begun f t).iss.getW ra.toNat).toNat
      (s.dev.chargeOf (s.begun f t)).1 (s.dev.chargeOf (s.begun f t)).2))
  ∧ (∀ s f t g rd ra pd, s.issuesOp f t (.count f g rd ra pd 0x100) g [ra.toNat, rd.toNat] [] false → (s.dev.fibre f).slot = 3 →
    s.laneOpen f 3 →
    Posts (.count f g rd ra pd 0x100) s f 3 rd.toNat pd.toNat (.count ((s.begun f t).iss.getW ra.toNat).toNat
      ((s.begun f t).iss.getW rd.toNat).toNat none))
  ∧ (∀ s f t g rd ra pd r, s.issuesOp f t (.police f g rd ra pd 0) g [ra.toNat] [] false → (s.dev.fibre f).slot = 3 → s.laneOpen f 3 →
    (s.dev.fibre f).run = some r → ((s.begun f t).iss.getM 5).toNat ≠ 0x3FFF →
    Posts (.police f g rd ra pd 0) s f 3 rd.toNat pd.toNat (.police ((s.begun f t).iss.getW ra.toNat).toNat r.shade
      (((s.begun f t).iss.getM 2).toNat % 4) ((s.begun f t).iss.getM 5).toNat none))
  ∧ (∀ s f t g rd ra pd, s.issuesOp f t (.mcrd f g rd ra pd 0) g [ra.toNat] [] false → (s.dev.fibre f).slot = 3 → rd.toNat ≤ 28 →
    s.laneOpen f 3 →
    Posts (.mcrd f g rd ra pd 0) s f 3 rd.toNat pd.toNat (.group ((s.begun f t).iss.getW ra.toNat).toNat))
  ∧ ∀ s f t g rd ra pd (v : BitVec 9), s.issuesOp f t (.autsub f g rd ra pd v) g [ra.toNat] [] false → (s.dev.fibre f).slot = 3 →
    v.toNat < 256 → s.laneOpen f 3 →
    Posts (.autsub f g rd ra pd v) s f 3 rd.toNat pd.toNat (.automaton v.toNat ((s.begun f t).iss.getW ra.toNat).toNat)

/-- Automaton waits, cleats and lanyards of a fibre (R108, R130, R320, R403, R405, R408, R410): a wait joins the fibre's waits; a free
cleat is taken and a held one answers FULL; a lanyard takes a word while it holds fewer than 8 and gives its oldest; the waiting
forms block an exception fibre until they can go on. -/
def Obligations.WaitCleatAndLanyardOperations : Prop :=
  (∀ s f t g pd (b : BitVec 12), s.issuesOp f t (.autwait f g pd 0 b) g [] [] false → (s.dev.fibre f).slot = 3 → b ≠ 0 →
    (s.dev.fibre f).subs = [] →
    Acts (.autwait f g pd 0 b) s fun d => d.fibre f = Fibre.next none { (s.begun f t) with
        waits := (s.dev.fibre f).waits ++ [(pd.toNat, some ((s.dev.fibre f).at' + b.toNat))] }
      ∧ ∀ h, h ≠ f → d.fibre h = s.dev.fibre h)
  ∧ (∀ s f t g pd r, s.issuesOp f t (.autwaitu f g pd 0 0) g [] [] false → (s.dev.fibre f).slot = 3 → (s.dev.fibre f).run = some r →
    r.role = .slow → (s.dev.fibre f).subs = [] →
    Acts (.autwaitu f g pd 0 0) s fun d => d.fibre f = Fibre.next none { (s.begun f t) with
        waits := (s.dev.fibre f).waits ++ [(pd.toNat, none)] }
      ∧ ∀ h, h ≠ f → d.fibre h = s.dev.fibre h)
  ∧ (∀ s f pd t ws, s.live → f < 4096 → (s.dev.fibre f).waits = (pd, some t) :: ws →
    Acts (.autwaitTimeout f) s fun d => d.pclk = max t s.dev.pclk ∧ (d.fibre f).waits = ws
      ∧ (d.fibre f).subs = (s.dev.fibre f).subs.drop 1
      ∧ (d.fibre f).arch = ((s.dev.fibre f).arch.setM 14 0).answer pd false stTimeout ∧ ∀ h, h ≠ f → d.fibre h = s.dev.fibre h)
  ∧ (∀ s f t g rd ra pd n, s.issuesOp f t (.cltry f g rd ra pd 0) g [ra.toNat] [] false → (s.dev.fibre f).slot = 3 →
    n = 2048 * (f / 128) + ((s.begun f t).iss.getW ra.toNat).toNat % 2048 →
    Acts (.cltry f g rd ra pd 0) s fun d =>
      if (s.dev.cleat n).holder = none then
        d.cleat n = { s.dev.cleat n with holder := some (.fibre f) }
          ∧ d.fibre f = Fibre.next none (Fibre.after ((s.dev.fibre f).at' + 12) [32 + pd.toNat, 64]
              { (s.begun f t) with arch := (s.begun f t).arch.answer pd.toNat true stDone })
          ∧ d.ctr = s.dev.ctr
      else d.cap = s.dev.cap ∧ d.count Reg.capCleatFail = s.dev.count Reg.capCleatFail + 1
          ∧ d.fibre f = Fibre.next none (Fibre.after ((s.dev.fibre f).at' + 12) [32 + pd.toNat, 64]
              { (s.begun f t) with arch := (s.begun f t).arch.answer pd.toNat false stFull }))
  ∧ (∀ s f t g rd ra pd n, s.issuesOp f t (.clrel f g rd ra pd 0) g [ra.toNat] [] false → (s.dev.fibre f).slot = 3 →
    n = 2048 * (f / 128) + ((s.begun f t).iss.getW ra.toNat).toNat % 2048 →
    ((s.dev.cleat n).holder = some (.fibre f) → (s.dev.cleat n).waiters = []) →
    Acts (.clrel f g rd ra pd 0) s fun d =>
      if (s.dev.cleat n).holder = some (.fibre f) then
        (d.cleat n).holder = none
          ∧ d.fibre f = Fibre.next none (Fibre.after ((s.dev.fibre f).at' + 12) [32 + pd.toNat, 64]
              { (s.begun f t) with arch := (s.begun f t).arch.answer pd.toNat true stDone })
      else d.cap = s.dev.cap
          ∧ d.fibre f = Fibre.next none (Fibre.after ((s.dev.fibre f).at' + 12) [32 + pd.toNat, 64]
              { (s.begun f t) with arch := (s.begun f t).arch.answer pd.toNat false stNotFound }))
  ∧ (∀ s f t g rd ra pd n r, s.issuesOp f t (.clwait f g rd ra pd 0) g [ra.toNat] [] false → (s.dev.fibre f).slot = 3 →
    (s.dev.fibre f).run = some r → r.role = .slow →
    n = 2048 * (f / 128) + ((s.begun f t).iss.getW ra.toNat).toNat % 2048 →
    Acts (.clwait f g rd ra pd 0) s fun d =>
      ((s.dev.cleat n).holder ≠ none → d.cleat n = { s.dev.cleat n with waiters := (s.dev.cleat n).waiters ++ [.fibre f] }
          ∧ d.fibre f = Fibre.next none { (s.begun f t) with block := some (.cleat n pd.toNat) })
      ∧ ((s.dev.cleat n).holder = none → (s.dev.cleat n).waiters = [] → (d.cleat n).holder = some (.fibre f)
          ∧ (d.cleat n).waiters = [] ∧ (d.fibre f).block = none))
  ∧ (∀ s f t g rd ra pd n w, s.issuesOp f t (.lnput f g rd ra pd 0) g [rd.toNat, ra.toNat] [] false → (s.dev.fibre f).slot = 3 →
    n = ((s.begun f t).iss.getW ra.toNat).toNat % 1024 → w = (s.begun f t).iss.getW rd.toNat →
    (s.dev.lanyard n).gets = [] → (s.dev.lanyard n).puts = [] →
    Acts (.lnput f g rd ra pd 0) s fun d =>
      if (s.dev.lanyard n).words.length < 8 then
        (d.lanyard n).words = (s.dev.lanyard n).words ++ [w]
          ∧ d.fibre f = Fibre.next none (Fibre.after ((s.dev.fibre f).at' + 12) [32 + pd.toNat, 64]
              { (s.begun f t) with arch := (s.begun f t).arch.answer pd.toNat true stDone })
      else d.count Reg.capLnyFull = s.dev.count Reg.capLnyFull + 1 ∧ d.cap = s.dev.cap
          ∧ d.fibre f = Fibre.next none (Fibre.after ((s.dev.fibre f).at' + 12) [32 + pd.toNat, 64]
              { (s.begun f t) with arch := (s.begun f t).arch.answer pd.toNat false stFull }))
  ∧ (∀ s f t g rd ra pd n w ws, s.issuesOp f t (.lnget f g rd ra pd 0) g [ra.toNat] [] false → (s.dev.fibre f).slot = 3 →
    n = ((s.begun f t).iss.getW ra.toNat).toNat % 1024 → (s.dev.lanyard n).words = w :: ws → s.dev.freshWords (s.dev.lanyard n) ≤ ws.length →
    (s.dev.lanyard n).puts = [] →
    (s.dev.lanyard n).gets = [] →
    Acts (.lnget f g rd ra pd 0) s fun d => (d.lanyard n).words = ws
      ∧ d.fibre f = Fibre.next none (Fibre.after ((s.dev.fibre f).at' + 12) [rd.toNat, 32 + pd.toNat, 64] { (s.begun f t) with
          arch := ((s.begun f t).arch.setW rd.toNat w).answer pd.toNat true stDone }))
  ∧ (∀ s f t g rd ra pd n r w, s.issuesOp f t (.lnputw f g rd ra pd 0) g [rd.toNat, ra.toNat] [] false → (s.dev.fibre f).slot = 3 →
    (s.dev.fibre f).run = some r → r.role = .slow → n = ((s.begun f t).iss.getW ra.toNat).toNat % 1024 →
    w = (s.begun f t).iss.getW rd.toNat → 8 ≤ (s.dev.lanyard n).words.length → (s.dev.lanyard n).gets = [] →
    (s.dev.lanyard n).puts = [] →
    Acts (.lnputw f g rd ra pd 0) s fun d => (d.lanyard n) = { s.dev.lanyard n with puts := [(.fibre f, w)] }
      ∧ d.fibre f = Fibre.next none { (s.begun f t) with block := some (.put n w pd.toNat) })
  ∧ ∀ s f t g rd ra pd n r, s.issuesOp f t (.lngetw f g rd ra pd 0) g [ra.toNat] [] false → (s.dev.fibre f).slot = 3 →
    (s.dev.fibre f).run = some r → r.role = .slow → n = ((s.begun f t).iss.getW ra.toNat).toNat % 1024 →
    (s.dev.lanyard n).words = [] → (s.dev.lanyard n).puts = [] →
    Acts (.lngetw f g rd ra pd 0) s fun d =>
      (d.lanyard n) = { s.dev.lanyard n with gets := (s.dev.lanyard n).gets ++ [.fibre f] }
      ∧ d.fibre f = Fibre.next none { (s.begun f t) with block := some (.get n rd.toNat pd.toNat) }

/-- Results of the lanes and the ends of what lookups leave (R95, R128, R129, R168, R215, R219, R224, R277): the post due first takes
effect at its pclk; a hit gives its result, and a miss NOT_FOUND and no register; a multicast group is read into four registers; a
counter adds; a POLICE waits for the refill of its turn; a reloaded line matches again; a stale window and a cached result end. -/
def Obligations.LaneResultsAndTableEvents : Prop :=
  (∀ s f lane ecc way p, s.live → f < 4096 → lane < 4 → ecc < 3 → way < 8 → (s.dev.fibre f).firstPost lane = some p →
    (s.dev.fibre f).ended = none → s.dev.policeFirst f p = true → p.refilled (s.dev.due p.due) = true →
    (∀ k, p.op ≠ .exact k) → (∀ l t k, p.op ≠ .mac l t k) → (∀ w k, p.op ≠ .lpm w k) → (∀ q k, p.op ≠ .acl q k) →
    (∀ t w, p.op ≠ .automaton t w) →
    Acts (.laneResultArrival f lane ⟨ecc, way⟩) s fun d => d.pclk = max p.due s.dev.pclk
      ∧ (d.fibre f).posts = (s.dev.fibre f).posts.erase p)
  ∧ (∀ s f lane ecc way p, s.live → f < 4096 → lane < 4 → ecc < 3 → way < 8 → (s.dev.fibre f).firstPost lane = some p →
    (s.dev.policeFirst f p = false ∨ p.refilled (s.dev.due p.due) = false) → Unmoved (.laneResultArrival f lane ⟨ecc, way⟩) s)
  ∧ (∀ s f way p key, s.live → f < 4096 → way < 8 → (s.dev.fibre f).firstPost 0 = some p → (s.dev.fibre f).ended = none →
    p.op = .exact key → p.dead = false → (s.dev.due p.due).cached (fibreLay f) 1 p.run.shade key = none →
    s.dev.tbl.matching 1 p.run.shade key = [] → s.dev.tbl.reload = [] →
    Acts (.laneResultArrival f 0 ⟨0, way⟩) s fun d => (d.fibre f).arch = (s.dev.fibre f).arch.answer p.pd false stNotFound
      ∧ d.tbl = s.dev.tbl)
  ∧ (∀ s f way p key line v, s.live → f < 4096 → way < 8 → (s.dev.fibre f).firstPost 0 = some p → (s.dev.fibre f).ended = none →
    p.op = .exact key → p.dead = false → (s.dev.due p.due).cached (fibreLay f) 1 p.run.shade key = none →
    s.dev.tbl.matching 1 p.run.shade key = [(line, v)] → s.dev.tbl.reload = [] → s.dev.tbl.stale = [] →
    Acts (.laneResultArrival f 0 ⟨0, way⟩) s fun d =>
      (d.fibre f).arch = ((s.dev.fibre f).arch.setW p.rd v).answer p.pd true stDone)
  ∧ (∀ s f ecc way p n m, s.live → f < 4096 → ecc < 3 → way < 8 → (s.dev.fibre f).firstPost 3 = some p →
    (s.dev.fibre f).ended = none → p.op = .group n → p.dead = false → n < 65536 →
    Map.find (s.dev.shade p.run.shade).groups n = some m →
    Acts (.laneResultArrival f 3 ⟨ecc, way⟩) s fun d => (d.fibre f).arch =
      (((((s.dev.fibre f).arch.setW p.rd (BitVec.ofNat 64 (bits m 0 64))).setW (p.rd + 1) (BitVec.ofNat 64 (bits m 64 64))).setW
        (p.rd + 2) (BitVec.ofNat 64 (bits m 128 64))).setW (p.rd + 3) (BitVec.ofNat 64 (bits m 192 64))).answer p.pd true stDone)
  ∧ (∀ s f ecc way p i n, s.live → f < 4096 → ecc < 3 → way < 8 → (s.dev.fibre f).firstPost 3 = some p →
    (s.dev.fibre f).ended = none → p.op = .count i n none → p.dead = false → i < 524288 →
    Acts (.laneResultArrival f 3 ⟨ecc, way⟩) s fun d => (d.fibre f).arch = (s.dev.fibre f).arch.answer p.pd true stDone
      ∧ Map.getD d.tbl.counters i (0, 0) = ((Map.getD s.dev.tbl.counters i (0, 0)).1 + 1,
          (Map.getD s.dev.tbl.counters i (0, 0)).2 + BitVec.ofNat 64 n)
      ∧ ∀ j, j ≠ i → Map.getD d.tbl.counters j (0, 0) = Map.getD s.dev.tbl.counters j (0, 0))
  ∧ (∀ s tab line e, s.live → tab < 4 → s.dev.tbl.reload.find? (fun e => e.1 == tab && e.2.1 == line) = some e →
    Acts (.tableLineReloadDone tab line) s fun d =>
      d.tbl = { (if tab = 2 then s.dev.tbl.endFix line else s.dev.tbl) with
        reload := s.dev.tbl.reload.filter (fun e => !(e.1 == tab && e.2.1 == line))
        fixLast := BitVec.ofNat 64 (tab % 16 + line % 2 ^ 24 * 256 + e.2.2 % 2 ^ 32 * 2 ^ 32) }
      ∧ d.count Reg.tblScrubFix = s.dev.count Reg.tblScrubFix + 1)
  ∧ (∀ s table line w, s.live → table < 4 → s.dev.tbl.stale.find? (fun w => w.table == table && w.line == line) = some w →
    Acts (.staleWindowClose table line) s fun d => d.pclk = max w.close s.dev.pclk
      ∧ d.tbl = { s.dev.tbl with stale := s.dev.tbl.stale.erase w })
  ∧ ∀ s lay table shade key, s.live → lay < 32 → table < 5 → shade < 4 →
    Acts (.lookupCacheExpiry lay table shade key) s fun d =>
      (d.layOf lay).cache = (s.dev.layOf lay).cache.filter (fun c => !(c.table == table && c.shade == shade && c.key == key))
      ∧ (∀ l, l ≠ lay → d.layOf l = s.dev.layOf l) ∧ d.lay.fibres = s.dev.lay.fibres

/-- Operations that trap (R85, R86, R108, R122 to R127, R131): an illegal form whatever its guard, in slot 3 alone where the operation
is of slot 3; an access outside its window or region, a metadata write that R85 traps, a frame size outside 64 to 9,416 B and a
blocking operation off the slow path where the guard holds. The bundle has no effect. -/
def Obligations.OperationsThatTrap : Prop :=
  (∀ s f t g rd ra imm, s.slotOp f t (.shli f g rd ra imm) g [ra.toNat] [] false →
    64 ≤ imm.toNat → Traps (.shli f g rd ra imm) s f t 0x04)
  ∧ (∀ s f t g rd ra imm, s.slotOp f t (.shri f g rd ra imm) g [ra.toNat] [] false →
    64 ≤ imm.toNat → Traps (.shri f g rd ra imm) s f t 0x04)
  ∧ (∀ s f t g rd ra imm, s.slotOp f t (.sari f g rd ra imm) g [ra.toNat] [] false →
    64 ≤ imm.toNat → Traps (.sari f g rd ra imm) s f t 0x04)
  ∧ (∀ s f t g rd ra pos len, s.slotOp f t (.ext f g rd ra pos len) g [ra.toNat] [] false →
    64 ≤ pos.toNat + len.toNat → Traps (.ext f g rd ra pos len) s f t 0x04)
  ∧ (∀ s f t g rd ra pos len, s.slotOp f t (.ins f g rd ra pos len) g [rd.toNat, ra.toNat] [] false →
    64 ≤ pos.toNat + len.toNat → Traps (.ins f g rd ra pos len) s f t 0x04)
  ∧ (∀ s f t g pd ra rb low, s.slotOp f t (.cmp f g pd 7 ra rb low) g [ra.toNat, rb.toNat] [] false →
    Traps (.cmp f g pd 7 ra rb low) s f t 0x04)
  ∧ (∀ s f t g pd ra imm, s.slotOp f t (.cmpi f g pd 7 ra imm) g [ra.toNat] [] false →
    Traps (.cmpi f g pd 7 ra imm) s f t 0x04)
  ∧ (∀ s f t g pd pa pb low, s.slotOp f t (.plogAnd f g pd pa pb low) g [] [pa.toNat, pb.toNat] false →
    low ≠ 0 → Traps (.plogAnd f g pd pa pb low) s f t 0x04)
  ∧ (∀ s f t g rd n low, s.slotOp f t (.mrd f g rd n low) g (if n = 15 then [64] else if n = 14 then [65] else []) [] (n == 14) →
    low ≠ 0 → Traps (.mrd f g rd n low) s f t 0x04)
  ∧ (∀ s f t g ra n low, s.slotOp f t (.mwr f g ra n low) g [ra.toNat] [] false →
    low ≠ 0 → Traps (.mwr f g ra n low) s f t 0x04)
  ∧ (∀ s f t g n mid imm, s.slotOp f t (.mwri f g n mid imm) g [] [] false →
    mid ≠ 0 → Traps (.mwri f g n mid imm) s f t 0x04)
  ∧ (∀ s f t g rd size ra imm ecc, s.slotOp f t (.sld f g rd size 3 ra imm ecc) g [ra.toNat] [] false →
    ecc < 3 → Traps (.sld f g rd size 3 ra imm ecc) s f t 0x04)
  ∧ (∀ s f t g rd size ra imm, s.slotOp f t (.sst f g rd size 3 ra imm) g [rd.toNat, ra.toNat] [] false →
    Traps (.sst f g rd size 3 ra imm) s f t 0x04)
  ∧ (∀ s f t g target low, s.slotOp f t (.br f g target low) g [] [] false →
    (low ≠ 0 ∨ (s.dev.fibre f).slot ≠ 3) → Traps (.br f g target low) s f t 0x04)
  ∧ (∀ s f t g high code, s.slotOp f t (.fwd f g high code) g [] [] false →
    (high ≠ 0 ∨ (s.dev.fibre f).slot ≠ 3) → Traps (.fwd f g high code) s f t 0x04)
  ∧ (∀ s f t g high (code : BitVec 8), s.slotOp f t (.drop f g high code) g [] [] false →
    (high ≠ 0 ∨ (code ≠ 0x17 ∧ (code.toNat < 0x40 ∨ 0xEF < code.toNat))) → Traps (.drop f g high code) s f t 0x04)
  ∧ (∀ s f t g code r, s.slotOp f t (.slow f g 0 code) g [] [] false →
    (s.dev.fibre f).run = some r → r.role = .egress → Traps (.slow f g 0 code) s f t 0x04)
  ∧ (∀ s f t g rd ra pd (v : BitVec 9), s.slotOp f t (.lkx f g rd ra pd v) g [ra.toNat, ra.toNat + 1] [] false →
    v.getLsbD 8 = false → (v ≠ 0 ∨ ra = 31) → Traps (.lkx f g rd ra pd v) s f t 0x04)
  ∧ (∀ s f t g rd ra pd (v : BitVec 9), s.slotOp f t (.lka f g rd ra pd v) g ((List.range 10).map (ra.toNat + ·)) [] false →
    (16 ≤ v.toNat ∨ 22 < ra.toNat) → Traps (.lka f g rd ra pd v) s f t 0x04)
  ∧ (∀ s f t g rd ra pd v, s.slotOp f t (.mcrd f g rd ra pd v) g [ra.toNat] [] false →
    (v ≠ 0 ∨ 28 < rd.toNat) → Traps (.mcrd f g rd ra pd v) s f t 0x04)
  ∧ (∀ s f t g rd ra pd v, s.slotOp f t (.cltry f g rd ra pd v) g [ra.toNat] [] false →
    v ≠ 0 → Traps (.cltry f g rd ra pd v) s f t 0x04)
  ∧ (∀ s f t g rd size ix ra off ecc, s.issuesOp f t (.wld f g rd size ix ra off ecc) g (windowRegs ix ra) [] false →
    ecc < 3 → inWindow (windowAddr (s.begun f t).iss ix ra off) (2 ^ size.toNat) = false → Traps (.wld f g rd size ix ra off ecc) s f t 0x02)
  ∧ (∀ s f t g rd size ix ra off, s.issuesOp f t (.wst f g rd size ix ra off) g (rd.toNat :: windowRegs ix ra) [] false →
    inWindow (windowAddr (s.begun f t).iss ix ra off) (2 ^ size.toNat) = false → Traps (.wst f g rd size ix ra off) s f t 0x02)
  ∧ (∀ s f t g rd size region ra imm ecc, s.issuesOp f t (.sld f g rd size region ra imm ecc) g [ra.toNat] [] false →
    region ≠ 3 → ecc < 3 → regionSize region < storeAddr (s.begun f t).iss size ra imm + 2 ^ size.toNat → Traps (.sld f g rd size region ra imm ecc) s f t 0x03)
  ∧ (∀ s f t g rd size ra imm, s.issuesOp f t (.sst f g rd size 1 ra imm) g [rd.toNat, ra.toNat] [] false →
    Traps (.sst f g rd size 1 ra imm) s f t 0x03)
  ∧ (∀ s f t g ra n, s.issuesOp f t (.mwr f g ra n 0) g [ra.toNat] [] false →
    metaTraps (((s.dev.fibre f).run.map (·.out)).getD false) n.toNat ((s.begun f t).iss.getM n.toNat)
      ((s.begun f t).iss.getW ra.toNat) = true → Traps (.mwr f g ra n 0) s f t 0x05)
  ∧ (∀ s f t g code, s.issuesOp f t (.fwd f g 0 code) g [] [] false →
    (s.dev.fibre f).slot = 3 → badLength (s.dev.fibre f) (s.dev.fibre f).arch = true → Traps (.fwd f g 0 code) s f t 0x0A)
  ∧ (∀ s f t g rd ra pd r, s.issuesOp f t (.clwait f g rd ra pd 0) g [ra.toNat] [] false →
    (s.dev.fibre f).slot = 3 → (s.dev.fibre f).run = some r → r.role ≠ .slow →
    (r.role = .vector → s.dev.exception r.shade f = false) → Traps (.clwait f g rd ra pd 0) s f t 0x08)
  ∧ (∀ s f t g rd ra pd r, s.issuesOp f t (.lnputw f g rd ra pd 0) g [rd.toNat, ra.toNat] [] false →
    (s.dev.fibre f).slot = 3 → (s.dev.fibre f).run = some r → r.role ≠ .slow →
    (r.role = .vector → s.dev.exception r.shade f = false) → Traps (.lnputw f g rd ra pd 0) s f t 0x08)
  ∧ (∀ s f t g rd ra pd r, s.issuesOp f t (.lngetw f g rd ra pd 0) g [ra.toNat] [] false →
    (s.dev.fibre f).slot = 3 → (s.dev.fibre f).run = some r → r.role ≠ .slow →
    (r.role = .vector → s.dev.exception r.shade f = false) → Traps (.lngetw f g rd ra pd 0) s f t 0x08)
  ∧ ∀ s f t g pd r, s.issuesOp f t (.autwaitu f g pd 0 0) g [] [] false →
    (s.dev.fibre f).slot = 3 → (s.dev.fibre f).run = some r → r.role ≠ .slow →
    (r.role = .vector → s.dev.exception r.shade f = false) → Traps (.autwaitu f g pd 0 0) s f t 0x08

/-- An operation whose guard does not hold has no effect (R121): whatever the state, it changes nothing where it does not issue, only
advances its slot (no post, no wait, no write), or traps ILLEGAL_BUNDLE. A legal one that issues advances its slot. -/
def Obligations.GuardedOffOperations : Prop :=
  (∀ c s w, operationWord c = some w → (∀ f v e, c ≠ .nop f v e) → c.wf = true → s.live →
    guardHolds (wordGuard w) ((s.dev.fibre (opFibre c)).begin 0).iss = false →
    Unmoved c s ∨ ∃ t, Retires c s (opFibre c) t none (fun _ a => a) ∨ Traps c s (opFibre c) t 0x04)
  ∧ (∀ s f t g rd ra rb, s.slotOp f t (.aluAdd f g rd ra rb) g [ra.toNat, rb.toNat] [] false → guardHolds g (s.begun f t).iss = false →
    Retires (.aluAdd f g rd ra rb) s f t none fun _ a => a)
  ∧ (∀ s f t g rd ra rb, s.slotOp f t (.aluSub f g rd ra rb) g [ra.toNat, rb.toNat] [] false → guardHolds g (s.begun f t).iss = false →
    Retires (.aluSub f g rd ra rb) s f t none fun _ a => a)
  ∧ (∀ s f t g rd ra rb, s.slotOp f t (.aluAnd f g rd ra rb) g [ra.toNat, rb.toNat] [] false → guardHolds g (s.begun f t).iss = false →
    Retires (.aluAnd f g rd ra rb) s f t none fun _ a => a)
  ∧ (∀ s f t g rd ra rb, s.slotOp f t (.aluOr f g rd ra rb) g [ra.toNat, rb.toNat] [] false → guardHolds g (s.begun f t).iss = false →
    Retires (.aluOr f g rd ra rb) s f t none fun _ a => a)
  ∧ (∀ s f t g rd ra rb, s.slotOp f t (.aluXor f g rd ra rb) g [ra.toNat, rb.toNat] [] false → guardHolds g (s.begun f t).iss = false →
    Retires (.aluXor f g rd ra rb) s f t none fun _ a => a)
  ∧ (∀ s f t g rd ra rb, s.slotOp f t (.aluAndn f g rd ra rb) g [ra.toNat, rb.toNat] [] false → guardHolds g (s.begun f t).iss = false →
    Retires (.aluAndn f g rd ra rb) s f t none fun _ a => a)
  ∧ (∀ s f t g rd ra rb, s.slotOp f t (.aluShl f g rd ra rb) g [ra.toNat, rb.toNat] [] false → guardHolds g (s.begun f t).iss = false →
    Retires (.aluShl f g rd ra rb) s f t none fun _ a => a)
  ∧ (∀ s f t g rd ra rb, s.slotOp f t (.aluShr f g rd ra rb) g [ra.toNat, rb.toNat] [] false → guardHolds g (s.begun f t).iss = false →
    Retires (.aluShr f g rd ra rb) s f t none fun _ a => a)
  ∧ (∀ s f t g rd ra rb, s.slotOp f t (.aluSar f g rd ra rb) g [ra.toNat, rb.toNat] [] false → guardHolds g (s.begun f t).iss = false →
    Retires (.aluSar f g rd ra rb) s f t none fun _ a => a)
  ∧ (∀ s f t g rd ra rb, s.slotOp f t (.aluMinu f g rd ra rb) g [ra.toNat, rb.toNat] [] false → guardHolds g (s.begun f t).iss = false →
    Retires (.aluMinu f g rd ra rb) s f t none fun _ a => a)
  ∧ (∀ s f t g rd ra rb, s.slotOp f t (.aluMaxu f g rd ra rb) g [ra.toNat, rb.toNat] [] false → guardHolds g (s.begun f t).iss = false →
    Retires (.aluMaxu f g rd ra rb) s f t none fun _ a => a)
  ∧ (∀ s f t g rd ra rb, s.slotOp f t (.aluMul f g rd ra rb) g [ra.toNat, rb.toNat] [] false → guardHolds g (s.begun f t).iss = false →
    Retires (.aluMul f g rd ra rb) s f t none fun _ a => a)
  ∧ (∀ s f t g rd ra rb, s.slotOp f t (.aluMov f g rd ra rb) g [ra.toNat] [] false → guardHolds g (s.begun f t).iss = false →
    Retires (.aluMov f g rd ra rb) s f t none fun _ a => a)
  ∧ (∀ s f t g rd ra rb, s.slotOp f t (.aluPopc f g rd ra rb) g [ra.toNat] [] false → guardHolds g (s.begun f t).iss = false →
    Retires (.aluPopc f g rd ra rb) s f t none fun _ a => a)
  ∧ (∀ s f t g rd ra rb, s.slotOp f t (.aluClz f g rd ra rb) g [ra.toNat] [] false → guardHolds g (s.begun f t).iss = false →
    Retires (.aluClz f g rd ra rb) s f t none fun _ a => a)
  ∧ (∀ s f t g rd ra imm, s.slotOp f t (.addi f g rd ra imm) g [ra.toNat] [] false → guardHolds g (s.begun f t).iss = false →
    Retires (.addi f g rd ra imm) s f t none fun _ a => a)
  ∧ (∀ s f t g rd ra imm, s.slotOp f t (.andi f g rd ra imm) g [ra.toNat] [] false → guardHolds g (s.begun f t).iss = false →
    Retires (.andi f g rd ra imm) s f t none fun _ a => a)
  ∧ (∀ s f t g rd ra imm, s.slotOp f t (.ori f g rd ra imm) g [ra.toNat] [] false → guardHolds g (s.begun f t).iss = false →
    Retires (.ori f g rd ra imm) s f t none fun _ a => a)
  ∧ (∀ s f t g rd ra imm, s.slotOp f t (.xori f g rd ra imm) g [ra.toNat] [] false → guardHolds g (s.begun f t).iss = false →
    Retires (.xori f g rd ra imm) s f t none fun _ a => a)
  ∧ (∀ s f t g h rd imm, s.slotOp f t (.movz f g h rd imm) g [] [] false → guardHolds g (s.begun f t).iss = false →
    Retires (.movz f g h rd imm) s f t none fun _ a => a)
  ∧ (∀ s f t g h rd imm, s.slotOp f t (.movk f g h rd imm) g [rd.toNat] [] false → guardHolds g (s.begun f t).iss = false →
    Retires (.movk f g h rd imm) s f t none fun _ a => a)
  ∧ (∀ s f t g rd size ix ra off, s.slotOp f t (.wst f g rd size ix ra off) g (rd.toNat :: windowRegs ix ra) [] false → guardHolds g (s.begun f t).iss = false →
    Retires (.wst f g rd size ix ra off) s f t none fun _ a => a)
  ∧ (∀ s f t g ra n low, s.slotOp f t (.mwr f g ra n low) g [ra.toNat] [] false → guardHolds g (s.begun f t).iss = false →
    low = 0 → Retires (.mwr f g ra n low) s f t none fun _ a => a)
  ∧ (∀ s f t g target low, s.slotOp f t (.br f g target low) g [] [] false → guardHolds g (s.begun f t).iss = false →
    low = 0 → (s.dev.fibre f).slot = 3 → Retires (.br f g target low) s f t none fun _ a => a)
  ∧ (∀ s f t g high code, s.slotOp f t (.fwd f g high code) g [] [] false → guardHolds g (s.begun f t).iss = false →
    high = 0 → (s.dev.fibre f).slot = 3 → Retires (.fwd f g high code) s f t none fun _ a => a)
  ∧ (∀ s f t g high code, s.slotOp f t (.trap f g high code) g [] [] false → guardHolds g (s.begun f t).iss = false →
    high = 0 → (s.dev.fibre f).slot = 3 → Retires (.trap f g high code) s f t none fun _ a => a)
  ∧ (∀ s f t g rd ra pd v, s.slotOp f t (.cltry f g rd ra pd v) g [ra.toNat] [] false → guardHolds g (s.begun f t).iss = false →
    v = 0 → (s.dev.fibre f).slot = 3 → Retires (.cltry f g rd ra pd v) s f t none fun _ a => a)
  ∧ ∀ s f t g rd ra pd v, s.slotOp f t (.lnput f g rd ra pd v) g [rd.toNat, ra.toNat] [] false → guardHolds g (s.begun f t).iss = false →
    v = 0 → (s.dev.fibre f).slot = 3 → Retires (.lnput f g rd ra pd v) s f t none fun _ a => a

/-- Automaton units and the match chain (R314, R326, R328, R331 to R334): a unit's oldest segment ends and its word is due 8 pclk later;
a repaired unit rejoins; lanes come and go; a word waits for its tag's other half; a global result ends its tag; a tag times out
after 8,192 pclk; a segment of a generation no shade holds counts. -/
def Obligations.AutomatonEvents : Prop :=
  (∀ s u scan g rest, s.live → u < 64 → (s.dev.unit u).segs = g :: rest → g.tag = none → scan.hard = none →
    Acts (.automatonResultDelivery u scan) s fun d => (d.unit u).segs = rest ∧ (d.unit u).fix = (s.dev.unit u).fix
      ∧ d.pclk = max (g.finish + 8) s.dev.pclk)
  ∧ (∀ s u scan g rest c k v, s.live → u < 64 → (s.dev.unit u).segs = g :: rest → g.tag = none → scan.hard = none → g.owner = .query c k →
    g.noSet = false → scan.reports = [] → Map.find (s.dev.core c).slots k = some v →
    Acts (.automatonResultDelivery u scan) s fun d =>
      Map.find (d.core c).slots k = some (some (resultWord scan.winner g.slot scan.count false scan.suspect false false g.trunc)))
  ∧ (∀ s u (scan : Scan) g rest line, s.live → u < 64 → (s.dev.unit u).segs = g :: rest → scan.hard = some line → line < 4096 →
    (∀ e ∈ (s.dev.unit u).fix, e.1 ≠ line) →
    Acts (.automatonResultDelivery u scan) s fun d => (d.unit u).segs = []
      ∧ (d.unit u).fix.map (·.1) = (s.dev.unit u).fix.map (·.1) ++ [line] ∧ d.pclk = max g.finish s.dev.pclk)
  ∧ (∀ s u line age rest, s.live → u < 64 → (s.dev.unit u).fix = (line, age) :: rest →
    Acts (.autLineReloadDone u) s fun d => (d.unit u).fix = rest ∧ (∀ v, v ≠ u → d.unit v = s.dev.unit v)
      ∧ d.aut.fixLast = BitVec.ofNat 64 (u % 64 + line % 4096 * 256 + age % 2 ^ 32 * 2 ^ 32))
  ∧ (∀ s, s.live → Acts (.mchLaneUp false) s fun d => d = { s.dev with aut := { s.dev.aut with inUp := true } })
  ∧ (∀ s, s.live → Acts (.mchLaneUp true) s fun d => d = { s.dev with aut := { s.dev.aut with outUp := !s.dev.boot.gated } })
  ∧ (∀ s, s.live → Acts (.mchLaneDown false) s fun d => d = { s.dev with aut := { s.dev.aut with inUp := false } })
  ∧ (∀ s, s.live → Acts (.mchLaneDown true) s fun d => d = { s.dev with aut := { s.dev.aut with outUp := false } })
  ∧ (∀ s w ok, s.live → s.dev.chainNow = none → Acts (.mchWordReceive w ok) s fun d => d = s.dev)
  ∧ (∀ s w c, s.live → s.dev.chainNow = some c → s.dev.aut.inUp = true →
    Acts (.mchWordReceive w false) s fun d => d = s.dev.bump Reg.autMchCrc)
  ∧ (∀ s w c, s.live → s.dev.chainNow = some c → s.dev.aut.inUp = true → wordTag w ∉ s.dev.aut.gone →
    (∀ t ∈ s.dev.aut.tags, t.tag ≠ wordTag w) → s.dev.aut.tags.length < 4096 →
    Acts (.mchWordReceive w true) s fun d => d = { s.dev with aut := { s.dev.aut with
      tags := s.dev.aut.tags ++ [{ tag := wordTag w, up := some w, chain := c }] } })
  ∧ (∀ s w tag f id slot trunc, s.live → s.dev.aut.mine.find? (fun e => e.1 == wordTag w) = some (tag, .fibre f, id, slot, trunc) →
    Acts (.chainReturnReceive w) s fun d => d.aut.mine = s.dev.aut.mine.filter (fun e => e.1 != tag) ∧ d.free = s.dev.free + 1)
  ∧ (∀ s tag t w, s.live → tag < 2 ^ 24 → s.dev.aut.tags.find? (fun t => t.tag == tag) = some t → t.mine = some w →
    t.chain.pos + 1 < t.chain.n →
    Acts (.chainTagTimeout tag) s fun d => d.pclk = max (t.since + 8192) s.dev.pclk
      ∧ d.aut = { s.dev.aut with tags := s.dev.aut.tags.filter (fun x => x.tag != tag), gone := s.dev.aut.gone ++ [tag] }
      ∧ d.count Reg.autChainTimeout = s.dev.count Reg.autChainTimeout + 1)
  ∧ (∀ s p gen set tag bytes, s.live → p < 256 → (∀ n ∈ s.dev.live, ((s.dev.chainOf n (p / 8)).map (·.gen)) ≠ some gen) →
    s.dev.chainNow = none →
    Acts (.chainSegmentReceive p gen set tag bytes) s fun d =>
      d = (if (s.dev.port p).braid then s.dev.onLink p fun l => { l with heard := true } else s.dev).bump Reg.autChainNoset)
  ∧ ∀ s p gen set tag bytes n c d', s.live → p < 256 → (s.dev.port p).braid = false →
    s.dev.live.filter (fun n => ((s.dev.chainOf n (p / 8)).map (·.gen)) == some gen) = [n] → s.dev.chainOf n (p / 8) = some c →
    s.dev.admitSeg (p / 8) { id := s.dev.aut.nextSeg, owner := .chain tag, shade := n, set, bytes, noSet := !(s.dev.progSet n (p / 8)).autSets.contains set, tag := some tag } = some d' →
    Acts (.chainSegmentReceive p gen set tag bytes) s fun d => d = { d' with aut := { d'.aut with nextSeg := d'.aut.nextSeg + 1 } }

/-- The braid's events (R341, R346 to R348, R355, R356, R360, R361, R364, R366, R369): a HELLO of every link's fields, the reception of
HELLO, CREDIT, GLOBAL, MARKER, MGMT and DATA messages on a link whose PCS is up, leases that end, a lost link. -/
def Obligations.BraidEvents : Prop :=
  (∀ s, s.live → Acts .helloSend s fun d => d.brd.helloAt = s.dev.reel.served / 64
    ∧ ∀ p l, Map.find s.dev.brd.links p = some l → l.st ≠ .down → l.lost = false → (d.link p).hello = s.dev.helloBody p)
  ∧ (∀ s p (h : BraidHdr) ok bytes n fcs sec, s.live → p < 256 → (s.dev.port p).braid = true → (s.dev.link p).st ≠ .down →
    (s.dev.link p).lost = false → p < s.dev.lanes → h.kind ≠ 0 →
    Acts (.braidDataReceive p h ok bytes (decide (n ≤ 256)) n fcs sec) s fun d => d = s.dev.bump (Reg.brdLnkHdrErr p))
  ∧ (∀ s p (h : BraidHdr) bytes n fcs sec, s.live → p < 256 → (s.dev.port p).braid = true → (s.dev.link p).st ≠ .down →
    (s.dev.link p).lost = false → p < s.dev.lanes → h.kind = 0 →
    Acts (.braidDataReceive p h false bytes (decide (n ≤ 256)) n fcs sec) s fun d =>
      d.count (Reg.brdLnkHdrErr p) = s.dev.count (Reg.brdLnkHdrErr p) + 1
      ∧ d.count (Reg.brdLnkRxFrames p) = s.dev.count (Reg.brdLnkRxFrames p) + 1 ∧ (d.link p).rxUp = ((s.dev.link p).rxUp + 1) % 2 ^ 64)
  ∧ (∀ s p (h : BraidHdr) ok bytes n fcs sec, s.live → p < 256 → (s.dev.port p).braid = true → (s.dev.link p).st ≠ .down →
    (s.dev.link p).lost = false → p < s.dev.lanes → h.kind = 0 →
    Acts (.braidDataReceive p h ok bytes (decide (n ≤ 256)) n fcs sec) s fun d =>
      d = if ok then (s.dev.countRx p n).dataIn p h bytes n fcs sec else (s.dev.countRx p n).badHeader p bytes n)
  ∧ (∀ s p (h : Hello) b, s.live → p < 256 → (s.dev.port p).braid = true → (s.dev.link p).st ≠ .down → (s.dev.link p).lost = false →
    (s.dev.link p).changed h = false →
    Acts (.helloReceive p h b) s fun d => (d.link p).gotHello = true ∧ (d.link p).heard = true ∧ (d.link p).peer = h.id
      ∧ (d.link p).peerProv = h.prov ∧ (d.link p).peerFenced = h.fenced)
  ∧ (∀ s p gs rx, s.live → p < 256 → gs.length = 8 → (s.dev.port p).braid = true → (s.dev.link p).st ≠ .down →
    (s.dev.link p).lost = false →
    Acts (.creditReceive p gs rx) s fun d => (d.link p).gotCredit = true ∧ (d.link p).peerRx = rx
      ∧ (∀ c < 8, Map.find (d.link p).grants c = some (gs.getD c 0 % 2 ^ 32))
      ∧ ((s.dev.link p).st = .hello → (s.dev.link p).gotHello = true → (d.link p).st = .up)
      ∧ ∀ q, q ≠ p → d.link q = s.dev.link q)
  ∧ (∀ s p src op target seq turn arg, s.live → p < 256 → 1 ≤ op → op ≤ 3 → (s.dev.port p).braid = true →
    (s.dev.link p).st ≠ .down → (s.dev.link p).lost = false → (src, seq) ∈ s.dev.brd.seen →
    Acts (.globalReceive p src op target seq turn arg) s fun d => d = s.dev.onLink p fun l => { l with heard := true })
  ∧ (∀ s p src target seq turn arg, s.live → p < 256 → (s.dev.port p).braid = true →
    (s.dev.link p).st ≠ .down → (s.dev.link p).lost = false → (src, seq) ∉ s.dev.brd.seen → s.dev.inTarget target = true →
    s.dev.turn < turn → s.dev.spl.snaps.length < 4 →
    Acts (.globalReceive p src 2 target seq turn arg) s fun d =>
      d.spl = { s.dev.spl with snaps := s.dev.spl.snaps ++ [⟨turn, arg % 2 ^ 19, true⟩] })
  ∧ (∀ s p turn, s.live → p < 256 → (s.dev.port p).braid = true → (s.dev.link p).st ≠ .down → (s.dev.link p).lost = false →
    Acts (.markerReceive p turn) s fun d => (d.link p) =
      (if (s.dev.link p).mark = some turn then { s.dev.link p with heard := true, mark := none, markDone := true }
       else { s.dev.link p with heard := true, early := some turn }) ∧ ∀ q, q ≠ p → d.link q = s.dev.link q)
  ∧ (∀ s p src x body, s.live → p < 256 → (s.dev.port p).braid = true → (s.dev.link p).st ≠ .down → (s.dev.link p).lost = false →
    Acts (.mgmtReceive p src 0xFFFFFF 3 x body) s fun d => (d.link p).heard = true
      ∧ d.brd.slots = Map.del s.dev.brd.slots ((x - 0xF00000) % 16) ∧ d.out = s.dev.out)
  ∧ (∀ s p src x body, s.live → p < 256 → (s.dev.port p).braid = true → (s.dev.link p).st ≠ .down → (s.dev.link p).lost = false →
    Acts (.mgmtReceive p src 0xFFFFFF 0 x body) s fun d => (d.link p).heard = true
      ∧ d.hif = ((s.dev.onLink p fun l => { l with heard := true }).emit 4 0 body).1.hif)
  ∧ (∀ s p x, s.live → p < 256 → (s.dev.link p).lease = some x → (s.dev.link p).leaseTurn + 1024 ≤ s.dev.turn →
    Acts (.leaseExpiry p) s fun d => (d.link p).lease = none
      ∧ (lender x = s.dev.brd.node → d.brd.slots = Map.del s.dev.brd.slots ((x - 0xF00000) % 16)))
  ∧ (∀ s p, s.live → p < 256 → (s.dev.port p).braid = true → (s.dev.link p).st ≠ .down → (s.dev.link p).lost = false →
    Acts (.braidLinkLoss p true) s fun d => d = s.dev.linkLoss p
      ∧ (s.dev.copiesOf p = [] → (∀ e ∈ s.dev.path.pkts, e.2.iport ≠ p + 256) → (s.dev.link p).lease = none →
          (d.link p).lost = true ∧ (d.link p).mark = none))
  ∧ ∀ s p, s.live → p < 256 → (s.dev.link p).lost = true → s.dev.copiesOf p = [] →
    Acts (.linkLossHandlingDone p) s fun d => d = s.dev.lossHandled p
      ∧ (s.dev.copyOrder p = [] → s.dev.cal.holds = [] → (d.link p).st = .down ∧ (d.link p).lost = false)

/-- Maintenance (R210, R221, R239, R325, R371 to R377, R381 to R384, R535): a slot runs what was asked and what is due, a waiting
request takes its tokens when nothing before it conflicts, an activity that holds its tokens has its effect once, at its end its
result is stored and its tokens are free, a trigger asks for a retake. -/
def Obligations.MaintenanceEvents : Prop :=
  (∀ s t, s.live → s.dev.reel.served = t → s.dev.slotOver t = false → s.dev.reached t = true → s.dev.waitsOver t = true →
    Acts .calibrationSlot s fun d => d = ((s.dev.cal.asked.filter (·.turn < t)).foldl (fun (d : Dev) q => d.askedAct q)
      { s.dev with cal := { s.dev.cal with slotAt := t, due := false, asked := s.dev.cal.asked.filter (t ≤ ·.turn) } }).periodic t)
  ∧ (∀ s t p code res q r, s.live → s.dev.reel.served = t → s.dev.slotOver t = false → s.dev.reached t = true → s.dev.waitsOver t = true → s.dev.path.ports = [] → s.dev.dmc.ready = false →
    s.dev.cal.asked = [q] → q.turn < t → q.who = .prog p → q.code = code → q.res = res → r = s.dev.actReq (.prog p) code res →
    s.dev.grantable s.dev.cal.waiting r = true →
    Acts .calibrationSlot s fun d => d.cal.holds = s.dev.cal.holds ++ [{ req := r, start := s.dev.pclk }] ∧ d.cal.asked = []
      ∧ d.cal.slotAt = t ∧ d.count Reg.calRun = s.dev.count Reg.calRun + 1)
  ∧ (∀ s code res r, s.live → s.dev.cal.waiting.find? (fun r => r.who == .device && r.code == code && r.res == res) = some r →
    s.dev.grantable (s.dev.cal.waiting.takeWhile fun x => !(x.who == .device && x.code == code && x.res == res)) r = true →
    Acts (.maintRequestGrant none code res) s fun d => { req := r, start := s.dev.pclk : Hold } ∈ d.cal.holds)
  ∧ (∀ s p res r x, s.live → s.dev.cal.waiting.find? (fun r => r.who == .prog p && r.code == 0 && r.res == res) = some r →
    s.dev.grantable (s.dev.cal.waiting.takeWhile fun x => !(x.who == .prog p && x.code == 0 && x.res == res)) r = true →
    s.dev.prog p = some x → s.dev.cal.placeQ = [] →
    Acts (.maintRequestGrant (some p) 0 res) s fun d => d.prog p = some { x with phase := .running }
      ∧ d.cal = { s.dev.cal with waiting := s.dev.cal.waiting.erase r, holds := s.dev.cal.holds ++ [{ req := r, start := s.dev.pclk }] })
  ∧ (∀ s lane h temp bin, s.activity 0x01 lane h → lane < 256 → bin < 4 →
    Acts (.serdesScan lane temp bin) s fun d => d = s.dev.withRun h temp bin)
  ∧ (∀ s port h temp bin, s.activity 0x02 port h → port < 256 → bin < 4 →
    Acts (.serdesRecal port temp bin) s fun d => d = s.dev.withRun h temp bin)
  ∧ (∀ s ch dir h temp bin, s.activity 0x10 ch h → ch < 12 → bin < 4 → dir.natAbs ≤ 1 →
    Acts (.dramEye ch dir false temp bin) s fun d =>
      Map.find d.cal.eyeStep ch = some (Map.getD s.dev.cal.eyeStep ch 0 + dir)
      ∧ d = { s.dev.withRun h temp bin with cal := { (s.dev.withRun h temp bin).cal with eyeStep := d.cal.eyeStep } })
  ∧ (∀ s ch h temp bin, s.activity 0x11 ch h → ch < 12 → bin < 4 →
    Acts (.dramRetrain ch temp bin) s fun d => Map.find d.cal.eyeStep ch = some 0 ∧ (d.chan ch).rows = []
      ∧ (∀ c, c ≠ ch → d.chan c = s.dev.chan c) ∧ d.cal.holds = (s.dev.withRun h temp bin).cal.holds)
  ∧ (∀ s ch h n, s.activity 0x12 ch h → ch < 12 →
    Acts (.dramPatrol ch [] [] n) s fun d => d = (s.dev.withRun h 0 0).add (Reg.dmcCPatrolCarry ch) n)
  ∧ (∀ s ch h hard fixed n, s.activity 0x12 ch h → ch < 12 →
    Acts (.dramPatrol ch hard fixed n) s fun d => d = (hard.foldl (fun d a => d.uncorrectable ch a true)
      (fixed.foldl (fun d e => d.corrected ch e.1 e.2) (s.dev.withRun h 0 0))).add (Reg.dmcCPatrolCarry ch) n)
  ∧ (∀ s ch h, s.activity 0x13 ch h → ch < 12 →
    Acts (.dramTrack ch) s fun d => (d.chan ch).rows = [] ∧ (∀ c, c ≠ ch → d.chan c = s.dev.chan c)
      ∧ d.cal.guard = (if ((Map.find s.dev.cal.dram ch).map (·.prov)).getD false then s.dev.cal.guard
                       else s.dev.cal.guard.filter (· != ch)))
  ∧ (∀ s p h temp bin x xs, s.activity 0x20 p h → p < 256 → bin < 4 → Map.find s.dev.path.delays p = some (x :: xs) →
    Acts (.headroom p temp bin) s fun d => d = ((s.dev.withRun h temp bin).onPath fun y => { y with
      delayNs := Map.put y.delayNs p ((x :: xs).foldl max 0, true, bin == 0) }).recompute)
  ∧ (∀ s h tab first, s.activity 0x30 0 h → (tab, first) = regionLine h.req.code h.req.res h.req.region →
    Acts (.tcamScrub [] []) s fun d => Map.find d.tbl.goodTurn (scrubRegion tab first) = some s.dev.turn
      ∧ d.tbl.reload = s.dev.tbl.reload ∧ d.cal = (s.dev.withRun h 0 0).cal
      ∧ d = ((s.dev.withRun h 0 0).scrubStep 256 h [] []).closeOne)
  ∧ (∀ s h tab first l, s.activity 0x30 0 h → (tab, first) = regionLine h.req.code h.req.res h.req.region → l < 256 →
    Acts (.tcamScrub [] [l]) s fun d => d.count Reg.tblShadowErr = s.dev.count Reg.tblShadowErr + 1 ∧ d.tbl.reload = s.dev.tbl.reload
      ∧ d.lastGood tab (first + l) = s.dev.lastGood tab (first + l))
  ∧ (∀ s h tab first, s.activity 0x31 0 h → (tab, first) = regionLine h.req.code h.req.res h.req.region →
    Acts (.exactScrub [] []) s fun d => Map.find d.tbl.goodTurn (scrubRegion tab first) = some s.dev.turn
      ∧ d.tbl.reload = s.dev.tbl.reload ∧ d.tbl.exact = s.dev.tbl.exact ∧ d.tbl.mac = s.dev.tbl.mac
      ∧ d.cal = (s.dev.withRun h 0 0).cal)
  ∧ (∀ s h tab first l, s.activity 0x31 0 h → (tab, first) = regionLine h.req.code h.req.res h.req.region → l < 1024 →
    Acts (.exactScrub [l] []) s fun d => d.reloading tab (first + l) = true
      ∧ d.lastGood tab (first + l) = s.dev.lastGood tab (first + l))
  ∧ (∀ s lay h, s.activity 0x32 lay h → lay < 32 →
    Acts (.autScrub lay ⟨[], 0⟩) s fun d => d.cal = (s.dev.withRun h 0 0).cal ∧ d.aut.units = s.dev.aut.units
      ∧ ∀ u < 64, s.dev.unitLay u = lay → ∀ k < 16, d.unitGood u (16 * h.req.region + k) = s.dev.turn)
  ∧ (∀ s lay h u l n, s.activity 0x32 lay h → lay < 32 → (∀ e ∈ (s.dev.unit u).fix, e.1 ≠ l) →
    Acts (.autScrub lay ⟨[(u, l)], n⟩) s fun d => (d.unit u).segs = []
      ∧ (d.unit u).fix = (s.dev.unit u).fix ++ [(l, min (s.dev.turn - s.dev.unitGood u l) (2 ^ 32 - 1))]
      ∧ ∀ v, v ≠ u → d.unit v = s.dev.unit v)
  ∧ (∀ s code res h, s.live → s.dev.cal.holds.find? (fun h => h.req.code == code && h.req.res == res && h.ran) = some h →
    h.req.who = .device → s.dev.cal.placeQ = [] →
    Acts (.maintActivityEnd code res) s fun d => (code ≠ 0x02 → d.pclk = max (h.start + actPclk code) s.dev.pclk)
      ∧ h.start + actPclk code ≤ d.pclk
      ∧ d.cal.holds = s.dev.cal.holds.erase h ∧ d.cal.waiting = s.dev.cal.waiting
      ∧ (code = 0x02 → Map.find d.cal.serdes res = some (h.result d.turn))
      ∧ (code = 0x20 → Map.find d.cal.hroom res = some (h.result d.turn))
      ∧ (code = 0x10 ∨ code = 0x11 → Map.find d.cal.dram res = some (h.result d.turn) ∧ (h.bin = 0 → res ∈ d.cal.guard))
      ∧ (code = 0x30 → d.tbl.tcamPos = (s.dev.tbl.tcamPos + 1) % 6400)
      ∧ (code = 0x31 → d.tbl.exactPos = (s.dev.tbl.exactPos + 1) % 2048))
  ∧ (∀ s res r, s.live → Map.find s.dev.cal.serdes res = some r → r.prov = true → r.retake = false →
    Acts (.retakeLoadTrigger 0x02 res) s fun d => Map.find d.cal.serdes res = some { r with retake := true }
      ∧ d.count Reg.calRetakeLoad = s.dev.count Reg.calRetakeLoad + 1)
  ∧ ∀ s res r temp, s.live → Map.find s.dev.cal.dram res = some r → r.retake = false → 24 ≤ (temp - r.temp).natAbs →
    Acts (.retakeTempTrigger 0x10 res temp) s fun d => Map.find d.cal.dram res = some { r with retake := true }
      ∧ d.count Reg.calRetakeTemp = s.dev.count Reg.calRetakeTemp + 1

/-- Store commands (R471, R474, R476, R477, R481, R482, R484 to R486, R489): a command whose descriptor holds, which the order rule lets
start and whose checks pass, starts with its parts; one that fails them completes with the status of the first check; an ABORT_TAG
counts what it caught; a part ends with the status its completion maps to, or TIMEOUT; the relay moves the data of an open part. -/
def Obligations.StoreCommands : Prop :=
  (∀ s q id sc e c, s.storeIs 0x40 q id sc e c → s.dev.cmdStatus c (c.partsOf s.dev.sto) = stDone →
    Acts (.storeRead q id sc) s fun d => d = s.dev.startCmd c (c.partsOf s.dev.sto))
  ∧ (∀ s q id sc e c, s.storeIs 0x40 q id sc e c → s.dev.cmdStatus c (c.partsOf s.dev.sto) = stDone → s.allLocal c →
    CmdStarts (.storeRead q id sc) s q c)
  ∧ (∀ s q id sc e c st, s.storeIs 0x40 q id sc e c → s.dev.cmdStatus c (c.partsOf s.dev.sto) = st → st ≠ stDone → e.done = false →
    Acts (.storeRead q id sc) s fun d => (d.qp q).held = (s.dev.qp q).held ++
        [{ tag := field e.bytes 2 2, status := st, gen := e.gen, dws := [0, 0, 0, 0], desc := some id }]
      ∧ d.sto = s.dev.sto)
  ∧ (∀ s q id sc e c, s.storeIs 0x41 q id sc e c → s.dev.cmdStatus c (c.partsOf s.dev.sto) = stDone →
    Acts (.storeWrite q id sc) s fun d => d = s.dev.startCmd c (c.partsOf s.dev.sto))
  ∧ (∀ s q id sc e c, s.storeIs 0x41 q id sc e c → s.dev.cmdStatus c (c.partsOf s.dev.sto) = stDone → s.allLocal c →
    CmdStarts (.storeWrite q id sc) s q c)
  ∧ (∀ s q id sc e c st, s.storeIs 0x41 q id sc e c → s.dev.cmdStatus c (c.partsOf s.dev.sto) = st → st ≠ stDone → e.done = false →
    Acts (.storeWrite q id sc) s fun d => (d.qp q).held = (s.dev.qp q).held ++
        [{ tag := field e.bytes 2 2, status := st, gen := e.gen, dws := [0, 0, 0, 0], desc := some id }]
      ∧ d.sto = s.dev.sto)
  ∧ (∀ s q id e c, s.storeIs 0x42 q id [] e c → s.dev.cmdStatus c (c.partsOf s.dev.sto) = stDone →
    Acts (.storeFlush q id) s fun d => d = s.dev.startCmd c (c.partsOf s.dev.sto))
  ∧ (∀ s q id e c, s.storeIs 0x42 q id [] e c → s.dev.cmdStatus c (c.partsOf s.dev.sto) = stDone → s.allLocal c →
    CmdStarts (.storeFlush q id) s q c)
  ∧ (∀ s q id e c st, s.storeIs 0x42 q id [] e c → s.dev.cmdStatus c (c.partsOf s.dev.sto) = st → st ≠ stDone → e.done = false →
    Acts (.storeFlush q id) s fun d => (d.qp q).held = (s.dev.qp q).held ++
        [{ tag := field e.bytes 2 2, status := st, gen := e.gen, dws := [0, 0, 0, 0], desc := some id }]
      ∧ d.sto = s.dev.sto)
  ∧ (∀ s q id e c, s.storeIs 0x43 q id [] e c → s.dev.cmdStatus c (c.partsOf s.dev.sto) = stDone →
    Acts (.storeTrim q id) s fun d => d = s.dev.startCmd c (c.partsOf s.dev.sto))
  ∧ (∀ s q id e c, s.storeIs 0x43 q id [] e c → s.dev.cmdStatus c (c.partsOf s.dev.sto) = stDone → s.allLocal c →
    CmdStarts (.storeTrim q id) s q c)
  ∧ (∀ s q id e c st, s.storeIs 0x43 q id [] e c → s.dev.cmdStatus c (c.partsOf s.dev.sto) = st → st ≠ stDone → e.done = false →
    Acts (.storeTrim q id) s fun d => (d.qp q).held = (s.dev.qp q).held ++
        [{ tag := field e.bytes 2 2, status := st, gen := e.gen, dws := [0, 0, 0, 0], desc := some id }]
      ∧ d.sto = s.dev.sto)
  ∧ (∀ s q id e, s.live → q < 65536 → s.dev.desc q id = some e → e.started = false → e.done = false → e.op = 0x44 →
    (s.dev.qp q).kind = 2 → storeDescOk e.bytes = true →
    (∀ x ∈ (s.dev.qp q).descs, x.op ≠ 0x44 → x.done = false → bits (dw x.bytes 0) 16 16 ≠ dw e.bytes 4 % 65536) →
    Acts (.abortTag q id) s fun d => (d.qp q).held = (s.dev.qp q).held ++
        [{ tag := field e.bytes 2 2, status := stMissed, gen := e.gen, dws := [0, 0, 0, 0, 0], desc := some id }]
      ∧ d.count Reg.stoCmd = s.dev.count Reg.stoCmd + 1)
  ∧ (∀ s part code type c p t, s.live → code < 256 → type < 8 → s.dev.partOf part = some (c, p) → p.st = .issued t →
    Acts (.nvmeCompletionReceive part code type) s fun d =>
      d = if code = 0 ∧ type = 0 then s.dev.endPart part stDone 0 0
        else if type = 0 ∧ code = 0x07 then s.dev.endPart part stAborted code type
        else (s.dev.bump Reg.stoMediaErr).endPart part stMediaErr code type)
  ∧ (∀ s part c p t q e, s.live → s.dev.partOf part = some (c, p) → p.st = .issued t → c.parts = [p] → p.id = part →
    (s.dev.sto.cmds.filter fun x => x.id == c.id) = [c] → c.started = true → c.fin = false → c.aborted = false → c.q = some q →
    s.dev.desc q c.desc = some e → e.done = false →
    Acts (.nvmeCompletionReceive part 0 0) s fun d => (d.qp q).held = (s.dev.qp q).held ++
        [{ tag := field e.bytes 2 2, status := stDone, gen := e.gen, dws := [65536, 0, 0, 0], desc := some c.desc }]
      ∧ d.count Reg.stoCmd = s.dev.count Reg.stoCmd + 1)
  ∧ (∀ s part c p t g, s.live → s.dev.partOf part = some (c, p) → p.st = .issued t → Map.find s.dev.sto.tgts p.target = some g →
    t + g.timeout ≤ s.dev.turn →
    Acts (.storePartTimeout part) s fun d => d.sto = ((s.dev.bump Reg.stoTimeout).endPart part stTimeout 0 0).sto)
  ∧ (∀ s part off wr data, s.live → s.dev.partOf part = none →
    Acts (.relayInboundAccess part off wr data) s fun d => d.out = s.dev.out ++ [⟨.nvme, [0xCA, part, off], []⟩]
      ∧ d.count Reg.stoRelayCa = s.dev.count Reg.stoRelayCa + 1)
  ∧ (∀ s part off data c p q, s.live → s.dev.partOf part = some (c, p) → p.open' = true → c.op = 0x40 →
    off + data.length ≤ p.len * 4096 → c.xts = none → c.q = some q →
    Acts (.relayInboundAccess part off true data) s fun d => d = s.dev.ownerWrite q (c.addr ((p.first - c.first) * 4096 + off)) data)
  ∧ (∀ s part off wr data c p k, s.live → s.dev.partOf part = some (c, p) → c.xts = some k → Map.find s.dev.she.slots k = none →
    Acts (.relayInboundAccess part off wr data) s fun d => d.out = s.dev.out ++ [⟨.nvme, [0xCA, part, off], []⟩] ∧ d.sto = s.dev.sto)
  ∧ ∀ s part off data c p q, s.live → s.dev.partOf part = some (c, p) → p.open' = true → c.op = 0x41 →
    off + data.length ≤ p.len * 4096 → c.xts = none → c.q = some q →
    Acts (.relayInboundAccess part off false data) s fun d => d.out = s.dev.out ++ [⟨.nvme, [part, off], data⟩] ∧ d.sto = s.dev.sto

/-- The archive (R300, R301): the next closed page is written; with its status DONE it leaves staging, after a failure it is retried one
turn later up to three times and then lost. -/
def Obligations.ArchiveEvents : Prop :=
  (∀ s p, s.live → s.dev.nextPage = some p → p.closed = true → p.writing = false → p.retry = none →
    Acts .loglineArchiveWrite s fun d => d = s.dev.writePage p)
  ∧ (∀ s, s.live → s.dev.log.archVol = none → Unmoved .loglineArchiveWrite s)
  ∧ (∀ s p a v st, s.live → s.dev.nextPage = some p → p.closed = true → p.writing = false → p.retry = none →
    s.dev.log.archVol = some a → v = p.vol.getD a →
    16 ≤ ((Map.find s.dev.sto.vols v).map (·.size)).getD 0 → st ≠ stNotReady → st ≠ stDone →
    (∀ c : Cmd, c = { id := 0, q := none, desc := p.seq, op := 0x41, vol := v, first := p.seq % ((((Map.find s.dev.sto.vols v).map (·.size)).getD 0) / 16) * 16, blocks := 16 } →
      s.dev.cmdStatus c (c.partsOf s.dev.sto) = st) →
    Acts .loglineArchiveWrite s fun d => d = { s.dev with log := { s.dev.log with pages := s.dev.log.pages.map fun x =>
      if x.seq = p.seq then { x with writing := true, retry := none, done := some st } else x } })
  ∧ (∀ s seq p, s.live → s.dev.log.pages.find? (fun p => p.seq == seq) = some p → p.done = some stDone →
    Acts (.pageArchiveComplete seq) s fun d => d = { s.dev with log := { s.dev.log with
      pages := s.dev.log.pages.filter (fun p => p.seq != seq), archSeq := seq + 1, lost := 0 } })
  ∧ (∀ s seq p, s.live → s.dev.log.pages.find? (fun p => p.seq == seq) = some p → p.done = some stNotReady →
    Acts (.pageArchiveComplete seq) s fun d => d = { s.dev with log := { s.dev.log with pages := s.dev.log.pages.map fun x =>
      if x.seq = seq then { x with done := none, writing := false } else x } })
  ∧ (∀ s seq p st, s.live → s.dev.log.pages.find? (fun p => p.seq == seq) = some p → p.done = some st → st ≠ stDone → st ≠ stNotReady →
    p.tries < 3 →
    Acts (.pageArchiveComplete seq) s fun d => d.count Reg.logArchRetry = s.dev.count Reg.logArchRetry + 1
      ∧ d.log.pages = s.dev.log.pages.map fun x =>
          if x.seq = seq then { x with done := none, writing := false, tries := x.tries + 1, retry := some (s.dev.turn + 1) } else x)
  ∧ (∀ s seq p st, s.live → s.dev.log.pages.find? (fun p => p.seq == seq) = some p → p.done = some st → st ≠ stDone → st ≠ stNotReady →
    3 ≤ p.tries →
    Acts (.pageArchiveComplete seq) s fun d => d.count Reg.logArchLost = s.dev.count Reg.logArchLost + 1
      ∧ d.log = { s.dev.log with pages := s.dev.log.pages.filter (fun p => p.seq != seq)
                                 archSeq := seq + 1, lost := s.dev.log.lost + 1 })
  ∧ ∀ s seq p t, s.live → s.dev.log.pages.find? (fun p => p.seq == seq) = some p → p.retry = some t → t ≤ s.dev.turn →
    Acts (.pageArchiveRetry seq) s fun d => d = s.dev.writePage p

/-- Doorbells and fetches (R41, R427, R433, R435, R466, R467): a doorbell of the current generation at an ACTIVE queue pair moves its
count and nothing else; a stale, a disabled and an out-of-range one are counted and discarded. A round that finds one queue pair
ready with credit, a tag and its limits in hand fetches from it, at most 64, its burst and its credit; one that serves none restores
the credits to the weights; one that finds no tag counts the wait. -/
def Obligations.DoorbellAndFetchEvents : Prop :=
  (∀ s q v, s.live → q < 65536 → v < 2 ^ 64 → bits v 32 16 = s.dev.sliceGen (s.dev.qp q).slice → (s.dev.qp q).st = .active →
    (s.dev.qp q).prod + ahead 32 (v % 2 ^ 32) (s.dev.qp q).prod ≤ (s.dev.qp q).fetched + (s.dev.qp q).sqDepth →
    Acts (.sqDoorbell q v) s fun d => Dev.keeps [.hif] s.dev d ∧ (∀ r, r ≠ q → d.qp r = s.dev.qp r)
      ∧ d.qp q = { s.dev.qp q with prod := (s.dev.qp q).prod + ahead 32 (v % 2 ^ 32) (s.dev.qp q).prod })
  ∧ (∀ s q v, s.live → q < 65536 → v < 2 ^ 64 → bits v 32 16 = s.dev.sliceGen (s.dev.qp q).slice → (s.dev.qp q).st = .active →
    (s.dev.qp q).cqHead + ahead 32 (v % 2 ^ 32) (s.dev.qp q).cqHead ≤ (s.dev.qp q).cqWr →
    Acts (.cqDoorbell q v) s fun d => Dev.keeps [.hif] s.dev d ∧ (∀ r, r ≠ q → d.qp r = s.dev.qp r)
      ∧ d.qp q = { s.dev.qp q with cqHead := (s.dev.qp q).cqHead + ahead 32 (v % 2 ^ 32) (s.dev.qp q).cqHead })
  ∧ (∀ s q v, s.live → q < 65536 → v < 2 ^ 64 → bits v 32 16 ≠ s.dev.sliceGen (s.dev.qp q).slice →
    Acts (.sqDoorbell q v) s (fun d => d = s.dev.bump Reg.hifDbStale) ∧ Acts (.cqDoorbell q v) s (fun d => d = s.dev.bump Reg.hifDbStale))
  ∧ (∀ s q v, s.live → q < 65536 → v < 2 ^ 64 → bits v 32 16 = s.dev.sliceGen (s.dev.qp q).slice → (s.dev.qp q).st ≠ .active →
    Acts (.sqDoorbell q v) s (fun d => d = s.dev.bump Reg.hifDbDisabled)
      ∧ Acts (.cqDoorbell q v) s (fun d => d = s.dev.bump Reg.hifDbDisabled))
  ∧ (∀ s q v, s.live → q < 65536 → v < 2 ^ 64 → bits v 32 16 = s.dev.sliceGen (s.dev.qp q).slice → (s.dev.qp q).st = .active →
    (s.dev.qp q).fetched + (s.dev.qp q).sqDepth < (s.dev.qp q).prod + ahead 32 (v % 2 ^ 32) (s.dev.qp q).prod →
    Acts (.sqDoorbell q v) s fun d => d = s.dev.bump Reg.hifDbRange)
  ∧ (∀ s q v, s.live → q < 65536 → v < 2 ^ 64 → bits v 32 16 = s.dev.sliceGen (s.dev.qp q).slice → (s.dev.qp q).st = .active →
    (s.dev.qp q).cqWr < (s.dev.qp q).cqHead + ahead 32 (v % 2 ^ 32) (s.dev.qp q).cqHead →
    Acts (.cqDoorbell q v) s fun d => d = s.dev.bump Reg.hifDbRange)
  ∧ (∀ s e ds q, s.live → e < 5 → s.dev.engineQps e = [q] → s.dev.readyBase q = true → (s.dev.qp q).credit ≠ 0 →
    s.dev.tagsFor q (tagService (s.dev.qp q).kind) ≠ 0 → s.dev.withinLimits q = true →
    Acts (.fetchRound e ds) s fun d => d = s.dev.fetchN q (s.dev.fetchCount q) ds
      ∧ s.dev.fetchCount q ≤ 64 ∧ s.dev.fetchCount q ≤ (s.dev.qp q).burst ∧ s.dev.fetchCount q ≤ (s.dev.qp q).credit
      ∧ s.dev.fetchCount q ≤ (s.dev.qp q).prod - (s.dev.qp q).fetched ∧ s.dev.fetchCount q ≤ (s.dev.qp q).freeSlots
      ∧ Map.find d.hif.engines (s.dev.qp q).engine = some q)
  ∧ (∀ s e ds q, s.live → e < 5 → s.dev.engineQps e = [q] → s.dev.readyBase q = true → (s.dev.qp q).credit ≠ 0 →
    s.dev.tagsFor q (tagService (s.dev.qp q).kind) = 0 → q ∉ s.dev.hif.tagWait →
    Acts (.fetchRound e ds) s fun d => d.count Reg.glbTagWait = s.dev.count Reg.glbTagWait + 1
      ∧ q ∈ d.hif.tagWait ∧ (d.qp q).fetched = (s.dev.qp q).fetched ∧ (d.qp q).credit = (d.qp q).weight)
  ∧ ∀ s e ds, s.live → e < 5 → (∀ q ∈ s.dev.engineQps e, s.dev.readyBase q = false) →
    Acts (.fetchRound e ds) s fun d => Dev.keeps [.hif] s.dev d
      ∧ ∀ q ∈ s.dev.engineQps e, d.qp q = { s.dev.qp q with credit := (s.dev.qp q).weight }

/-- Descriptors the interface serves itself, and completions (R235, R427 to R430, R436 to R441, R446): an injected frame is read and
waits in its lay; a receive or event buffer waits behind those posted; a control ring is offered to the sequencer; a completion is
written to the slot of its number while the ring has room. -/
def Obligations.HostDescriptorEvents : Prop :=
  (∀ s q e bs, s.nextIs 0 0x10 q e → plainDesc e.bytes [] = true → bits (dw e.bytes 5) 3 13 = 0 → 64 ≤ dw e.bytes 4 →
    dw e.bytes 4 ≤ 9416 →
    Acts (.inject q e.id bs) s fun d => d = let r := s.dev.ownerRead q (dq e.bytes 2) (dw e.bytes 4) bs
      (r.2.startDesc q e.id).injectFrame (bits (s.dev.qp q).word5.toNat 0 5)
        { qp := q, desc := e.id, cls := bits (dw e.bytes 5) 0 3, domain := bits (dw e.bytes 5) 16 16
          user0 := BitVec.ofNat 64 (dq e.bytes 6), bytes := r.1 })
  ∧ (∀ s q e bs, s.nextIs 0 0x10 q e → (plainDesc e.bytes [] = false ∨ dw e.bytes 4 < 64 ∨ 9416 < dw e.bytes 4) →
    Acts (.inject q e.id bs) s fun d => d = s.dev.complete q e.id stBadOperand [])
  ∧ (∀ s q e, s.nextIs 1 0x20 q e → plainDesc e.bytes [5, 6, 7] = true → 256 ≤ dw e.bytes 4 → dw e.bytes 4 ≤ 65535 →
    Acts (.netRecvBuf q e.id) s fun d => Dev.keeps [.hif] s.dev d ∧ (∀ r, r ≠ q → d.qp r = s.dev.qp r)
      ∧ (d.qp q).bufs = (s.dev.qp q).bufs ++ [{ desc := e.id, addr := dq e.bytes 2, len := dw e.bytes 4 }]
      ∧ (d.qp q).held = (s.dev.qp q).held)
  ∧ (∀ s q e, s.nextIs 1 0x20 q e → (plainDesc e.bytes [5, 6, 7] = false ∨ dw e.bytes 4 < 256 ∨ 65535 < dw e.bytes 4) →
    Acts (.netRecvBuf q e.id) s fun d => d = s.dev.complete q e.id stBadOperand [] ∧ (d.qp q).bufs = (s.dev.qp q).bufs)
  ∧ (∀ s q e, s.nextIs 4 0x01 q e → plainDesc e.bytes [5, 6, 7] = true → dq e.bytes 2 % 8 = 0 → dw e.bytes 4 < 2 ^ 17 →
    Acts (.controlRun q e.id) s fun d => Dev.keeps [.hif, .spl] s.dev d
      ∧ d.spl = { s.dev.spl with offers := s.dev.spl.offers ++ [{ qp := q, desc := e.id, len := dw e.bytes 4 }] })
  ∧ (∀ s q e, s.nextIs 4 0x01 q e → (plainDesc e.bytes [5, 6, 7] = false ∨ dq e.bytes 2 % 8 ≠ 0 ∨ 2 ^ 17 ≤ dw e.bytes 4) →
    Acts (.controlRun q e.id) s fun d => d = s.dev.complete q e.id stBadOperand [0, 0, 0, 0] ∧ d.spl = s.dev.spl)
  ∧ (∀ s q e, s.nextIs 5 0x30 q e → plainDesc e.bytes [5, 6, 7] = true → dq e.bytes 2 % 8 = 0 → dw e.bytes 4 % 8 = 0 →
    4096 ≤ dw e.bytes 4 → dw e.bytes 4 ≤ 2 ^ 20 →
    Acts (.eventBuf q e.id) s fun d => d = (s.dev.postBuf q e.id (dq e.bytes 2) (dw e.bytes 4)).pumpLog)
  ∧ (∀ s q e, s.nextIs 5 0x30 q e → (dw e.bytes 4 < 4096 ∨ 2 ^ 20 < dw e.bytes 4) →
    Acts (.eventBuf q e.id) s fun d => d = s.dev.complete q e.id stBadOperand [])
  ∧ (∀ s q c rest, s.live → q < 65536 → (s.dev.qp q).nextHeld = some (c, rest) → c.gen = s.dev.sliceGen (s.dev.qp q).slice →
    (s.dev.qp q).st ≠ .disabled → (s.dev.qp q).st ≠ .idle → (s.dev.qp q).reset = false → s.dev.reachable (s.dev.qp q) = true →
    (s.dev.qp q).cqWr - (s.dev.qp q).cqHead < (s.dev.qp q).cqDepth →
    Acts (.completionWrite q) s fun d => (d.qp q).cqWr = (s.dev.qp q).cqWr + 1 ∧ (d.qp q).held = rest
      ∧ (∀ r, r ≠ q → d.qp r = s.dev.qp r)
      ∧ ((s.dev.qp q).capstan = true → ∀ a, (∀ i < 32, s.dev.physOff ((s.dev.qp q).cqBase
          + 32 * ((s.dev.qp q).cqWr % (s.dev.qp q).cqDepth) + i) ≠ s.dev.physOff a) → d.physByte a = s.dev.physByte a)
      ∧ ((s.dev.qp q).capstan = false → d.mem = s.dev.mem ∧ (s.dev.boot.gated = false →
          (⟨.hostWrite, [q, (s.dev.qp q).cqBase + 32 * ((s.dev.qp q).cqWr % (s.dev.qp q).cqDepth), s.dev.pasidOf (s.dev.qp q).slice],
            c.bytes (s.dev.qp q).fetched (decide ((s.dev.qp q).cqWr / (s.dev.qp q).cqDepth % 2 = 0))⟩ : Out) ∈ d.out)))
  ∧ (∀ s q c rest, s.live → q < 65536 → (s.dev.qp q).nextHeld = some (c, rest) → c.gen ≠ s.dev.sliceGen (s.dev.qp q).slice →
    Acts (.completionWrite q) s fun d => d = (s.dev.discardCpl q c rest).bump Reg.slcLateDiscard)
  ∧ ∀ s q c rest, s.live → q < 65536 → (s.dev.qp q).nextHeld = some (c, rest) → c.gen = s.dev.sliceGen (s.dev.qp q).slice →
    (s.dev.qp q).st = .active → (s.dev.qp q).reset = false → s.dev.reachable (s.dev.qp q) = true →
    (s.dev.qp q).cqDepth ≤ (s.dev.qp q).cqWr - (s.dev.qp q).cqHead → (s.dev.qp q).waited = false →
    Acts (.completionWrite q) s fun d => d.count Reg.hifCqWait = s.dev.count Reg.hifCqWait + 1
      ∧ d.qp q = { s.dev.qp q with waited := true }

/-- Links, resets and power states of host ports (R413, R417, R441, R445, R447, R448, R609): PERST# and the loss of a link reset the
port's functions; a link that trains returns the queue pairs it reset to IDLE; a function in D3hot sends nothing until it is back in
D0; unmasking a vector sends its pending message. -/
def Obligations.HostLinkEvents : Prop :=
  (∀ s n, s.live → n < 4 → (s.dev.hp n).perst = false →
    Acts (.perstAssert n) s fun d => d = ((s.dev.onHp n fun h => { h with perst := true }).hpDown n).resetPort n
      ∧ ((s.dev.onHp n fun h => { h with perst := true }).hpDown n).hp n = { s.dev.hp n with perst := true, link := .down })
  ∧ (∀ s n, s.dev.boot.held = true → n < 4 → (s.dev.hp n).perst = false →
    Acts (.perstAssert n) s fun d => d = s.dev.onHp n fun h => { h with perst := true })
  ∧ (∀ s n, n < 4 → Acts (.perstDeassert n) s fun d => Dev.keeps [.hif] s.dev d ∧ (∀ m, m ≠ n → d.hp m = s.dev.hp m)
      ∧ d.hp n = { s.dev.hp n with perst := false, fnCount := (s.dev.hp n).fnNext })
  ∧ (∀ s n, s.live → n < 4 → (s.dev.hp n).link ≠ .down →
    Acts (.hostLinkDown n) s fun d => d = (s.dev.hpDown n).resetPort n
      ∧ (s.dev.hpDown n).hp n = { s.dev.hp n with link := .down } ∧ (⟨.pin, [n, 0], []⟩ : Out) ∈ (s.dev.hpDown n).out)
  ∧ (∀ s n, s.live → n < 4 → (s.dev.hp n).perst = false → (s.dev.hp n).link ≠ .l0 → bit s.dev.pwr.hpLost n = false →
    Acts (.hostLinkL0 n) s fun d => (d.hp n).link = .l0 ∧ (⟨.pin, [n, 1], []⟩ : Out) ∈ d.out
      ∧ ∀ q, (s.dev.qp q).reset = true → (s.dev.qp q).capstan = false → (s.dev.qp q).port = n →
          (d.qp q).st = .idle ∧ (d.qp q).held = [] ∧ (d.qp q).reset = false)
  ∧ (∀ s n, s.live → n < 4 → (s.dev.hp n).perst = true → Acts (.hostLinkL0 n) s fun d => d = s.dev)
  ∧ (∀ s k, s.live → k < 32 →
    Acts (.d3hotEntry k) s fun d => Dev.keeps [.hif] s.dev d ∧ (d.fn k).d3 = true ∧ (∀ j, j ≠ k → d.fn j = s.dev.fn j)
      ∧ ∀ q, (s.dev.qp q).capstan = false → (s.dev.qp q).fnKey = k → d.reachable (s.dev.qp q) = false)
  ∧ (∀ s k, s.live → k < 32 → (s.dev.fn k).d3 = true → s.dev.fnQps k = [] → (s.dev.fn k).pend = [] →
    Acts (.d0Return k) s fun d => d = s.dev.onFn k fun f => { f with d3 := false, pmeSent := false })
  ∧ (∀ s k q, s.live → k < 32 → (s.dev.fn k).d3 = true → s.dev.fnQps k = [q] →
    (s.dev.qp q).st ≠ .disabled → (s.dev.qp q).capstan = false → (s.dev.qp q).fnKey = k → (s.dev.qp q).held = [] → (s.dev.qp q).due = true →
    (s.dev.fn k).pend = [(s.dev.qp q).lidx] → (s.dev.qp q).lidx ∉ (s.dev.fn k).masked → s.dev.boot.gated = false →
    (s.dev.hp (s.dev.qp q).port).link ≠ .down →
    Acts (.d0Return k) s fun d => (d.fn k).d3 = false ∧ (d.fn k).pend = [] ∧ (d.qp q).due = false
      ∧ (⟨.msix, [(s.dev.qp q).port, (s.dev.qp q).fn, (s.dev.qp q).lidx], []⟩ : Out) ∈ d.out)
  ∧ (∀ s k v, s.live → k < 32 → v < 2048 → v ∉ (s.dev.fn k).pend →
    Acts (.msixUnmask k v) s fun d => d = s.dev.onFn k fun f => { f with masked := f.masked.filter (· != v) })
  ∧ ∀ s k v, s.live → k < 32 → v < 2048 → v ∈ (s.dev.fn k).pend →
    Acts (.msixUnmask k v) s fun d => d = (s.dev.onFn k fun f => { f with masked := f.masked.filter (· != v) }).sendPending k v
      ∧ v ∉ (d.fn k).masked

/-- RDMA connections (R488, R495, R500 to R510): an acknowledgement that does not come within the timeout resends every outstanding
request with the window halved, not below 4,096 B, or past the retry limit loses the connection; a received packet passes the checks
of R506 in order; a request in sequence is accepted and acknowledged, an early one answered once per gap. -/
def Obligations.RdmaEvents : Prop :=
  (∀ s c t, s.live → c < 131072 → (s.dev.conn c).st = .active → (s.dev.conn c).since = some t →
    t + (s.dev.conn c).timeout ≤ s.dev.turn → (s.dev.conn c).limit ≤ (s.dev.conn c).retries →
    Acts (.rdmaAckTimeout c) s fun d => d = s.dev.connError c stTimeout)
  ∧ (∀ s c t, s.live → c < 131072 → (s.dev.conn c).st = .active → (s.dev.conn c).since = some t →
    t + (s.dev.conn c).timeout ≤ s.dev.turn → (s.dev.conn c).retries < (s.dev.conn c).limit → (s.dev.conn c).epoch < 0xFFFFFFFF →
    Acts (.rdmaAckTimeout c) s fun d => (d.conn c).retries = (s.dev.conn c).retries + 1
      ∧ (d.conn c).window = max 4096 ((s.dev.conn c).window / 2) ∧ (d.conn c).epoch = (s.dev.conn c).epoch + 1
      ∧ (d.conn c).reqs.map (·.psn) = (s.dev.conn c).reqs.map (·.psn) ∧ (d.conn c).psn = (s.dev.conn c).psn)
  ∧ (∀ s c t, s.live → c < 131072 → (s.dev.conn c).st = .active → (s.dev.conn c).since = some t →
    t + (s.dev.conn c).timeout ≤ s.dev.turn → (s.dev.conn c).limit ≤ (s.dev.conn c).retries → s.dev.sto.cmds = [] →
    Acts (.rdmaAckTimeout c) s fun d => d.conn c = { s.dev.conn c with st := .error, reqs := [], since := none }
      ∧ d.count Reg.rdmConnError = s.dev.count Reg.rdmConnError + 1)
  ∧ (∀ s c t, s.live → c < 131072 → (s.dev.conn c).since = some t → s.dev.turn < t + (s.dev.conn c).timeout →
    Acts (.rdmaAckTimeout c) s fun d => d = s.dev)
  ∧ (∀ s (p : RPkt) enc fr rest, s.live → p.conn < 131072 → s.dev.rdm.rx = (enc, fr) :: rest → p.op ≠ .readReq →
    ((s.dev.conn p.conn).st ≠ .active ∨ enc ≠ (s.dev.conn p.conn).encrypt) →
    Acts (.rdmaPacketReceive p) s fun d => d = (s.dev.tagTaken rdmaWaits).onRdm fun r => { r with rx := rest })
  ∧ (∀ s (p : RPkt) enc fr rest, s.live → p.conn < 131072 → s.dev.rdm.rx = (enc, fr) :: rest → p.op ≠ .readReq →
    (s.dev.conn p.conn).st = .active → enc = (s.dev.conn p.conn).encrypt → p.icrcOk = false →
    Acts (.rdmaPacketReceive p) s fun d => d.conn p.conn = s.dev.conn p.conn ∧ d.rdm.rx = rest ∧ d.mem = s.dev.mem
      ∧ d.count Reg.rdmIcrcErr = s.dev.count Reg.rdmIcrcErr + 1)
  ∧ (∀ s (p : RPkt) fr rest, s.live → p.conn < 131072 → s.dev.rdm.rx = (true, fr) :: rest → p.op ≠ .readReq →
    (s.dev.conn p.conn).st = .active → (s.dev.conn p.conn).encrypt = true → p.icrcOk = true → (s.dev.conn p.conn).epochBad p = true →
    Acts (.rdmaPacketReceive p) s fun d => d.conn p.conn = s.dev.conn p.conn ∧ d.rdm.rx = rest ∧ d.mem = s.dev.mem
      ∧ d.count Reg.rdmEpochReject = s.dev.count Reg.rdmEpochReject + 1)
  ∧ (∀ s (p : RPkt) fr rest, s.live → p.conn < 131072 → s.dev.rdm.rx = (true, fr) :: rest → p.op ≠ .readReq → p.op ≠ .write →
    (s.dev.conn p.conn).st = .active → (s.dev.conn p.conn).encrypt = true → p.icrcOk = true →
    (s.dev.conn p.conn).epochBad p = false → p.tagOk = false →
    Acts (.rdmaPacketReceive p) s fun d =>
      d = ((((s.dev.tagTaken rdmaWaits).onRdm fun r => { r with rx := rest }).touchConn p.conn).bump Reg.rdmAuthFail).connError p.conn stAuthFail)
  ∧ (∀ s (p : RPkt) fr rest, s.live → p.conn < 131072 → s.dev.rdm.rx = (false, fr) :: rest → p.op = .send →
    (s.dev.conn p.conn).st = .active → (s.dev.conn p.conn).encrypt = false → p.icrcOk = true → p.ce = false →
    psnAhead p.psn (s.dev.conn p.conn).rxPsn = 0 →
    Acts (.rdmaPacketReceive p) s fun d => d.conn p.conn = { s.dev.conn p.conn with
        rxPsn := ((s.dev.conn p.conn).rxPsn + 1) % 2 ^ 24, nakGap := false }
      ∧ d.rdm.rx = rest ∧ ∃ e : Dev, d = e.rdmaSend p.conn .ack p.psn 0 [] ∧ e.out = s.dev.out)
  ∧ (∀ s (p : RPkt) fr rest, s.live → p.conn < 131072 → s.dev.rdm.rx = (false, fr) :: rest → p.op = .send →
    (s.dev.conn p.conn).st = .active → (s.dev.conn p.conn).encrypt = false → p.icrcOk = true → p.ce = false →
    0 < psnAhead p.psn (s.dev.conn p.conn).rxPsn → psnAhead p.psn (s.dev.conn p.conn).rxPsn < 2 ^ 23 →
    Acts (.rdmaPacketReceive p) s fun d => d.conn p.conn = { s.dev.conn p.conn with nakGap := true }
      ∧ ((s.dev.conn p.conn).nakGap = true → d.out = s.dev.out)
      ∧ ((s.dev.conn p.conn).nakGap = false → ∃ e : Dev, e.out = s.dev.out
          ∧ d = (e.rdmaSend p.conn .nakSeq (s.dev.conn p.conn).rxPsn 0 []).bump Reg.rdmNakTx))
  ∧ (∀ s (p : RPkt), s.live → p.conn < 131072 → s.dev.rdm.rx ≠ [] → p.op = .readReq → s.dev.tagsFor rdmaWaits 1 = 0 →
    rdmaWaits ∉ s.dev.hif.tagWait →
    Acts (.rdmaPacketReceive p) s fun d => d.rdm = s.dev.rdm ∧ d.count Reg.glbTagWait = s.dev.count Reg.glbTagWait + 1
      ∧ rdmaWaits ∈ d.hif.tagWait)
  ∧ (∀ s (p : RPkt) fr rest r, s.live → p.conn < 131072 → s.dev.rdm.rx = (false, fr) :: rest → p.op = .ack → p.ce = false →
    (s.dev.conn p.conn).st = .active → (s.dev.conn p.conn).encrypt = false → p.icrcOk = true → s.dev.sto.cmds = [] →
    (s.dev.conn p.conn).reqs = [r] → (s.dev.conn p.conn).unack = r.psn → r.psn < 2 ^ 24 → 1 ≤ r.n → r.n < 2 ^ 23 →
    (s.dev.conn p.conn).psn = (r.psn + r.n) % 2 ^ 24 → p.psn = (r.psn + r.n - 1) % 2 ^ 24 →
    Acts (.rdmaPacketReceive p) s fun d => (d.conn p.conn).reqs = [] ∧ (d.conn p.conn).unack = (s.dev.conn p.conn).psn
      ∧ (d.conn p.conn).retries = 0 ∧ (d.conn p.conn).since = none)
  ∧ ∀ s (p : RPkt) fr rest, s.live → p.conn < 131072 → s.dev.rdm.rx = (false, fr) :: rest → p.op = .ack → p.ce = false →
    (s.dev.conn p.conn).st = .active → (s.dev.conn p.conn).encrypt = false → p.icrcOk = true →
    Acts (.rdmaPacketReceive p) s fun d =>
      d = (((s.dev.tagTaken rdmaWaits).onRdm fun r => { r with rx := rest }).touchConn p.conn).ackTo p.conn p.psn

/-- Coprocessor instructions of a capstan (R397 to R402, R553): HC.CRC and HC.KEY write rd, HC.KEY the bucket index of R199; an encoding
R397 does not list raises an illegal-instruction exception and changes nothing else; AQ.SUB takes the lowest free slot, or answers
BAD_OPERAND, FULL or a page fault; AQ.GET answers a result once; a random read answers 8 bytes of the DRBG, or 0 with its status.
Every write of rd leaves the core's other registers, and x0 reads 0. -/
def Obligations.CapstanCoprocessorInstructions : Prop :=
  (∀ (d : Dev) c (rd : BitVec 5) v (r : BitVec 5), ((d.setRd c rd v).core c).getX r.toNat
      = if r = rd ∧ rd ≠ 0 then BitVec.ofNat 64 v else (d.core c).getX r.toNat)
  ∧ (∀ (d : Dev) c (rd : BitVec 5) v, Dev.keeps [.cap] d (d.setRd c rd v) ∧ ∀ e, e ≠ c → (d.setRd c rd v).core e = d.core e)
  ∧ (∀ s c f7 rs2 rs1 rd, s.coreRuns c → f7.toNat ≤ 2 →
    CoreDoes (.hcCrc c f7 rs2 rs1 rd) s c fun d => (d.setRd c rd
      (crcAdvance f7.toNat ((s.dev.core c).num rs1) ((s.dev.core c).num rs2))).bump (Reg.capCHcuRetired c))
  ∧ (∀ s c f7 rs2 rs1 rd, s.coreRuns c → 2 < f7.toNat →
    CoreRaises (.hcCrc c f7 rs2 rs1 rd) s c 2)
  ∧ (∀ s c f7 rs2 rs1 rd, s.coreRuns c → f7.toNat ≤ 1 →
    CoreDoes (.hcKey c f7 rs2 rs1 rd) s c fun d => (d.setRd c rd
      (bucketIndex 0 f7.toNat ((s.dev.core c).num rs1))).bump (Reg.capCHcuRetired c))
  ∧ (∀ s c f7 rs2 rs1 rd, s.coreRuns c → 2 ≤ f7.toNat → f7.toNat ≤ 3 →
    CoreDoes (.hcKey c f7 rs2 rs1 rd) s c fun d => (d.setRd c rd (bucketIndex 1 (f7.toNat - 2)
      ((s.dev.core c).num rs1 * 2 ^ 32 + (s.dev.core c).num rs2 % 2 ^ 32))).bump (Reg.capCHcuRetired c))
  ∧ (∀ s c f7 rs2 rs1 rd, s.coreRuns c → 3 < f7.toNat →
    CoreRaises (.hcKey c f7 rs2 rs1 rd) s c 2)
  ∧ (∀ tab side key, bucketIndex tab side key < 2 ^ 17)
  ∧ (∀ s c rs2 rs1 rd seg, s.coreRuns c →
    (4096 < (s.dev.core c).num rs1 % 4096 + bits ((s.dev.core c).num rs2) 0 8 + 1 ∨ s.dev.blocks ≤ bits ((s.dev.core c).num rs2) 18 5
      ∨ bits ((s.dev.core c).num rs2) 25 39 ≠ 0) →
    Acts (.aqSub c 0 rs2 rs1 rd seg) s fun d =>
      d = (((s.dev.entered c).setRd c rd stBadOperand).bump (Reg.capCRetired c)).bump (Reg.capCAquRetired c))
  ∧ (∀ s c rs2 rs1 rd, s.coreRuns c → (s.dev.core c).num rs1 % 4096 + bits ((s.dev.core c).num rs2) 0 8 + 1 ≤ 4096 →
    bits ((s.dev.core c).num rs2) 18 5 < s.dev.blocks → bits ((s.dev.core c).num rs2) 25 39 = 0 →
    CoreRaises (.aqSub c 0 rs2 rs1 rd none) s c 13)
  ∧ (∀ s c rs2 rs1 rd bs, s.coreRuns c → (s.dev.core c).num rs1 % 4096 + bits ((s.dev.core c).num rs2) 0 8 + 1 ≤ 4096 →
    bits ((s.dev.core c).num rs2) 18 5 < s.dev.blocks → bits ((s.dev.core c).num rs2) 25 39 = 0 → (s.dev.core c).freeSlot = none →
    Acts (.aqSub c 0 rs2 rs1 rd (some bs)) s fun d =>
      d = (((s.dev.entered c).bump (Reg.capCRetired c)).bump (Reg.capCAquRetired c)).setRd c rd stFull)
  ∧ (∀ s c rs2 rs1 rd bs k (g : Seg) e, s.coreRuns c →
    (s.dev.core c).num rs1 % 4096 + bits ((s.dev.core c).num rs2) 0 8 + 1 ≤ 4096 → bits ((s.dev.core c).num rs2) 18 5 < s.dev.blocks →
    bits ((s.dev.core c).num rs2) 25 39 = 0 → (s.dev.core c).freeSlot = some k → g.id = s.dev.aut.nextSeg → g.owner = .query c k →
    g.shade = bits ((s.dev.core c).num rs2) 23 2 → g.set = bits ((s.dev.core c).num rs2) 8 10 →
    g.bytes = padTo (bits ((s.dev.core c).num rs2) 0 8 + 1) bs →
    g = { id := g.id, owner := g.owner, shade := g.shade, set := g.set, bytes := g.bytes, noSet := !s.dev.live.contains g.shade || !(s.dev.progSet g.shade (bits ((s.dev.core c).num rs2) 18 5)).autSets.contains g.set } →
    (((s.dev.entered c).bump (Reg.capCRetired c)).bump (Reg.capCAquRetired c)).admitSeg (bits ((s.dev.core c).num rs2) 18 5) g = some e →
    CoreActs (.aqSub c 0 rs2 rs1 rd (some bs)) s c 1 fun d => Map.find (d.core c).slots k = some none
      ∧ d.aut = { e.aut with nextSeg := e.aut.nextSeg + 1 } ∧ (rd ≠ 0 → (d.core c).getX rd.toNat = BitVec.ofNat 64 (k * 256)))
  ∧ (∀ s c f7 rs2 rs1 rd seg, s.coreRuns c → f7 ≠ 0 →
    CoreRaises (.aqSub c f7 rs2 rs1 rd seg) s c 2)
  ∧ (∀ s c f7 rs1 rd, s.coreRuns c → f7 ≠ 0 → CoreRaises (.aqGet c f7 rs1 rd) s c 2)
  ∧ (∀ s c rs1 rd w, s.coreRuns c → Map.find (s.dev.core c).slots ((s.dev.core c).num rs1 % 8) = some (some w) →
    CoreActs (.aqGet c 0 rs1 rd) s c 1 fun d => Map.find (d.core c).slots ((s.dev.core c).num rs1 % 8) = none
      ∧ Dev.keeps [.cap, .ctr] s.dev d ∧ (rd ≠ 0 → (d.core c).getX rd.toNat = w))
  ∧ (∀ s c rs1 rd, s.coreRuns c → (∀ w, Map.find (s.dev.core c).slots ((s.dev.core c).num rs1 % 8) ≠ some (some w)) →
    CoreDoes (.aqGet c 0 rs1 rd) s c fun d => d.setRd c rd 0)
  ∧ (∀ s c rd, s.coreRuns c → s.dev.she.rng = .ready →
    CoreActs (.capRandRead c rd) s c 1 fun d => (d.core c).xstat = stDone ∧ d.mem = s.dev.mem
      ∧ (rd ≠ 0 → (d.core c).getX rd.toNat = BitVec.ofNat 64 (ofLe s.dev.capRand.1)))
  ∧ ∀ s c rd, s.coreRuns c → s.dev.she.rng ≠ .ready →
    CoreActs (.capRandRead c rd) s c 1 fun d => Dev.keeps [.cap, .ctr] s.dev d
      ∧ (d.core c).xstat = (if s.dev.she.rng = .stopped then stTamper else stNotReady)
      ∧ (rd ≠ 0 → (d.core c).getX rd.toNat = 0)

/-- Cleats of a capstan (R403 to R407, Table 13.9, Table 13.10): a free cleat is taken, a held one answers FULL or is waited for, a
release passes it on in waiting order, CL.READ answers its word of Table 13.10, a wait that runs out ends TIMEOUT; an interrupt
cancels a wait and leaves the cleats held; after a reset of the core it holds no cleat and waits for none, and the release is
counted. -/
def Obligations.CleatInstructions : Prop :=
  (∀ s c rs1 rd, s.coreRuns c → (s.dev.cleat ((s.dev.core c).cleatOf rs1)).holder = none →
    CoreActs (.clTry c rs1 rd) s c 1 fun d =>
      (d.cleat ((s.dev.core c).cleatOf rs1)).holder = some (.core c) ∧ Dev.keeps [.cap, .ctr] s.dev d
      ∧ (∀ n, n ≠ (s.dev.core c).cleatOf rs1 → d.cleat n = s.dev.cleat n) ∧ (rd ≠ 0 → (d.core c).getX rd.toNat = 0))
  ∧ (∀ s c rs1 rd h, s.coreRuns c → (s.dev.cleat ((s.dev.core c).cleatOf rs1)).holder = some h →
    CoreDoes (.clTry c rs1 rd) s c fun d => (d.bump Reg.capCleatFail).setRd c rd stFull)
  ∧ (∀ s c rs2 rs1 rd, s.coreRuns c → (s.dev.cleat ((s.dev.core c).cleatOf rs1)).holder = none →
    CoreActs (.clWait c rs2 rs1 rd) s c 1 fun d => (d.cleat ((s.dev.core c).cleatOf rs1)).holder = some (.core c)
      ∧ (d.core c).wait = none ∧ (rd ≠ 0 → (d.core c).getX rd.toNat = 0))
  ∧ (∀ s c rs2 rs1 rd h, s.coreRuns c → (s.dev.cleat ((s.dev.core c).cleatOf rs1)).holder = some h →
    CoreActs (.clWait c rs2 rs1 rd) s c 0 fun d => Dev.keeps [.cap, .ctr] s.dev d
      ∧ (d.cleat ((s.dev.core c).cleatOf rs1)).waiters = (s.dev.cleat ((s.dev.core c).cleatOf rs1)).waiters ++ [.core c]
      ∧ (d.cleat ((s.dev.core c).cleatOf rs1)).holder = some h
      ∧ (d.core c).wait = some (.cleat ((s.dev.core c).cleatOf rs1) rd.toNat (if (s.dev.core c).num rs2 % 2 ^ 32 = 0 then none
          else some (s.dev.turn + (s.dev.core c).num rs2 % 2 ^ 32))))
  ∧ (∀ s c rs1 rd, s.coreRuns c → (s.dev.cleat ((s.dev.core c).cleatOf rs1)).holder = some (.core c) →
    (s.dev.cleat ((s.dev.core c).cleatOf rs1)).waiters = [] →
    CoreActs (.clRel c rs1 rd) s c 1 fun d => (d.cleat ((s.dev.core c).cleatOf rs1)).holder = none
      ∧ (∀ n, n ≠ (s.dev.core c).cleatOf rs1 → d.cleat n = s.dev.cleat n) ∧ (rd ≠ 0 → (d.core c).getX rd.toNat = 0))
  ∧ (∀ s c rs1 rd h t, s.coreRuns c → (s.dev.cleat ((s.dev.core c).cleatOf rs1)).holder = some (.core c) →
    (s.dev.cleat ((s.dev.core c).cleatOf rs1)).waiters = h :: t →
    Acts (.clRel c rs1 rd) s fun d => d.cleat ((s.dev.core c).cleatOf rs1) = { holder := some h, waiters := t }
      ∧ d = ((((s.dev.entered c).onCleat ((s.dev.core c).cleatOf rs1) fun _ => { holder := some h, waiters := t }).granted h).setRd c rd
          stDone).bump (Reg.capCRetired c))
  ∧ (∀ s c rs1 rd, s.coreRuns c → (s.dev.cleat ((s.dev.core c).cleatOf rs1)).holder ≠ some (.core c) →
    CoreDoes (.clRel c rs1 rd) s c fun d => d.setRd c rd stNotFound)
  ∧ (∀ s c rs1 rd, s.coreRuns c →
    CoreDoes (.clRead c rs1 rd) s c fun d => d.setRd c rd (s.dev.cleat ((s.dev.core c).cleatOf rs1)).word)
  ∧ (∀ x : Cleat, (x.holder = none → x.word = 2 ^ 19 * x.waiters.length)
    ∧ (∀ k, x.holder = some (.core k) → x.word = 3 + 2 ^ 14 * k + 2 ^ 19 * x.waiters.length)
    ∧ ∀ f, x.holder = some (.fibre f) → x.word = 1 + 2 ^ 2 * (f / 8) + 2 ^ 11 * (f % 8) + 2 ^ 19 * x.waiters.length)
  ∧ (∀ s c n rd t, s.live → c < 32 → (s.dev.core c).wait = some (.cleat n rd (some t)) →
    Acts (.clWaitTimeout c) s fun d => (d.core c).wait = none ∧ d.reel = (s.dev.dueNs (t * 1024)).reel
      ∧ (.core c) ∉ (d.cleat n).waiters ∧ (d.cleat n).holder = (s.dev.cleat n).holder
      ∧ (rd ≠ 0 → (d.core c).getX rd = BitVec.ofNat 64 stTimeout)
      ∧ d.count (Reg.capCRetired c) = s.dev.count (Reg.capCRetired c) + 1)
  ∧ (∀ s c, s.live → c < 32 → (s.dev.core c).running = true →
    Acts (.coreInterrupt c) s fun d => Dev.keeps [.cap, .ctr] s.dev d
      ∧ d.ctr = (s.dev.bumpIf (s.dev.core c).wait.isSome (Reg.capCSquashIssued c)).ctr ∧ (d.core c).wait = none ∧ (d.core c).x = (s.dev.core c).x
      ∧ (d.core c).lnyInt = false ∧ (∀ n, (.core c) ∉ (d.cleat n).waiters ∧ (d.cleat n).holder = (s.dev.cleat n).holder))
  ∧ ∀ s c held, s.live → c < 32 →
    Acts (.coreReset c held) s fun d => (d.core c).wait = none ∧ (d.core c).slots = [] ∧ (∀ r, (d.core c).getX r = 0)
      ∧ (d.core c).running = (!held && s.dev.boot.ranCap) ∧ d.mem = s.dev.mem
      ∧ (∀ n, (d.cleat n).holder ≠ some (.core c) ∧ (.core c) ∉ (d.cleat n).waiters)
      ∧ d.count Reg.capCleatResetRel = s.dev.count Reg.capCleatResetRel + BitVec.ofNat 64 (s.dev.heldCleats (.core c)).length
      ∧ Map.find d.hif.views (32 + c) = none ∧ Map.find d.hif.rawSel (32 + c) = none ∧ Map.find d.hif.rawStage (32 + c) = none

/-- Lanyards of a capstan (R408 to R411, Table 13.9, Table 13.11): a put appends a word where there is room, or answers FULL; a get
takes the oldest, or answers NOT_FOUND where there is none but those put in this pclk; the waiting forms wait behind those that wait
and end at once where they can; an entry of the notification table is written with its reserved bits 0, and a lanyard that goes from
empty to non-empty interrupts its core. -/
def Obligations.LanyardInstructions : Prop :=
  (∀ s c rs2 rs1 rd w ws, s.coreRuns c → (s.dev.lanyard ((s.dev.core c).lanyardOf rs1)).words = w :: ws → ws.length < 7 →
    (s.dev.lanyard ((s.dev.core c).lanyardOf rs1)).gets = [] → (s.dev.lanyard ((s.dev.core c).lanyardOf rs1)).puts = [] →
    CoreActs (.lnPut c rs2 rs1 rd) s c 1 fun d => Dev.keeps [.cap, .ctr] s.dev d
      ∧ (d.lanyard ((s.dev.core c).lanyardOf rs1)).words = w :: ws ++ [(s.dev.core c).getX rs2.toNat]
      ∧ (∀ n, n ≠ (s.dev.core c).lanyardOf rs1 → d.lanyard n = s.dev.lanyard n) ∧ (rd ≠ 0 → (d.core c).getX rd.toNat = 0))
  ∧ (∀ s c rs2 rs1 rd, s.coreRuns c → (s.dev.lanyard ((s.dev.core c).lanyardOf rs1)).words = [] →
    (s.dev.lanyard ((s.dev.core c).lanyardOf rs1)).gets = [] → (s.dev.lanyard ((s.dev.core c).lanyardOf rs1)).puts = [] →
    bit (Map.getD s.dev.cap.notify ((s.dev.core c).lanyardOf rs1) 0) 5 = true →
    CoreActs (.lnPut c rs2 rs1 rd) s c 1 fun d => (d.lanyard ((s.dev.core c).lanyardOf rs1)).words = [(s.dev.core c).getX rs2.toNat]
      ∧ (d.core (Map.getD s.dev.cap.notify ((s.dev.core c).lanyardOf rs1) 0 % 32)).lnyInt = true
      ∧ d.out = s.dev.out ++ [⟨.capInterrupt, [Map.getD s.dev.cap.notify ((s.dev.core c).lanyardOf rs1) 0 % 32,
          1024 + (s.dev.core c).lanyardOf rs1], []⟩])
  ∧ (∀ s c rs2 rs1 rd, s.coreRuns c → 8 ≤ (s.dev.lanyard ((s.dev.core c).lanyardOf rs1)).words.length →
    CoreDoes (.lnPut c rs2 rs1 rd) s c fun d => (d.bump Reg.capLnyFull).setRd c rd stFull)
  ∧ (∀ s c rs1 rd w ws, s.coreRuns c → (s.dev.lanyard ((s.dev.core c).lanyardOf rs1)).words = w :: ws →
    s.dev.freshWords (s.dev.lanyard ((s.dev.core c).lanyardOf rs1)) ≤ ws.length →
    (s.dev.lanyard ((s.dev.core c).lanyardOf rs1)).gets = [] → (s.dev.lanyard ((s.dev.core c).lanyardOf rs1)).puts = [] →
    CoreActs (.lnGet c rs1 rd) s c 1 fun d => Dev.keeps [.cap, .ctr] s.dev d ∧ (d.lanyard ((s.dev.core c).lanyardOf rs1)).words = ws
      ∧ (d.core c).xstat = stDone ∧ (rd ≠ 0 → (d.core c).getX rd.toNat = w))
  ∧ (∀ s c rs1 rd, s.coreRuns c → (s.dev.lanyard ((s.dev.core c).lanyardOf rs1)).words = [] →
    CoreDoes (.lnGet c rs1 rd) s c fun d => ((d.bump Reg.capLnyEmpty).setRd c rd 0).onCore c (Core.setStat stNotFound))
  ∧ (∀ s c rs1 rd w ws, s.coreRuns c → (s.dev.lanyard ((s.dev.core c).lanyardOf rs1)).words = w :: ws →
    ws.length < s.dev.freshWords (s.dev.lanyard ((s.dev.core c).lanyardOf rs1)) →
    CoreDoes (.lnGet c rs1 rd) s c fun d => ((d.bump Reg.capLnyEmpty).setRd c rd 0).onCore c (Core.setStat stNotFound))
  ∧ (∀ s c rs2 rs1 rd, s.coreRuns c → 8 ≤ (s.dev.lanyard ((s.dev.core c).lanyardOf rs1)).words.length →
    (s.dev.lanyard ((s.dev.core c).lanyardOf rs1)).gets = [] →
    CoreActs (.lnPutw c rs2 rs1 rd) s c 0 fun d => (d.core c).wait = some (.put ((s.dev.core c).lanyardOf rs1) rd.toNat)
      ∧ (d.lanyard ((s.dev.core c).lanyardOf rs1)).puts = (s.dev.lanyard ((s.dev.core c).lanyardOf rs1)).puts
          ++ [(.core c, (s.dev.core c).getX rs2.toNat)]
      ∧ (d.lanyard ((s.dev.core c).lanyardOf rs1)).words = (s.dev.lanyard ((s.dev.core c).lanyardOf rs1)).words)
  ∧ (∀ s c rs2 rs1 rd w ws, s.coreRuns c → (s.dev.lanyard ((s.dev.core c).lanyardOf rs1)).words = w :: ws → ws.length < 7 →
    (s.dev.lanyard ((s.dev.core c).lanyardOf rs1)).gets = [] → (s.dev.lanyard ((s.dev.core c).lanyardOf rs1)).puts = [] →
    CoreActs (.lnPutw c rs2 rs1 rd) s c 1 fun d => (d.core c).wait = none ∧ (d.lanyard ((s.dev.core c).lanyardOf rs1)).puts = []
      ∧ (d.lanyard ((s.dev.core c).lanyardOf rs1)).words = w :: ws ++ [(s.dev.core c).getX rs2.toNat]
      ∧ (rd ≠ 0 → (d.core c).getX rd.toNat = 0))
  ∧ (∀ s c rs1 rd, s.coreRuns c → (s.dev.lanyard ((s.dev.core c).lanyardOf rs1)).words = [] →
    (s.dev.lanyard ((s.dev.core c).lanyardOf rs1)).puts = [] →
    CoreActs (.lnGetw c rs1 rd) s c 0 fun d => (d.core c).wait = some (.get ((s.dev.core c).lanyardOf rs1) rd.toNat)
      ∧ (d.lanyard ((s.dev.core c).lanyardOf rs1)).gets = (s.dev.lanyard ((s.dev.core c).lanyardOf rs1)).gets ++ [.core c])
  ∧ (∀ s c rs1 rd w ws, s.coreRuns c → (s.dev.lanyard ((s.dev.core c).lanyardOf rs1)).words = w :: ws →
    (s.dev.lanyard ((s.dev.core c).lanyardOf rs1)).gets = [] → (s.dev.lanyard ((s.dev.core c).lanyardOf rs1)).puts = [] →
    CoreActs (.lnGetw c rs1 rd) s c 1 fun d => (d.core c).wait = none ∧ (d.lanyard ((s.dev.core c).lanyardOf rs1)).words = ws
      ∧ (d.core c).xstat = stDone ∧ (rd ≠ 0 → (d.core c).getX rd.toNat = w))
  ∧ ∀ s c l v, s.coreRuns c → l < 1024 →
    CoreActs (.lanyardNotifyWrite c l v) s c 1 fun d => Dev.keeps [.cap, .ctr] s.dev d
      ∧ d.cap = { s.dev.cap with notify := Map.put s.dev.cap.notify l (v.toNat % 64) }

/-- The capstan complex's memory (R390, R395, Table 13.3): the switch turns the flat region into a cache whose bytes stand in DRAM and
changes no other byte; a store at a physical address changes the byte there and no other. -/
def Obligations.PhysicalMemory : Prop :=
  (∀ s c, s.coreRuns c → s.dev.dmc.ready = true → s.dev.cap.mode = .flat →
    CoreDoes (.l3ModeSwitch c) s c fun d => d.onCap fun x => { x with mode := .switching, modeSt := stDone })
  ∧ (∀ s c, s.coreRuns c → s.dev.dmc.ready = false →
    CoreDoes (.l3ModeSwitch c) s c fun d => d.onCap fun x => { x with modeSt := stNotReady })
  ∧ (∀ s c, s.coreRuns c → s.dev.dmc.ready = true → s.dev.cap.mode ≠ .flat → CoreDoes (.l3ModeSwitch c) s c fun d => d)
  ∧ (∀ s, s.live → s.memWf = true → s.dev.cap.mode = .switching → (∀ e ∈ s.dev.mem.flat, e.1 < flatSize) →
    Acts .l3SwitchDone s fun d => d.cap = { s.dev.cap with mode := .cache } ∧ d.mem.flat = []
      ∧ (∀ o < flatSize, Memory.read d.mem.dram o = Memory.read s.dev.mem.flat o)
      ∧ ∀ o, flatSize ≤ o → Memory.read d.mem.dram o = Memory.read s.dev.mem.dram o)
  ∧ (∀ s, s.live → s.dev.cap.mode ≠ .switching → Acts .l3SwitchDone s fun d => d = s.dev)
  ∧ (∀ (d : Dev) a bs b, (∀ i < bs.length, d.physOff (a + i) ≠ d.physOff b) → (d.physWrite a bs).physByte b = d.physByte b)
  ∧ ∀ (d : Dev) a b, Memory.wf d.mem.flat = true → flatBase ≤ a → a < flatBase + flatSize → d.cap.mode ≠ .cache →
    (d.physPut a b).physByte a = b

/-- Requests of an L2 and of an I/O agent at the directory (R391, R392, R394, R395, Tables 13.4, 13.5 and 18.6): a line nobody holds is
granted from the L3 at once, in E or M; one that others hold is asked of them first; a request waits behind a transaction on its
line; a full L2 misses only with a victim, which goes into the eviction buffer, and waits while that is full; a full directory
invalidates an entry first; an I/O write changes the bytes its mask names and no other byte of memory, and MEDIA_ERR answers for a
poisoned line. -/
def Obligations.DirectoryRequests : Prop :=
  (∀ s c ln, s.live → c < 32 → s.dev.canMiss c ln = true → s.dev.l2Full c = false → s.dev.cap.dir.length < 1048576 →
    Map.find s.dev.cap.txns ln = none → s.dev.dirEnt ln = {} →
    Acts (.rdShared c ln none none) s fun d => d.dirEnt ln = { owner := some c, sharers := [] } ∧ d.mem = s.dev.mem
      ∧ d.cap.msgs = s.dev.cap.msgs ++ [{ kind := .data .e, core := c, line := ln, data := some (s.dev.l3Line ln) }]
      ∧ d.count (Reg.capCL2Miss c) = s.dev.count (Reg.capCL2Miss c) + 1)
  ∧ (∀ s c ln, s.live → c < 32 → s.dev.canMiss c ln = true → s.dev.l2Full c = false → s.dev.cap.dir.length < 1048576 →
    Map.find s.dev.cap.txns ln = none → (s.dev.dirEnt ln).owner = none → (s.dev.dirEnt ln).sharers ≠ [] →
    Acts (.rdShared c ln none none) s fun d => d.mem = s.dev.mem
      ∧ d.dirEnt ln = { owner := none, sharers := (s.dev.dirEnt ln).sharers ++ [c] }
      ∧ d.cap.msgs = s.dev.cap.msgs ++ [{ kind := .data .s, core := c, line := ln, data := some (s.dev.l3Line ln) }])
  ∧ (∀ s c ln o, s.live → c < 32 → s.dev.canMiss c ln = true → s.dev.l2Full c = false → s.dev.cap.dir.length < 1048576 →
    Map.find s.dev.cap.txns ln = none → (s.dev.dirEnt ln).owner = some o → o ≠ c →
    Acts (.rdShared c ln none none) s fun d => d.mem = s.dev.mem ∧ d.dirEnt ln = s.dev.dirEnt ln
      ∧ d.cap.msgs = s.dev.cap.msgs ++ [{ kind := .snpShared, core := o, line := ln, data := none }]
      ∧ Map.find d.cap.txns ln = some { req := .shared c, wait := [o], queue := [] })
  ∧ (∀ s c ln, s.live → c < 32 → s.dev.canMiss c ln = true → s.dev.l2Full c = false → s.dev.cap.dir.length < 1048576 →
    Map.find s.dev.cap.txns ln = none → (s.dev.dirEnt ln).holders.filter (· != c) = [] →
    Acts (.rdUnique c ln none none) s fun d => d.dirEnt ln = { owner := some c, sharers := [] } ∧ d.mem = s.dev.mem
      ∧ d.cap.msgs = s.dev.cap.msgs ++ [{ kind := .data .m, core := c, line := ln, data := some (s.dev.l3Line ln) }])
  ∧ (∀ s c ln, s.live → c < 32 → s.dev.canMiss c ln = true → s.dev.l2Full c = false → s.dev.cap.dir.length < 1048576 →
    Map.find s.dev.cap.txns ln = none → (s.dev.dirEnt ln).holders.filter (· != c) ≠ [] →
    Acts (.rdUnique c ln none none) s fun d => d.mem = s.dev.mem ∧ d.dirEnt ln = s.dev.dirEnt ln
      ∧ d.cap.msgs = s.dev.cap.msgs ++ ((s.dev.dirEnt ln).holders.filter (· != c)).map (fun k =>
          ({ kind := .snpInv, core := k, line := ln, data := none } : CMsg))
      ∧ Map.find d.cap.txns ln = some { req := .unique c, wait := (s.dev.dirEnt ln).holders.filter (· != c), queue := [] })
  ∧ (∀ s c ln, s.live → c < 32 → s.dev.l2Full c = true →
    Unmoved (.rdShared c ln none none) s ∧ Unmoved (.rdUnique c ln none none) s)
  ∧ (∀ s c ln v x dirty, s.live → c < 32 → s.dev.canMiss c ln = true → s.dev.cap.dir.length < 1048576 →
    Map.find (s.dev.core c).l2 v = some x → s.dev.asked v c = false → (s.dev.core c).evb.length < 16 →
    Map.find s.dev.cap.txns ln = none → s.dev.dirEnt ln = {} →
    Acts (.rdShared c ln (some (v, dirty)) none) s fun d => Map.find (d.core c).l2 v = none ∧ d.mem = s.dev.mem
      ∧ (d.core c).evb = (s.dev.core c).evb ++ [{ line := v, dirty := if (x.stored dirty).st = .m then some (x.stored dirty).data else none }]
      ∧ d.count (Reg.capCEvictDirty c) = s.dev.count (Reg.capCEvictDirty c) + (if (x.stored dirty).st = .m then 1 else 0)
      ∧ d.dirEnt ln = { owner := some c, sharers := [] }
      ∧ d.cap.msgs = s.dev.cap.msgs ++ [{ kind := .data .e, core := c, line := ln, data := some (s.dev.l3Line ln) }])
  ∧ (∀ s c ln v x dirty, s.live → c < 32 → s.dev.canMiss c ln = true → s.dev.cap.dir.length < 1048576 →
    Map.find (s.dev.core c).l2 v = some x → s.dev.asked v c = false → 16 ≤ (s.dev.core c).evb.length →
    Acts (.rdShared c ln (some (v, dirty)) none) s (fun d => d = s.dev.bump (Reg.capCEvbFull c))
      ∧ Acts (.rdUnique c ln (some (v, dirty)) none) s fun d => d = s.dev.bump (Reg.capCEvbFull c))
  ∧ (∀ s c ln b, s.live → c < 32 → s.dev.canMiss c ln = true → s.dev.l2Full c = false → Map.find s.dev.cap.txns ln = none →
    s.dev.dirEnt ln = {} → b ≠ ln → (Map.find s.dev.cap.dir b).isSome = true → Map.find s.dev.cap.txns b = none →
    (s.dev.dirEnt b).holders ≠ [] →
    Acts (.rdShared c ln none (some b)) s fun d => d.count Reg.capDirBackinv = s.dev.count Reg.capDirBackinv + 1 ∧ d.mem = s.dev.mem
      ∧ d.cap.msgs = s.dev.cap.msgs ++ (s.dev.dirEnt b).holders.map (fun k =>
          ({ kind := .snpInv, core := k, line := b, data := none } : CMsg))
          ++ [{ kind := .data .e, core := c, line := ln, data := some (s.dev.l3Line ln) }]
      ∧ Map.find d.cap.txns b = some { req := .back, wait := (s.dev.dirEnt b).holders, queue := [] })
  ∧ (∀ s c ln x, s.live → c < 32 → s.dev.lineOk ln = true → Map.find (s.dev.core c).l2 ln = some x → x.st = .s →
    s.dev.asked ln c = false → Map.find s.dev.cap.txns ln = none → s.dev.dirEnt ln = { owner := none, sharers := [c] } →
    Acts (.upgrade c ln) s fun d => d.dirEnt ln = { owner := some c, sharers := [] } ∧ d.mem = s.dev.mem
      ∧ d.cap.msgs = s.dev.cap.msgs ++ [{ kind := .data .m, core := c, line := ln, data := none }])
  ∧ (∀ s c ln x, s.live → c < 32 → s.dev.lineOk ln = true → Map.find (s.dev.core c).l2 ln = some x → x.st = .s →
    s.dev.asked ln c = false → Map.find s.dev.cap.txns ln = none → (s.dev.dirEnt ln).holders.filter (· != c) ≠ [] →
    Acts (.upgrade c ln) s fun d => d.mem = s.dev.mem ∧ d.dirEnt ln = s.dev.dirEnt ln
      ∧ d.cap.msgs = s.dev.cap.msgs ++ ((s.dev.dirEnt ln).holders.filter (· != c)).map fun k =>
          ({ kind := .snpInv, core := k, line := ln, data := none } : CMsg))
  ∧ (∀ s a ln, s.live → a < 4 → s.dev.lineOk ln = true → Map.find s.dev.cap.txns ln = none → (s.dev.dirEnt ln).owner = none →
    Acts (.ioRead a ln) s fun d => d.mem = s.dev.mem ∧ d.dirEnt ln = s.dev.dirEnt ln
      ∧ d.out = s.dev.out ++ [⟨.ioReply, [a, ln, 0, if s.dev.poisoned ln then stMediaErr else stDone], s.dev.l3Line ln⟩])
  ∧ (∀ s a ln o, s.live → a < 4 → s.dev.lineOk ln = true → Map.find s.dev.cap.txns ln = none → (s.dev.dirEnt ln).owner = some o →
    Acts (.ioRead a ln) s fun d => d.mem = s.dev.mem ∧ d.dirEnt ln = s.dev.dirEnt ln ∧ d.out = s.dev.out
      ∧ d.cap.msgs = s.dev.cap.msgs ++ [{ kind := .snpShared, core := o, line := ln, data := none }])
  ∧ (∀ s a ln t, s.live → a < 4 → s.dev.lineOk ln = true → Map.find s.dev.cap.txns ln = some t →
    Acts (.ioRead a ln) s fun d => Dev.keeps [.cap] s.dev d
      ∧ Map.find d.cap.txns ln = some { t with queue := t.queue ++ [.ioRead a] } ∧ d.cap.msgs = s.dev.cap.msgs)
  ∧ (∀ s a ln mask bs, s.live → s.memWf = true → a < 4 → mask < 2 ^ 64 → s.dev.lineOk ln = true →
    Map.find s.dev.cap.txns ln = none → s.dev.dirEnt ln = {} → (mask = fullMask ∨ s.dev.poisoned ln = false) →
    Acts (.ioWrite a ln mask bs) s fun d => d.out = s.dev.out ++ [⟨.ioReply, [a, ln, 1, stDone], []⟩] ∧ d.poisoned ln = false
      ∧ (∀ k < 64, Memory.read d.mem.dram (64 * ln + k)
          = if bit mask k then bs.getD k 0 else Memory.read s.dev.mem.dram (64 * ln + k))
      ∧ (∀ b, (b < 64 * ln ∨ 64 * ln + 64 ≤ b) → Memory.read d.mem.dram b = Memory.read s.dev.mem.dram b)
      ∧ d.mem.flat = s.dev.mem.flat ∧ d.mem.scratch = s.dev.mem.scratch)
  ∧ (∀ s a ln mask bs, s.live → a < 4 → mask < fullMask → s.dev.lineOk ln = true → Map.find s.dev.cap.txns ln = none →
    s.dev.dirEnt ln = {} → s.dev.poisoned ln = true →
    Acts (.ioWrite a ln mask bs) s fun d => d.out = s.dev.out ++ [⟨.ioReply, [a, ln, 1, stMediaErr], []⟩] ∧ d.mem = s.dev.mem)
  ∧ ∀ s a ln mask bs, s.live → a < 4 → mask < 2 ^ 64 → s.dev.lineOk ln = true → Map.find s.dev.cap.txns ln = none →
    (s.dev.dirEnt ln).holders ≠ [] →
    Acts (.ioWrite a ln mask bs) s fun d => d.mem = s.dev.mem
      ∧ d.cap.msgs = s.dev.cap.msgs ++ (s.dev.dirEnt ln).holders.map fun k =>
          ({ kind := .snpInv, core := k, line := ln, data := none } : CMsg)

/-- Evictions, snoops and their answers (R392 to R394, Tables 13.4 and 13.5): an L2 answers a snoop with its data where it has dirty
data, from its eviction buffer where the line is there, and else with MISS; the last answer completes the transaction; a dirty
eviction is written to the L3 unless a snoop took its data, and no other byte changes; a clean one crosses a snoop as STALE. -/
def Obligations.CoherenceMessages : Prop :=
  (∀ s c ln dirty r x, s.live → c < 32 →
    s.dev.cap.msgs.any (fun m => m.core == c && m.line == ln && (match m.kind with | .data _ => true | _ => false)) = false →
    takeMsg (fun m => m.kind == .snpShared && m.core == c && m.line == ln) s.dev.cap.msgs = some r →
    Map.find (s.dev.core c).l2 ln = some x →
    Acts (.snpShared c ln dirty) s fun d => Dev.keeps [.cap] s.dev d
      ∧ Map.find (d.core c).l2 ln = some { x.stored dirty with st := .s }
      ∧ d.cap.msgs = r.2 ++ [{ kind := .ack, core := c, line := ln
                               data := if (x.stored dirty).st = .m then some (x.stored dirty).data else none }])
  ∧ (∀ s c ln dirty r x, s.live → c < 32 →
    s.dev.cap.msgs.any (fun m => m.core == c && m.line == ln && (match m.kind with | .data _ => true | _ => false)) = false →
    takeMsg (fun m => m.kind == .snpInv && m.core == c && m.line == ln) s.dev.cap.msgs = some r →
    Map.find (s.dev.core c).l2 ln = some x →
    Acts (.snpInv c ln dirty) s fun d => Dev.keeps [.cap] s.dev d ∧ Map.find (d.core c).l2 ln = none
      ∧ d.cap.msgs = r.2 ++ [{ kind := .ack, core := c, line := ln
                               data := if (x.stored dirty).st = .m then some (x.stored dirty).data else none }])
  ∧ (∀ s c ln dirty r e, s.live → c < 32 →
    s.dev.cap.msgs.any (fun m => m.core == c && m.line == ln && (match m.kind with | .data _ => true | _ => false)) = false →
    takeMsg (fun m => m.kind == .snpInv && m.core == c && m.line == ln) s.dev.cap.msgs = some r →
    Map.find (s.dev.core c).l2 ln = none →
    (s.dev.core c).evb.find? (fun e => e.line == ln && e.dirty.isSome && !e.taken) = some e →
    Acts (.snpInv c ln dirty) s fun d => d.cap.msgs = r.2 ++ [{ kind := .evicting, core := c, line := ln, data := e.dirty }]
      ∧ d.count (Reg.capCSnoopEvicting c) = s.dev.count (Reg.capCSnoopEvicting c) + 1)
  ∧ (∀ s c ln dirty r, s.live → c < 32 →
    s.dev.cap.msgs.any (fun m => m.core == c && m.line == ln && (match m.kind with | .data _ => true | _ => false)) = false →
    takeMsg (fun m => m.kind == .snpShared && m.core == c && m.line == ln) s.dev.cap.msgs = some r →
    Map.find (s.dev.core c).l2 ln = none → (s.dev.core c).evb = [] →
    Acts (.snpShared c ln dirty) s fun d => Dev.keeps [.cap] s.dev d
      ∧ d.cap.msgs = r.2 ++ [{ kind := .miss, core := c, line := ln, data := none }])
  ∧ (∀ s c ln k bs r t, s.live → s.memWf = true → c < 32 →
    takeMsg (fun m => m.kind == .ack && m.core == c && m.line == ln) s.dev.cap.msgs = some r → r.1.data = some bs → bs.length = 64 →
    Map.find s.dev.cap.txns ln = some t → t.req = .shared k → t.wait = [c] → t.queue = [] → t.held = none →
    s.dev.dirEnt ln = { owner := some c, sharers := [] } →
    Acts (.ack c ln) s fun d => d.dirEnt ln = { owner := none, sharers := [c, k] } ∧ Map.find d.cap.txns ln = none
      ∧ d.cap.msgs = r.2 ++ [{ kind := .data .s, core := k, line := ln, data := some bs }] ∧ d.l3Line ln = bs
      ∧ ∀ b, (b < 64 * ln ∨ 64 * ln + 64 ≤ b) → Memory.read d.mem.dram b = Memory.read s.dev.mem.dram b)
  ∧ (∀ s c ln k r t, s.live → c < 32 → takeMsg (fun m => m.kind == .ack && m.core == c && m.line == ln) s.dev.cap.msgs = some r →
    Map.find s.dev.cap.txns ln = some t → t.wait = [c] → t.queue = [] → t.data = none → t.held = none →
    t.req = .unique k →
    Acts (.ack c ln) s fun d => d.dirEnt ln = { owner := some k, sharers := [] } ∧ Map.find d.cap.txns ln = none ∧ d.mem = s.dev.mem
      ∧ d.cap.msgs = r.2 ++ [{ kind := .data .m, core := k, line := ln, data := some (r.1.data.getD (s.dev.l3Line ln)) }])
  ∧ (∀ s c ln k r t, s.live → c < 32 → takeMsg (fun m => m.kind == .ack && m.core == c && m.line == ln) s.dev.cap.msgs = some r →
    Map.find s.dev.cap.txns ln = some t → t.wait = [c] → t.queue = [] → t.data = none → t.held = none →
    t.req = .upgrade k → k ∉ (s.dev.dirEnt ln).sharers →
    Acts (.ack c ln) s fun d => d.dirEnt ln = { owner := some k, sharers := [] } ∧ d.mem = s.dev.mem
      ∧ d.cap.msgs = r.2 ++ [{ kind := .data .m, core := k, line := ln, data := some (r.1.data.getD (s.dev.l3Line ln)) }])
  ∧ (∀ s c ln r t, s.live → c < 32 → takeMsg (fun m => m.kind == .ack && m.core == c && m.line == ln) s.dev.cap.msgs = some r →
    Map.find s.dev.cap.txns ln = some t → t.wait.filter (· != c) ≠ [] →
    Acts (.ack c ln) s fun d => d.mem = s.dev.mem ∧ d.cap.msgs = r.2
      ∧ ∃ u, Map.find d.cap.txns ln = some u ∧ u.wait = t.wait.filter (· != c) ∧ u.req = t.req ∧ u.queue = t.queue)
  ∧ (∀ s c ln k r t, s.live → c < 32 → takeMsg (fun m => m.kind == .miss && m.core == c && m.line == ln) s.dev.cap.msgs = some r →
    Map.find s.dev.cap.txns ln = some t → t.wait = [c] → t.queue = [] → t.data = none → t.held = none → t.fromBuf = false →
    t.req = .shared k → s.dev.dirEnt ln = { owner := some c, sharers := [] } →
    Acts (.miss c ln) s fun d => d.dirEnt ln = { owner := some k, sharers := [] } ∧ Map.find d.cap.txns ln = none ∧ d.mem = s.dev.mem
      ∧ d.cap.msgs = r.2 ++ [{ kind := .data .e, core := k, line := ln, data := some (s.dev.l3Line ln) }])
  ∧ (∀ s c ln r t, s.live → c < 32 → takeMsg (fun m => m.kind == .miss && m.core == c && m.line == ln) s.dev.cap.msgs = some r →
    Map.find s.dev.cap.txns ln = some t → t.wait.filter (· != c) ≠ [] →
    Acts (.miss c ln) s fun d => d.mem = s.dev.mem ∧ d.cap.msgs = r.2
      ∧ ∃ u, Map.find d.cap.txns ln = some u ∧ u.wait = t.wait.filter (· != c) ∧ u.req = t.req ∧ u.queue = t.queue)
  ∧ (∀ s c ln k bs r t, s.live → c < 32 → takeMsg (fun m => m.kind == .evicting && m.core == c && m.line == ln) s.dev.cap.msgs = some r →
    Map.find s.dev.cap.txns ln = some t → t.wait = [c] → t.queue = [] → r.1.data = some bs → t.req = .unique k →
    Acts (.evicting c ln) s fun d => d.dirEnt ln = { owner := some k, sharers := [] } ∧ Map.find d.cap.txns ln = none ∧ d.mem = s.dev.mem
      ∧ d.cap.msgs = r.2 ++ { kind := .data .m, core := k, line := ln, data := some bs }
          :: (t.held.toList.map fun h => { kind := .evictAck 1, core := h, line := ln, data := none }))
  ∧ (∀ s c ln k bs r t, s.live → s.memWf = true → c < 32 → takeMsg (fun m => m.kind == .evicting && m.core == c && m.line == ln) s.dev.cap.msgs = some r →
    Map.find s.dev.cap.txns ln = some t → t.wait = [c] → t.queue = [] → r.1.data = some bs → bs.length = 64 →
    t.req = .shared k → s.dev.dirEnt ln = { owner := some c, sharers := [] } →
    Acts (.evicting c ln) s fun d => d.dirEnt ln = { owner := none, sharers := [k] } ∧ d.l3Line ln = bs
      ∧ (∀ b, (b < 64 * ln ∨ 64 * ln + 64 ≤ b) → Memory.read d.mem.dram b = Memory.read s.dev.mem.dram b)
      ∧ d.cap.msgs = r.2 ++ { kind := .data .s, core := k, line := ln, data := some bs }
          :: (t.held.toList.map fun h => { kind := .evictAck 1, core := h, line := ln, data := none }))
  ∧ (∀ s c ln a mask new bs r t, s.live → s.memWf = true → c < 32 → takeMsg (fun m => m.kind == .evicting && m.core == c && m.line == ln) s.dev.cap.msgs = some r →
    Map.find s.dev.cap.txns ln = some t → t.wait = [c] → t.queue = [] → r.1.data = some bs →
    t.req = .ioWrite a mask new →
    Acts (.evicting c ln) s fun d => d.dirEnt ln = {} ∧ d.l3Line ln = maskLine mask new bs
      ∧ (∀ b, (b < 64 * ln ∨ 64 * ln + 64 ≤ b) → Memory.read d.mem.dram b = Memory.read s.dev.mem.dram b)
      ∧ d.out = s.dev.out ++ [⟨.ioReply, [a, ln, 1, stDone], []⟩])
  ∧ (∀ s c ln r t, s.live → c < 32 → takeMsg (fun m => m.kind == .evicting && m.core == c && m.line == ln) s.dev.cap.msgs = some r →
    Map.find s.dev.cap.txns ln = some t → t.wait.filter (· != c) ≠ [] →
    Acts (.evicting c ln) s fun d => d.mem = s.dev.mem ∧ d.cap.msgs = r.2
      ∧ ∃ u, Map.find d.cap.txns ln = some u ∧ u.wait = t.wait.filter (· != c) ∧ u.req = t.req ∧ u.queue = t.queue)
  ∧ (∀ s c ln r st, s.live → c < 32 →
    takeMsg (fun m => (match m.kind with | .data _ => true | _ => false) && m.core == c && m.line == ln) s.dev.cap.msgs = some r →
    r.1.kind = .data st →
    Acts (.data c ln) s fun d => Dev.keeps [.cap] s.dev d ∧ d.cap.msgs = r.2
      ∧ Map.find (d.core c).l2 ln = some { st, data := r.1.data.getD (((Map.find (s.dev.core c).l2 ln).map (·.data)).getD
          (s.dev.l3Line ln)) })
  ∧ (∀ s c ln r, s.live → c < 32 →
    takeMsg (fun m => (match m.kind with | .evictAck _ => true | _ => false) && m.core == c && m.line == ln) s.dev.cap.msgs = some r →
    Acts (.evictAck c ln) s fun d => Dev.keeps [.cap] s.dev d ∧ d.cap.msgs = r.2
      ∧ (d.core c).evb = (s.dev.core c).evb.filter fun e => e.line != ln)
  ∧ (∀ s c ln e bs, s.live → s.memWf = true → c < 32 → s.dev.evicted c ln true = some e → e.dirty = some bs → bs.length = 64 →
    e.taken = false → Map.find s.dev.cap.txns ln = none →
    Acts (.evictDirty c ln) s fun d => d.l3Line ln = bs
      ∧ (∀ b, (b < 64 * ln ∨ 64 * ln + 64 ≤ b) → Memory.read d.mem.dram b = Memory.read s.dev.mem.dram b)
      ∧ d.mem.flat = s.dev.mem.flat ∧ d.dirEnt ln = (s.dev.dirEnt ln).drop c
      ∧ d.cap.msgs = s.dev.cap.msgs ++ [{ kind := .evictAck 0, core := c, line := ln, data := none }])
  ∧ (∀ s c ln e, s.live → c < 32 → s.dev.evicted c ln true = some e → e.taken = true → Map.find s.dev.cap.txns ln = none →
    Acts (.evictDirty c ln) s fun d => d.mem = s.dev.mem
      ∧ d.cap.msgs = s.dev.cap.msgs ++ [{ kind := .evictAck 1, core := c, line := ln, data := none }])
  ∧ (∀ s c ln e t, s.live → c < 32 → s.dev.evicted c ln true = some e → Map.find s.dev.cap.txns ln = some t → c ∈ t.wait →
    Acts (.evictDirty c ln) s fun d => d.mem = s.dev.mem ∧ d.cap.msgs = s.dev.cap.msgs
      ∧ Map.find d.cap.txns ln = some { t with held := some c })
  ∧ (∀ s c ln e, s.live → c < 32 → s.dev.evicted c ln false = some e → Map.find s.dev.cap.txns ln = none →
    c ∈ (s.dev.dirEnt ln).holders →
    Acts (.evictClean c ln) s fun d => Dev.keeps [.cap] s.dev d ∧ d.dirEnt ln = (s.dev.dirEnt ln).drop c
      ∧ d.cap.msgs = s.dev.cap.msgs ++ [{ kind := .evictAck 0, core := c, line := ln, data := none }])
  ∧ ∀ s c ln e, s.live → c < 32 → s.dev.evicted c ln false = some e → c ∉ (s.dev.dirEnt ln).holders →
    Acts (.evictClean c ln) s fun d => d.mem = s.dev.mem ∧ d.dirEnt ln = s.dev.dirEnt ln
      ∧ d.cap.msgs = s.dev.cap.msgs ++ [{ kind := .evictAck 2, core := c, line := ln, data := none }]
      ∧ d.count (Reg.capCCleanCross c) = s.dev.count (Reg.capCCleanCross c) + 1

/-- DRAM requests (R515, R518 to R526, R529, R530, R532): an accepted request is debited and waits in its channel's queue, a write to a
line that waits is merged, one that finds its queue full waits in its port; nothing is accepted before READY; the map to channels is
one-to-one; a read answers its line, a corrected one is written back, an uncorrectable one stays poisoned and acts on its requester
(Table 18.6); the oldest write leaves when it has waited 8,192 dclk and stores the bytes its mask names and no other byte; a refresh
closes its rank's rows or is postponed; the eighth replay of a turn leaves the channel FAILED; a kept row closes. How many writes go
in slots in which no read can issue is a free value (log 71). -/
def Obligations.DramRequestEvents : Prop :=
  (∀ s port write a mask line keep user item, s.live → port < 5 → mask < 2 ^ 64 → line.length ≤ 64 →
    (s.dev.dmc.ready = false ∨ s.dev.dmc.capacity ≤ a / 64 * 64) →
    Acts (.dramRequestAccept ⟨port, user, item⟩ write a mask line keep) s fun d => d = s.dev)
  ∧ (∀ s port a mask line keep user item, s.live → port < 5 → mask < 2 ^ 64 → line.length ≤ 64 → s.dev.dmc.ready = true →
    a / 64 * 64 < s.dev.dmc.capacity → (s.dev.chan (dramChannel s.dev.dmc.k (a / 64 * 64))).reads.length < 64 →
    ((s.dev.chan (dramChannel s.dev.dmc.k (a / 64 * 64))).reads ≠ [] ∨ (s.dev.chan (dramChannel s.dev.dmc.k (a / 64 * 64))).writes = []) →
    Acts (.dramRequestAccept ⟨port, user, item⟩ false a mask line keep) s fun d => Dev.keeps [.dmc, .ctr] s.dev d
      ∧ (∃ r : DReq, (d.chan (dramChannel s.dev.dmc.k (a / 64 * 64))).reads
            = (s.dev.chan (dramChannel s.dev.dmc.k (a / 64 * 64))).reads ++ [r]
          ∧ r.a = a / 64 * 64 ∧ r.port = port ∧ r.write = false ∧ r.id = s.dev.dmc.nextReq ∧ r.at' = s.dev.pclk ∧ r.keep = keep
          ∧ r.user = user ∧ r.item = item)
      ∧ d.dmc.nextReq = s.dev.dmc.nextReq + 1
      ∧ (Map.getD d.dmc.levels port {}).level = (Map.getD s.dev.dmc.levels port {}).level - 64)
  ∧ (∀ s port a mask line keep user item, s.live → port < 5 → mask < 2 ^ 64 → line.length ≤ 64 → s.dev.dmc.ready = true →
    a / 64 * 64 < s.dev.dmc.capacity → (s.dev.chan (dramChannel s.dev.dmc.k (a / 64 * 64))).reads = [] → s.dev.dmc.waiting = [] →
    Acts (.dramRequestAccept ⟨port, user, item⟩ false a mask line keep) s fun d =>
      (∃ r : DReq, (d.chan (dramChannel s.dev.dmc.k (a / 64 * 64))).reads = [r] ∧ r.a = a / 64 * 64 ∧ r.port = port)
      ∧ d.mem.flat = s.dev.mem.flat ∧ d.mem.scratch = s.dev.mem.scratch
      ∧ ∀ b, (∀ w ∈ (s.dev.chan (dramChannel s.dev.dmc.k (a / 64 * 64))).writes, b < w.a ∨ w.a + 64 ≤ b) →
        Memory.read d.mem.dram b = Memory.read s.dev.mem.dram b)
  ∧ (∀ s port a mask line keep user item, s.live → port < 5 → mask < 2 ^ 64 → line.length ≤ 64 → s.dev.dmc.ready = true →
    a / 64 * 64 < s.dev.dmc.capacity → 64 ≤ (s.dev.chan (dramChannel s.dev.dmc.k (a / 64 * 64))).reads.length →
    Acts (.dramRequestAccept ⟨port, user, item⟩ false a mask line keep) s fun d => d.dmc.chans = s.dev.dmc.chans ∧ d.mem = s.dev.mem
      ∧ (∃ r : DReq, d.dmc.waiting = s.dev.dmc.waiting ++ [r] ∧ r.a = a / 64 * 64 ∧ r.port = port ∧ r.id = s.dev.dmc.nextReq)
      ∧ d.count (Reg.dmcCQfull (dramChannel s.dev.dmc.k (a / 64 * 64))) = s.dev.count (Reg.dmcCQfull (dramChannel s.dev.dmc.k (a / 64 * 64))) + 1)
  ∧ (∀ s port a mask line keep user item w, s.live → port < 5 → mask < 2 ^ 64 → line.length ≤ 64 → s.dev.dmc.ready = true →
    a / 64 * 64 < s.dev.dmc.capacity → (s.dev.chan (dramChannel s.dev.dmc.k (a / 64 * 64))).st ≠ 3 →
    (s.dev.chan (dramChannel s.dev.dmc.k (a / 64 * 64))).reads ≠ [] → (s.dev.chan (dramChannel s.dev.dmc.k (a / 64 * 64))).writes = [w] → w.a = a / 64 * 64 →
    Acts (.dramRequestAccept ⟨port, user, item⟩ true a mask line keep) s fun d => d.mem = s.dev.mem
      ∧ (d.chan (dramChannel s.dev.dmc.k (a / 64 * 64))).writes = [{ w with
            mask := w.mask ||| mask
            data := (List.range 64).map fun i => if bit mask i then (padTo 64 line).getD i 0 else w.data.getD i 0 }])
  ∧ (∀ s port a mask line keep user item, s.live → port < 5 → mask < 2 ^ 64 → line.length ≤ 64 → s.dev.dmc.ready = true →
    a / 64 * 64 < s.dev.dmc.capacity → (s.dev.chan (dramChannel s.dev.dmc.k (a / 64 * 64))).st = 3 →
    Acts (.dramRequestAccept ⟨port, user, item⟩ true a mask line keep) s fun d => d.mem = s.dev.mem ∧ d.dmc.chans = s.dev.dmc.chans
      ∧ d.count (Reg.dmcCUe (dramChannel s.dev.dmc.k (a / 64 * 64)))
          = s.dev.count (Reg.dmcCUe (dramChannel s.dev.dmc.k (a / 64 * 64))) + 1)
  ∧ (∀ k a, dramChannel k a < 12 ∧ dramOffset k (dramChannel k a) (dramAddress k a) = a)
  ∧ (∀ k ch c, ch < 12 → dramChannel k (dramOffset k ch c) = ch ∧ dramAddress k (dramOffset k ch c) = c)
  ∧ (∀ s ch dev r, s.live → ch < 12 → dev < 32 → s.dev.chanHeld ch = false → (s.dev.chan ch).st = 2 → (s.dev.chan ch).reads = [r] →
    r.write = false → (s.dev.chan ch).writes = [] → (s.dev.chan ch).order = [] → (s.dev.chan ch).drain = false →
    s.dev.dmc.waiting = [] → poisonKey ch r.c ∉ s.dev.dmc.poison →
    Acts (.dramReadReturn ch 0 dev false) s fun d => d.mem = s.dev.mem ∧ (d.chan ch).reads = []
      ∧ d.out = s.dev.out ++ [⟨.dramCommand, [r.port, r.a, 0], Memory.readBytes s.dev.mem.dram r.a 64⟩])
  ∧ (∀ s ch dev r, s.live → ch < 12 → dev < 32 → s.dev.chanHeld ch = false → (s.dev.chan ch).st = 2 → (s.dev.chan ch).reads = [r] →
    r.write = false → (s.dev.chan ch).writes = [] → (s.dev.chan ch).order = [] → (s.dev.chan ch).drain = false →
    s.dev.dmc.waiting = [] → poisonKey ch r.c ∉ s.dev.dmc.poison →
    Acts (.dramReadReturn ch 1 dev false) s fun d => d.mem = s.dev.mem ∧ (d.chan ch).reads = []
      ∧ d.out = s.dev.out ++ [⟨.dramCommand, [r.port, r.a, 0], Memory.readBytes s.dev.mem.dram r.a 64⟩]
      ∧ d.count (Reg.dmcCCe ch) = s.dev.count (Reg.dmcCCe ch) + 1
      ∧ d.dmc.ceLast = BitVec.ofNat 64 (r.c % 2 ^ 40 + ch * 2 ^ 40 + dev * 2 ^ 44)
      ∧ ∃ w : DReq, (d.chan ch).writes = [w] ∧ w.write = true ∧ w.mask = fullMask ∧ w.c = r.c / 64 * 64
          ∧ w.a = dramOffset s.dev.dmc.k ch (r.c / 64 * 64) ∧ w.data = Memory.readBytes s.dev.mem.dram w.a 64)
  ∧ (∀ s ch dev r, s.live → ch < 12 → dev < 32 → s.dev.chanHeld ch = false → (s.dev.chan ch).st = 2 → (s.dev.chan ch).reads = [r] →
    r.write = false → (s.dev.chan ch).writes = [] → (s.dev.chan ch).order = [] → (s.dev.chan ch).drain = false →
    s.dev.dmc.waiting = [] → r.port = 0 →
    Acts (.dramReadReturn ch 2 dev false) s fun d => d.mem = s.dev.mem ∧ poisonKey ch r.c ∈ d.dmc.poison
      ∧ d.out = s.dev.out ++ [⟨.dramCommand, [r.port, r.a, 1], Memory.readBytes s.dev.mem.dram r.a 64⟩]
      ∧ d.count (Reg.dmcCUe ch) = s.dev.count (Reg.dmcCUe ch) + 1
      ∧ d.dmc.ueLast = BitVec.ofNat 64 (r.c % 2 ^ 40 + ch * 2 ^ 40))
  ∧ (∀ s ch dev r, s.live → ch < 12 → dev < 32 → s.dev.chanHeld ch = false → (s.dev.chan ch).st = 2 → (s.dev.chan ch).reads = [r] →
    r.write = false → (s.dev.chan ch).writes = [] → (s.dev.chan ch).order = [] → (s.dev.chan ch).drain = false →
    s.dev.dmc.waiting = [] → r.port = 1 →
    Acts (.dramReadReturn ch 2 dev false) s fun d => d.mem = s.dev.mem ∧ poisonKey ch r.c ∉ d.dmc.poison
      ∧ d.count Reg.tblShadowErr = s.dev.count Reg.tblShadowErr + 1)
  ∧ (∀ s ch dev r, s.live → ch < 12 → dev < 32 → s.dev.chanHeld ch = false → (s.dev.chan ch).st = 2 → (s.dev.chan ch).reads = [r] →
    r.write = false → (s.dev.chan ch).writes = [] → (s.dev.chan ch).order = [] → (s.dev.chan ch).drain = false →
    s.dev.dmc.waiting = [] → r.port = 2 → (s.dev.conn r.user).st = .active →
    Acts (.dramReadReturn ch 2 dev false) s fun d => (d.conn r.user).st = .error)
  ∧ (∀ s ch dev r, s.live → ch < 12 → dev < 32 → s.dev.chanHeld ch = false → (s.dev.chan ch).st = 2 → (s.dev.chan ch).reads = [r] →
    r.write = false → (s.dev.chan ch).writes = [] → (s.dev.chan ch).order = [] → (s.dev.chan ch).drain = false →
    s.dev.dmc.waiting = [] → r.port = 4 →
    Acts (.dramReadReturn ch 2 dev false) s (fun d => d.spl = s.dev.spl ∧ poisonKey ch r.c ∈ d.dmc.poison)
      ∧ Acts (.dramReadReturn ch 2 dev true) s fun d => d.spl.ring = s.dev.spl.ring.modify r.user (fun x => { x with lost := true })
          ∧ d.count Reg.dmcSpliceLost = s.dev.count Reg.dmcSpliceLost + 1)
  ∧ (∀ s ch w, s.live → s.memWf = true → ch < 12 → s.dev.chanHeld ch = false → (s.dev.chan ch).st = 2 →
    (s.dev.chan ch).writes = [w] → w.write = true → (s.dev.chan ch).order = [] → s.dev.dmc.waiting = [] →
    Acts (.oldestWriteWaitExpiry ch) s fun d => (d.chan ch).writes = [] ∧ s.dev.pclk ≤ d.pclk ∧ w.at' + 12288 ≤ d.pclk
      ∧ (∀ i < 64, Memory.read d.mem.dram (w.a + i) = if bit w.mask i then w.data.getD i 0 else Memory.read s.dev.mem.dram (w.a + i))
      ∧ (∀ b, (b < w.a ∨ w.a + 64 ≤ b) → Memory.read d.mem.dram b = Memory.read s.dev.mem.dram b)
      ∧ d.mem.flat = s.dev.mem.flat ∧ d.mem.scratch = s.dev.mem.scratch)
  ∧ (∀ s ch rank, s.live → ch < 12 → rank < 4 → s.dev.chanHeld ch = true → Unmoved (.dramRefresh ch rank) s)
  ∧ (∀ s ch rank, s.live → ch < 12 → rank < 4 → (s.dev.chan ch).st = 2 → s.dev.chanHeld ch = false →
    ((∀ r ∈ (s.dev.chan ch).reads, bankRank (s.dev.dmc.bank r.c) ≠ rank) ∨ 4 ≤ Map.getD (s.dev.chan ch).late rank 0) →
    Acts (.dramRefresh ch rank) s fun d => Dev.keeps [.dmc] s.dev d
      ∧ (d.chan ch).rows = (s.dev.chan ch).rows.filter (fun e => bankRank e.1 != rank) ∧ Map.find (d.chan ch).late rank = none)
  ∧ (∀ s ch rank r, s.live → ch < 12 → rank < 4 → (s.dev.chan ch).st = 2 → s.dev.chanHeld ch = false → r ∈ (s.dev.chan ch).reads →
    bankRank (s.dev.dmc.bank r.c) = rank → Map.getD (s.dev.chan ch).late rank 0 < 4 →
    Acts (.dramRefresh ch rank) s fun d => (d.chan ch).rows = (s.dev.chan ch).rows
      ∧ Map.find (d.chan ch).late rank = some (Map.getD (s.dev.chan ch).late rank 0 + 1)
      ∧ d.count (Reg.dmcCRefPostpone ch) = s.dev.count (Reg.dmcCRefPostpone ch) + 1)
  ∧ (∀ s ch, s.live → ch < 12 → (s.dev.chan ch).st = 2 → ((s.dev.chan ch).replays.1 ≠ s.dev.turn ∨ (s.dev.chan ch).replays.2 < 7) →
    Acts (.dramParityAlert ch) s fun d => (d.chan ch).rows = [] ∧ (d.chan ch).st = 2
      ∧ (d.chan ch).replays = (s.dev.turn, if (s.dev.chan ch).replays.1 = s.dev.turn then (s.dev.chan ch).replays.2 + 1 else 1)
      ∧ (d.chan ch).writes = (s.dev.chan ch).writes)
  ∧ (∀ s ch, s.live → ch < 12 → (s.dev.chan ch).st = 2 → (s.dev.chan ch).replays.1 = s.dev.turn → 7 ≤ (s.dev.chan ch).replays.2 →
    Acts (.dramParityAlert ch) s fun d => (d.chan ch).st = 3 ∧ (d.chan ch).writes = [] ∧ d.dmc.reason = 4 ∧ d.mem = s.dev.mem)
  ∧ ∀ s ch bank w, s.live → ch < 12 → Map.find (s.dev.chan ch).rows bank = some w → w.keep = true →
    Acts (.rowIdleClose ch bank) s fun d => Map.find (d.chan ch).rows bank = none ∧ d.mem = s.dev.mem
      ∧ ∀ c, c ≠ ch → d.chan c = s.dev.chan c

/-- DRAM training (R513, R517, R537 to R539): a step that passes leads to the next, one that fails is tried three times more and then
leaves the channel FAILED and DRAM not READY for the boot; the first population found is the device's, and another fails; a record
whose rate the population does not allow (log 71) or one of whose masks is invalid fails with CONFIG; READY zeroes every line. -/
def Obligations.DramTrainingEvents : Prop :=
  (∀ s ch spd, s.live → ch < 12 → s.dev.dmc.training = true → (s.dev.chan ch).st = 1 → 2 ≤ (s.dev.chan ch).step →
    (s.dev.chan ch).step < 8 →
    Acts (.dramTrainingStep ch true spd) s fun d => d.chan ch = { s.dev.chan ch with step := (s.dev.chan ch).step + 1, tries := 0 }
      ∧ Dev.keeps [.dmc] s.dev d ∧ ∀ c, c ≠ ch → d.chan c = s.dev.chan c)
  ∧ (∀ s ch spd, s.live → ch < 12 → s.dev.dmc.training = true → (s.dev.chan ch).st = 1 → 8 ≤ (s.dev.chan ch).step →
    Acts (.dramTrainingStep ch true spd) s fun d => d.chan ch = { s.dev.chan ch with st := 2, step := 0, tries := 0 })
  ∧ (∀ s ch spd, s.live → ch < 12 → s.dev.dmc.training = true → (s.dev.chan ch).st = 1 → (s.dev.chan ch).tries < 3 →
    Acts (.dramTrainingStep ch false spd) s fun d => d.chan ch = { s.dev.chan ch with tries := (s.dev.chan ch).tries + 1 })
  ∧ (∀ s ch spd, s.live → ch < 12 → s.dev.dmc.training = true → (s.dev.chan ch).st = 1 → 3 ≤ (s.dev.chan ch).tries →
    Acts (.dramTrainingStep ch false spd) s fun d => (d.chan ch).st = 3 ∧ (d.chan ch).bad = (s.dev.chan ch).step
      ∧ d.dmc.training = (d.dmc.chans.any fun c => c.2.st == 1) ∧ d.dmc.ready = s.dev.dmc.ready
      ∧ d.dmc.reason = if s.dev.dmc.reason = 0 then 3 else s.dev.dmc.reason)
  ∧ (∀ s ch (p : Spd), s.live → ch < 12 → s.dev.dmc.training = true → (s.dev.chan ch).st = 1 → (s.dev.chan ch).step = 1 →
    s.dev.dmc.dimms = 0 → s.dev.dmc.rate = 0 → spdOk p = true →
    (List.range 5).all (fun i => maskOk (if 2 ^ Nat.log2 (p.gib * 2 ^ 30) = p.gib * 2 ^ 30 then Nat.log2 (p.gib * 2 ^ 30)
      else Nat.log2 (p.gib * 2 ^ 30) + 1) i (s.dev.dmc.masks.getD i 0)) = true →
    Acts (.dramTrainingStep ch true (some p)) s fun d => d.dmc.capacity = 12 * (p.gib * 2 ^ 30) ∧ d.dmc.rate = spdTop p
      ∧ d.dmc.dimms = p.dimms ∧ (d.chan ch).step = 2 ∧ (d.chan ch).st = 1)
  ∧ (∀ s ch (p : Spd), s.live → ch < 12 → s.dev.dmc.training = true → (s.dev.chan ch).st = 1 → (s.dev.chan ch).step = 1 →
    s.dev.dmc.dimms ≠ 0 → p.dimms ≠ s.dev.dmc.dimms →
    Acts (.dramTrainingStep ch true (some p)) s fun d => (d.chan ch).st = 3 ∧ (d.chan ch).bad = 1 ∧ d.dmc.ready = s.dev.dmc.ready
      ∧ d.dmc.training = (d.dmc.chans.any fun c => c.2.st == 1) ∧ d.dmc.reason = if s.dev.dmc.reason = 0 then 1 else s.dev.dmc.reason)
  ∧ (∀ s ch (p : Spd), s.live → ch < 12 → s.dev.dmc.training = true → (s.dev.chan ch).st = 1 → (s.dev.chan ch).step = 1 →
    s.dev.dmc.dimms = 0 → spdOk p = true → s.dev.dmc.rate ≠ 0 → spdTop p < s.dev.dmc.rate →
    Acts (.dramTrainingStep ch true (some p)) s fun d => (d.chan ch).st = 3 ∧ (d.chan ch).bad = 1
      ∧ d.dmc.reason = if s.dev.dmc.reason = 0 then 2 else s.dev.dmc.reason)
  ∧ (∀ s ch (p : Spd) i, s.live → ch < 12 → s.dev.dmc.training = true → (s.dev.chan ch).st = 1 → (s.dev.chan ch).step = 1 →
    s.dev.dmc.dimms = 0 → spdOk p = true → i < 5 → bit (s.dev.dmc.masks.getD i 0) (14 + i) = false →
    Acts (.dramTrainingStep ch true (some p)) s fun d => (d.chan ch).st = 3 ∧ (d.chan ch).bad = 1
      ∧ d.dmc.reason = if s.dev.dmc.reason = 0 then 2 else s.dev.dmc.reason)
  ∧ (∀ s temp, s.live → s.dev.dmc.training = true → (∀ c < 12, (s.dev.chan c).st = 2) →
    Acts (.dramReady temp) s fun d => d.dmc.ready = true ∧ d.dmc.training = false ∧ (∀ a, Memory.read d.mem.dram a = 0)
      ∧ d.mem.flat = s.dev.mem.flat ∧ d.cal.guard = List.range 12
      ∧ ∀ c < 12, Map.find d.cal.dram c = some { temp, bin := 0, prov := true, turn := s.dev.turn })
  ∧ ∀ s temp c, s.live → c < 12 → (s.dev.chan c).st ≠ 2 → Acts (.dramReady temp) s fun d => d = s.dev

/-- The sheath mailbox, the settings journal and flash (R580, R584 to R590): a request by a core is answered GATED while the gates are
closed; a read writes the records in force at the address; an append takes the next sequence; a compaction keeps the records in
force; a commit makes the running digest the committed one and blows the rollback fuses; a selection is taken for the next boot; a
flash write changes the bytes of its area and no other. -/
def Obligations.SettingsAndFlash : Prop :=
  (∀ s c addr, s.coreRuns c → addr < 2 ^ 64 → s.dev.boot.setBusy = false → s.dev.boot.gated = true →
    CoreDoes (.setRead c addr) s c (fun d => d.setDoneWith stGated 0 0)
      ∧ CoreDoes (.setAppend c addr) s c fun d => d.setDoneWith stGated 0 0)
  ∧ (∀ s c addr, s.coreRuns c → addr < 2 ^ 64 → s.dev.boot.setBusy = true →
    CoreDoes (.setRead c addr) s c (fun d => d) ∧ CoreDoes (.setAppend c addr) s c fun d => d)
  ∧ (∀ s c addr, s.coreRuns c → addr < 2 ^ 64 → s.dev.boot.setBusy = false → s.dev.boot.gated = false → addr % 8 = 0 →
    s.dev.boot.jnl.fits capType s.dev.boot.cap = true →
    CoreActs (.setRead c addr) s c 1 fun d => d.boot.setDone = true ∧ d.boot.jnl = s.dev.boot.jnl
      ∧ d.boot.setResult = (stDone, s.dev.boot.jnl.allInForce.length,
          (s.dev.boot.jnl.allInForce.map SetRec.bytes).flatten.length)
      ∧ ∀ a, (∀ i < (s.dev.boot.jnl.allInForce.map SetRec.bytes).flatten.length,
            s.dev.physOff (addr + i) ≠ s.dev.physOff a) → d.physByte a = s.dev.physByte a)
  ∧ (∀ s c addr, s.coreRuns c → addr < 2 ^ 64 → s.dev.boot.setBusy = false → s.dev.boot.gated = false → addr % 8 = 0 →
    s.dev.boot.jnl.fits capType s.dev.boot.cap = false → s.dev.boot.capTrial = false →
    CoreDoes (.setRead c addr) s c fun d => d.setDoneWith stIncompatible 0 0)
  ∧ (∀ s c addr, s.coreRuns c → addr < 2 ^ 64 → s.dev.boot.setBusy = false → s.dev.boot.gated = false → addr % 8 = 0 →
    s.dev.boot.jnl.fits capType s.dev.boot.cap = false → s.dev.boot.capTrial = true →
    ∃ t, exec (.setRead c addr) s = .next t ∧ t.pending = s.pending ∧ t.dev.boot.st = .scrub ∧ t.dev.boot.reason = 1)
  ∧ (∀ s c addr, s.coreRuns c → addr < 2 ^ 64 → s.dev.boot.setBusy = false → s.dev.boot.gated = false → s.dev.boot.capTrial = false →
    s.dev.boot.shTrial = false → (sheathType (recOf (s.dev.physRead addr (16 + field (s.dev.physRead addr 16) 4 2))).kind = true
      ∨ capType (recOf (s.dev.physRead addr (16 + field (s.dev.physRead addr 16) 4 2))).kind = true) →
    field (s.dev.physRead addr 16) 4 2 ≤ 4080 →
    s.dev.boot.jnl.room (recOf (s.dev.physRead addr (16 + field (s.dev.physRead addr 16) 4 2))).size = true →
    CoreActs (.setAppend c addr) s c 1 fun d => Dev.keeps [.boot, .ctr] s.dev d ∧ d.boot.jnl.next = s.dev.boot.jnl.next + 1
      ∧ d.boot.jnl.recs = s.dev.boot.jnl.recs ++ [{ recOf (s.dev.physRead addr (16 + field (s.dev.physRead addr 16) 4 2)) with
            seq := s.dev.boot.jnl.next }]
      ∧ d.boot.setResult = (stDone, 1, (recOf (s.dev.physRead addr (16 + field (s.dev.physRead addr 16) 4 2))).size))
  ∧ (∀ s c addr, s.coreRuns c → addr < 2 ^ 64 → s.dev.boot.setBusy = false → s.dev.boot.gated = false →
    (s.dev.boot.capTrial = true ∨ s.dev.boot.shTrial = true) →
    CoreDoes (.setAppend c addr) s c fun d => d.setDoneWith stAccessErr 0 0)
  ∧ (∀ s c addr, s.coreRuns c → addr < 2 ^ 64 → s.dev.boot.setBusy = false → s.dev.boot.gated = false → s.dev.boot.capTrial = false →
    s.dev.boot.shTrial = false → (sheathType (recOf (s.dev.physRead addr (16 + field (s.dev.physRead addr 16) 4 2))).kind = true
      ∨ capType (recOf (s.dev.physRead addr (16 + field (s.dev.physRead addr 16) 4 2))).kind = true) →
    field (s.dev.physRead addr 16) 4 2 ≤ 4080 →
    s.dev.boot.jnl.room (recOf (s.dev.physRead addr (16 + field (s.dev.physRead addr 16) 4 2))).size = false →
    CoreActs (.setAppend c addr) s c 1 fun d => d.boot.jnl = s.dev.boot.jnl ∧ d.boot.setBusy = true
      ∧ d.boot.jnlHold = some (recOf (s.dev.physRead addr (16 + field (s.dev.physRead addr 16) 4 2))).bytes)
  ∧ (∀ s h, s.activity 0x41 0 h → s.dev.boot.capTrial = false → s.dev.boot.shTrial = false → s.dev.boot.jnlHold = none →
    Acts .journalCompact s fun d => d.boot.jnl = s.dev.boot.jnl.compact ∧ d.boot.jnl.gen = s.dev.boot.jnl.gen + 1
      ∧ d.boot.jnl.recs = s.dev.boot.jnl.allInForce ∧ d.cal.holds = (s.dev.withRun h 0 0).cal.holds)
  ∧ (∀ s h bs, s.activity 0x41 0 h → s.dev.boot.capTrial = false → s.dev.boot.shTrial = false → s.dev.boot.jnlHold = some bs →
    s.dev.boot.jnl.compact.room (recOf bs).size = true →
    Acts .journalCompact s fun d => d.boot.jnl = s.dev.boot.jnl.compact.append (recOf bs) ∧ d.boot.jnlHold = none
      ∧ d.boot.setBusy = false ∧ d.boot.setResult = (stDone, 1, (recOf bs).size))
  ∧ (∀ s c, s.coreRuns c → s.dev.boot.gated = false → s.dev.boot.capTrial = true → s.dev.boot.setDone = true →
    CoreActs (.bootCommit c) s c 1 fun d => d.boot.dir.committed = s.dev.boot.digest ∧ d.boot.dir.trial = none ∧ d.boot.capTrial = false
      ∧ d.boot.result = stDone ∧ (∀ r ∈ d.boot.dir.rejected, r.digest ≠ s.dev.boot.digest)
      ∧ d.she.fuses = { s.dev.she.fuses with rollCap := max s.dev.she.fuses.rollCap s.dev.boot.cap.roll })
  ∧ (∀ s c, s.coreRuns c → s.dev.boot.gated = false → s.dev.boot.capTrial = false →
    CoreDoes (.bootCommit c) s c fun d => d.bootResult stNotFound)
  ∧ (∀ s c, s.coreRuns c → s.dev.boot.gated = false → s.dev.boot.capTrial = true → s.dev.boot.setDone = false →
    CoreDoes (.bootCommit c) s c fun d => d.bootResult stNotReady)
  ∧ (∀ s c v, s.coreRuns c → v < 2 ^ 64 → s.dev.boot.gated = true →
    CoreDoes (.bootCommit c) s c (fun d => d.bootResult stGated) ∧ CoreDoes (.bootSelect c v) s c fun d => d.bootResult stGated)
  ∧ (∀ s c v, s.coreRuns c → s.dev.boot.gated = false → s.dev.boot.capTrial = false → s.dev.boot.shTrial = false → v < 2 →
    (Map.getD s.dev.boot.dir.slots v {}).count < 3 →
    CoreDoes (.bootSelect c v) s c fun d => d.onBoot fun b => { b with selected := some v, result := stDone })
  ∧ (∀ s c v, s.coreRuns c → v < 2 ^ 64 → s.dev.boot.gated = false →
    (s.dev.boot.capTrial = true ∨ s.dev.boot.shTrial = true ∨ 2 ≤ v ∨ 3 ≤ (Map.getD s.dev.boot.dir.slots v {}).count) →
    CoreDoes (.bootSelect c v) s c fun d => d.bootResult stBadOperand)
  ∧ ∀ s area h, s.activity 0x40 area h → s.memWf = true → area < 16 → s.dev.boot.areaOk area = true →
    Acts (.flashWrite area) s fun d =>
      (∀ k < areaSize area, Memory.read d.boot.flash (areaBase area + k)
          = if k < s.dev.boot.flLen then s.dev.physByte (s.dev.boot.flSrc + k) else 0)
      ∧ (∀ b, (b < areaBase area ∨ areaBase area + areaSize area ≤ b) → Memory.read d.boot.flash b = Memory.read s.dev.boot.flash b)
      ∧ d.mem = s.dev.mem ∧ d.she = s.dev.she ∧ (area ≤ 4 → Map.find d.boot.dir.slots ((area - 1) % 2) = none)

/-- Lookaside data descriptors (R557 to R559, Table 19.8): the checks of R559 in order name the status; one that passes goes to the
engine with the least queued work and writes nothing before its release: GCM its ciphertext and the tag behind it, or the plaintext
with AUTH_FAIL where the tag differs; XTS and CTR as many bytes as they read. -/
def Obligations.LookasideDescriptors : Prop :=
  (∀ (d : Dev) slice named target rng, d.cryCheck slice false named target rng = stBadOperand)
  ∧ (∀ (d : Dev) slice named target rng n u k, (n, u) ∈ named → Map.find d.she.slots n = some k → u ≠ 0 → k.usage ≠ u →
    d.cryCheck slice true named target rng = stBadOperand)
  ∧ (∀ (d : Dev) slice named target rng, d.usagesOk named →
    ((∃ e ∈ named, ¬ d.ownsSlot slice e.1) ∨ ∃ n, target = some n ∧ ¬ d.ownsSlot slice n) →
    d.cryCheck slice true named target rng = stAccessErr)
  ∧ (∀ (d : Dev) slice named target rng, d.usagesOk named → d.slotsMine slice named target →
    (∃ e ∈ named, Map.find d.she.slots e.1 = none) → d.cryCheck slice true named target rng = stNotFound)
  ∧ (∀ (d : Dev) slice named n rng, d.usagesOk named → d.slotsMine slice named (some n) →
    (∀ e ∈ named, Map.find d.she.slots e.1 ≠ none) → (Map.find d.she.slots n ≠ none ∨ d.she.installing n = true) →
    d.cryCheck slice true named (some n) rng = stFull)
  ∧ (∀ (d : Dev) slice named target rng, d.usagesOk named → d.slotsMine slice named target →
    (∀ e ∈ named, Map.find d.she.slots e.1 ≠ none) →
    (∀ n, target = some n → Map.find d.she.slots n = none ∧ d.she.installing n = false) →
    d.cryCheck slice true named target rng = if rng = true ∧ d.she.rng ≠ .ready then stNotReady else stDone)
  ∧ (∀ s q e k src aad, s.cryIs 0x50 q e → gcmOk e.bytes = true → cryFlagsOk e.bytes = true → bits (dw e.bytes 1) 8 24 = 0 →
    1 ≤ dw e.bytes 6 → dw e.bytes 6 < 2 ^ 24 →
    Map.find s.dev.she.slots (bits (dw e.bytes 1) 0 8) = some k → k.usage = 2 → ((s.dev.qp q).slice = 0 ∨ k.owner = (s.dev.qp q).slice) →
    (s.dev.hardened e.bytes = true → s.dev.she.rng = .ready) →
    Begins (.gcmEncrypt q e.id src aad) s q e fun o => o.core = false ∧ o.engine = s.dev.she.freeEngine ∧ o.len = dw e.bytes 6
      ∧ o.status = stDone ∧ o.written = dw e.bytes 6 + 16
      ∧ o.outs.map (fun w => (w.1, w.2.length)) = [(dq e.bytes 4, dw e.bytes 6), (dq e.bytes 4 + dw e.bytes 6, 16)]
      ∧ o.outs.map (·.2) = [padTo (dw e.bytes 6) (Config.cipher modeGcmEnc (k.key) (gcmIv e.bytes)
            (s.dev.source q e src)),
          padTo 16 (Config.gcmTag (k.key) (gcmIv e.bytes) (s.dev.aadOf q e aad)
            (padTo (dw e.bytes 6) (Config.cipher modeGcmEnc (k.key) (gcmIv e.bytes)
              (s.dev.source q e src))))])
  ∧ (∀ s q e k src aad tag, s.cryIs 0x51 q e → gcmOk e.bytes = true → cryFlagsOk e.bytes = true → bits (dw e.bytes 1) 8 24 = 0 →
    1 ≤ dw e.bytes 6 → dw e.bytes 6 < 2 ^ 24 →
    Map.find s.dev.she.slots (bits (dw e.bytes 1) 0 8) = some k → k.usage = 2 → ((s.dev.qp q).slice = 0 ∨ k.owner = (s.dev.qp q).slice) →
    (s.dev.hardened e.bytes = true → s.dev.she.rng = .ready) →
    Begins (.gcmDecrypt q e.id src aad tag) s q e fun o => o.core = false ∧ o.len = dw e.bytes 6 ∧ o.written = dw e.bytes 6
      ∧ o.outs = [(dq e.bytes 4, padTo (dw e.bytes 6) (Config.cipher modeGcmDec (k.key)
          (gcmIv e.bytes) (s.dev.source q e src)))]
      ∧ o.status = if (s.dev.ownerRead q (dq e.bytes 2 + dw e.bytes 6) 16 tag).1 = padTo 16 (Config.gcmTag
          (k.key) (gcmIv e.bytes) (s.dev.aadOf q e aad) (s.dev.source q e src))
        then stDone else stAuthFail)
  ∧ (∀ s q e k src, s.cryIs 0x52 q e → dw e.bytes 6 % 16 = 0 → bits (dw e.bytes 7) 0 16 = 0 → bits (dw e.bytes 7) 18 14 = 0 →
    zeros e.bytes [8, 9, 14, 15] = true → cryFlagsOk e.bytes = true → bits (dw e.bytes 1) 8 24 = 0 → 1 ≤ dw e.bytes 6 →
    dw e.bytes 6 < 2 ^ 24 →
    Map.find s.dev.she.slots (bits (dw e.bytes 1) 0 8) = some k → k.usage = 3 → ((s.dev.qp q).slice = 0 ∨ k.owner = (s.dev.qp q).slice) →
    (s.dev.hardened e.bytes = true → s.dev.she.rng = .ready) →
    Begins (.xtsEncrypt q e.id src) s q e fun o => o.status = stDone ∧ o.core = false ∧ o.len = dw e.bytes 6 ∧ o.written = dw e.bytes 6
      ∧ o.outs = [(dq e.bytes 4, padTo (dw e.bytes 6)
      (xtsUnits modeXtsEnc (k.key) (field e.bytes 40 16) (512 * 2 ^ bits (dw e.bytes 7) 16 2)
        (s.dev.source q e src)))])
  ∧ (∀ s q e k src, s.cryIs 0x53 q e → dw e.bytes 6 % 16 = 0 → bits (dw e.bytes 7) 0 16 = 0 → bits (dw e.bytes 7) 18 14 = 0 →
    zeros e.bytes [8, 9, 14, 15] = true → cryFlagsOk e.bytes = true → bits (dw e.bytes 1) 8 24 = 0 → 1 ≤ dw e.bytes 6 →
    dw e.bytes 6 < 2 ^ 24 →
    Map.find s.dev.she.slots (bits (dw e.bytes 1) 0 8) = some k → k.usage = 3 → ((s.dev.qp q).slice = 0 ∨ k.owner = (s.dev.qp q).slice) →
    (s.dev.hardened e.bytes = true → s.dev.she.rng = .ready) →
    Begins (.xtsDecrypt q e.id src) s q e fun o => o.status = stDone ∧ o.core = false ∧ o.len = dw e.bytes 6 ∧ o.written = dw e.bytes 6
      ∧ o.outs = [(dq e.bytes 4, padTo (dw e.bytes 6)
      (xtsUnits modeXtsDec (k.key) (field e.bytes 40 16) (512 * 2 ^ bits (dw e.bytes 7) 16 2)
        (s.dev.source q e src)))])
  ∧ (∀ s q e k src, s.cryIs 0x54 q e → zeros e.bytes [7, 8, 9, 14, 15] = true → cryFlagsOk e.bytes = true →
    bits (dw e.bytes 1) 8 24 = 0 → 1 ≤ dw e.bytes 6 → dw e.bytes 6 < 2 ^ 24 →
    Map.find s.dev.she.slots (bits (dw e.bytes 1) 0 8) = some k → k.usage = 4 → ((s.dev.qp q).slice = 0 ∨ k.owner = (s.dev.qp q).slice) →
    (s.dev.hardened e.bytes = true → s.dev.she.rng = .ready) →
    Begins (.ctr q e.id src) s q e fun o => o.status = stDone ∧ o.core = false ∧ o.len = dw e.bytes 6 ∧ o.written = dw e.bytes 6
      ∧ o.outs = [(dq e.bytes 4, padTo (dw e.bytes 6) (Config.cipher modeCtr
      (k.key) ((e.bytes.drop 40).take 16) (s.dev.source q e src)))])
  ∧ (∀ s q e src aad, s.cryIs 0x50 q e → cryFlagsOk e.bytes = false →
    Acts (.gcmEncrypt q e.id src aad) s fun d => d = s.dev.complete q e.id stBadOperand [0, 0])
  ∧ (∀ s q e src aad tag, s.cryIs 0x51 q e → gcmOk e.bytes = false →
    Acts (.gcmDecrypt q e.id src aad tag) s fun d => d = s.dev.complete q e.id stBadOperand [0, 0])
  ∧ (∀ s q e src, s.cryIs 0x52 q e → dw e.bytes 6 % 16 ≠ 0 →
    Acts (.xtsEncrypt q e.id src) s fun d => d = s.dev.complete q e.id stBadOperand [0, 0])
  ∧ (∀ s q e src, s.cryIs 0x53 q e → dw e.bytes 6 = 0 →
    Acts (.xtsDecrypt q e.id src) s fun d => d = s.dev.complete q e.id stBadOperand [0, 0])
  ∧ (∀ s q id o a bs, s.live → s.memWf = true → q < 65536 → s.dev.she.ops.find? (fun o => o.q == q && o.desc == id) = some o →
    o.gen = s.dev.sliceGen (s.dev.qp q).slice → o.core = false → o.outs = [(a, bs)] → o.install = none → o.zero = none →
    (s.dev.qp q).capstan = true → s.dev.cap.mode ≠ .cache → flatBase ≤ a → a + bs.length ≤ flatBase + flatSize →
    Acts (.cryptoResultRelease q id false) s fun d => ∀ i < bs.length, d.physByte (a + i) = bs.getD i 0)
  ∧ ∀ s q e src, s.cryIs 0x54 q e → 2 ^ 24 ≤ dw e.bytes 6 →
    Acts (.ctr q e.id src) s fun d => d = s.dev.complete q e.id stBadOperand [0, 0]

/-- Key management and MACsec associations (R547 to R549, R554 to R556, R558, R559, R561, R562): an operation that passes its checks
goes to the hardened core and changes no slot before its release; what it is to install or zeroise is named in it; SA_SET installs,
counts its slot's reference, and moves transmit, or removes an association. -/
def Obligations.KeyDescriptors : Prop :=
  (∀ s q e k blob, s.cryIs 0x60 q e → cryFlagsOk e.bytes = true → dw e.bytes 1 < 2 ^ 21 → 1 ≤ bits (dw e.bytes 1) 16 4 →
    bits (dw e.bytes 1) 16 4 ≤ 5 → dw e.bytes 6 = slotKeyBytes (bits (dw e.bytes 1) 16 4) + 8 →
    zeros e.bytes [4, 5, 7, 8, 9, 10, 11, 12, 13, 14, 15] = true →
    Map.find s.dev.she.slots (bits (dw e.bytes 1) 8 8) = some k → k.usage = 1 → ((s.dev.qp q).slice = 0 ∨ k.owner = (s.dev.qp q).slice) →
    Map.find s.dev.she.slots (bits (dw e.bytes 1) 0 8) = none → s.dev.she.installing (bits (dw e.bytes 1) 0 8) = false →
    s.dev.she.rng = .ready →
    Begins (.keyUnwrap q e.id blob) s q e fun o => o.core = true ∧ o.outs = [] ∧ o.zero = none
      ∧ match Config.unwrapKey k.key (s.dev.ownerRead q (dq e.bytes 2) (dw e.bytes 6) blob).1 with
        | some key => o.status = stDone
          ∧ o.install = some (bits (dw e.bytes 1) 0 8, { usage := bits (dw e.bytes 1) 16 4, expo := bit (dw e.bytes 1) 20, origin := 0
                                                         owner := (s.dev.qp q).slice, key })
        | none => o.status = stAuthFail ∧ o.install = none)
  ∧ (∀ s q e, s.cryIs 0x61 q e → cryFlagsOk e.bytes = true → dw e.bytes 1 < 2 ^ 21 → bits (dw e.bytes 1) 8 8 = 0 →
    1 ≤ bits (dw e.bytes 1) 16 4 → bits (dw e.bytes 1) 16 4 ≤ 5 →
    zeros e.bytes [2, 3, 4, 5, 6, 7, 8, 9, 10, 11, 12, 13, 14, 15] = true →
    Map.find s.dev.she.slots (bits (dw e.bytes 1) 0 8) = none → s.dev.she.installing (bits (dw e.bytes 1) 0 8) = false →
    s.dev.she.rng = .ready →
    Acts (.keyGen q e.id) s fun d => d.she.slots = s.dev.she.slots ∧ d.mem = s.dev.mem ∧ d.she.draws = s.dev.she.draws + 1
      ∧ d.count Reg.sheRngDraws = s.dev.count Reg.sheRngDraws + 1
      ∧ ∃ o, d.she.ops = s.dev.she.ops ++ [o] ∧ o.q = q ∧ o.desc = e.id ∧ o.core = true ∧ o.status = stDone ∧ o.outs = []
        ∧ o.install = some (bits (dw e.bytes 1) 0 8, { usage := bits (dw e.bytes 1) 16 4, expo := bit (dw e.bytes 1) 20, origin := 1
                                                       owner := (s.dev.qp q).slice
                                                       key := (s.dev.generate (slotKeyBytes (bits (dw e.bytes 1) 16 4))).1 }))
  ∧ (∀ s q e k m, s.cryIs 0x62 q e → cryFlagsOk e.bytes = true → dw e.bytes 1 < 65536 →
    Map.find s.dev.she.slots (bits (dw e.bytes 1) 0 8) = some k → k.expo = true →
    zeros e.bytes [2, 3, 6, 7, 8, 9, 10, 11, 12, 13, 14, 15] = true →
    Map.find s.dev.she.slots (bits (dw e.bytes 1) 8 8) = some m → m.usage = 1 → s.dev.she.rng = .ready →
    ((s.dev.qp q).slice = 0 ∨ k.owner = (s.dev.qp q).slice ∧ m.owner = (s.dev.qp q).slice) →
    Begins (.keyWrap q e.id) s q e fun o => o.core = true ∧ o.status = stDone ∧ o.install = none ∧ o.zero = none
      ∧ o.outs = [(dq e.bytes 4, padTo (k.key.length + 8) (Config.wrapKey m.key k.key))])
  ∧ (∀ s q e k, s.cryIs 0x62 q e → Map.find s.dev.she.slots (bits (dw e.bytes 1) 0 8) = some k → k.expo = false →
    Acts (.keyWrap q e.id) s fun d => d = s.dev.complete q e.id stBadOperand [0, 0])
  ∧ (∀ s q e k, s.cryIs 0x63 q e → cryFlagsOk e.bytes = true → dw e.bytes 1 < 256 →
    Map.find s.dev.she.slots (bits (dw e.bytes 1) 0 8) = some k → k.refs = 0 → s.dev.slotBusy (bits (dw e.bytes 1) 0 8) = false →
    zeros e.bytes [2, 3, 4, 5, 6, 7, 8, 9, 10, 11, 12, 13, 14, 15] = true →
    ((s.dev.qp q).slice = 0 ∨ k.owner = (s.dev.qp q).slice) → s.dev.she.rng = .ready →
    Begins (.keyZero q e.id) s q e fun o => o.core = true ∧ o.status = stDone ∧ o.zero = some (bits (dw e.bytes 1) 0 8)
      ∧ o.outs = [] ∧ o.install = none)
  ∧ (∀ s q e k, s.cryIs 0x63 q e → Map.find s.dev.she.slots (bits (dw e.bytes 1) 0 8) = some k → (k.refs ≠ 0 ∨ s.dev.slotBusy (bits (dw e.bytes 1) 0 8) = true) →
    Acts (.keyZero q e.id) s fun d => d = s.dev.complete q e.id stBadOperand [0, 0])
  ∧ (∀ s q e k, s.cryIs 0x64 q e → cryFlagsOk e.bytes = true → (s.dev.qp q).slice = 0 → bits (dw e.bytes 1) 0 8 < s.dev.lanes →
    bits (dw e.bytes 1) 18 6 = 0 → dw e.bytes 10 < 2 ^ 30 → zeros e.bytes [11, 12, 13, 14, 15] = true → bit (dw e.bytes 1) 16 = true →
    Map.find s.dev.she.slots (bits (dw e.bytes 1) 24 8) = some k → k.usage = 5 →
    Map.find s.dev.she.sas (32 * bits (dw e.bytes 1) 0 8 + bits (dw e.bytes 1) 8 5) = none →
    Acts (.saSet q e.id) s fun d => (∃ a, Map.find d.she.sas (32 * bits (dw e.bytes 1) 0 8 + bits (dw e.bytes 1) 8 5) = some a
          ∧ a.rx = bit (dw e.bytes 1) 15 ∧ a.an = bits (dw e.bytes 1) 13 2 ∧ a.slot = bits (dw e.bytes 1) 24 8
          ∧ a.sci = BitVec.ofNat 64 (dq e.bytes 2) ∧ a.pn = dq e.bytes 8 ∧ a.window = dw e.bytes 10 ∧ a.keyed = true
          ∧ a.active = (bit (dw e.bytes 1) 17 && !bit (dw e.bytes 1) 15))
      ∧ Map.find d.she.slots (bits (dw e.bytes 1) 24 8) = some { k with refs := k.refs + 1 }
      ∧ ((bit (dw e.bytes 1) 17 && !bit (dw e.bytes 1) 15) = true → ∀ n a, n / 32 = bits (dw e.bytes 1) 0 8 →
          n ≠ 32 * bits (dw e.bytes 1) 0 8 + bits (dw e.bytes 1) 8 5 → Map.find d.she.sas n = some a → a.active = false))
  ∧ (∀ s q e a k, s.cryIs 0x64 q e → cryFlagsOk e.bytes = true → (s.dev.qp q).slice = 0 → bits (dw e.bytes 1) 0 8 < s.dev.lanes →
    bits (dw e.bytes 1) 18 6 = 0 → dw e.bytes 10 < 2 ^ 30 → zeros e.bytes [11, 12, 13, 14, 15] = true → bit (dw e.bytes 1) 16 = false →
    Map.find s.dev.she.sas (32 * bits (dw e.bytes 1) 0 8 + bits (dw e.bytes 1) 8 5) = some a → a.keyed = true →
    Map.find s.dev.she.slots a.slot = some k →
    Acts (.saSet q e.id) s fun d => Map.find d.she.sas (32 * bits (dw e.bytes 1) 0 8 + bits (dw e.bytes 1) 8 5) = none
      ∧ Map.find d.she.slots a.slot = some { k with refs := k.refs - 1 })
  ∧ (∀ s q e, s.cryIs 0x64 q e → (s.dev.qp q).slice ≠ 0 →
    Acts (.saSet q e.id) s fun d => d = s.dev.complete q e.id stBadOperand [0, 0])
  ∧ (∀ s q id o, s.live → q < 65536 → s.dev.she.ops.find? (fun o => o.q == q && o.desc == id) = some o →
    o.gen ≠ s.dev.sliceGen (s.dev.qp q).slice →
    Acts (.cryptoResultRelease q id false) s fun d => d.she.slots = s.dev.she.slots
      ∧ d.she.ops = s.dev.she.ops.filter fun x => !(x.q == q && x.desc == id))
  ∧ (∀ s q id o, s.live → q < 65536 → s.dev.she.ops.find? (fun o => o.q == q && o.desc == id) = some o →
    o.gen = s.dev.sliceGen (s.dev.qp q).slice → o.core = true →
    Acts (.cryptoResultRelease q id false) s fun d => d = ((s.dev.releaseOp o).bump Reg.sheKeyOps).endOp o o.status o.written
      ∧ (∀ n k, o.install = some (n, k) → o.zero = none → Map.find d.she.slots n = some k)
      ∧ (∀ n, o.zero = some n → Map.find d.she.slots n = none)
      ∧ d.she.ops = s.dev.she.ops.filter fun x => !(x.q == q && x.desc == id))
  ∧ (∀ s q id o a bs, s.live → q < 65536 → s.dev.she.ops.find? (fun o => o.q == q && o.desc == id) = some o →
    o.gen = s.dev.sliceGen (s.dev.qp q).slice → o.core = false → o.outs = [(a, bs)] → o.install = none → o.zero = none →
    Acts (.cryptoResultRelease q id false) s fun d => d.she.slots = s.dev.she.slots
      ∧ ((s.dev.qp q).capstan = true → ∀ b, (∀ i < bs.length, s.dev.physOff (a + i) ≠ s.dev.physOff b) → d.physByte b = s.dev.physByte b)
      ∧ ((s.dev.qp q).capstan = false → d.mem = s.dev.mem ∧ (s.dev.boot.gated = false →
          (⟨.hostWrite, [q, a, s.dev.pasidOf (s.dev.qp q).slice], bs⟩ : Out) ∈ d.out)))
  ∧ (∀ s q id o, s.live → q < 65536 → s.dev.she.ops.find? (fun o => o.q == q && o.desc == id) = some o → o.hard = true →
    s.dev.she.faults = 2 → s.dev.she.life ≠ 0 →
    Acts (.cryptoResultRelease q id true) s fun d => d.she.slots = [] ∧ d.she.rng = .stopped)
  ∧ ∀ s q id o, s.live → q < 65536 → s.dev.she.ops.find? (fun o => o.q == q && o.desc == id) = some o → o.hard = true →
    s.dev.she.faults < 2 →
    Acts (.cryptoResultRelease q id true) s fun d => d.mem = s.dev.mem ∧ d.she.slots = s.dev.she.slots
      ∧ d.she.faults = s.dev.she.faults + 1 ∧ d.count Reg.sheFaultDetect = s.dev.count Reg.sheFaultDetect + 1

/-- Tamper, random numbers and the lifecycle (R541 to R545, R550 to R553, R563 to R566, Tables 19.1, 19.9, 19.10): an alarm latches its
sources, zeroises every key and stops the DRBG, and blows a LOCKDOWN fuse in boot or leaves it owed while running; in MANUFACTURE it
only latches; the DRBG is ready after its start, twice more after a failed health test and not after a third; a token does what its
kind says where its signature, device and nonce are right and the lifecycle admits it. -/
def Obligations.TamperAndLifecycle : Prop :=
  (∀ s src ticks, src < 256 → s.live → s.dev.she.life ≠ 0 → s.dev.boot.st = .opened → bit s.dev.she.policy 1 = false →
    tamperSources 0xFF (bits s.dev.she.policy 8 4) src ≠ 0 → s.dev.she.ops = [] →
    Acts (.tamperAlarm src ticks) s fun d => d.she.slots = [] ∧ d.she.rng = .stopped ∧ (∀ k a, Map.find d.she.sas k = some a → a.keyed = false)
      ∧ d.she.latch = s.dev.she.latch ||| tamperSources 0xFF (bits s.dev.she.policy 8 4) src ∧ d.boot = s.dev.boot
      ∧ d.she.fuses = s.dev.she.fuses ∧ (d.she.fuseDue = (s.dev.she.fuseDue || (s.dev.she.life == 1 && !s.dev.she.lockPending)))
      ∧ d.count Reg.sheTamperEvents = s.dev.count Reg.sheTamperEvents + 1)
  ∧ (∀ s src ticks, src < 256 → s.live → s.dev.she.life = 1 → s.dev.boot.st ≠ .opened →
    tamperSources 0xFF (bits s.dev.she.policy 8 4) src ≠ 0 → s.dev.she.ops = [] →
    Acts (.tamperAlarm src ticks) s fun d => d.she.slots = [] ∧ d.she.rng = .stopped ∧ d.boot.st = .halted ∧ d.boot.reason = 0x17
      ∧ d.she.fuses = s.dev.she.fuses.blowLockdown)
  ∧ (∀ s src ticks, src < 256 → s.live → s.dev.she.life = 0 → tamperSources 0xFF (bits s.dev.she.policy 8 4) src ≠ 0 →
    Acts (.tamperAlarm src ticks) s fun d => d.she.slots = s.dev.she.slots ∧ d.she.rng = s.dev.she.rng
      ∧ d.she.latch = s.dev.she.latch ||| tamperSources 0xFF (bits s.dev.she.policy 8 4) src)
  ∧ (∀ s src ticks life en, src < 256 → s.dev.boot.held = true → s.dev.she.armed = some (life, en) → life ≠ 0 →
    tamperSources 0x6F en src ≠ 0 → s.dev.she.ops = [] →
    Acts (.tamperAlarm src ticks) s fun d => d.she.slots = [] ∧ d.she.latch = s.dev.she.latch
      ∧ (d.she.owed = (s.dev.she.owed || life == 1)))
  ∧ (∀ s src ticks, src < 256 → s.live → tamperSources 0xFF (bits s.dev.she.policy 8 4) src = 0 →
    Acts (.tamperAlarm src ticks) s fun d => d = s.dev)
  ∧ (∀ s, s.live → s.dev.she.fuseDue = true →
    Acts .lockdownFuseBlow s fun d => Dev.keeps [.she] s.dev d
      ∧ d.she = { s.dev.she with fuses := s.dev.she.fuses.blowLockdown, lockPending := true, fuseDue := false })
  ∧ (∀ s, s.live → s.dev.she.rng = .notReady →
    Acts .rngStartupDone s fun d => d.she.rng = .ready ∧ d.she.nonced = true
      ∧ (s.dev.she.nonced = true → d.she.nonce = s.dev.she.nonce ∧ d.she.draws = 0) ∧ d.she.slots = s.dev.she.slots)
  ∧ (∀ s, s.live → (s.dev.she.rng = .notReady ∨ s.dev.she.rng = .ready) →
    Acts .rngHealthFail s fun d => d.she.health = s.dev.she.health + 1
      ∧ d.she.rng = (if 3 ≤ s.dev.she.health + 1 then .failed else .notReady)
      ∧ d.count Reg.sheRngHealthFail = s.dev.count Reg.sheRngHealthFail + 1)
  ∧ (∀ s, s.live → s.dev.she.rng = .ready → 2 ^ 20 ≤ s.dev.she.draws →
    Acts .drbgReseed s fun d => d = { s.dev with she := { s.dev.she with draws := 0, seeded := s.dev.turn } })
  ∧ (∀ s t, s.live → s.dev.tokenOk t = false →
    Acts (.lcToken t) s fun d => d = { s.dev with she := { s.dev.she with lcResult := stAuthFail } })
  ∧ (∀ s (t : LcToken), s.live → s.dev.tokenOk t = true → t.kind = .provision → s.dev.she.life = 0 → s.dev.she.rng = .ready →
    Acts (.lcToken t) s fun d => d.she.lcResult = stDone ∧ d.she.life = s.dev.she.life
      ∧ d.she.fuses = { s.dev.she.fuses with owner0 := t.owner0, policy := t.policy, secured := true
                                             secret := some (ofLe (s.dev.generate 32).1) })
  ∧ (∀ s (t : LcToken), s.live → t.kind = .lockdown → s.dev.she.life = 1 →
    Acts (.lcToken t) s fun d => d.she.lcResult = stDone ∧ d.she.lockPending = true ∧ d.she.fuses = s.dev.she.fuses.blowLockdown)
  ∧ (∀ s (t : LcToken), s.live → s.dev.tokenOk t = true → t.kind = .recover → s.dev.she.life = 2 → s.dev.she.fuses.recovery < 32 →
    Acts (.lcToken t) s fun d => d.she.lcResult = stDone
      ∧ d.she.fuses = { s.dev.she.fuses with recovery := s.dev.she.fuses.recovery + 1 })
  ∧ (∀ s (t : LcToken), s.live → s.dev.tokenOk t = true → t.kind = .retire → s.dev.she.life ≠ 3 →
    Acts (.lcToken t) s fun d => d.she.lcResult = stDone ∧ d.she.fuses.retired = true
      ∧ d.she.fuses.secret = some (2 ^ 256 - 1) ∧ d.she.fuses.life true = 3)
  ∧ (∀ s (t : LcToken), s.live → s.dev.tokenOk t = true → t.kind = .debug → s.dev.she.life = 1 → bit s.dev.she.policy 2 = true →
    Acts (.lcToken t) s fun d => d.she.lcResult = stDone ∧ d.she.debug = true ∧ d.she.slots = [])
  ∧ (∀ (f : Fuses), f.lockdown < 32 → f.blowLockdown = { f with lockdown := f.lockdown + 1 })
  ∧ ∀ (f : Fuses), f.secured = true → f.retired = false → f.recovery ≤ f.lockdown → f.lockdown < 32 → f.blowLockdown.life true = 2

/-- Register accesses (R6, R18, R21, R22, R35, R78, R388, R415, R418 to R423, R447, R567, R578, R616, R635 to R640): a reader without
the global window reads 0, its writes and those too narrow for their register are recorded as access errors and have no effect; a
core's misaligned or unmapped access raises an access fault; a 4-byte write of a vector's control word masks it; a low half read
latches the high half of its counter for the reader, who reads it latched until a low half of another counter; an 8-byte read
latches nothing; an RC register is read and cleared; GLB_ID, REEL_TIME and FL_LEN read as the spec gives them; a view and a raw
selection keep the bits their fields have; staged words are committed with the status word, with a stale window, while fewer than
256 are open; the boot window takes bytes in WAIT_PUSH and RECOVERY, and no other byte changes. -/
def Obligations.RegisterAccesses : Prop :=
  (∀ s who off size v, s.live → who < 64 → ioOk who off size = true → s.dev.coreMiss who off size = false → v < 2 ^ 64 → off < 0x2000000 →
    (s.dev.hasGlobal who = false ∨ (0x1900000 ≤ off ∧ off < 0x1C00000)) →
    Acts (.registerWrite who 0 off size v) s fun d => d = s.dev.accessErr who 0 off true)
  ∧ (∀ s who off size v, s.live → 32 ≤ who → who < 64 → ioOk who off size = true → s.dev.coreMiss who off size = true → v < 2 ^ 64 →
    Acts (.registerWrite who 0 off size v) s (fun d => Dev.keeps [.ctr, .cap] s.dev d ∧ (d.core (who - 32)).exc = some 7
        ∧ d.count (Reg.capCAccessFault (who - 32)) = s.dev.count (Reg.capCAccessFault (who - 32)) + 1)
      ∧ Acts (.counterLowRead who ⟨off, size⟩) s fun d => Dev.keeps [.ctr, .cap] s.dev d ∧ (d.core (who - 32)).exc = some 5
        ∧ d.count (Reg.capCAccessFault (who - 32)) = s.dev.count (Reg.capCAccessFault (who - 32)) + 1)
  ∧ (∀ s who off v, s.live → who < 64 → v < 2 ^ 64 → 0x2000000 ≤ off → off < 0x3F00000 → (who < 32 ∨ off % 8 = 0) →
    Acts (.registerWrite who 0 off 8 v) s fun d => d = s.dev.accessErr who 0 off true)
  ∧ (∀ s who k v, s.live → who < 32 → k < 2048 → v < 2 ^ 64 → bit v 0 = true → k ∉ (s.dev.fn who).masked →
    Acts (.registerWrite who 4 (16 * k + 12) 4 v) s fun d => Dev.keeps [.hif] s.dev d
      ∧ d.fn who = { s.dev.fn who with masked := (s.dev.fn who).masked ++ [k] } ∧ ∀ j, j ≠ who → d.fn j = s.dev.fn j)
  ∧ (∀ s who v, s.live → 32 ≤ who → who < 64 → v < 2 ^ 64 →
    Acts (.registerWrite who 1 0x118 8 v) s (fun d => d = { s.dev with boot := { s.dev.boot with flSrc := v } })
      ∧ Acts (.registerWrite who 1 0x120 8 v) s fun d => d = { s.dev with boot := { s.dev.boot with flLen := v % 2 ^ 24 } })
  ∧ (∀ s who off k v, s.live → who < 64 → off % 4 = 0 → ioOk who off 4 = true → s.counterAt who off = some (k, v, 0) →
    Acts (.counterLowRead who ⟨off, 4⟩) s fun d => Dev.keeps [.hif, .out] s.dev d
      ∧ Map.find d.hif.latches who = some (k, BitVec.ofNat 64 (v / 2 ^ 32))
      ∧ d.out = s.dev.out ++ [⟨.ioReply, [who, off, v % 2 ^ 32], []⟩])
  ∧ (∀ s who off k v x h, s.live → who < 64 → off % 4 = 0 → ioOk who off 4 = true → s.counterAt who off = some (k, v, x + 1) →
    Map.find s.dev.hif.latches who = some (k, h) →
    Acts (.counterLowRead who ⟨off, 4⟩) s fun d => Dev.keeps [.out] s.dev d ∧ d.out = s.dev.out ++ [⟨.ioReply, [who, off, h.toNat], []⟩])
  ∧ (∀ s who off k v x, s.live → who < 64 → off % 4 = 0 → ioOk who off 4 = true → s.counterAt who off = some (k, v, x + 1) →
    (∀ h, Map.find s.dev.hif.latches who ≠ some (k, h)) →
    Acts (.counterLowRead who ⟨off, 4⟩) s fun d => Dev.keeps [.out] s.dev d
      ∧ d.out = s.dev.out ++ [⟨.ioReply, [who, off, v / 2 ^ 32], []⟩])
  ∧ (∀ s who, s.live → who < 64 → s.dev.hasGlobal who = true →
    Acts (.counterLowRead who ⟨Reg.reelTime, 8⟩) s fun d => Dev.keeps [.out] s.dev d
      ∧ d.out = s.dev.out ++ [⟨.ioReply, [who, Reg.reelTime, s.dev.ns % 2 ^ 64], []⟩])
  ∧ (∀ s who, s.live → who < 64 → s.dev.hasGlobal who = true →
    Acts (.counterLowRead who ⟨Reg.glbId, 4⟩) s fun d => Dev.keeps [.out] s.dev d
      ∧ d.out = s.dev.out ++ [⟨.ioReply, [who, Reg.glbId, if s.dev.variant24 then 0x00B09224 else 0x00B09240], []⟩])
  ∧ (∀ s who, s.live → 32 ≤ who → who < 64 →
    Acts (.counterLowRead who ⟨(0x19000000 + 0x120), 4⟩) s fun d => Dev.keeps [.out] s.dev d
      ∧ d.out = s.dev.out ++ [⟨.ioReply, [who, 0x19000000 + 0x120, s.dev.boot.flLen % 2 ^ 32], []⟩])
  ∧ (∀ s who off size, s.live → who < 64 → size ≤ 8 → ioOk who off size = true → off + size ≤ 0x3F00000 → s.dev.hasGlobal who = false →
    Acts (.counterLowRead who ⟨off, size⟩) s fun d => Dev.keeps [.out] s.dev d ∧ d.out = s.dev.out ++ [⟨.ioReply, [who, off, 0], []⟩])
  ∧ (∀ s who, s.live → who < 64 → s.dev.hasGlobal who = true →
    Acts (.rcRegisterRead who Reg.coilPeakUsed) s fun d => d.path = { s.dev.path with peak := 0 }
      ∧ d.out = s.dev.out ++ [⟨.ioReply, [who, Reg.coilPeakUsed, s.dev.path.peak], []⟩])
  ∧ (∀ s who q, s.live → who < 64 → q < 2048 → s.rcAt who (Reg.coilEqPeak q) = true → s.counterAt who (Reg.coilEqPeak q) = none →
    Acts (.rcRegisterRead who (Reg.coilEqPeak q)) s fun d => (Map.getD d.path.queues q {}).peak = 0
      ∧ (∀ k, k ≠ q → Map.getD d.path.queues k {} = Map.getD s.dev.path.queues k {})
      ∧ d.out = s.dev.out ++ [⟨.ioReply, [who, Reg.coilEqPeak q, (Map.getD s.dev.path.queues q {}).peak], []⟩])
  ∧ (∀ s who off, s.live → who < 64 → off < 2 ^ 26 → off % 4 = 0 → s.rcAt who off = false →
    Unmoved (.rcRegisterRead who off) s)
  ∧ (∀ s who v, s.live → who < 64 → v < 2 ^ 32 → s.dev.hasGlobal who = true →
    Acts (.glbSnapViewWrite who v 15) s fun d => Dev.keeps [.hif] s.dev d
      ∧ d.hif = { s.dev.hif with views := Map.put s.dev.hif.views who (bits v 0 5 + bits v 8 4 * 256) })
  ∧ (∀ s who v be, s.live → who < 64 → v < 2 ^ 32 → be < 16 → s.dev.hasGlobal who = false →
    Acts (.glbSnapViewWrite who v be) s (fun d => d = s.dev.accessErr who 0 Reg.glbSnapView true)
      ∧ Acts (.tblRawSelectWrite who v be) s fun d => d = s.dev.accessErr who 0 Reg.tblRawSelect true)
  ∧ (∀ s who v, s.live → who < 64 → v < 2 ^ 32 → s.dev.hasGlobal who = true →
    Acts (.tblRawSelectWrite who v 15) s fun d => Dev.keeps [.hif] s.dev d
      ∧ Map.find d.hif.rawSel who = some (bits v 0 2 + bits v 8 4 * 256) ∧ Map.find d.hif.rawStage who = none)
  ∧ (∀ s who off v t l w, s.live → who < 64 → off < 2 ^ 22 → off % 8 = 0 → v < 2 ^ 64 → s.dev.hasGlobal who = true →
    rawAt (Map.getD s.dev.hif.rawSel who 0) off = some (t, l, w) → w ≠ statusIdx t →
    Acts (.rawWindowWrite who off 8 v) s fun d => Dev.keeps [.hif] s.dev d
      ∧ (∃ m, Map.find d.hif.rawStage who = some (l, m) ∧ Map.find m w = some (BitVec.ofNat 64 v)
          ∧ ∀ j, j ≠ w → Map.find m j = Map.find (s.dev.staged who l) j))
  ∧ (∀ s who off v t l w, s.live → who < 64 → off < 2 ^ 22 → off % 8 = 0 → v < 2 ^ 64 → s.dev.hasGlobal who = true →
    rawAt (Map.getD s.dev.hif.rawSel who 0) off = some (t, l, w) → w = statusIdx t → s.dev.tbl.stale = [] →
    Acts (.rawStatusCommit who off v) s fun d => d.tbl.stale = [{ table := t, line := l, close := s.dev.pclk + 65536 }]
      ∧ Map.find d.hif.rawStage who = none ∧ d.count Reg.tblRawWrite = s.dev.count Reg.tblRawWrite + 1
      ∧ (∀ k, k ≠ l → Map.find d.tbl.mac k = Map.find s.dev.tbl.mac k ∧ Map.find d.tbl.exact k = Map.find s.dev.tbl.exact k
          ∧ Map.find d.tbl.acl k = Map.find s.dev.tbl.acl k)
      ∧ (t = 0 → ∃ x, Map.find d.tbl.mac l = some x ∧ x.mask = bits v 0 4)
      ∧ (t = 1 → ∃ x, Map.find d.tbl.exact l = some x ∧ x.mask = bits v 0 4))
  ∧ (∀ s who off v t l w, s.live → who < 64 → off < 2 ^ 22 → off % 8 = 0 → v < 2 ^ 64 → s.dev.hasGlobal who = true →
    rawAt (Map.getD s.dev.hif.rawSel who 0) off = some (t, l, w) → w = statusIdx t →
    256 ≤ (s.dev.tbl.stale.filter fun x => s.dev.pclk < x.close).length →
    Acts (.rawStatusCommit who off v) s fun d => d = (s.dev.bump Reg.tblRawReject).accessErr who 0 (0x1C00000 + off) true)
  ∧ (∀ s who off l x, s.live → who < 64 → off < 2 ^ 22 → off % 8 = 0 → s.dev.hasGlobal who = true →
    rawAt (Map.getD s.dev.hif.rawSel who 0) off = some (0, l, 3) → Map.find s.dev.tbl.mac l = some x → x.mask < 16 →
    Acts (.rawStatusRead who off) s fun d => Map.find d.tbl.mac l = some { x with hit := false }
      ∧ d.out = s.dev.out ++ [⟨.ioReply, [who, 0x1C00000 + off, x.mask + ofBit x.hit * 16], []⟩])
  ∧ (∀ s who size v, s.live → who < 64 → 4 ≤ size → size ≤ 8 → ioOk who 0 size = true → v < 2 ^ 32 → s.dev.hasGlobal who = true →
    (s.dev.coreMiss who Reg.sheTamperLatch size = false →
      Acts (.sheTamperLatchClear who size v) s fun d => d = { s.dev with she := { s.dev.she with
          latch := s.dev.she.latch ^^^ (s.dev.she.latch &&& v) } })
      ∧ (s.dev.coreMiss who Reg.pwrTrip size = false → bit v 0 = true →
        Acts (.pwrTripClear who size v) s fun d => d = { s.dev with pwr := { s.dev.pwr with trip := none } })
      ∧ (s.dev.coreMiss who Reg.pwrTrip size = false → bit v 0 = false → Unmoved (.pwrTripClear who size v) s))
  ∧ (∀ s who size v, s.live → who < 64 → size ≤ 8 → ioOk who 0 size = true → v < 2 ^ 32 → (s.dev.hasGlobal who = false ∨ size < 4) →
    (s.dev.coreMiss who Reg.sheTamperLatch size = false →
      Acts (.sheTamperLatchClear who size v) s fun d => d = s.dev.accessErr who 0 Reg.sheTamperLatch true)
      ∧ (s.dev.coreMiss who Reg.pwrTrip size = false →
        Acts (.pwrTripClear who size v) s fun d => d = s.dev.accessErr who 0 Reg.pwrTrip true))
  ∧ (∀ s who off (bs : List Byte), s.live → s.memWf = true → who < 32 → 0x2000000 ≤ off → off + bs.length ≤ 0x3F00000 → bs.length ≤ 64 → bs ≠ [] →
    s.dev.hasGlobal who = true → (s.dev.boot.st = .waitPush ∨ s.dev.boot.st = .recovery) →
    Acts (.bootWindowWrite who off bs) s fun d => Dev.keeps [.mem] s.dev d
      ∧ (∀ i < bs.length, Memory.read d.mem.flat (off - 0x2000000 + i) = bs.getD i 0)
      ∧ (∀ a, (a < off - 0x2000000 ∨ off - 0x2000000 + bs.length ≤ a) → Memory.read d.mem.flat a = Memory.read s.dev.mem.flat a)
      ∧ d.mem.dram = s.dev.mem.dram ∧ d.mem.scratch = s.dev.mem.scratch)
  ∧ ∀ s who off (bs : List Byte), s.live → who < 64 → 0x2000000 ≤ off → off + bs.length ≤ 0x3F00000 → ioOk who off bs.length = true →
    s.dev.coreMiss who off bs.length = false → s.dev.boot.st ≠ .waitPush → s.dev.boot.st ≠ .recovery →
    Acts (.bootWindowWrite who off bs) s fun d => d = s.dev.accessErr who 0 off true

/-- A step takes the command at the front of the queue and runs it with the queue's rest; with none waiting the block idles for one edge
of pclk, or, held in reset, stays as it is (log 4). -/
def Obligations.StepRunsTheFrontCommand : Prop :=
  (∀ (c : Instr) (s : State), step { s with pending := c :: s.pending } = exec c s)
  ∧ (∀ s : State, s.pending = [] → s.live → ∃ t, step s = .next t ∧ t.dev.pclk = s.dev.pclk + 1 ∧ t.dev.mem = s.dev.mem
      ∧ Dev.keeps [.pclk, .reel] s.dev t.dev ∧ t.pending = [] ∧ t.snaps = s.snaps)
  ∧ ∀ s : State, s.pending = [] → s.dev.boot.held = true → step s = .next s

/-- Exactly the commands that name nothing of the device are refused, by name, and no command faults: every well-formed command answers
a next state in every state. -/
def Obligations.ExactlyIllFormedCommandsAreRefused : Prop :=
  (∀ c s, c.wf = false → exec c s = .refused .illFormed) ∧ (∀ c s, c.wf = true → Continues (exec c s))
  ∧ ∀ c s f, exec c s ≠ .fault f

/-- The queue of well-formed commands: a step takes its first one and no other, adds none, and leaves a queue of well-formed commands,
from any state, reached or not. -/
def Obligations.QueueInvariant : Prop :=
  (∀ s, s.queueWf → ∃ t, step s = .next t ∧ t.queueWf ∧ t.pending = s.pending.tail)
  ∧ ∀ s t, step s = .next t → t.pending = s.pending.tail

/-- The canonical form of every addressed memory (the strand scratch, the flat region, DRAM and the flash) holds after every step that
finds it, from any state, reached or not. -/
def Obligations.MemoryInvariant : Prop :=
 ∀ s t, s.memWf = true → step s = .next t → t.memWf = true

/-- The machine after reset (R178, R261, R337, R390, R452, R568, R580): every queue has quantum 9,416 B and no shaper, every shaper rate
0, burst 0 and level 0, every policer is RFC 2698 colour-blind with every rate, burst and level 0 and answers red; shade 0 is
CURRENT at index 0 with empty tables, no program and no group; the node has no identifier; the L3 is flat; slice 0 is enabled; the
gates are closed; no command waits, and the memories are in their canonical form. -/
def Obligations.ResetState : Prop :=
  (∀ q, (Map.getD State.reset.dev.path.queues q {}).quantum = 9416 ∧ (Map.getD State.reset.dev.path.queues q {}).shaper = none)
  ∧ (∀ n k, Map.getD (State.reset.dev.shade n).shapers k (0, 0) = (0, 0) ∧ (Map.getD State.reset.dev.path.shapers k {}).level = 0)
  ∧ (∀ n k, Map.getD (State.reset.dev.shade n).policers k {} = ({ rfc4115 := false, aware := false, cir := 0, pir := 0, cbs := 0, pbs := 0 } : PolCfg)
      ∧ (Map.getD State.reset.dev.path.polC k {}).level = 0 ∧ (Map.getD State.reset.dev.path.polP k {}).level = 0
      ∧ ∀ colour (b : Int), 0 < b → (policeDecide (Map.getD (State.reset.dev.shade n).policers k {}) colour
          (Map.getD State.reset.dev.path.polC k {}).level (Map.getD State.reset.dev.path.polP k {}).level b).1 = 2)
  ∧ State.reset.dev.current = 0 ∧ (State.reset.dev.shade 0).st = .current ∧ (State.reset.dev.shade 0).num = 0
  ∧ (State.reset.dev.shade 0).sets = [] ∧ (State.reset.dev.shade 0).groups = []
  ∧ State.reset.dev.tbl.mac = [] ∧ State.reset.dev.tbl.exact = [] ∧ State.reset.dev.tbl.acl = []
  ∧ State.reset.dev.brd.node = 0 ∧ State.reset.dev.cap.mode = .flat
  ∧ (∃ x, State.reset.dev.slice 0 = some x ∧ x.gen = 1 ∧ x.capstan = true ∧ x.cfg.weight = 255)
  ∧ State.reset.dev.boot.gated = true ∧ State.reset.dev.boot.st = .rom
  ∧ State.reset.pending = [] ∧ State.reset.queueWf ∧ State.reset.memWf = true

/-- While the main domain is held in reset, a well-formed command other than one of the standby domain, of a supply, a clock or a reset
input changes nothing (R600, log 21). -/
def Obligations.HeldMainDomainIsUnmoved : Prop :=
  ∀ c s, s.dev.boot.held = true → c.wf = true → actsInReset c = false → Unmoved c s

/-- Operation words (R119, R120, R123, Tables 4.1 and 4.2): the word of every well-formed packet operation, with every operand at every
value its field admits, decodes to that operation, and every 32-bit word is the word of what it decodes to: no bit is dropped. NOP
stands for the words that name no operation; a load's ECC outcome is no part of its word. -/
def Obligations.OperationWordsRoundTrip : Prop :=
  (∀ i w, i.wf = true → operationWord i = some w → (∀ f e, i ≠ .nop f w e) →
    (∀ f g rd size ix ra off e, i = .wld f g rd size ix ra off e → e = 0) →
    (∀ f g rd size region ra imm e, i = .sld f g rd size region ra imm e → e = 0) →
    ∃ f, f < 4096 ∧ decodeOperation f w = i)
  ∧ (∀ f w, decodeNamed f w = none → decodeOperation f w = .nop f w 0)
  ∧ (∀ f w, operationWord (decodeOperation f w) = some w)
  ∧ ∀ f w, f < 4096 → (decodeOperation f w).wf = true

/-- Words written out from Tables 4.1 and 4.2, one of each format, decode to their operations; counters are 64 bits, wrap modulo 2^64,
and an increment changes no other counter (R20). -/
def Obligations.OperationWordsAndCounters : Prop :=
  decodeOperation 0 0x00000000 = .nop 0 0 0
  ∧ decodeOperation 5 0b0000_000001_00011_00100_00101_0000001 = .aluSub 5 0 3 4 5
  ∧ decodeOperation 5 0b1001_000010_00111_00001_111111111111 = .addi 5 9 7 1 0xFFF
  ∧ decodeOperation 5 0b0000_001110_01001_1_1010101111001101 = .movk 5 0 2 9 0xABCD
  ∧ decodeOperation 5 0b0000_010000_101_011_00001_00010_000000 = .cmp 5 0 5 3 1 2 0
  ∧ decodeOperation 5 0b0000_010100_00110_00111_010000_001111 = .ext 5 0 6 7 16 15
  ∧ decodeOperation 5 0b0000_011001_00010_11_0_00011_000001110 = .wld 5 0 2 3 0 3 14 0
  ∧ decodeOperation 5 0b0000_011100_00010_11_10_00011_00000100 = .sst 5 0 2 3 2 3 4
  ∧ decodeOperation 5 0b0001_100000_00000000001010_00000000 = .br 5 1 10 0
  ∧ decodeOperation 5 0b0000_101000_00001_00010_011_100000000 = .lkxMac 5 0 1 2 3 0x100
  ∧ decodeOperation 5 0b0000_111001_00000000000000_01000001 = .drop 5 0 0 0x41
  ∧ (∀ (b : BitVec 128), slotWord b 3 ++ slotWord b 2 ++ slotWord b 1 ++ slotWord b 0 = b)
  ∧ ∀ (d : Dev) off n, (d.add off n).count off = d.count off + BitVec.ofNat 64 n ∧ Dev.keeps [.ctr] d (d.add off n)
      ∧ ∀ o, o ≠ off → (d.add off n).count o = d.count o

/-- Events and their buffers (R440, R441, Table 14.6): an event is padded to a multiple of 8 bytes; one that fits the oldest buffer is
stored behind what that buffer holds, at the buffer's address, and changes no other byte; one that finds no room is not taken; a
queue's events never touch another queue pair. -/
def Obligations.EventDelivery : Prop :=
  (∀ code body, (eventBytes code body).length % 8 = 0)
  ∧ (∀ (d : Dev) q ev b t, (d.qp q).bufs = b :: t → b.used + ev.length ≤ b.len →
      (d.offer q ev).2 = false ∧ ((d.offer q ev).1.qp q).bufs
        = { b with used := b.used + ev.length, count := b.count + 1, first := b.first.or (some d.turn) } :: t
      ∧ ((d.qp q).capstan = true → ∀ a, (∀ i < ev.length, d.physOff (b.addr + b.used + i) ≠ d.physOff a) →
          (d.offer q ev).1.physByte a = d.physByte a)
      ∧ ((d.qp q).capstan = false → (d.offer q ev).1.mem = d.mem ∧ (d.boot.gated = false →
          (d.offer q ev).1.out = d.out ++ [⟨.hostWrite, [q, b.addr + b.used, d.pasidOf (d.qp q).slice], ev⟩]))
      ∧ ∀ r, r ≠ q → (d.offer q ev).1.qp r = d.qp r)
  ∧ (∀ (d : Dev) q ev, (d.qp q).bufs = [] → d.offer q ev = (d, true))
  ∧ ∀ (d : Dev) q ev b t, (d.qp q).bufs = b :: t → b.used = 0 → b.len < ev.length →
      (d.offer q ev).2 = false ∧ ((d.offer q ev).1.qp q).bufs = b :: t
      ∧ (d.offer q ev).1.count Reg.hifEvtOversize = d.count Reg.hifEvtOversize + 1

/-- What a splice instruction, its completion and its time-outs leave unchanged, in every state: every part of the device but those
listed, the waiting commands and the snapshot images; the strand scratch, the flat region and DRAM keep their canonical form. -/
def Obligations.SpliceInstructionFrames : Prop :=
  (∀ words, Frame logged (.spliceProgramAccept words))
  ∧ Frame [.pclk, .reel, .spl] .atProgramStart
  ∧ (∀ p, Frame logged (.spliceProgramResume p))
  ∧ (∀ p, Frame [.out, .ctr, .spl, .hif, .lay, .shd, .tbl, .cal, .mem, .cap, .slc] (.tset p))
  ∧ (∀ p, Frame [.out, .ctr, .spl, .hif, .lay, .tbl, .cal, .mem, .cap, .slc] (.tdel p))
  ∧ (∀ p, Frame [.out, .ctr, .spl, .hif, .shd, .tbl, .brd, .mem, .cap, .slc] (.shadeopen p))
  ∧ (∀ p, Frame [.out, .ctr, .spl, .hif, .shd, .mem, .cap, .slc] (.tcommit p))
  ∧ (∀ p, Frame [.out, .ctr, .spl, .hif, .shd, .brd, .mem, .cap, .slc] (.tcommitFabric p))
  ∧ (∀ p, Frame [.out, .ctr, .spl, .hif, .lay, .shd, .path, .tbl, .brd, .mem, .cap, .slc] (.shaderetire p))
  ∧ (∀ p, Frame [.out, .ctr, .spl, .hif, .lay, .shd, .path, .tbl, .brd, .mem, .cap, .slc] (.shaderetireDrainDone p))
  ∧ (∀ p, Frame [.pclk, .out, .ctr, .reel, .spl, .hif, .lay, .shd, .path, .tbl, .log, .brd, .cal, .mem, .cap, .rdm, .she, .slc] (.portset p))
  ∧ (∀ p, Frame [.out, .ctr, .spl, .hif, .path, .mem, .cap, .slc] (.qset p))
  ∧ (∀ p, Frame [.out, .ctr, .spl, .hif, .shd, .mem, .cap, .slc] (.shape p))
  ∧ (∀ p, Frame [.out, .ctr, .spl, .hif, .shd, .mem, .cap, .slc] (.polset p))
  ∧ (∀ p, Frame [.out, .ctr, .spl, .hif, .shd, .mem, .cap, .slc] (.mcset p))
  ∧ (∀ p img, Frame [.out, .ctr, .spl, .hif, .lay, .shd, .path, .cal, .mem, .cap, .slc] (.progload p img))
  ∧ (∀ p, Frame logged (.snap p))
  ∧ (∀ p, Frame [.out, .ctr, .spl, .hif, .brd, .mem, .cap, .slc] (.snapFabric p))
  ∧ (∀ p, Frame [.out, .ctr, .spl, .hif, .cal, .mem, .cap, .slc] (.calRun p))
  ∧ (∀ p, Frame [.out, .ctr, .spl, .hif, .cal, .mem, .cap, .slc] (.calSetPeriod p))
  ∧ (∀ p, Frame [.out, .ctr, .spl, .hif, .cal, .mem, .cap, .slc] (.calSuspend p))
  ∧ (∀ p, Frame [.out, .ctr, .spl, .hif, .cal, .mem, .cap, .slc] (.calResume p))
  ∧ (∀ p, Frame [.out, .ctr, .reel, .spl, .hif, .mem, .cap, .slc] (.reelsrc p))
  ∧ (∀ p, Frame logged (.fence p))
  ∧ (∀ p, Frame logged (.fenceClear p))
  ∧ (∀ p, Frame logged (.fenceDrainDone p))
  ∧ (∀ p, Frame [.out, .ctr, .spl, .hif, .brd, .mem, .cap, .slc] (.fenceReset p))
  ∧ (∀ p, Frame logged (.waitturn p))
  ∧ (∀ p, Frame [.pclk, .out, .ctr, .reel, .spl, .hif, .mem, .cap, .slc] (.waitturnDone p))
  ∧ (∀ p, Frame logged (.barrier p))
  ∧ (∀ p, Frame logged (.barrierFabric p))
  ∧ (∀ p, Frame [.pclk, .out, .ctr, .reel, .spl, .hif, .mem, .cap, .slc] (.barrierComplete p))
  ∧ (∀ p, Frame [.out, .ctr, .spl, .hif, .shd, .mem, .cap, .slc] (.joinSelf p))
  ∧ (∀ p, Frame [.out, .ctr, .spl, .hif, .brd, .mem, .cap, .slc] (.joinNode p))
  ∧ (∀ p, Frame [.out, .ctr, .spl, .hif, .brd, .mem, .cap, .slc] (.joinKnot p))
  ∧ (∀ p, Frame [.out, .ctr, .spl, .hif, .brd, .mem, .cap, .slc] (.joinMember p))
  ∧ (∀ p, Frame [.out, .ctr, .spl, .hif, .shd, .mem, .cap, .slc] (.leaveSelf p))
  ∧ (∀ p, Frame [.out, .ctr, .spl, .hif, .shd, .mem, .cap, .slc] (.leaveSelfDrainDone p))
  ∧ (∀ p, Frame [.out, .ctr, .spl, .hif, .brd, .mem, .cap, .slc] (.leaveNode p))
  ∧ (∀ p, Frame [.out, .ctr, .spl, .hif, .brd, .mem, .cap, .slc] (.leaveKnot p))
  ∧ (∀ p, Frame [.out, .ctr, .spl, .hif, .brd, .mem, .cap, .slc] (.leaveMember p))
  ∧ (∀ p, Frame logged (.qpsetEnable p))
  ∧ (∀ p, Frame logged (.qpsetRelease p))
  ∧ (∀ p, Frame [.out, .ctr, .spl, .hif, .log, .mem, .cap, .slc] (.qpsetLoglineArchive p))
  ∧ (∀ p, Frame [.out, .ctr, .spl, .hif, .log, .mem, .cap, .slc] (.qpsetLoglineView p))
  ∧ (∀ p, Frame logged (.quiesce p))
  ∧ (∀ p ring, Frame [.free, .out, .ctr, .spl, .hif, .lay, .shd, .path, .brd, .cal, .mem, .cap, .she, .slc, .sto] (.abort p ring))
  ∧ (∀ p, Frame logged (.slcset p))
  ∧ (∀ p, Frame [.out, .ctr, .spl, .hif, .log, .mem, .cap, .she, .slc] (.slcsetRelease p))
  ∧ (∀ p, Frame [.free, .out, .ctr, .spl, .hif, .lay, .shd, .path, .brd, .cal, .mem, .cap, .she, .slc, .sto] (.slcreset p))
  ∧ (∀ p, Frame [.free, .out, .ctr, .spl, .hif, .lay, .shd, .path, .brd, .cal, .mem, .cap, .she, .slc, .sto] (.slcresetStallEnd p))
  ∧ (∀ p, Frame [.out, .ctr, .spl, .hif, .mem, .cap, .she, .slc, .sto] (.volsetVolume p))
  ∧ (∀ p, Frame [.out, .ctr, .spl, .hif, .mem, .cap, .slc, .sto] (.volsetExtent p))
  ∧ (∀ p, Frame [.out, .ctr, .spl, .hif, .mem, .cap, .slc, .sto] (.volsetTarget p))
  ∧ (∀ p, Frame logged (.volsetDrainDone p))
  ∧ (∀ p, Frame [.out, .ctr, .spl, .hif, .mem, .cap, .rdm, .she, .slc] (.connsetConnection p))
  ∧ (∀ p, Frame [.drawn, .out, .ctr, .spl, .hif, .lay, .path, .log, .brd, .mem, .cap, .rdm, .she, .slc, .sto] (.connsetRelease p))
  ∧ (∀ p, Frame [.out, .ctr, .spl, .hif, .mem, .cap, .rdm, .slc] (.connsetGlobal p))
  ∧ (∀ p, Frame [.out, .ctr, .spl, .hif, .mem, .boot, .cap, .slc] (.fallback p))
  ∧ (∀ p, Frame [.drawn, .out, .ctr, .spl, .hif, .mem, .cap, .she, .slc] (.rngdraw p))
  ∧ (∀ p, Frame [.pclk, .out, .ctr, .reel, .spl, .hif, .shd, .mem, .cap, .slc] (.spliceTimeoutExpiry p))

/-- What a packet operation and its waits leave unchanged, in every state: the tables, the automata, the reel, the calibration, the boot
and power state, the keys and the stored units among them; a fibre changes, or what a trap, a lane or the end of its program brings. -/
def Obligations.PacketOperationFrames : Prop :=
  (∀ f word ecc, Frame issued (.nop f word ecc))
  ∧ (∀ f g rd ra rb, Frame issued (.aluAdd f g rd ra rb))
  ∧ (∀ f g rd ra rb, Frame issued (.aluSub f g rd ra rb))
  ∧ (∀ f g rd ra rb, Frame issued (.aluAnd f g rd ra rb))
  ∧ (∀ f g rd ra rb, Frame issued (.aluOr f g rd ra rb))
  ∧ (∀ f g rd ra rb, Frame issued (.aluXor f g rd ra rb))
  ∧ (∀ f g rd ra rb, Frame issued (.aluAndn f g rd ra rb))
  ∧ (∀ f g rd ra rb, Frame issued (.aluShl f g rd ra rb))
  ∧ (∀ f g rd ra rb, Frame issued (.aluShr f g rd ra rb))
  ∧ (∀ f g rd ra rb, Frame issued (.aluSar f g rd ra rb))
  ∧ (∀ f g rd ra rb, Frame issued (.aluMov f g rd ra rb))
  ∧ (∀ f g rd ra rb, Frame issued (.aluMinu f g rd ra rb))
  ∧ (∀ f g rd ra rb, Frame issued (.aluMaxu f g rd ra rb))
  ∧ (∀ f g rd ra rb, Frame issued (.aluPopc f g rd ra rb))
  ∧ (∀ f g rd ra rb, Frame issued (.aluClz f g rd ra rb))
  ∧ (∀ f g rd ra rb, Frame issued (.aluMul f g rd ra rb))
  ∧ (∀ f g rd ra imm, Frame issued (.addi f g rd ra imm))
  ∧ (∀ f g rd ra imm, Frame issued (.andi f g rd ra imm))
  ∧ (∀ f g rd ra imm, Frame issued (.ori f g rd ra imm))
  ∧ (∀ f g rd ra imm, Frame issued (.xori f g rd ra imm))
  ∧ (∀ f g rd ra imm, Frame issued (.shli f g rd ra imm))
  ∧ (∀ f g rd ra imm, Frame issued (.shri f g rd ra imm))
  ∧ (∀ f g rd ra imm, Frame issued (.sari f g rd ra imm))
  ∧ (∀ f g h rd imm, Frame issued (.movz f g h rd imm))
  ∧ (∀ f g h rd imm, Frame issued (.movk f g h rd imm))
  ∧ (∀ f g pd cond ra rb low, Frame issued (.cmp f g pd cond ra rb low))
  ∧ (∀ f g pd cond ra imm, Frame issued (.cmpi f g pd cond ra imm))
  ∧ (∀ f g pd pa pb low, Frame issued (.plogAnd f g pd pa pb low))
  ∧ (∀ f g pd pa pb low, Frame issued (.plogOr f g pd pa pb low))
  ∧ (∀ f g pd pa pb low, Frame issued (.plogXor f g pd pa pb low))
  ∧ (∀ f g pd pa pb low, Frame issued (.plogAndn f g pd pa pb low))
  ∧ (∀ f g pd pa pb low, Frame issued (.plogNot f g pd pa pb low))
  ∧ (∀ f g pd pa pb low, Frame issued (.plogSet f g pd pa pb low))
  ∧ (∀ f g pd pa pb low, Frame issued (.plogClr f g pd pa pb low))
  ∧ (∀ f g rd ra pos len, Frame issued (.ext f g rd ra pos len))
  ∧ (∀ f g rd ra pos len, Frame issued (.ins f g rd ra pos len))
  ∧ (∀ f g rd n low, Frame issued (.mrd f g rd n low))
  ∧ (∀ f g ra n low, Frame issued (.mwr f g ra n low))
  ∧ (∀ f g n mid imm, Frame issued (.mwri f g n mid imm))
  ∧ (∀ f g rd size indexed ra off ecc, Frame issued (.wld f g rd size indexed ra off ecc))
  ∧ (∀ f g rd size indexed ra off, Frame issued (.wst f g rd size indexed ra off))
  ∧ (∀ f g rd size region ra imm ecc, Frame issued (.sld f g rd size region ra imm ecc))
  ∧ (∀ f g rd size region ra imm, Frame issued (.sst f g rd size region ra imm))
  ∧ (∀ f g target low, Frame [.pclk, .free, .out, .ctr, .reel, .hif, .lay, .shd, .path, .log, .brd, .mem, .cap, .rdm, .slc] (.br f g target low))
  ∧ (∀ f g rd ra pd v, Frame issued (.lkx f g rd ra pd v))
  ∧ (∀ f g rd ra pd v, Frame issued (.lkxMac f g rd ra pd v))
  ∧ (∀ f g rd ra pd v, Frame issued (.lkl f g rd ra pd v))
  ∧ (∀ f g rd ra pd v, Frame issued (.lka f g rd ra pd v))
  ∧ (∀ f g rd ra pd v, Frame issued (.count f g rd ra pd v))
  ∧ (∀ f g rd ra pd v, Frame issued (.police f g rd ra pd v))
  ∧ (∀ f g rd ra pd v, Frame issued (.mcrd f g rd ra pd v))
  ∧ (∀ f g rd ra pd v, Frame issued (.autsub f g rd ra pd v))
  ∧ (∀ f g pd mid b, Frame issued (.autwait f g pd mid b))
  ∧ (∀ f g pd mid b, Frame issued (.autwaitu f g pd mid b))
  ∧ (∀ f, Frame [.pclk, .reel, .lay] (.autwaitTimeout f))
  ∧ (∀ f g rd ra pd v, Frame issued (.cltry f g rd ra pd v))
  ∧ (∀ f g rd ra pd v, Frame issued (.clrel f g rd ra pd v))
  ∧ (∀ f g rd ra pd v, Frame issued (.clwait f g rd ra pd v))
  ∧ (∀ f g rd ra pd v, Frame issued (.lnput f g rd ra pd v))
  ∧ (∀ f g rd ra pd v, Frame [.pclk, .out, .ctr, .reel, .hif, .lay, .shd, .path, .log, .brd, .mem, .cap, .rdm, .slc] (.lnget f g rd ra pd v))
  ∧ (∀ f g rd ra pd v, Frame issued (.lnputw f g rd ra pd v))
  ∧ (∀ f g rd ra pd v, Frame issued (.lngetw f g rd ra pd v))
  ∧ (∀ f g high code, Frame issued (.fwd f g high code))
  ∧ (∀ f g high code, Frame issued (.drop f g high code))
  ∧ (∀ f g high code, Frame issued (.trap f g high code))
  ∧ (∀ f g high code, Frame issued (.slow f g high code))
  ∧ (∀ f lane ecc, Frame [.pclk, .free, .out, .ctr, .reel, .hif, .lay, .path, .tbl, .aut, .brd, .mem, .cap, .slc] (.laneResultArrival f lane ecc))
  ∧ (∀ table line, Frame [.pclk, .reel, .tbl] (.staleWindowClose table line))
  ∧ (∀ lay table shade key, Frame [.lay] (.lookupCacheExpiry lay table shade key))

/-- What the events of the node itself leave unchanged, in every state: the boundary, calibration and maintenance, the reel, packets and
fibres, the tables, the automata and the braid; the end of a frame amends counters of the logline's snapshot image (R287 to R289)
and no other part of an image. -/
def Obligations.NodeEventFrames : Prop :=
  (∀ n, Frame [.pclk, .out, .ctr, .reel, .spl, .hif, .lay, .shd, .path, .tbl, .log, .brd, .mem, .cap, .slc] (.shadeCommit n))
  ∧ Frame [.out, .ctr, .spl, .hif, .cal, .mem, .cap, .slc] .calibrationSlot
  ∧ Frame [.out, .brd] .helloSend
  ∧ (∀ acct, Frame [.out, .path] (.pauseRepeat acct))
  ∧ (∀ q, Frame [.pclk, .out, .ctr, .reel, .hif] (.moderationTimerExpiry q))
  ∧ (∀ q, Frame [.pclk, .reel, .hif] (.eventBufferClose q))
  ∧ (∀ seq, Frame [.log] (.loglinePageClose seq))
  ∧ (∀ port dataset sample delay, Frame [.out, .ctr, .reel, .path] (.ptpMessageReceive port dataset sample delay))
  ∧ (∀ port reel16 era eraOffset hops upHold dataset delay, Frame [.ctr, .reel, .path, .brd] (.timeMessageReceive port reel16 era eraOffset hops upHold dataset delay))
  ∧ Frame [.ctr, .reel] .ppsInEdge
  ∧ Frame [.pclk, .out, .reel] .ppsOutPulse
  ∧ Frame [.pclk, .out, .ctr, .reel, .spl, .hif, .log, .mem, .cap, .slc] .reelDiscontinuity
  ∧ (∀ entry, Frame [.reel] (.reelSourceLoss entry))
  ∧ Frame [.pclk, .ctr, .reel, .spl] .reelHoldoverEnter
  ∧ (∀ port bytes whole rxLen fcsBad sec, Frame [.out, .ctr, .hif, .shd, .path, .log, .brd, .mem, .cap, .she, .slc] (.frameArrival port bytes whole rxLen fcsBad sec))
  ∧ (∀ pkt bytes rxLen fcsBad sec s t, exec (.frameEnd pkt bytes rxLen fcsBad sec) s = .next t →
      t.pending = s.pending ∧ t.frozen = s.frozen
      ∧ Dev.keeps [.pclk, .out, .ctr, .reel, .hif, .lay, .shd, .path, .tbl, .log, .brd, .mem, .cap, .rdm, .she, .slc] s.dev t.dev
      ∧ ∀ n, (n ≠ 6 → Map.find t.snaps n = Map.find s.snaps n)
        ∧ (Map.find t.snaps n).map (·.turn) = (Map.find s.snaps n).map (·.turn)
        ∧ ∀ c e, Map.find s.snaps n = some c → Map.find t.snaps n = some e → Dev.keeps [.ctr] c.dev e.dev)
  ∧ (∀ port op, Frame [] (.macControlFrame port op))
  ∧ (∀ port vec quanta, Frame [.ctr, .path] (.pfcFrameReceive port vec quanta))
  ∧ (∀ port quanta, Frame [.ctr, .path] (.pauseFrameReceive port quanta))
  ∧ (∀ port cls, Frame [.pclk, .reel, .path] (.pauseTimerExpiry port cls))
  ∧ (∀ pkt f, Frame [.pclk, .out, .ctr, .reel, .hif, .lay, .shd, .path, .log, .brd, .mem, .cap, .slc] (.packetDispatch pkt f))
  ∧ (∀ pkt copy f, Frame [.pclk, .out, .ctr, .reel, .hif, .lay, .shd, .path, .log, .brd, .mem, .cap, .slc] (.copyEgressDispatch pkt copy f))
  ∧ (∀ pkt copy, Frame [.pclk, .out, .ctr, .reel, .hif, .lay, .shd, .path, .log, .brd, .mem, .cap, .rdm, .slc] (.packetRelease pkt copy))
  ∧ (∀ f, Frame [.pclk, .out, .ctr, .reel, .hif, .lay, .shd, .path, .log, .brd, .mem, .cap, .slc] (.envelopeExpiry f))
  ∧ (∀ f, Frame [.pclk, .out, .ctr, .reel, .hif, .lay, .cap] (.trapVectorStart f))
  ∧ (∀ lay, Frame [.out, .ctr, .hif, .lay, .mem, .cap, .slc] (.trapRecordDeliver lay))
  ∧ (∀ f, Frame [.pclk, .out, .ctr, .reel, .hif, .lay, .shd, .path, .log, .brd, .mem, .cap, .slc] (.slowTimeout f))
  ∧ (∀ f, Frame [.out, .ctr, .hif, .lay, .shd, .path, .log, .brd, .mem, .cap, .rdm, .slc] (.slowLineTake f))
  ∧ (∀ f, Frame [.free, .out, .ctr, .hif, .lay, .shd, .path, .log, .brd, .mem, .cap, .slc] (.injectionTake f))
  ∧ (∀ unit scan, Frame [.pclk, .free, .out, .ctr, .reel, .hif, .lay, .path, .aut, .brd, .mem, .cap, .slc] (.automatonResultDelivery unit scan))
  ∧ (∀ port, Frame [.out, .ctr, .path, .brd] (.schedulerPick port))
  ∧ (∀ pkt copy, Frame [.pclk, .out, .ctr, .reel, .hif, .shd, .path, .log, .brd, .mem, .cap, .she, .slc] (.copyTransmit pkt copy))
  ∧ (∀ port, Frame [.out, .ctr, .reel, .spl, .hif, .shd, .path, .log, .brd, .cal, .mem, .cap, .slc] (.portLinkLoss port))
  ∧ (∀ port, Frame [.out, .ctr, .hif, .shd, .path, .log, .brd, .mem, .cap, .slc] (.residueRemovalDone port))
  ∧ Frame [.drawn, .out, .ctr, .hif, .lay, .path, .log, .brd, .rdm, .sto] .loglineArchiveWrite
  ∧ (∀ seq, Frame [.drawn, .out, .ctr, .hif, .lay, .path, .log, .brd, .rdm, .sto] (.pageArchiveRetry seq))
  ∧ (∀ port gen set tag bytes, Frame [.free, .out, .ctr, .lay, .path, .aut, .brd] (.chainSegmentReceive port gen set tag bytes))
  ∧ (∀ word crcOk, Frame [.free, .out, .ctr, .lay, .path, .aut, .brd] (.mchWordReceive word crcOk))
  ∧ (∀ word, Frame [.free, .ctr, .lay, .path, .aut] (.chainReturnReceive word))
  ∧ (∀ tag, Frame [.pclk, .free, .out, .ctr, .reel, .lay, .path, .aut, .brd] (.chainTagTimeout tag))
  ∧ (∀ unit, Frame [.out, .ctr, .hif, .aut, .mem, .cap, .slc] (.autLineReloadDone unit))
  ∧ (∀ table line, Frame [.out, .ctr, .spl, .hif, .tbl, .mem, .cap, .slc] (.tableLineReloadDone table line))
  ∧ (∀ port hdr hcrcOk bytes whole rxLen fcsBad sec, Frame [.out, .ctr, .hif, .shd, .path, .log, .brd, .mem, .cap, .she, .slc] (.braidDataReceive port hdr hcrcOk bytes whole rxLen fcsBad sec))
  ∧ (∀ port hello faceLends, Frame [.pclk, .out, .ctr, .reel, .spl, .hif, .lay, .shd, .path, .tbl, .log, .brd, .mem, .cap, .rdm, .she, .slc] (.helloReceive port hello faceLends))
  ∧ (∀ port grants rxFrames, Frame [.brd] (.creditReceive port grants rxFrames))
  ∧ (∀ port src op target seq turn arg, Frame [.out, .ctr, .spl, .hif, .shd, .brd, .mem, .cap, .slc] (.globalReceive port src op target seq turn arg))
  ∧ (∀ port turn, Frame [.brd] (.markerReceive port turn))
  ∧ (∀ port src dest lease p body, Frame [.out, .ctr, .hif, .brd, .mem, .cap, .slc] (.mgmtReceive port src dest lease p body))
  ∧ (∀ port, Frame [.out, .brd] (.leaseExpiry port))
  ∧ (∀ port pcs, Frame [.pclk, .out, .ctr, .reel, .spl, .hif, .lay, .shd, .path, .tbl, .log, .brd, .mem, .cap, .rdm, .she, .slc] (.braidLinkLoss port pcs))
  ∧ (∀ port, Frame [.out, .ctr, .reel, .spl, .hif, .shd, .path, .log, .brd, .cal, .mem, .cap, .slc] (.linkLossHandlingDone port))
  ∧ (∀ who code res, Frame [.out, .ctr, .spl, .hif, .cal, .mem, .cap, .slc] (.maintRequestGrant who code res))
  ∧ (∀ lane temp bin, Frame [.cal] (.serdesScan lane temp bin))
  ∧ (∀ port temp bin, Frame [.cal] (.serdesRecal port temp bin))
  ∧ (∀ ch dir limit temp bin, Frame [.ctr, .cal] (.dramEye ch dir limit temp bin))
  ∧ (∀ ch temp bin, Frame [.cal, .dmc] (.dramRetrain ch temp bin))
  ∧ (∀ ch hard fixed carried, Frame [.ctr, .cal, .dmc] (.dramPatrol ch hard fixed carried))
  ∧ (∀ ch, Frame [.cal, .dmc] (.dramTrack ch))
  ∧ (∀ port temp bin, Frame [.ctr, .path, .cal] (.headroom port temp bin))
  ∧ (∀ bad shadowErr, Frame [.ctr, .lay, .path, .tbl, .cal] (.tcamScrub bad shadowErr))
  ∧ (∀ bad shadowErr, Frame [.ctr, .lay, .path, .tbl, .cal] (.exactScrub bad shadowErr))
  ∧ (∀ lay bad, Frame [.free, .out, .ctr, .lay, .path, .aut, .brd, .cal, .cap] (.autScrub lay bad))
  ∧ (∀ code res, Frame [.pclk, .out, .ctr, .reel, .spl, .hif, .tbl, .aut, .cal, .mem, .cap, .slc] (.maintActivityEnd code res))
  ∧ (∀ code res, Frame [.ctr, .path, .cal] (.retakeLoadTrigger code res))
  ∧ (∀ code res temp, Frame [.ctr, .path, .cal] (.retakeTempTrigger code res temp))
  ∧ (∀ port, Frame [.reel, .path, .brd] (.portLinkUp port))
  ∧ (∀ out, Frame [.aut] (.mchLaneUp out))
  ∧ (∀ out, Frame [.aut] (.mchLaneDown out))

/-- What the commands of the host, the capstans, the coherent memory, DRAM, the stored units, RDMA, the keys, the settings, the boot and
the supplies leave unchanged, in every state. -/
def Obligations.HostAndStoreFrames : Prop :=
  (∀ seq, Frame [.ctr, .log] (.pageArchiveComplete seq))
  ∧ (∀ area, Frame [.cal, .boot] (.flashWrite area))
  ∧ Frame [.out, .ctr, .spl, .hif, .cal, .mem, .boot, .cap, .slc] .journalCompact
  ∧ (∀ c f7 rs2 rs1 rd, Frame [.ctr, .cap] (.hcCrc c f7 rs2 rs1 rd))
  ∧ (∀ c f7 rs2 rs1 rd, Frame [.ctr, .cap] (.hcKey c f7 rs2 rs1 rd))
  ∧ (∀ c f7 rs2 rs1 rd seg, Frame [.ctr, .aut, .cap] (.aqSub c f7 rs2 rs1 rd seg))
  ∧ (∀ c f7 rs1 rd, Frame [.ctr, .cap] (.aqGet c f7 rs1 rd))
  ∧ (∀ c rs1 rd, Frame [.ctr, .cap] (.clTry c rs1 rd))
  ∧ (∀ c rs2 rs1 rd, Frame [.ctr, .cap] (.clWait c rs2 rs1 rd))
  ∧ (∀ c rs1 rd, Frame [.ctr, .lay, .cap] (.clRel c rs1 rd))
  ∧ (∀ c rs1 rd, Frame [.ctr, .cap] (.clRead c rs1 rd))
  ∧ (∀ c, Frame [.pclk, .ctr, .reel, .cap] (.clWaitTimeout c))
  ∧ (∀ c rs2 rs1 rd, Frame [.out, .ctr, .lay, .cap] (.lnPut c rs2 rs1 rd))
  ∧ (∀ c rs1 rd, Frame [.out, .ctr, .lay, .cap] (.lnGet c rs1 rd))
  ∧ (∀ c rs2 rs1 rd, Frame [.out, .ctr, .lay, .cap] (.lnPutw c rs2 rs1 rd))
  ∧ (∀ c rs1 rd, Frame [.out, .ctr, .lay, .cap] (.lnGetw c rs1 rd))
  ∧ (∀ c, Frame [.ctr, .cap] (.coreInterrupt c))
  ∧ (∀ c held, Frame [.ctr, .hif, .lay, .aut, .cap] (.coreReset c held))
  ∧ (∀ c rd, Frame [.drawn, .ctr, .cap, .she] (.capRandRead c rd))
  ∧ (∀ c l v, Frame [.out, .ctr, .cap] (.lanyardNotifyWrite c l v))
  ∧ (∀ c, Frame [.ctr, .cap] (.l3ModeSwitch c))
  ∧ Frame [.mem, .cap] .l3SwitchDone
  ∧ (∀ c ln victim back, Frame [.out, .ctr, .mem, .dmc, .cap] (.rdShared c ln victim back))
  ∧ (∀ c ln victim back, Frame [.out, .ctr, .mem, .dmc, .cap] (.rdUnique c ln victim back))
  ∧ (∀ c ln, Frame [.out, .mem, .dmc, .cap] (.upgrade c ln))
  ∧ (∀ c ln, Frame [.mem, .dmc, .cap] (.evictDirty c ln))
  ∧ (∀ c ln, Frame [.ctr, .cap] (.evictClean c ln))
  ∧ (∀ agent ln, Frame [.out, .mem, .dmc, .cap] (.ioRead agent ln))
  ∧ (∀ agent ln mask line, Frame [.out, .mem, .dmc, .cap] (.ioWrite agent ln mask line))
  ∧ (∀ c ln dirty, Frame [.ctr, .cap] (.snpShared c ln dirty))
  ∧ (∀ c ln dirty, Frame [.ctr, .cap] (.snpInv c ln dirty))
  ∧ (∀ c ln, Frame [.out, .mem, .dmc, .cap] (.ack c ln))
  ∧ (∀ c ln, Frame [.out, .mem, .dmc, .cap] (.miss c ln))
  ∧ (∀ c ln, Frame [.out, .mem, .dmc, .cap] (.evicting c ln))
  ∧ (∀ c ln, Frame [.cap] (.data c ln))
  ∧ (∀ c ln, Frame [.cap] (.evictAck c ln))
  ∧ (∀ q v, Frame [.ctr, .hif] (.sqDoorbell q v))
  ∧ (∀ q v, Frame [.ctr, .hif] (.cqDoorbell q v))
  ∧ (∀ engine descs, Frame [.out, .ctr, .hif, .slc] (.fetchRound engine descs))
  ∧ (∀ q id frame, Frame [.out, .ctr, .hif, .lay, .path, .brd, .slc] (.inject q id frame))
  ∧ (∀ q id, Frame [.hif] (.netRecvBuf q id))
  ∧ (∀ q id, Frame [.spl, .hif] (.controlRun q id))
  ∧ (∀ q id, Frame logged (.eventBuf q id))
  ∧ (∀ q, Frame [.out, .ctr, .hif, .mem, .cap, .slc, .sto] (.completionWrite q))
  ∧ (∀ n, Frame [.free, .out, .ctr, .spl, .hif, .lay, .shd, .path, .brd, .cal, .mem, .cap, .she, .slc, .sto] (.hostLinkDown n))
  ∧ (∀ k, Frame [.hif] (.d3hotEntry k))
  ∧ (∀ k, Frame [.out, .ctr, .hif, .mem, .cap, .slc, .sto] (.d0Return k))
  ∧ (∀ k v, Frame [.out, .ctr, .hif] (.msixUnmask k v))
  ∧ (∀ who space off size v, Frame [.out, .ctr, .hif, .boot, .cap] (.registerWrite who space off size v))
  ∧ (∀ who off, Frame [.out, .hif, .path] (.rcRegisterRead who off))
  ∧ (∀ who off, Frame [.out, .ctr, .hif, .path, .tbl, .cap] (.counterLowRead who off))
  ∧ (∀ who v be, Frame [.ctr, .hif] (.glbSnapViewWrite who v be))
  ∧ (∀ who v be, Frame [.ctr, .hif] (.tblRawSelectWrite who v be))
  ∧ (∀ who off size v, Frame [.ctr, .hif, .cap] (.rawWindowWrite who off size v))
  ∧ (∀ who off v, Frame [.ctr, .hif, .tbl] (.rawStatusCommit who off v))
  ∧ (∀ who off, Frame [.out, .tbl] (.rawStatusRead who off))
  ∧ (∀ who off bytes, Frame [.ctr, .hif, .mem, .cap] (.bootWindowWrite who off bytes))
  ∧ (∀ who size v, Frame [.ctr, .hif, .cap, .she] (.sheTamperLatchClear who size v))
  ∧ (∀ who size v, Frame [.ctr, .hif, .cap, .pwr] (.pwrTripClear who size v))
  ∧ (∀ who slice v, Frame [.ctr, .hif, .slc] (.mbUp who slice v))
  ∧ (∀ who slice v, Frame [.ctr, .hif, .slc] (.mbDown who slice v))
  ∧ (∀ slice up bytes, Frame [.out, .ctr, .hif, .mem, .cap, .slc] (.mailboxDelivery slice up bytes))
  ∧ (∀ q id scatter, Frame [.drawn, .out, .ctr, .hif, .lay, .path, .log, .brd, .rdm, .sto] (.storeRead q id scatter))
  ∧ (∀ q id scatter, Frame [.drawn, .out, .ctr, .hif, .lay, .path, .log, .brd, .rdm, .sto] (.storeWrite q id scatter))
  ∧ (∀ q id, Frame [.drawn, .out, .ctr, .hif, .lay, .path, .log, .brd, .rdm, .sto] (.storeFlush q id))
  ∧ (∀ q id, Frame [.drawn, .out, .ctr, .hif, .lay, .path, .log, .brd, .rdm, .sto] (.storeTrim q id))
  ∧ (∀ q id, Frame [.ctr, .hif] (.abortTag q id))
  ∧ (∀ part code type, Frame [.ctr, .hif, .log, .sto] (.nvmeCompletionReceive part code type))
  ∧ (∀ part, Frame [.out, .ctr, .hif, .log, .mem, .cap, .slc, .sto] (.storePartTimeout part))
  ∧ (∀ part off write bytes, Frame [.out, .ctr, .mem, .cap, .slc] (.relayInboundAccess part off write bytes))
  ∧ (∀ p, Frame [.drawn, .out, .ctr, .hif, .lay, .path, .log, .brd, .mem, .cap, .rdm, .slc, .sto] (.rdmaPacketReceive p))
  ∧ (∀ conn, Frame [.drawn, .out, .ctr, .hif, .lay, .path, .log, .brd, .rdm, .sto] (.rdmaAckTimeout conn))
  ∧ (∀ q id src aad, Frame [.hif, .she, .slc] (.gcmEncrypt q id src aad))
  ∧ (∀ q id src aad tag, Frame [.hif, .she, .slc] (.gcmDecrypt q id src aad tag))
  ∧ (∀ q id src, Frame [.hif, .she, .slc] (.xtsEncrypt q id src))
  ∧ (∀ q id src, Frame [.hif, .she, .slc] (.xtsDecrypt q id src))
  ∧ (∀ q id src, Frame [.hif, .she, .slc] (.ctr q id src))
  ∧ (∀ q id blob, Frame [.hif, .she, .slc] (.keyUnwrap q id blob))
  ∧ (∀ q id, Frame [.drawn, .ctr, .hif, .she] (.keyGen q id))
  ∧ (∀ q id, Frame [.hif, .she] (.keyWrap q id))
  ∧ (∀ q id, Frame [.hif, .she] (.keyZero q id))
  ∧ (∀ q id, Frame [.hif, .she] (.saSet q id))
  ∧ (∀ who write a mask line keep, Frame [.free, .ctr, .mem, .dmc] (.dramRequestAccept who write a mask line keep))
  ∧ (∀ ch err dev mirrorBad, Frame [.drawn, .out, .ctr, .spl, .hif, .lay, .path, .log, .brd, .mem, .dmc, .rdm, .sto] (.dramReadReturn ch err dev mirrorBad))
  ∧ (∀ ch rank, Frame [.ctr, .dmc] (.dramRefresh ch rank))
  ∧ (∀ ch, Frame [.ctr, .dmc] (.dramParityAlert ch))
  ∧ (∀ ch ok spd, Frame [.dmc] (.dramTrainingStep ch ok spd))
  ∧ (∀ temp, Frame [.spl, .cal, .mem, .dmc] (.dramReady temp))
  ∧ (∀ t, Frame [.drawn, .ctr, .she] (.lcToken t))
  ∧ Frame [.she] .lockdownFuseBlow
  ∧ Frame [.drawn, .ctr, .log, .she] .rngStartupDone
  ∧ Frame [.ctr, .she] .rngHealthFail
  ∧ Frame [.she] .drbgReseed
  ∧ (∀ who size chk, Frame [.ctr, .hif, .boot, .cap, .she, .pwr] (.bootRelease who size chk))
  ∧ Frame [.pclk, .out, .reel, .boot] .gatesOpen
  ∧ Frame [.spl, .dmc, .boot] .bootScrubDone
  ∧ (∀ c addr, Frame [.out, .ctr, .spl, .hif, .cal, .mem, .boot, .cap, .slc] (.setAppend c addr))
  ∧ (∀ c, Frame [.ctr, .boot, .cap, .she] (.bootCommit c))
  ∧ (∀ c v, Frame [.ctr, .boot, .cap] (.bootSelect c v))
  ∧ (∀ below above err, Frame [.ctr, .pwr] (.avsEvaluation below above err))
  ∧ (∀ words, Frame [.ctr, .pwr] (.pmbAlert words))
  ∧ (∀ regs, Frame [.ctr, .pwr] (.telemetryPoll regs))
  ∧ (∀ rail, Frame [.ctr, .pwr] (.railExcursion rail))
  ∧ (∀ n, Frame [.out, .ctr, .hif, .sto] (.hostLinkL0 n))
  ∧ Frame [.reel] .tref10mInLoss
  ∧ (∀ rail, Frame [.pwr] (.railExcursionEnd rail))
  ∧ (∀ q id fault, Frame [.free, .out, .ctr, .hif, .aut, .mem, .boot, .cap, .she, .slc] (.cryptoResultRelease q id fault))
  ∧ (∀ ch, Frame [.pclk, .ctr, .reel, .mem, .dmc] (.oldestWriteWaitExpiry ch))
  ∧ (∀ ch bank, Frame [.pclk, .reel, .dmc] (.rowIdleClose ch bank))
end

