-- ==== Sys2Proof/Laws/State.lean ====
section
/-! SUPPORT. What each update of a block leaves in each field of the device: one lemma per field per update. -/
namespace Sys2Proof.Machine

@[simp] theorem State.onDev_dev (f : Dev → Dev) (s : State) : (s.onDev f).dev = f s.dev := rfl
@[simp] theorem State.onDev_snaps (f : Dev → Dev) (s : State) : (s.onDev f).snaps = s.snaps := rfl
@[simp] theorem State.onDev_frozen (f : Dev → Dev) (s : State) : (s.onDev f).frozen = s.frozen := rfl
@[simp] theorem State.onDev_pending (f : Dev → Dev) (s : State) : (s.onDev f).pending = s.pending := rfl

@[simp] theorem Dev.onSpl_variant24 (f : Splice → Splice) (d : Dev) : (d.onSpl f).variant24 = d.variant24 := rfl
@[simp] theorem Dev.onSpl_pclk (f : Splice → Splice) (d : Dev) : (d.onSpl f).pclk = d.pclk := rfl
@[simp] theorem Dev.onSpl_free (f : Splice → Splice) (d : Dev) : (d.onSpl f).free = d.free := rfl
@[simp] theorem Dev.onSpl_drawn (f : Splice → Splice) (d : Dev) : (d.onSpl f).drawn = d.drawn := rfl
@[simp] theorem Dev.onSpl_out (f : Splice → Splice) (d : Dev) : (d.onSpl f).out = d.out := rfl
@[simp] theorem Dev.onSpl_ctr (f : Splice → Splice) (d : Dev) : (d.onSpl f).ctr = d.ctr := rfl
@[simp] theorem Dev.onSpl_reel (f : Splice → Splice) (d : Dev) : (d.onSpl f).reel = d.reel := rfl
@[simp] theorem Dev.onSpl_spl (f : Splice → Splice) (d : Dev) : (d.onSpl f).spl = f d.spl := rfl
@[simp] theorem Dev.onSpl_hif (f : Splice → Splice) (d : Dev) : (d.onSpl f).hif = d.hif := rfl
@[simp] theorem Dev.onSpl_lay (f : Splice → Splice) (d : Dev) : (d.onSpl f).lay = d.lay := rfl
@[simp] theorem Dev.onSpl_shd (f : Splice → Splice) (d : Dev) : (d.onSpl f).shd = d.shd := rfl
@[simp] theorem Dev.onSpl_path (f : Splice → Splice) (d : Dev) : (d.onSpl f).path = d.path := rfl
@[simp] theorem Dev.onSpl_tbl (f : Splice → Splice) (d : Dev) : (d.onSpl f).tbl = d.tbl := rfl
@[simp] theorem Dev.onSpl_log (f : Splice → Splice) (d : Dev) : (d.onSpl f).log = d.log := rfl
@[simp] theorem Dev.onSpl_aut (f : Splice → Splice) (d : Dev) : (d.onSpl f).aut = d.aut := rfl
@[simp] theorem Dev.onSpl_brd (f : Splice → Splice) (d : Dev) : (d.onSpl f).brd = d.brd := rfl
@[simp] theorem Dev.onSpl_cal (f : Splice → Splice) (d : Dev) : (d.onSpl f).cal = d.cal := rfl
@[simp] theorem Dev.onSpl_mem (f : Splice → Splice) (d : Dev) : (d.onSpl f).mem = d.mem := rfl
@[simp] theorem Dev.onSpl_dmc (f : Splice → Splice) (d : Dev) : (d.onSpl f).dmc = d.dmc := rfl
@[simp] theorem Dev.onSpl_boot (f : Splice → Splice) (d : Dev) : (d.onSpl f).boot = d.boot := rfl
@[simp] theorem Dev.onSpl_cap (f : Splice → Splice) (d : Dev) : (d.onSpl f).cap = d.cap := rfl
@[simp] theorem Dev.onSpl_rdm (f : Splice → Splice) (d : Dev) : (d.onSpl f).rdm = d.rdm := rfl
@[simp] theorem Dev.onSpl_she (f : Splice → Splice) (d : Dev) : (d.onSpl f).she = d.she := rfl
@[simp] theorem Dev.onSpl_pwr (f : Splice → Splice) (d : Dev) : (d.onSpl f).pwr = d.pwr := rfl
@[simp] theorem Dev.onSpl_slc (f : Splice → Splice) (d : Dev) : (d.onSpl f).slc = d.slc := rfl
@[simp] theorem Dev.onSpl_sto (f : Splice → Splice) (d : Dev) : (d.onSpl f).sto = d.sto := rfl

@[simp] theorem Dev.onReel_variant24 (f : Reel → Reel) (d : Dev) : (d.onReel f).variant24 = d.variant24 := rfl
@[simp] theorem Dev.onReel_pclk (f : Reel → Reel) (d : Dev) : (d.onReel f).pclk = d.pclk := rfl
@[simp] theorem Dev.onReel_free (f : Reel → Reel) (d : Dev) : (d.onReel f).free = d.free := rfl
@[simp] theorem Dev.onReel_drawn (f : Reel → Reel) (d : Dev) : (d.onReel f).drawn = d.drawn := rfl
@[simp] theorem Dev.onReel_out (f : Reel → Reel) (d : Dev) : (d.onReel f).out = d.out := rfl
@[simp] theorem Dev.onReel_ctr (f : Reel → Reel) (d : Dev) : (d.onReel f).ctr = d.ctr := rfl
@[simp] theorem Dev.onReel_reel (f : Reel → Reel) (d : Dev) : (d.onReel f).reel = f d.reel := rfl
@[simp] theorem Dev.onReel_spl (f : Reel → Reel) (d : Dev) : (d.onReel f).spl = d.spl := rfl
@[simp] theorem Dev.onReel_hif (f : Reel → Reel) (d : Dev) : (d.onReel f).hif = d.hif := rfl
@[simp] theorem Dev.onReel_lay (f : Reel → Reel) (d : Dev) : (d.onReel f).lay = d.lay := rfl
@[simp] theorem Dev.onReel_shd (f : Reel → Reel) (d : Dev) : (d.onReel f).shd = d.shd := rfl
@[simp] theorem Dev.onReel_path (f : Reel → Reel) (d : Dev) : (d.onReel f).path = d.path := rfl
@[simp] theorem Dev.onReel_tbl (f : Reel → Reel) (d : Dev) : (d.onReel f).tbl = d.tbl := rfl
@[simp] theorem Dev.onReel_log (f : Reel → Reel) (d : Dev) : (d.onReel f).log = d.log := rfl
@[simp] theorem Dev.onReel_aut (f : Reel → Reel) (d : Dev) : (d.onReel f).aut = d.aut := rfl
@[simp] theorem Dev.onReel_brd (f : Reel → Reel) (d : Dev) : (d.onReel f).brd = d.brd := rfl
@[simp] theorem Dev.onReel_cal (f : Reel → Reel) (d : Dev) : (d.onReel f).cal = d.cal := rfl
@[simp] theorem Dev.onReel_mem (f : Reel → Reel) (d : Dev) : (d.onReel f).mem = d.mem := rfl
@[simp] theorem Dev.onReel_dmc (f : Reel → Reel) (d : Dev) : (d.onReel f).dmc = d.dmc := rfl
@[simp] theorem Dev.onReel_boot (f : Reel → Reel) (d : Dev) : (d.onReel f).boot = d.boot := rfl
@[simp] theorem Dev.onReel_cap (f : Reel → Reel) (d : Dev) : (d.onReel f).cap = d.cap := rfl
@[simp] theorem Dev.onReel_rdm (f : Reel → Reel) (d : Dev) : (d.onReel f).rdm = d.rdm := rfl
@[simp] theorem Dev.onReel_she (f : Reel → Reel) (d : Dev) : (d.onReel f).she = d.she := rfl
@[simp] theorem Dev.onReel_pwr (f : Reel → Reel) (d : Dev) : (d.onReel f).pwr = d.pwr := rfl
@[simp] theorem Dev.onReel_slc (f : Reel → Reel) (d : Dev) : (d.onReel f).slc = d.slc := rfl
@[simp] theorem Dev.onReel_sto (f : Reel → Reel) (d : Dev) : (d.onReel f).sto = d.sto := rfl

@[simp] theorem Dev.onHif_variant24 (f : Hif → Hif) (d : Dev) : (d.onHif f).variant24 = d.variant24 := rfl
@[simp] theorem Dev.onHif_pclk (f : Hif → Hif) (d : Dev) : (d.onHif f).pclk = d.pclk := rfl
@[simp] theorem Dev.onHif_free (f : Hif → Hif) (d : Dev) : (d.onHif f).free = d.free := rfl
@[simp] theorem Dev.onHif_drawn (f : Hif → Hif) (d : Dev) : (d.onHif f).drawn = d.drawn := rfl
@[simp] theorem Dev.onHif_out (f : Hif → Hif) (d : Dev) : (d.onHif f).out = d.out := rfl
@[simp] theorem Dev.onHif_ctr (f : Hif → Hif) (d : Dev) : (d.onHif f).ctr = d.ctr := rfl
@[simp] theorem Dev.onHif_reel (f : Hif → Hif) (d : Dev) : (d.onHif f).reel = d.reel := rfl
@[simp] theorem Dev.onHif_spl (f : Hif → Hif) (d : Dev) : (d.onHif f).spl = d.spl := rfl
@[simp] theorem Dev.onHif_hif (f : Hif → Hif) (d : Dev) : (d.onHif f).hif = f d.hif := rfl
@[simp] theorem Dev.onHif_lay (f : Hif → Hif) (d : Dev) : (d.onHif f).lay = d.lay := rfl
@[simp] theorem Dev.onHif_shd (f : Hif → Hif) (d : Dev) : (d.onHif f).shd = d.shd := rfl
@[simp] theorem Dev.onHif_path (f : Hif → Hif) (d : Dev) : (d.onHif f).path = d.path := rfl
@[simp] theorem Dev.onHif_tbl (f : Hif → Hif) (d : Dev) : (d.onHif f).tbl = d.tbl := rfl
@[simp] theorem Dev.onHif_log (f : Hif → Hif) (d : Dev) : (d.onHif f).log = d.log := rfl
@[simp] theorem Dev.onHif_aut (f : Hif → Hif) (d : Dev) : (d.onHif f).aut = d.aut := rfl
@[simp] theorem Dev.onHif_brd (f : Hif → Hif) (d : Dev) : (d.onHif f).brd = d.brd := rfl
@[simp] theorem Dev.onHif_cal (f : Hif → Hif) (d : Dev) : (d.onHif f).cal = d.cal := rfl
@[simp] theorem Dev.onHif_mem (f : Hif → Hif) (d : Dev) : (d.onHif f).mem = d.mem := rfl
@[simp] theorem Dev.onHif_dmc (f : Hif → Hif) (d : Dev) : (d.onHif f).dmc = d.dmc := rfl
@[simp] theorem Dev.onHif_boot (f : Hif → Hif) (d : Dev) : (d.onHif f).boot = d.boot := rfl
@[simp] theorem Dev.onHif_cap (f : Hif → Hif) (d : Dev) : (d.onHif f).cap = d.cap := rfl
@[simp] theorem Dev.onHif_rdm (f : Hif → Hif) (d : Dev) : (d.onHif f).rdm = d.rdm := rfl
@[simp] theorem Dev.onHif_she (f : Hif → Hif) (d : Dev) : (d.onHif f).she = d.she := rfl
@[simp] theorem Dev.onHif_pwr (f : Hif → Hif) (d : Dev) : (d.onHif f).pwr = d.pwr := rfl
@[simp] theorem Dev.onHif_slc (f : Hif → Hif) (d : Dev) : (d.onHif f).slc = d.slc := rfl
@[simp] theorem Dev.onHif_sto (f : Hif → Hif) (d : Dev) : (d.onHif f).sto = d.sto := rfl

@[simp] theorem Dev.onPath_variant24 (f : Path → Path) (d : Dev) : (d.onPath f).variant24 = d.variant24 := rfl
@[simp] theorem Dev.onPath_pclk (f : Path → Path) (d : Dev) : (d.onPath f).pclk = d.pclk := rfl
@[simp] theorem Dev.onPath_free (f : Path → Path) (d : Dev) : (d.onPath f).free = d.free := rfl
@[simp] theorem Dev.onPath_drawn (f : Path → Path) (d : Dev) : (d.onPath f).drawn = d.drawn := rfl
@[simp] theorem Dev.onPath_out (f : Path → Path) (d : Dev) : (d.onPath f).out = d.out := rfl
@[simp] theorem Dev.onPath_ctr (f : Path → Path) (d : Dev) : (d.onPath f).ctr = d.ctr := rfl
@[simp] theorem Dev.onPath_reel (f : Path → Path) (d : Dev) : (d.onPath f).reel = d.reel := rfl
@[simp] theorem Dev.onPath_spl (f : Path → Path) (d : Dev) : (d.onPath f).spl = d.spl := rfl
@[simp] theorem Dev.onPath_hif (f : Path → Path) (d : Dev) : (d.onPath f).hif = d.hif := rfl
@[simp] theorem Dev.onPath_lay (f : Path → Path) (d : Dev) : (d.onPath f).lay = d.lay := rfl
@[simp] theorem Dev.onPath_shd (f : Path → Path) (d : Dev) : (d.onPath f).shd = d.shd := rfl
@[simp] theorem Dev.onPath_path (f : Path → Path) (d : Dev) : (d.onPath f).path = f d.path := rfl
@[simp] theorem Dev.onPath_tbl (f : Path → Path) (d : Dev) : (d.onPath f).tbl = d.tbl := rfl
@[simp] theorem Dev.onPath_log (f : Path → Path) (d : Dev) : (d.onPath f).log = d.log := rfl
@[simp] theorem Dev.onPath_aut (f : Path → Path) (d : Dev) : (d.onPath f).aut = d.aut := rfl
@[simp] theorem Dev.onPath_brd (f : Path → Path) (d : Dev) : (d.onPath f).brd = d.brd := rfl
@[simp] theorem Dev.onPath_cal (f : Path → Path) (d : Dev) : (d.onPath f).cal = d.cal := rfl
@[simp] theorem Dev.onPath_mem (f : Path → Path) (d : Dev) : (d.onPath f).mem = d.mem := rfl
@[simp] theorem Dev.onPath_dmc (f : Path → Path) (d : Dev) : (d.onPath f).dmc = d.dmc := rfl
@[simp] theorem Dev.onPath_boot (f : Path → Path) (d : Dev) : (d.onPath f).boot = d.boot := rfl
@[simp] theorem Dev.onPath_cap (f : Path → Path) (d : Dev) : (d.onPath f).cap = d.cap := rfl
@[simp] theorem Dev.onPath_rdm (f : Path → Path) (d : Dev) : (d.onPath f).rdm = d.rdm := rfl
@[simp] theorem Dev.onPath_she (f : Path → Path) (d : Dev) : (d.onPath f).she = d.she := rfl
@[simp] theorem Dev.onPath_pwr (f : Path → Path) (d : Dev) : (d.onPath f).pwr = d.pwr := rfl
@[simp] theorem Dev.onPath_slc (f : Path → Path) (d : Dev) : (d.onPath f).slc = d.slc := rfl
@[simp] theorem Dev.onPath_sto (f : Path → Path) (d : Dev) : (d.onPath f).sto = d.sto := rfl

@[simp] theorem Dev.onTbl_variant24 (f : Tables → Tables) (d : Dev) : (d.onTbl f).variant24 = d.variant24 := rfl
@[simp] theorem Dev.onTbl_pclk (f : Tables → Tables) (d : Dev) : (d.onTbl f).pclk = d.pclk := rfl
@[simp] theorem Dev.onTbl_free (f : Tables → Tables) (d : Dev) : (d.onTbl f).free = d.free := rfl
@[simp] theorem Dev.onTbl_drawn (f : Tables → Tables) (d : Dev) : (d.onTbl f).drawn = d.drawn := rfl
@[simp] theorem Dev.onTbl_out (f : Tables → Tables) (d : Dev) : (d.onTbl f).out = d.out := rfl
@[simp] theorem Dev.onTbl_ctr (f : Tables → Tables) (d : Dev) : (d.onTbl f).ctr = d.ctr := rfl
@[simp] theorem Dev.onTbl_reel (f : Tables → Tables) (d : Dev) : (d.onTbl f).reel = d.reel := rfl
@[simp] theorem Dev.onTbl_spl (f : Tables → Tables) (d : Dev) : (d.onTbl f).spl = d.spl := rfl
@[simp] theorem Dev.onTbl_hif (f : Tables → Tables) (d : Dev) : (d.onTbl f).hif = d.hif := rfl
@[simp] theorem Dev.onTbl_lay (f : Tables → Tables) (d : Dev) : (d.onTbl f).lay = d.lay := rfl
@[simp] theorem Dev.onTbl_shd (f : Tables → Tables) (d : Dev) : (d.onTbl f).shd = d.shd := rfl
@[simp] theorem Dev.onTbl_path (f : Tables → Tables) (d : Dev) : (d.onTbl f).path = d.path := rfl
@[simp] theorem Dev.onTbl_tbl (f : Tables → Tables) (d : Dev) : (d.onTbl f).tbl = f d.tbl := rfl
@[simp] theorem Dev.onTbl_log (f : Tables → Tables) (d : Dev) : (d.onTbl f).log = d.log := rfl
@[simp] theorem Dev.onTbl_aut (f : Tables → Tables) (d : Dev) : (d.onTbl f).aut = d.aut := rfl
@[simp] theorem Dev.onTbl_brd (f : Tables → Tables) (d : Dev) : (d.onTbl f).brd = d.brd := rfl
@[simp] theorem Dev.onTbl_cal (f : Tables → Tables) (d : Dev) : (d.onTbl f).cal = d.cal := rfl
@[simp] theorem Dev.onTbl_mem (f : Tables → Tables) (d : Dev) : (d.onTbl f).mem = d.mem := rfl
@[simp] theorem Dev.onTbl_dmc (f : Tables → Tables) (d : Dev) : (d.onTbl f).dmc = d.dmc := rfl
@[simp] theorem Dev.onTbl_boot (f : Tables → Tables) (d : Dev) : (d.onTbl f).boot = d.boot := rfl
@[simp] theorem Dev.onTbl_cap (f : Tables → Tables) (d : Dev) : (d.onTbl f).cap = d.cap := rfl
@[simp] theorem Dev.onTbl_rdm (f : Tables → Tables) (d : Dev) : (d.onTbl f).rdm = d.rdm := rfl
@[simp] theorem Dev.onTbl_she (f : Tables → Tables) (d : Dev) : (d.onTbl f).she = d.she := rfl
@[simp] theorem Dev.onTbl_pwr (f : Tables → Tables) (d : Dev) : (d.onTbl f).pwr = d.pwr := rfl
@[simp] theorem Dev.onTbl_slc (f : Tables → Tables) (d : Dev) : (d.onTbl f).slc = d.slc := rfl
@[simp] theorem Dev.onTbl_sto (f : Tables → Tables) (d : Dev) : (d.onTbl f).sto = d.sto := rfl

@[simp] theorem Dev.onLog_variant24 (f : Log → Log) (d : Dev) : (d.onLog f).variant24 = d.variant24 := rfl
@[simp] theorem Dev.onLog_pclk (f : Log → Log) (d : Dev) : (d.onLog f).pclk = d.pclk := rfl
@[simp] theorem Dev.onLog_free (f : Log → Log) (d : Dev) : (d.onLog f).free = d.free := rfl
@[simp] theorem Dev.onLog_drawn (f : Log → Log) (d : Dev) : (d.onLog f).drawn = d.drawn := rfl
@[simp] theorem Dev.onLog_out (f : Log → Log) (d : Dev) : (d.onLog f).out = d.out := rfl
@[simp] theorem Dev.onLog_ctr (f : Log → Log) (d : Dev) : (d.onLog f).ctr = d.ctr := rfl
@[simp] theorem Dev.onLog_reel (f : Log → Log) (d : Dev) : (d.onLog f).reel = d.reel := rfl
@[simp] theorem Dev.onLog_spl (f : Log → Log) (d : Dev) : (d.onLog f).spl = d.spl := rfl
@[simp] theorem Dev.onLog_hif (f : Log → Log) (d : Dev) : (d.onLog f).hif = d.hif := rfl
@[simp] theorem Dev.onLog_lay (f : Log → Log) (d : Dev) : (d.onLog f).lay = d.lay := rfl
@[simp] theorem Dev.onLog_shd (f : Log → Log) (d : Dev) : (d.onLog f).shd = d.shd := rfl
@[simp] theorem Dev.onLog_path (f : Log → Log) (d : Dev) : (d.onLog f).path = d.path := rfl
@[simp] theorem Dev.onLog_tbl (f : Log → Log) (d : Dev) : (d.onLog f).tbl = d.tbl := rfl
@[simp] theorem Dev.onLog_log (f : Log → Log) (d : Dev) : (d.onLog f).log = f d.log := rfl
@[simp] theorem Dev.onLog_aut (f : Log → Log) (d : Dev) : (d.onLog f).aut = d.aut := rfl
@[simp] theorem Dev.onLog_brd (f : Log → Log) (d : Dev) : (d.onLog f).brd = d.brd := rfl
@[simp] theorem Dev.onLog_cal (f : Log → Log) (d : Dev) : (d.onLog f).cal = d.cal := rfl
@[simp] theorem Dev.onLog_mem (f : Log → Log) (d : Dev) : (d.onLog f).mem = d.mem := rfl
@[simp] theorem Dev.onLog_dmc (f : Log → Log) (d : Dev) : (d.onLog f).dmc = d.dmc := rfl
@[simp] theorem Dev.onLog_boot (f : Log → Log) (d : Dev) : (d.onLog f).boot = d.boot := rfl
@[simp] theorem Dev.onLog_cap (f : Log → Log) (d : Dev) : (d.onLog f).cap = d.cap := rfl
@[simp] theorem Dev.onLog_rdm (f : Log → Log) (d : Dev) : (d.onLog f).rdm = d.rdm := rfl
@[simp] theorem Dev.onLog_she (f : Log → Log) (d : Dev) : (d.onLog f).she = d.she := rfl
@[simp] theorem Dev.onLog_pwr (f : Log → Log) (d : Dev) : (d.onLog f).pwr = d.pwr := rfl
@[simp] theorem Dev.onLog_slc (f : Log → Log) (d : Dev) : (d.onLog f).slc = d.slc := rfl
@[simp] theorem Dev.onLog_sto (f : Log → Log) (d : Dev) : (d.onLog f).sto = d.sto := rfl

@[simp] theorem Dev.onAut_variant24 (f : Aut → Aut) (d : Dev) : (d.onAut f).variant24 = d.variant24 := rfl
@[simp] theorem Dev.onAut_pclk (f : Aut → Aut) (d : Dev) : (d.onAut f).pclk = d.pclk := rfl
@[simp] theorem Dev.onAut_free (f : Aut → Aut) (d : Dev) : (d.onAut f).free = d.free := rfl
@[simp] theorem Dev.onAut_drawn (f : Aut → Aut) (d : Dev) : (d.onAut f).drawn = d.drawn := rfl
@[simp] theorem Dev.onAut_out (f : Aut → Aut) (d : Dev) : (d.onAut f).out = d.out := rfl
@[simp] theorem Dev.onAut_ctr (f : Aut → Aut) (d : Dev) : (d.onAut f).ctr = d.ctr := rfl
@[simp] theorem Dev.onAut_reel (f : Aut → Aut) (d : Dev) : (d.onAut f).reel = d.reel := rfl
@[simp] theorem Dev.onAut_spl (f : Aut → Aut) (d : Dev) : (d.onAut f).spl = d.spl := rfl
@[simp] theorem Dev.onAut_hif (f : Aut → Aut) (d : Dev) : (d.onAut f).hif = d.hif := rfl
@[simp] theorem Dev.onAut_lay (f : Aut → Aut) (d : Dev) : (d.onAut f).lay = d.lay := rfl
@[simp] theorem Dev.onAut_shd (f : Aut → Aut) (d : Dev) : (d.onAut f).shd = d.shd := rfl
@[simp] theorem Dev.onAut_path (f : Aut → Aut) (d : Dev) : (d.onAut f).path = d.path := rfl
@[simp] theorem Dev.onAut_tbl (f : Aut → Aut) (d : Dev) : (d.onAut f).tbl = d.tbl := rfl
@[simp] theorem Dev.onAut_log (f : Aut → Aut) (d : Dev) : (d.onAut f).log = d.log := rfl
@[simp] theorem Dev.onAut_aut (f : Aut → Aut) (d : Dev) : (d.onAut f).aut = f d.aut := rfl
@[simp] theorem Dev.onAut_brd (f : Aut → Aut) (d : Dev) : (d.onAut f).brd = d.brd := rfl
@[simp] theorem Dev.onAut_cal (f : Aut → Aut) (d : Dev) : (d.onAut f).cal = d.cal := rfl
@[simp] theorem Dev.onAut_mem (f : Aut → Aut) (d : Dev) : (d.onAut f).mem = d.mem := rfl
@[simp] theorem Dev.onAut_dmc (f : Aut → Aut) (d : Dev) : (d.onAut f).dmc = d.dmc := rfl
@[simp] theorem Dev.onAut_boot (f : Aut → Aut) (d : Dev) : (d.onAut f).boot = d.boot := rfl
@[simp] theorem Dev.onAut_cap (f : Aut → Aut) (d : Dev) : (d.onAut f).cap = d.cap := rfl
@[simp] theorem Dev.onAut_rdm (f : Aut → Aut) (d : Dev) : (d.onAut f).rdm = d.rdm := rfl
@[simp] theorem Dev.onAut_she (f : Aut → Aut) (d : Dev) : (d.onAut f).she = d.she := rfl
@[simp] theorem Dev.onAut_pwr (f : Aut → Aut) (d : Dev) : (d.onAut f).pwr = d.pwr := rfl
@[simp] theorem Dev.onAut_slc (f : Aut → Aut) (d : Dev) : (d.onAut f).slc = d.slc := rfl
@[simp] theorem Dev.onAut_sto (f : Aut → Aut) (d : Dev) : (d.onAut f).sto = d.sto := rfl

@[simp] theorem Dev.onBrd_variant24 (f : Braid → Braid) (d : Dev) : (d.onBrd f).variant24 = d.variant24 := rfl
@[simp] theorem Dev.onBrd_pclk (f : Braid → Braid) (d : Dev) : (d.onBrd f).pclk = d.pclk := rfl
@[simp] theorem Dev.onBrd_free (f : Braid → Braid) (d : Dev) : (d.onBrd f).free = d.free := rfl
@[simp] theorem Dev.onBrd_drawn (f : Braid → Braid) (d : Dev) : (d.onBrd f).drawn = d.drawn := rfl
@[simp] theorem Dev.onBrd_out (f : Braid → Braid) (d : Dev) : (d.onBrd f).out = d.out := rfl
@[simp] theorem Dev.onBrd_ctr (f : Braid → Braid) (d : Dev) : (d.onBrd f).ctr = d.ctr := rfl
@[simp] theorem Dev.onBrd_reel (f : Braid → Braid) (d : Dev) : (d.onBrd f).reel = d.reel := rfl
@[simp] theorem Dev.onBrd_spl (f : Braid → Braid) (d : Dev) : (d.onBrd f).spl = d.spl := rfl
@[simp] theorem Dev.onBrd_hif (f : Braid → Braid) (d : Dev) : (d.onBrd f).hif = d.hif := rfl
@[simp] theorem Dev.onBrd_lay (f : Braid → Braid) (d : Dev) : (d.onBrd f).lay = d.lay := rfl
@[simp] theorem Dev.onBrd_shd (f : Braid → Braid) (d : Dev) : (d.onBrd f).shd = d.shd := rfl
@[simp] theorem Dev.onBrd_path (f : Braid → Braid) (d : Dev) : (d.onBrd f).path = d.path := rfl
@[simp] theorem Dev.onBrd_tbl (f : Braid → Braid) (d : Dev) : (d.onBrd f).tbl = d.tbl := rfl
@[simp] theorem Dev.onBrd_log (f : Braid → Braid) (d : Dev) : (d.onBrd f).log = d.log := rfl
@[simp] theorem Dev.onBrd_aut (f : Braid → Braid) (d : Dev) : (d.onBrd f).aut = d.aut := rfl
@[simp] theorem Dev.onBrd_brd (f : Braid → Braid) (d : Dev) : (d.onBrd f).brd = f d.brd := rfl
@[simp] theorem Dev.onBrd_cal (f : Braid → Braid) (d : Dev) : (d.onBrd f).cal = d.cal := rfl
@[simp] theorem Dev.onBrd_mem (f : Braid → Braid) (d : Dev) : (d.onBrd f).mem = d.mem := rfl
@[simp] theorem Dev.onBrd_dmc (f : Braid → Braid) (d : Dev) : (d.onBrd f).dmc = d.dmc := rfl
@[simp] theorem Dev.onBrd_boot (f : Braid → Braid) (d : Dev) : (d.onBrd f).boot = d.boot := rfl
@[simp] theorem Dev.onBrd_cap (f : Braid → Braid) (d : Dev) : (d.onBrd f).cap = d.cap := rfl
@[simp] theorem Dev.onBrd_rdm (f : Braid → Braid) (d : Dev) : (d.onBrd f).rdm = d.rdm := rfl
@[simp] theorem Dev.onBrd_she (f : Braid → Braid) (d : Dev) : (d.onBrd f).she = d.she := rfl
@[simp] theorem Dev.onBrd_pwr (f : Braid → Braid) (d : Dev) : (d.onBrd f).pwr = d.pwr := rfl
@[simp] theorem Dev.onBrd_slc (f : Braid → Braid) (d : Dev) : (d.onBrd f).slc = d.slc := rfl
@[simp] theorem Dev.onBrd_sto (f : Braid → Braid) (d : Dev) : (d.onBrd f).sto = d.sto := rfl

@[simp] theorem Dev.onCal_variant24 (f : Cal → Cal) (d : Dev) : (d.onCal f).variant24 = d.variant24 := rfl
@[simp] theorem Dev.onCal_pclk (f : Cal → Cal) (d : Dev) : (d.onCal f).pclk = d.pclk := rfl
@[simp] theorem Dev.onCal_free (f : Cal → Cal) (d : Dev) : (d.onCal f).free = d.free := rfl
@[simp] theorem Dev.onCal_drawn (f : Cal → Cal) (d : Dev) : (d.onCal f).drawn = d.drawn := rfl
@[simp] theorem Dev.onCal_out (f : Cal → Cal) (d : Dev) : (d.onCal f).out = d.out := rfl
@[simp] theorem Dev.onCal_ctr (f : Cal → Cal) (d : Dev) : (d.onCal f).ctr = d.ctr := rfl
@[simp] theorem Dev.onCal_reel (f : Cal → Cal) (d : Dev) : (d.onCal f).reel = d.reel := rfl
@[simp] theorem Dev.onCal_spl (f : Cal → Cal) (d : Dev) : (d.onCal f).spl = d.spl := rfl
@[simp] theorem Dev.onCal_hif (f : Cal → Cal) (d : Dev) : (d.onCal f).hif = d.hif := rfl
@[simp] theorem Dev.onCal_lay (f : Cal → Cal) (d : Dev) : (d.onCal f).lay = d.lay := rfl
@[simp] theorem Dev.onCal_shd (f : Cal → Cal) (d : Dev) : (d.onCal f).shd = d.shd := rfl
@[simp] theorem Dev.onCal_path (f : Cal → Cal) (d : Dev) : (d.onCal f).path = d.path := rfl
@[simp] theorem Dev.onCal_tbl (f : Cal → Cal) (d : Dev) : (d.onCal f).tbl = d.tbl := rfl
@[simp] theorem Dev.onCal_log (f : Cal → Cal) (d : Dev) : (d.onCal f).log = d.log := rfl
@[simp] theorem Dev.onCal_aut (f : Cal → Cal) (d : Dev) : (d.onCal f).aut = d.aut := rfl
@[simp] theorem Dev.onCal_brd (f : Cal → Cal) (d : Dev) : (d.onCal f).brd = d.brd := rfl
@[simp] theorem Dev.onCal_cal (f : Cal → Cal) (d : Dev) : (d.onCal f).cal = f d.cal := rfl
@[simp] theorem Dev.onCal_mem (f : Cal → Cal) (d : Dev) : (d.onCal f).mem = d.mem := rfl
@[simp] theorem Dev.onCal_dmc (f : Cal → Cal) (d : Dev) : (d.onCal f).dmc = d.dmc := rfl
@[simp] theorem Dev.onCal_boot (f : Cal → Cal) (d : Dev) : (d.onCal f).boot = d.boot := rfl
@[simp] theorem Dev.onCal_cap (f : Cal → Cal) (d : Dev) : (d.onCal f).cap = d.cap := rfl
@[simp] theorem Dev.onCal_rdm (f : Cal → Cal) (d : Dev) : (d.onCal f).rdm = d.rdm := rfl
@[simp] theorem Dev.onCal_she (f : Cal → Cal) (d : Dev) : (d.onCal f).she = d.she := rfl
@[simp] theorem Dev.onCal_pwr (f : Cal → Cal) (d : Dev) : (d.onCal f).pwr = d.pwr := rfl
@[simp] theorem Dev.onCal_slc (f : Cal → Cal) (d : Dev) : (d.onCal f).slc = d.slc := rfl
@[simp] theorem Dev.onCal_sto (f : Cal → Cal) (d : Dev) : (d.onCal f).sto = d.sto := rfl

@[simp] theorem Dev.onDmc_variant24 (f : Dmc → Dmc) (d : Dev) : (d.onDmc f).variant24 = d.variant24 := rfl
@[simp] theorem Dev.onDmc_pclk (f : Dmc → Dmc) (d : Dev) : (d.onDmc f).pclk = d.pclk := rfl
@[simp] theorem Dev.onDmc_free (f : Dmc → Dmc) (d : Dev) : (d.onDmc f).free = d.free := rfl
@[simp] theorem Dev.onDmc_drawn (f : Dmc → Dmc) (d : Dev) : (d.onDmc f).drawn = d.drawn := rfl
@[simp] theorem Dev.onDmc_out (f : Dmc → Dmc) (d : Dev) : (d.onDmc f).out = d.out := rfl
@[simp] theorem Dev.onDmc_ctr (f : Dmc → Dmc) (d : Dev) : (d.onDmc f).ctr = d.ctr := rfl
@[simp] theorem Dev.onDmc_reel (f : Dmc → Dmc) (d : Dev) : (d.onDmc f).reel = d.reel := rfl
@[simp] theorem Dev.onDmc_spl (f : Dmc → Dmc) (d : Dev) : (d.onDmc f).spl = d.spl := rfl
@[simp] theorem Dev.onDmc_hif (f : Dmc → Dmc) (d : Dev) : (d.onDmc f).hif = d.hif := rfl
@[simp] theorem Dev.onDmc_lay (f : Dmc → Dmc) (d : Dev) : (d.onDmc f).lay = d.lay := rfl
@[simp] theorem Dev.onDmc_shd (f : Dmc → Dmc) (d : Dev) : (d.onDmc f).shd = d.shd := rfl
@[simp] theorem Dev.onDmc_path (f : Dmc → Dmc) (d : Dev) : (d.onDmc f).path = d.path := rfl
@[simp] theorem Dev.onDmc_tbl (f : Dmc → Dmc) (d : Dev) : (d.onDmc f).tbl = d.tbl := rfl
@[simp] theorem Dev.onDmc_log (f : Dmc → Dmc) (d : Dev) : (d.onDmc f).log = d.log := rfl
@[simp] theorem Dev.onDmc_aut (f : Dmc → Dmc) (d : Dev) : (d.onDmc f).aut = d.aut := rfl
@[simp] theorem Dev.onDmc_brd (f : Dmc → Dmc) (d : Dev) : (d.onDmc f).brd = d.brd := rfl
@[simp] theorem Dev.onDmc_cal (f : Dmc → Dmc) (d : Dev) : (d.onDmc f).cal = d.cal := rfl
@[simp] theorem Dev.onDmc_mem (f : Dmc → Dmc) (d : Dev) : (d.onDmc f).mem = d.mem := rfl
@[simp] theorem Dev.onDmc_dmc (f : Dmc → Dmc) (d : Dev) : (d.onDmc f).dmc = f d.dmc := rfl
@[simp] theorem Dev.onDmc_boot (f : Dmc → Dmc) (d : Dev) : (d.onDmc f).boot = d.boot := rfl
@[simp] theorem Dev.onDmc_cap (f : Dmc → Dmc) (d : Dev) : (d.onDmc f).cap = d.cap := rfl
@[simp] theorem Dev.onDmc_rdm (f : Dmc → Dmc) (d : Dev) : (d.onDmc f).rdm = d.rdm := rfl
@[simp] theorem Dev.onDmc_she (f : Dmc → Dmc) (d : Dev) : (d.onDmc f).she = d.she := rfl
@[simp] theorem Dev.onDmc_pwr (f : Dmc → Dmc) (d : Dev) : (d.onDmc f).pwr = d.pwr := rfl
@[simp] theorem Dev.onDmc_slc (f : Dmc → Dmc) (d : Dev) : (d.onDmc f).slc = d.slc := rfl
@[simp] theorem Dev.onDmc_sto (f : Dmc → Dmc) (d : Dev) : (d.onDmc f).sto = d.sto := rfl

@[simp] theorem Dev.onBoot_variant24 (f : Boot → Boot) (d : Dev) : (d.onBoot f).variant24 = d.variant24 := rfl
@[simp] theorem Dev.onBoot_pclk (f : Boot → Boot) (d : Dev) : (d.onBoot f).pclk = d.pclk := rfl
@[simp] theorem Dev.onBoot_free (f : Boot → Boot) (d : Dev) : (d.onBoot f).free = d.free := rfl
@[simp] theorem Dev.onBoot_drawn (f : Boot → Boot) (d : Dev) : (d.onBoot f).drawn = d.drawn := rfl
@[simp] theorem Dev.onBoot_out (f : Boot → Boot) (d : Dev) : (d.onBoot f).out = d.out := rfl
@[simp] theorem Dev.onBoot_ctr (f : Boot → Boot) (d : Dev) : (d.onBoot f).ctr = d.ctr := rfl
@[simp] theorem Dev.onBoot_reel (f : Boot → Boot) (d : Dev) : (d.onBoot f).reel = d.reel := rfl
@[simp] theorem Dev.onBoot_spl (f : Boot → Boot) (d : Dev) : (d.onBoot f).spl = d.spl := rfl
@[simp] theorem Dev.onBoot_hif (f : Boot → Boot) (d : Dev) : (d.onBoot f).hif = d.hif := rfl
@[simp] theorem Dev.onBoot_lay (f : Boot → Boot) (d : Dev) : (d.onBoot f).lay = d.lay := rfl
@[simp] theorem Dev.onBoot_shd (f : Boot → Boot) (d : Dev) : (d.onBoot f).shd = d.shd := rfl
@[simp] theorem Dev.onBoot_path (f : Boot → Boot) (d : Dev) : (d.onBoot f).path = d.path := rfl
@[simp] theorem Dev.onBoot_tbl (f : Boot → Boot) (d : Dev) : (d.onBoot f).tbl = d.tbl := rfl
@[simp] theorem Dev.onBoot_log (f : Boot → Boot) (d : Dev) : (d.onBoot f).log = d.log := rfl
@[simp] theorem Dev.onBoot_aut (f : Boot → Boot) (d : Dev) : (d.onBoot f).aut = d.aut := rfl
@[simp] theorem Dev.onBoot_brd (f : Boot → Boot) (d : Dev) : (d.onBoot f).brd = d.brd := rfl
@[simp] theorem Dev.onBoot_cal (f : Boot → Boot) (d : Dev) : (d.onBoot f).cal = d.cal := rfl
@[simp] theorem Dev.onBoot_mem (f : Boot → Boot) (d : Dev) : (d.onBoot f).mem = d.mem := rfl
@[simp] theorem Dev.onBoot_dmc (f : Boot → Boot) (d : Dev) : (d.onBoot f).dmc = d.dmc := rfl
@[simp] theorem Dev.onBoot_boot (f : Boot → Boot) (d : Dev) : (d.onBoot f).boot = f d.boot := rfl
@[simp] theorem Dev.onBoot_cap (f : Boot → Boot) (d : Dev) : (d.onBoot f).cap = d.cap := rfl
@[simp] theorem Dev.onBoot_rdm (f : Boot → Boot) (d : Dev) : (d.onBoot f).rdm = d.rdm := rfl
@[simp] theorem Dev.onBoot_she (f : Boot → Boot) (d : Dev) : (d.onBoot f).she = d.she := rfl
@[simp] theorem Dev.onBoot_pwr (f : Boot → Boot) (d : Dev) : (d.onBoot f).pwr = d.pwr := rfl
@[simp] theorem Dev.onBoot_slc (f : Boot → Boot) (d : Dev) : (d.onBoot f).slc = d.slc := rfl
@[simp] theorem Dev.onBoot_sto (f : Boot → Boot) (d : Dev) : (d.onBoot f).sto = d.sto := rfl

@[simp] theorem Dev.onCap_variant24 (f : Cap → Cap) (d : Dev) : (d.onCap f).variant24 = d.variant24 := rfl
@[simp] theorem Dev.onCap_pclk (f : Cap → Cap) (d : Dev) : (d.onCap f).pclk = d.pclk := rfl
@[simp] theorem Dev.onCap_free (f : Cap → Cap) (d : Dev) : (d.onCap f).free = d.free := rfl
@[simp] theorem Dev.onCap_drawn (f : Cap → Cap) (d : Dev) : (d.onCap f).drawn = d.drawn := rfl
@[simp] theorem Dev.onCap_out (f : Cap → Cap) (d : Dev) : (d.onCap f).out = d.out := rfl
@[simp] theorem Dev.onCap_ctr (f : Cap → Cap) (d : Dev) : (d.onCap f).ctr = d.ctr := rfl
@[simp] theorem Dev.onCap_reel (f : Cap → Cap) (d : Dev) : (d.onCap f).reel = d.reel := rfl
@[simp] theorem Dev.onCap_spl (f : Cap → Cap) (d : Dev) : (d.onCap f).spl = d.spl := rfl
@[simp] theorem Dev.onCap_hif (f : Cap → Cap) (d : Dev) : (d.onCap f).hif = d.hif := rfl
@[simp] theorem Dev.onCap_lay (f : Cap → Cap) (d : Dev) : (d.onCap f).lay = d.lay := rfl
@[simp] theorem Dev.onCap_shd (f : Cap → Cap) (d : Dev) : (d.onCap f).shd = d.shd := rfl
@[simp] theorem Dev.onCap_path (f : Cap → Cap) (d : Dev) : (d.onCap f).path = d.path := rfl
@[simp] theorem Dev.onCap_tbl (f : Cap → Cap) (d : Dev) : (d.onCap f).tbl = d.tbl := rfl
@[simp] theorem Dev.onCap_log (f : Cap → Cap) (d : Dev) : (d.onCap f).log = d.log := rfl
@[simp] theorem Dev.onCap_aut (f : Cap → Cap) (d : Dev) : (d.onCap f).aut = d.aut := rfl
@[simp] theorem Dev.onCap_brd (f : Cap → Cap) (d : Dev) : (d.onCap f).brd = d.brd := rfl
@[simp] theorem Dev.onCap_cal (f : Cap → Cap) (d : Dev) : (d.onCap f).cal = d.cal := rfl
@[simp] theorem Dev.onCap_mem (f : Cap → Cap) (d : Dev) : (d.onCap f).mem = d.mem := rfl
@[simp] theorem Dev.onCap_dmc (f : Cap → Cap) (d : Dev) : (d.onCap f).dmc = d.dmc := rfl
@[simp] theorem Dev.onCap_boot (f : Cap → Cap) (d : Dev) : (d.onCap f).boot = d.boot := rfl
@[simp] theorem Dev.onCap_cap (f : Cap → Cap) (d : Dev) : (d.onCap f).cap = f d.cap := rfl
@[simp] theorem Dev.onCap_rdm (f : Cap → Cap) (d : Dev) : (d.onCap f).rdm = d.rdm := rfl
@[simp] theorem Dev.onCap_she (f : Cap → Cap) (d : Dev) : (d.onCap f).she = d.she := rfl
@[simp] theorem Dev.onCap_pwr (f : Cap → Cap) (d : Dev) : (d.onCap f).pwr = d.pwr := rfl
@[simp] theorem Dev.onCap_slc (f : Cap → Cap) (d : Dev) : (d.onCap f).slc = d.slc := rfl
@[simp] theorem Dev.onCap_sto (f : Cap → Cap) (d : Dev) : (d.onCap f).sto = d.sto := rfl

@[simp] theorem Dev.onRdm_variant24 (f : Rdm → Rdm) (d : Dev) : (d.onRdm f).variant24 = d.variant24 := rfl
@[simp] theorem Dev.onRdm_pclk (f : Rdm → Rdm) (d : Dev) : (d.onRdm f).pclk = d.pclk := rfl
@[simp] theorem Dev.onRdm_free (f : Rdm → Rdm) (d : Dev) : (d.onRdm f).free = d.free := rfl
@[simp] theorem Dev.onRdm_drawn (f : Rdm → Rdm) (d : Dev) : (d.onRdm f).drawn = d.drawn := rfl
@[simp] theorem Dev.onRdm_out (f : Rdm → Rdm) (d : Dev) : (d.onRdm f).out = d.out := rfl
@[simp] theorem Dev.onRdm_ctr (f : Rdm → Rdm) (d : Dev) : (d.onRdm f).ctr = d.ctr := rfl
@[simp] theorem Dev.onRdm_reel (f : Rdm → Rdm) (d : Dev) : (d.onRdm f).reel = d.reel := rfl
@[simp] theorem Dev.onRdm_spl (f : Rdm → Rdm) (d : Dev) : (d.onRdm f).spl = d.spl := rfl
@[simp] theorem Dev.onRdm_hif (f : Rdm → Rdm) (d : Dev) : (d.onRdm f).hif = d.hif := rfl
@[simp] theorem Dev.onRdm_lay (f : Rdm → Rdm) (d : Dev) : (d.onRdm f).lay = d.lay := rfl
@[simp] theorem Dev.onRdm_shd (f : Rdm → Rdm) (d : Dev) : (d.onRdm f).shd = d.shd := rfl
@[simp] theorem Dev.onRdm_path (f : Rdm → Rdm) (d : Dev) : (d.onRdm f).path = d.path := rfl
@[simp] theorem Dev.onRdm_tbl (f : Rdm → Rdm) (d : Dev) : (d.onRdm f).tbl = d.tbl := rfl
@[simp] theorem Dev.onRdm_log (f : Rdm → Rdm) (d : Dev) : (d.onRdm f).log = d.log := rfl
@[simp] theorem Dev.onRdm_aut (f : Rdm → Rdm) (d : Dev) : (d.onRdm f).aut = d.aut := rfl
@[simp] theorem Dev.onRdm_brd (f : Rdm → Rdm) (d : Dev) : (d.onRdm f).brd = d.brd := rfl
@[simp] theorem Dev.onRdm_cal (f : Rdm → Rdm) (d : Dev) : (d.onRdm f).cal = d.cal := rfl
@[simp] theorem Dev.onRdm_mem (f : Rdm → Rdm) (d : Dev) : (d.onRdm f).mem = d.mem := rfl
@[simp] theorem Dev.onRdm_dmc (f : Rdm → Rdm) (d : Dev) : (d.onRdm f).dmc = d.dmc := rfl
@[simp] theorem Dev.onRdm_boot (f : Rdm → Rdm) (d : Dev) : (d.onRdm f).boot = d.boot := rfl
@[simp] theorem Dev.onRdm_cap (f : Rdm → Rdm) (d : Dev) : (d.onRdm f).cap = d.cap := rfl
@[simp] theorem Dev.onRdm_rdm (f : Rdm → Rdm) (d : Dev) : (d.onRdm f).rdm = f d.rdm := rfl
@[simp] theorem Dev.onRdm_she (f : Rdm → Rdm) (d : Dev) : (d.onRdm f).she = d.she := rfl
@[simp] theorem Dev.onRdm_pwr (f : Rdm → Rdm) (d : Dev) : (d.onRdm f).pwr = d.pwr := rfl
@[simp] theorem Dev.onRdm_slc (f : Rdm → Rdm) (d : Dev) : (d.onRdm f).slc = d.slc := rfl
@[simp] theorem Dev.onRdm_sto (f : Rdm → Rdm) (d : Dev) : (d.onRdm f).sto = d.sto := rfl

@[simp] theorem Dev.onShe_variant24 (f : She → She) (d : Dev) : (d.onShe f).variant24 = d.variant24 := rfl
@[simp] theorem Dev.onShe_pclk (f : She → She) (d : Dev) : (d.onShe f).pclk = d.pclk := rfl
@[simp] theorem Dev.onShe_free (f : She → She) (d : Dev) : (d.onShe f).free = d.free := rfl
@[simp] theorem Dev.onShe_drawn (f : She → She) (d : Dev) : (d.onShe f).drawn = d.drawn := rfl
@[simp] theorem Dev.onShe_out (f : She → She) (d : Dev) : (d.onShe f).out = d.out := rfl
@[simp] theorem Dev.onShe_ctr (f : She → She) (d : Dev) : (d.onShe f).ctr = d.ctr := rfl
@[simp] theorem Dev.onShe_reel (f : She → She) (d : Dev) : (d.onShe f).reel = d.reel := rfl
@[simp] theorem Dev.onShe_spl (f : She → She) (d : Dev) : (d.onShe f).spl = d.spl := rfl
@[simp] theorem Dev.onShe_hif (f : She → She) (d : Dev) : (d.onShe f).hif = d.hif := rfl
@[simp] theorem Dev.onShe_lay (f : She → She) (d : Dev) : (d.onShe f).lay = d.lay := rfl
@[simp] theorem Dev.onShe_shd (f : She → She) (d : Dev) : (d.onShe f).shd = d.shd := rfl
@[simp] theorem Dev.onShe_path (f : She → She) (d : Dev) : (d.onShe f).path = d.path := rfl
@[simp] theorem Dev.onShe_tbl (f : She → She) (d : Dev) : (d.onShe f).tbl = d.tbl := rfl
@[simp] theorem Dev.onShe_log (f : She → She) (d : Dev) : (d.onShe f).log = d.log := rfl
@[simp] theorem Dev.onShe_aut (f : She → She) (d : Dev) : (d.onShe f).aut = d.aut := rfl
@[simp] theorem Dev.onShe_brd (f : She → She) (d : Dev) : (d.onShe f).brd = d.brd := rfl
@[simp] theorem Dev.onShe_cal (f : She → She) (d : Dev) : (d.onShe f).cal = d.cal := rfl
@[simp] theorem Dev.onShe_mem (f : She → She) (d : Dev) : (d.onShe f).mem = d.mem := rfl
@[simp] theorem Dev.onShe_dmc (f : She → She) (d : Dev) : (d.onShe f).dmc = d.dmc := rfl
@[simp] theorem Dev.onShe_boot (f : She → She) (d : Dev) : (d.onShe f).boot = d.boot := rfl
@[simp] theorem Dev.onShe_cap (f : She → She) (d : Dev) : (d.onShe f).cap = d.cap := rfl
@[simp] theorem Dev.onShe_rdm (f : She → She) (d : Dev) : (d.onShe f).rdm = d.rdm := rfl
@[simp] theorem Dev.onShe_she (f : She → She) (d : Dev) : (d.onShe f).she = f d.she := rfl
@[simp] theorem Dev.onShe_pwr (f : She → She) (d : Dev) : (d.onShe f).pwr = d.pwr := rfl
@[simp] theorem Dev.onShe_slc (f : She → She) (d : Dev) : (d.onShe f).slc = d.slc := rfl
@[simp] theorem Dev.onShe_sto (f : She → She) (d : Dev) : (d.onShe f).sto = d.sto := rfl

@[simp] theorem Dev.onPwr_variant24 (f : Pwr → Pwr) (d : Dev) : (d.onPwr f).variant24 = d.variant24 := rfl
@[simp] theorem Dev.onPwr_pclk (f : Pwr → Pwr) (d : Dev) : (d.onPwr f).pclk = d.pclk := rfl
@[simp] theorem Dev.onPwr_free (f : Pwr → Pwr) (d : Dev) : (d.onPwr f).free = d.free := rfl
@[simp] theorem Dev.onPwr_drawn (f : Pwr → Pwr) (d : Dev) : (d.onPwr f).drawn = d.drawn := rfl
@[simp] theorem Dev.onPwr_out (f : Pwr → Pwr) (d : Dev) : (d.onPwr f).out = d.out := rfl
@[simp] theorem Dev.onPwr_ctr (f : Pwr → Pwr) (d : Dev) : (d.onPwr f).ctr = d.ctr := rfl
@[simp] theorem Dev.onPwr_reel (f : Pwr → Pwr) (d : Dev) : (d.onPwr f).reel = d.reel := rfl
@[simp] theorem Dev.onPwr_spl (f : Pwr → Pwr) (d : Dev) : (d.onPwr f).spl = d.spl := rfl
@[simp] theorem Dev.onPwr_hif (f : Pwr → Pwr) (d : Dev) : (d.onPwr f).hif = d.hif := rfl
@[simp] theorem Dev.onPwr_lay (f : Pwr → Pwr) (d : Dev) : (d.onPwr f).lay = d.lay := rfl
@[simp] theorem Dev.onPwr_shd (f : Pwr → Pwr) (d : Dev) : (d.onPwr f).shd = d.shd := rfl
@[simp] theorem Dev.onPwr_path (f : Pwr → Pwr) (d : Dev) : (d.onPwr f).path = d.path := rfl
@[simp] theorem Dev.onPwr_tbl (f : Pwr → Pwr) (d : Dev) : (d.onPwr f).tbl = d.tbl := rfl
@[simp] theorem Dev.onPwr_log (f : Pwr → Pwr) (d : Dev) : (d.onPwr f).log = d.log := rfl
@[simp] theorem Dev.onPwr_aut (f : Pwr → Pwr) (d : Dev) : (d.onPwr f).aut = d.aut := rfl
@[simp] theorem Dev.onPwr_brd (f : Pwr → Pwr) (d : Dev) : (d.onPwr f).brd = d.brd := rfl
@[simp] theorem Dev.onPwr_cal (f : Pwr → Pwr) (d : Dev) : (d.onPwr f).cal = d.cal := rfl
@[simp] theorem Dev.onPwr_mem (f : Pwr → Pwr) (d : Dev) : (d.onPwr f).mem = d.mem := rfl
@[simp] theorem Dev.onPwr_dmc (f : Pwr → Pwr) (d : Dev) : (d.onPwr f).dmc = d.dmc := rfl
@[simp] theorem Dev.onPwr_boot (f : Pwr → Pwr) (d : Dev) : (d.onPwr f).boot = d.boot := rfl
@[simp] theorem Dev.onPwr_cap (f : Pwr → Pwr) (d : Dev) : (d.onPwr f).cap = d.cap := rfl
@[simp] theorem Dev.onPwr_rdm (f : Pwr → Pwr) (d : Dev) : (d.onPwr f).rdm = d.rdm := rfl
@[simp] theorem Dev.onPwr_she (f : Pwr → Pwr) (d : Dev) : (d.onPwr f).she = d.she := rfl
@[simp] theorem Dev.onPwr_pwr (f : Pwr → Pwr) (d : Dev) : (d.onPwr f).pwr = f d.pwr := rfl
@[simp] theorem Dev.onPwr_slc (f : Pwr → Pwr) (d : Dev) : (d.onPwr f).slc = d.slc := rfl
@[simp] theorem Dev.onPwr_sto (f : Pwr → Pwr) (d : Dev) : (d.onPwr f).sto = d.sto := rfl

@[simp] theorem Dev.onSto_variant24 (f : Sto → Sto) (d : Dev) : (d.onSto f).variant24 = d.variant24 := rfl
@[simp] theorem Dev.onSto_pclk (f : Sto → Sto) (d : Dev) : (d.onSto f).pclk = d.pclk := rfl
@[simp] theorem Dev.onSto_free (f : Sto → Sto) (d : Dev) : (d.onSto f).free = d.free := rfl
@[simp] theorem Dev.onSto_drawn (f : Sto → Sto) (d : Dev) : (d.onSto f).drawn = d.drawn := rfl
@[simp] theorem Dev.onSto_out (f : Sto → Sto) (d : Dev) : (d.onSto f).out = d.out := rfl
@[simp] theorem Dev.onSto_ctr (f : Sto → Sto) (d : Dev) : (d.onSto f).ctr = d.ctr := rfl
@[simp] theorem Dev.onSto_reel (f : Sto → Sto) (d : Dev) : (d.onSto f).reel = d.reel := rfl
@[simp] theorem Dev.onSto_spl (f : Sto → Sto) (d : Dev) : (d.onSto f).spl = d.spl := rfl
@[simp] theorem Dev.onSto_hif (f : Sto → Sto) (d : Dev) : (d.onSto f).hif = d.hif := rfl
@[simp] theorem Dev.onSto_lay (f : Sto → Sto) (d : Dev) : (d.onSto f).lay = d.lay := rfl
@[simp] theorem Dev.onSto_shd (f : Sto → Sto) (d : Dev) : (d.onSto f).shd = d.shd := rfl
@[simp] theorem Dev.onSto_path (f : Sto → Sto) (d : Dev) : (d.onSto f).path = d.path := rfl
@[simp] theorem Dev.onSto_tbl (f : Sto → Sto) (d : Dev) : (d.onSto f).tbl = d.tbl := rfl
@[simp] theorem Dev.onSto_log (f : Sto → Sto) (d : Dev) : (d.onSto f).log = d.log := rfl
@[simp] theorem Dev.onSto_aut (f : Sto → Sto) (d : Dev) : (d.onSto f).aut = d.aut := rfl
@[simp] theorem Dev.onSto_brd (f : Sto → Sto) (d : Dev) : (d.onSto f).brd = d.brd := rfl
@[simp] theorem Dev.onSto_cal (f : Sto → Sto) (d : Dev) : (d.onSto f).cal = d.cal := rfl
@[simp] theorem Dev.onSto_mem (f : Sto → Sto) (d : Dev) : (d.onSto f).mem = d.mem := rfl
@[simp] theorem Dev.onSto_dmc (f : Sto → Sto) (d : Dev) : (d.onSto f).dmc = d.dmc := rfl
@[simp] theorem Dev.onSto_boot (f : Sto → Sto) (d : Dev) : (d.onSto f).boot = d.boot := rfl
@[simp] theorem Dev.onSto_cap (f : Sto → Sto) (d : Dev) : (d.onSto f).cap = d.cap := rfl
@[simp] theorem Dev.onSto_rdm (f : Sto → Sto) (d : Dev) : (d.onSto f).rdm = d.rdm := rfl
@[simp] theorem Dev.onSto_she (f : Sto → Sto) (d : Dev) : (d.onSto f).she = d.she := rfl
@[simp] theorem Dev.onSto_pwr (f : Sto → Sto) (d : Dev) : (d.onSto f).pwr = d.pwr := rfl
@[simp] theorem Dev.onSto_slc (f : Sto → Sto) (d : Dev) : (d.onSto f).slc = d.slc := rfl
@[simp] theorem Dev.onSto_sto (f : Sto → Sto) (d : Dev) : (d.onSto f).sto = f d.sto := rfl

@[simp] theorem Dev.add_variant24 (off n : Nat) (d : Dev) : (d.add off n).variant24 = d.variant24 := rfl
@[simp] theorem Dev.add_pclk (off n : Nat) (d : Dev) : (d.add off n).pclk = d.pclk := rfl
@[simp] theorem Dev.add_free (off n : Nat) (d : Dev) : (d.add off n).free = d.free := rfl
@[simp] theorem Dev.add_drawn (off n : Nat) (d : Dev) : (d.add off n).drawn = d.drawn := rfl
@[simp] theorem Dev.add_out (off n : Nat) (d : Dev) : (d.add off n).out = d.out := rfl
@[simp] theorem Dev.add_ctr (off n : Nat) (d : Dev) : (d.add off n).ctr = Map.modify d.ctr off 0 fun v => v + BitVec.ofNat 64 n := rfl
@[simp] theorem Dev.add_reel (off n : Nat) (d : Dev) : (d.add off n).reel = d.reel := rfl
@[simp] theorem Dev.add_spl (off n : Nat) (d : Dev) : (d.add off n).spl = d.spl := rfl
@[simp] theorem Dev.add_hif (off n : Nat) (d : Dev) : (d.add off n).hif = d.hif := rfl
@[simp] theorem Dev.add_lay (off n : Nat) (d : Dev) : (d.add off n).lay = d.lay := rfl
@[simp] theorem Dev.add_shd (off n : Nat) (d : Dev) : (d.add off n).shd = d.shd := rfl
@[simp] theorem Dev.add_path (off n : Nat) (d : Dev) : (d.add off n).path = d.path := rfl
@[simp] theorem Dev.add_tbl (off n : Nat) (d : Dev) : (d.add off n).tbl = d.tbl := rfl
@[simp] theorem Dev.add_log (off n : Nat) (d : Dev) : (d.add off n).log = d.log := rfl
@[simp] theorem Dev.add_aut (off n : Nat) (d : Dev) : (d.add off n).aut = d.aut := rfl
@[simp] theorem Dev.add_brd (off n : Nat) (d : Dev) : (d.add off n).brd = d.brd := rfl
@[simp] theorem Dev.add_cal (off n : Nat) (d : Dev) : (d.add off n).cal = d.cal := rfl
@[simp] theorem Dev.add_mem (off n : Nat) (d : Dev) : (d.add off n).mem = d.mem := rfl
@[simp] theorem Dev.add_dmc (off n : Nat) (d : Dev) : (d.add off n).dmc = d.dmc := rfl
@[simp] theorem Dev.add_boot (off n : Nat) (d : Dev) : (d.add off n).boot = d.boot := rfl
@[simp] theorem Dev.add_cap (off n : Nat) (d : Dev) : (d.add off n).cap = d.cap := rfl
@[simp] theorem Dev.add_rdm (off n : Nat) (d : Dev) : (d.add off n).rdm = d.rdm := rfl
@[simp] theorem Dev.add_she (off n : Nat) (d : Dev) : (d.add off n).she = d.she := rfl
@[simp] theorem Dev.add_pwr (off n : Nat) (d : Dev) : (d.add off n).pwr = d.pwr := rfl
@[simp] theorem Dev.add_slc (off n : Nat) (d : Dev) : (d.add off n).slc = d.slc := rfl
@[simp] theorem Dev.add_sto (off n : Nat) (d : Dev) : (d.add off n).sto = d.sto := rfl

@[simp] theorem Dev.send_variant24 (k : OutKind) (a : List Nat) (b : List Byte) (d : Dev) : (d.send k a b).variant24 = d.variant24 := rfl
@[simp] theorem Dev.send_pclk (k : OutKind) (a : List Nat) (b : List Byte) (d : Dev) : (d.send k a b).pclk = d.pclk := rfl
@[simp] theorem Dev.send_free (k : OutKind) (a : List Nat) (b : List Byte) (d : Dev) : (d.send k a b).free = d.free := rfl
@[simp] theorem Dev.send_drawn (k : OutKind) (a : List Nat) (b : List Byte) (d : Dev) : (d.send k a b).drawn = d.drawn := rfl
@[simp] theorem Dev.send_out (k : OutKind) (a : List Nat) (b : List Byte) (d : Dev) : (d.send k a b).out = d.out ++ [⟨k, a, b⟩] := rfl
@[simp] theorem Dev.send_ctr (k : OutKind) (a : List Nat) (b : List Byte) (d : Dev) : (d.send k a b).ctr = d.ctr := rfl
@[simp] theorem Dev.send_reel (k : OutKind) (a : List Nat) (b : List Byte) (d : Dev) : (d.send k a b).reel = d.reel := rfl
@[simp] theorem Dev.send_spl (k : OutKind) (a : List Nat) (b : List Byte) (d : Dev) : (d.send k a b).spl = d.spl := rfl
@[simp] theorem Dev.send_hif (k : OutKind) (a : List Nat) (b : List Byte) (d : Dev) : (d.send k a b).hif = d.hif := rfl
@[simp] theorem Dev.send_lay (k : OutKind) (a : List Nat) (b : List Byte) (d : Dev) : (d.send k a b).lay = d.lay := rfl
@[simp] theorem Dev.send_shd (k : OutKind) (a : List Nat) (b : List Byte) (d : Dev) : (d.send k a b).shd = d.shd := rfl
@[simp] theorem Dev.send_path (k : OutKind) (a : List Nat) (b : List Byte) (d : Dev) : (d.send k a b).path = d.path := rfl
@[simp] theorem Dev.send_tbl (k : OutKind) (a : List Nat) (b : List Byte) (d : Dev) : (d.send k a b).tbl = d.tbl := rfl
@[simp] theorem Dev.send_log (k : OutKind) (a : List Nat) (b : List Byte) (d : Dev) : (d.send k a b).log = d.log := rfl
@[simp] theorem Dev.send_aut (k : OutKind) (a : List Nat) (b : List Byte) (d : Dev) : (d.send k a b).aut = d.aut := rfl
@[simp] theorem Dev.send_brd (k : OutKind) (a : List Nat) (b : List Byte) (d : Dev) : (d.send k a b).brd = d.brd := rfl
@[simp] theorem Dev.send_cal (k : OutKind) (a : List Nat) (b : List Byte) (d : Dev) : (d.send k a b).cal = d.cal := rfl
@[simp] theorem Dev.send_mem (k : OutKind) (a : List Nat) (b : List Byte) (d : Dev) : (d.send k a b).mem = d.mem := rfl
@[simp] theorem Dev.send_dmc (k : OutKind) (a : List Nat) (b : List Byte) (d : Dev) : (d.send k a b).dmc = d.dmc := rfl
@[simp] theorem Dev.send_boot (k : OutKind) (a : List Nat) (b : List Byte) (d : Dev) : (d.send k a b).boot = d.boot := rfl
@[simp] theorem Dev.send_cap (k : OutKind) (a : List Nat) (b : List Byte) (d : Dev) : (d.send k a b).cap = d.cap := rfl
@[simp] theorem Dev.send_rdm (k : OutKind) (a : List Nat) (b : List Byte) (d : Dev) : (d.send k a b).rdm = d.rdm := rfl
@[simp] theorem Dev.send_she (k : OutKind) (a : List Nat) (b : List Byte) (d : Dev) : (d.send k a b).she = d.she := rfl
@[simp] theorem Dev.send_pwr (k : OutKind) (a : List Nat) (b : List Byte) (d : Dev) : (d.send k a b).pwr = d.pwr := rfl
@[simp] theorem Dev.send_slc (k : OutKind) (a : List Nat) (b : List Byte) (d : Dev) : (d.send k a b).slc = d.slc := rfl
@[simp] theorem Dev.send_sto (k : OutKind) (a : List Nat) (b : List Byte) (d : Dev) : (d.send k a b).sto = d.sto := rfl

@[simp] theorem Dev.useFree_variant24 (d : Dev) : (d.useFree).variant24 = d.variant24 := rfl
@[simp] theorem Dev.useFree_pclk (d : Dev) : (d.useFree).pclk = d.pclk := rfl
@[simp] theorem Dev.useFree_free (d : Dev) : (d.useFree).free = d.free + 1 := rfl
@[simp] theorem Dev.useFree_drawn (d : Dev) : (d.useFree).drawn = d.drawn := rfl
@[simp] theorem Dev.useFree_out (d : Dev) : (d.useFree).out = d.out := rfl
@[simp] theorem Dev.useFree_ctr (d : Dev) : (d.useFree).ctr = d.ctr := rfl
@[simp] theorem Dev.useFree_reel (d : Dev) : (d.useFree).reel = d.reel := rfl
@[simp] theorem Dev.useFree_spl (d : Dev) : (d.useFree).spl = d.spl := rfl
@[simp] theorem Dev.useFree_hif (d : Dev) : (d.useFree).hif = d.hif := rfl
@[simp] theorem Dev.useFree_lay (d : Dev) : (d.useFree).lay = d.lay := rfl
@[simp] theorem Dev.useFree_shd (d : Dev) : (d.useFree).shd = d.shd := rfl
@[simp] theorem Dev.useFree_path (d : Dev) : (d.useFree).path = d.path := rfl
@[simp] theorem Dev.useFree_tbl (d : Dev) : (d.useFree).tbl = d.tbl := rfl
@[simp] theorem Dev.useFree_log (d : Dev) : (d.useFree).log = d.log := rfl
@[simp] theorem Dev.useFree_aut (d : Dev) : (d.useFree).aut = d.aut := rfl
@[simp] theorem Dev.useFree_brd (d : Dev) : (d.useFree).brd = d.brd := rfl
@[simp] theorem Dev.useFree_cal (d : Dev) : (d.useFree).cal = d.cal := rfl
@[simp] theorem Dev.useFree_mem (d : Dev) : (d.useFree).mem = d.mem := rfl
@[simp] theorem Dev.useFree_dmc (d : Dev) : (d.useFree).dmc = d.dmc := rfl
@[simp] theorem Dev.useFree_boot (d : Dev) : (d.useFree).boot = d.boot := rfl
@[simp] theorem Dev.useFree_cap (d : Dev) : (d.useFree).cap = d.cap := rfl
@[simp] theorem Dev.useFree_rdm (d : Dev) : (d.useFree).rdm = d.rdm := rfl
@[simp] theorem Dev.useFree_she (d : Dev) : (d.useFree).she = d.she := rfl
@[simp] theorem Dev.useFree_pwr (d : Dev) : (d.useFree).pwr = d.pwr := rfl
@[simp] theorem Dev.useFree_slc (d : Dev) : (d.useFree).slc = d.slc := rfl
@[simp] theorem Dev.useFree_sto (d : Dev) : (d.useFree).sto = d.sto := rfl

@[simp] theorem Dev.draw_variant24 (n : Nat) (d : Dev) : (d.draw n).variant24 = d.variant24 := rfl
@[simp] theorem Dev.draw_pclk (n : Nat) (d : Dev) : (d.draw n).pclk = d.pclk := rfl
@[simp] theorem Dev.draw_free (n : Nat) (d : Dev) : (d.draw n).free = d.free := rfl
@[simp] theorem Dev.draw_drawn (n : Nat) (d : Dev) : (d.draw n).drawn = d.drawn + n := rfl
@[simp] theorem Dev.draw_out (n : Nat) (d : Dev) : (d.draw n).out = d.out := rfl
@[simp] theorem Dev.draw_ctr (n : Nat) (d : Dev) : (d.draw n).ctr = d.ctr := rfl
@[simp] theorem Dev.draw_reel (n : Nat) (d : Dev) : (d.draw n).reel = d.reel := rfl
@[simp] theorem Dev.draw_spl (n : Nat) (d : Dev) : (d.draw n).spl = d.spl := rfl
@[simp] theorem Dev.draw_hif (n : Nat) (d : Dev) : (d.draw n).hif = d.hif := rfl
@[simp] theorem Dev.draw_lay (n : Nat) (d : Dev) : (d.draw n).lay = d.lay := rfl
@[simp] theorem Dev.draw_shd (n : Nat) (d : Dev) : (d.draw n).shd = d.shd := rfl
@[simp] theorem Dev.draw_path (n : Nat) (d : Dev) : (d.draw n).path = d.path := rfl
@[simp] theorem Dev.draw_tbl (n : Nat) (d : Dev) : (d.draw n).tbl = d.tbl := rfl
@[simp] theorem Dev.draw_log (n : Nat) (d : Dev) : (d.draw n).log = d.log := rfl
@[simp] theorem Dev.draw_aut (n : Nat) (d : Dev) : (d.draw n).aut = d.aut := rfl
@[simp] theorem Dev.draw_brd (n : Nat) (d : Dev) : (d.draw n).brd = d.brd := rfl
@[simp] theorem Dev.draw_cal (n : Nat) (d : Dev) : (d.draw n).cal = d.cal := rfl
@[simp] theorem Dev.draw_mem (n : Nat) (d : Dev) : (d.draw n).mem = d.mem := rfl
@[simp] theorem Dev.draw_dmc (n : Nat) (d : Dev) : (d.draw n).dmc = d.dmc := rfl
@[simp] theorem Dev.draw_boot (n : Nat) (d : Dev) : (d.draw n).boot = d.boot := rfl
@[simp] theorem Dev.draw_cap (n : Nat) (d : Dev) : (d.draw n).cap = d.cap := rfl
@[simp] theorem Dev.draw_rdm (n : Nat) (d : Dev) : (d.draw n).rdm = d.rdm := rfl
@[simp] theorem Dev.draw_she (n : Nat) (d : Dev) : (d.draw n).she = d.she := rfl
@[simp] theorem Dev.draw_pwr (n : Nat) (d : Dev) : (d.draw n).pwr = d.pwr := rfl
@[simp] theorem Dev.draw_slc (n : Nat) (d : Dev) : (d.draw n).slc = d.slc := rfl
@[simp] theorem Dev.draw_sto (n : Nat) (d : Dev) : (d.draw n).sto = d.sto := rfl

end Sys2Proof.Machine
end

