-- ==== Sys2Proof/Laws/Ops.lean ====
section
/-! SUPPORT. What the shared operations of Ops.lean do: tables, addressed memory and its canonical form, counters, time,
and the one way a command reaches the state. -/
namespace Sys2Proof.Machine

/-! ## Tables -/

@[simp] theorem Map.find_nil {α : Type} (k : Nat) : Map.find ([] : Map α) k = none := rfl

/-- An entry just put is found. -/
@[simp] theorem Map.find_put_same {α : Type} (m : Map α) (k : Nat) (v : α) : Map.find (Map.put m k v) k = some v := by
  induction m with
  | nil => simp [Map.put, Map.find]
  | cons e t ih =>
    obtain ⟨a, x⟩ := e
    simp only [Map.put]
    split
    · simp [Map.find]
    · split
      · simp [Map.find]
      · rename_i h1 h2; simp [Map.find, h2, ih]

/-- Of two entries put under one key the second stays. -/
@[simp] theorem Map.put_put {α : Type} (m : Map α) (k : Nat) (v w : α) : Map.put (Map.put m k v) k w = Map.put m k w := by
  induction m with
  | nil => simp [Map.put]
  | cons e t ih =>
    obtain ⟨a, x⟩ := e
    by_cases h1 : k < a
    · simp [Map.put, h1]
    · by_cases h2 : a = k
      · simp [Map.put, h2]
      · simp [Map.put, h1, h2, ih]

/-- An entry put leaves the others. -/
theorem Map.find_put_other {α : Type} (m : Map α) {k j : Nat} (v : α) (h : k ≠ j) : Map.find (Map.put m k v) j = Map.find m j := by
  induction m with
  | nil => simp [Map.put, Map.find, h]
  | cons e t ih =>
    obtain ⟨a, x⟩ := e
    simp only [Map.put]
    split
    · simp [Map.find, h]
    · split
      · rename_i h1 h2; subst h2; simp [Map.find, h]
      · simp only [Map.find, ih]

/-- A changed entry is the change of what was found. -/
@[simp] theorem Map.getD_modify_same {α : Type} (m : Map α) (k : Nat) (d : α) (f : α → α) :
    Map.getD (Map.modify m k d f) k d = f (Map.getD m k d) := by
  simp [Map.getD, Map.modify]

/-- A changed entry leaves the others. -/
theorem Map.getD_modify_other {α : Type} (m : Map α) {k j : Nat} (d e : α) (f : α → α) (h : k ≠ j) :
    Map.getD (Map.modify m k d f) j e = Map.getD m j e := by
  simp [Map.getD, Map.modify, Map.find_put_other _ _ h]

/-- A deletion, one entry at a time. -/
theorem Map.del_cons {α : Type} (a : Nat) (x : α) (t : Map α) (k : Nat) :
    Map.del ((a, x) :: t) k = if a = k then Map.del t k else (a, x) :: Map.del t k := by
  by_cases h : a = k <;> simp [Map.del, h]

/-- A deleted entry is absent. -/
@[simp] theorem Map.find_del_same {α : Type} (m : Map α) (k : Nat) : Map.find (Map.del m k) k = none := by
  induction m with
  | nil => rfl
  | cons e t ih =>
    obtain ⟨a, x⟩ := e
    rw [Map.del_cons]
    split
    · exact ih
    · rename_i h; simp only [Map.find]; rw [if_neg h]; exact ih

/-- A deletion leaves the others. -/
theorem Map.find_del_other {α : Type} (m : Map α) {k j : Nat} (h : k ≠ j) : Map.find (Map.del m k) j = Map.find m j := by
  induction m with
  | nil => rfl
  | cons e t ih =>
    obtain ⟨a, x⟩ := e
    rw [Map.del_cons]
    split
    · rename_i h2; subst h2; simp only [Map.find]; rw [if_neg h]; exact ih
    · simp only [Map.find, ih]

/-! ## Addressed memory -/

/-- The byte just stored is read. -/
@[simp] theorem Memory.read_write_same (m : List Host.Cell) (k : Nat) (v : Byte) (h : Memory.wf m) : Memory.read (Memory.write m k v) k = v := by
  induction m with
  | nil => simp only [Memory.write]; split <;> simp_all [Memory.read]
  | cons e t ih =>
    obtain ⟨a, b⟩ := e
    have htail : Memory.wf t = true := by
      cases t with
      | nil => rfl
      | cons e2 t2 => obtain ⟨a2, b2⟩ := e2; simp only [Memory.wf, Bool.and_eq_true] at h; exact h.2
    have habove : ∀ j, j ≤ a → Memory.read t j = 0 := by
      clear ih
      induction t generalizing a b with
      | nil => intros; rfl
      | cons e2 t2 ih2 =>
        obtain ⟨a2, b2⟩ := e2
        intro j hj
        simp only [Memory.wf, Bool.and_eq_true, decide_eq_true_eq] at h
        have ht2 : Memory.wf t2 = true := by
          cases t2 with
          | nil => rfl
          | cons e3 t3 => obtain ⟨a3, b3⟩ := e3; have h2 := h.2; simp only [Memory.wf, Bool.and_eq_true] at h2; exact h2.2
        have := ih2 a2 b2 h.2 ht2 j (by omega)
        simp only [Memory.read]; rw [if_neg (by omega)]; exact this
    simp only [Memory.write]
    split
    · rename_i hk
      split
      · rename_i hv; subst hv; simp only [Memory.read]; rw [if_neg (by omega)]; exact habove k (by omega)
      · simp [Memory.read]
    · split
      · rename_i hk; subst hk
        split
        · rename_i hv; subst hv; exact habove a (Nat.le_refl a)
        · simp [Memory.read]
      · rename_i h1 h2; simp only [Memory.read, h2, if_false]; exact ih htail

/-- A store leaves every other byte. -/
theorem Memory.read_write_other (m : List Host.Cell) {k j : Nat} (v : Byte) (h : k ≠ j) : Memory.read (Memory.write m k v) j = Memory.read m j := by
  induction m with
  | nil => simp only [Memory.write]; split <;> simp [Memory.read, h]
  | cons e t ih =>
    obtain ⟨a, b⟩ := e
    simp only [Memory.write]
    split
    · split
      · rfl
      · simp [Memory.read, h]
    · split
      · rename_i h1 h2; subst h2
        split <;> simp [Memory.read, h]
      · simp only [Memory.read, ih]

/-- Every address of a form lies above a bound. -/
def Memory.above (k : Nat) : List Host.Cell → Bool
  | [] => true
  | (a, _) :: _ => k < a

/-- The form of a cell and its tail, apart. -/
theorem Memory.wf_cons (a : Nat) (b : Byte) (t : List Host.Cell) :
    Memory.wf ((a, b) :: t) = (b != 0 && Memory.above a t && Memory.wf t) := by
  cases t with
  | nil => simp [Memory.wf, Memory.above]
  | cons e t => obtain ⟨a2, b2⟩ := e; simp [Memory.wf, Memory.above]

/-- The first cell lies below all the others. -/
theorem Memory.above_trans {k a : Nat} {b : Byte} {t : List Host.Cell} (h : k < a) (hw : Memory.wf ((a, b) :: t)) : Memory.above k t := by
  rw [Memory.wf_cons] at hw
  cases t with
  | nil => rfl
  | cons e t =>
    obtain ⟨a2, b2⟩ := e
    simp only [Memory.above, Bool.and_eq_true, decide_eq_true_eq] at hw ⊢
    omega

/-- A store above a bound keeps it. -/
theorem Memory.above_write {k j : Nat} (m : List Host.Cell) (v : Byte) (h : Memory.above k m) (hw : Memory.wf m) (hj : k < j) :
    Memory.above k (Memory.write m j v) := by
  cases m with
  | nil => simp only [Memory.write]; split <;> simp [Memory.above, hj]
  | cons e t =>
    obtain ⟨a, b⟩ := e
    have ha : k < a := by simpa [Memory.above] using h
    simp only [Memory.write]
    split
    · split
      · simpa [Memory.above] using ha
      · simpa [Memory.above] using hj
    · split
      · split
        · exact Memory.above_trans ha hw
        · simpa [Memory.above] using hj
      · simpa [Memory.above] using ha

/-- A store keeps the canonical form. -/
theorem Memory.write_wf (m : List Host.Cell) (k : Nat) (v : Byte) (h : Memory.wf m) : Memory.wf (Memory.write m k v) := by
  induction m with
  | nil => simp only [Memory.write]; split <;> simp_all [Memory.wf]
  | cons e t ih =>
    obtain ⟨a, b⟩ := e
    have h' := h
    rw [Memory.wf_cons] at h'
    simp only [Bool.and_eq_true] at h'
    simp only [Memory.write]
    split
    · rename_i hk
      split
      · exact h
      · rename_i hv; rw [Memory.wf_cons]; simp_all [Memory.above]
    · split
      · split
        · exact h'.2
        · rename_i hk hv; subst hk; rw [Memory.wf_cons]; simp_all
      · rename_i h1 h2
        rw [Memory.wf_cons]
        simp only [Bool.and_eq_true]
        exact ⟨⟨h'.1.1, Memory.above_write t v h'.1.2 h'.2 (by omega)⟩, ih h'.2⟩

/-- Stores of many bytes keep the canonical form. -/
theorem Memory.writeBytes_wf (bs : List Byte) (m : List Host.Cell) (a : Nat) (h : Memory.wf m) : Memory.wf (Memory.writeBytes m a bs) := by
  induction bs generalizing m a with
  | nil => exact h
  | cons b bs ih => exact ih _ _ (Memory.write_wf m a b h)

/-- Stores of many bytes leave every byte outside them. -/
theorem Memory.read_writeBytes_other (bs : List Byte) (m : List Host.Cell) (a j : Nat) (h : j < a ∨ a + bs.length ≤ j) :
    Memory.read (Memory.writeBytes m a bs) j = Memory.read m j := by
  induction bs generalizing m a with
  | nil => rfl
  | cons b bs ih =>
    simp only [List.length_cons] at h
    simp only [Memory.writeBytes]
    rw [ih _ _ (by omega), Memory.read_write_other _ _ (by omega)]

/-- A cell list thinned out keeps the canonical form. -/
theorem Memory.filter_wf (p : Host.Cell → Bool) (m : List Host.Cell) (h : Memory.wf m) : Memory.wf (m.filter p) := by
  have key : ∀ m : List Host.Cell, Memory.wf m → ∀ k, Memory.above k m → Memory.above k (m.filter p) := by
    intro m
    induction m with
    | nil => intros; rfl
    | cons e t ih =>
      obtain ⟨a, b⟩ := e
      intro hw k hk
      simp only [List.filter]
      split
      · simpa [Memory.above] using hk
      · have hk' : k < a := by simpa [Memory.above] using hk
        have h2 := Memory.above_trans hk' hw
        rw [Memory.wf_cons, Bool.and_eq_true] at hw
        exact ih hw.2 k h2
  induction m with
  | nil => rfl
  | cons e t ih =>
    obtain ⟨a, b⟩ := e
    have h' := h
    rw [Memory.wf_cons, Bool.and_eq_true, Bool.and_eq_true] at h'
    simp only [List.filter]
    split
    · rw [Memory.wf_cons, Bool.and_eq_true, Bool.and_eq_true]
      exact ⟨⟨h'.1.1, key t h'.2 a h'.1.2⟩, ih h'.2⟩
    · exact ih h'.2

/-- The memories of the reset state have the form. -/
theorem reset_memory_wf : Memory.wf State.reset.dev.mem.scratch ∧ Memory.wf State.reset.dev.mem.flat ∧ Memory.wf State.reset.dev.mem.dram
    ∧ Memory.wf State.reset.dev.boot.flash := by decide

/-! ## How a command reaches the state -/

/-- A well-formed command of the main domain, out of reset, answers the next state its effect makes. -/
theorem State.run_next {ok : Bool} {f : Dev → Dev} {s : State} (hok : ok = true) (hh : s.dev.boot.held = false) :
    s.run ok f = .next (s.onDev f) := by simp [State.run, hok, hh]

/-- In main-domain reset it has no effect. -/
theorem State.run_held {ok : Bool} {f : Dev → Dev} {s : State} (hok : ok = true) (hh : s.dev.boot.held = true) :
    s.run ok f = .next s := by simp [State.run, hok, hh]

/-- All that `State.run` can answer. -/
theorem State.run_cases (ok : Bool) (f : Dev → Dev) (s : State) :
    (ok = false ∧ s.run ok f = .refused .illFormed) ∨ (ok = true ∧ ∃ t, s.run ok f = .next t ∧ t.pending = s.pending ∧ t.snaps = s.snaps) := by
  cases ok
  · exact .inl ⟨rfl, rfl⟩
  · refine .inr ⟨rfl, _, rfl, ?_, ?_⟩ <;> (cases s.dev.boot.held <;> rfl)

/-- A well-formed command on the whole state, out of reset. -/
theorem State.runState_next {ok : Bool} {f : State → State} {s : State} (hok : ok = true) (hh : s.dev.boot.held = false) :
    s.runState ok f = .next (f s) := by simp [State.runState, hok, hh]

/-- A well-formed command of the standby domain or of a reset input. -/
theorem State.runAny_next {ok : Bool} {f : State → State} {s : State} (hok : ok = true) : s.runAny ok f = .next (f s) := by
  simp [State.runAny, hok]

@[simp] theorem Dev.when_true (f : Dev → Dev) (d : Dev) : Dev.when true f d = f d := rfl
@[simp] theorem Dev.when_false (f : Dev → Dev) (d : Dev) : Dev.when false f d = d := rfl
@[simp] theorem Dev.with'_some {α : Type} (x : α) (f : α → Dev → Dev) (d : Dev) : Dev.with' (some x) f d = f x d := rfl
@[simp] theorem Dev.with'_none {α : Type} (f : α → Dev → Dev) (d : Dev) : Dev.with' none f d = d := rfl

/-! ## Counters and time -/

/-- A counter that is added to. -/
@[simp] theorem Dev.count_add_same (off n : Nat) (d : Dev) : (d.add off n).count off = d.count off + BitVec.ofNat 64 n := by
  simp [Dev.count, Dev.add]

/-- Other counters keep their value. -/
theorem Dev.count_add_other {off off' : Nat} (n : Nat) (d : Dev) (h : off ≠ off') : (d.add off n).count off' = d.count off' := by
  simp [Dev.count, Dev.add, Map.getD_modify_other _ _ _ _ h]

/-- PPS_OUT falls in the reel and nowhere else. -/
theorem Dev.ppsFall_spec (d : Dev) : ∃ r, d.ppsFall = { d with reel := r } := by
  unfold Dev.ppsFall
  split
  · exact ⟨_, rfl⟩
  · exact ⟨d.reel, rfl⟩

/-- Time passes by edges of pclk, and in nothing but pclk and the reel. -/
theorem Dev.pass_spec (n : Nat) (d : Dev) : ∃ r, d.pass n = { d with pclk := d.pclk + n, reel := r } := by
  unfold Dev.pass
  split
  · rename_i h; subst h; exact ⟨d.reel, rfl⟩
  · simp only
    obtain ⟨r, hr⟩ := Dev.ppsFall_spec _
    exact ⟨r, hr⟩

/-- Time comes to a pclk that is not yet reached. -/
theorem Dev.due_pclk (t : Nat) (d : Dev) : (d.due t).pclk = max t d.pclk := by
  obtain ⟨r, hr⟩ := Dev.pass_spec (t - d.pclk) d
  rw [Dev.due, hr]; simp only; omega

/-- In nothing but pclk and the reel. -/
theorem Dev.due_spec (t : Nat) (d : Dev) : ∃ r, d.due t = { d with pclk := max t d.pclk, reel := r } := by
  obtain ⟨r, hr⟩ := Dev.pass_spec (t - d.pclk) d
  refine ⟨r, ?_⟩
  rw [Dev.due, hr]
  have : d.pclk + (t - d.pclk) = max t d.pclk := by omega
  rw [this]

/-- PPS_OUT alone falls. -/
theorem Dev.ppsFall_reel (d : Dev) : ∃ pps, d.ppsFall = { d with reel := { d.reel with pps := pps } } := by
  unfold Dev.ppsFall
  split
  · exact ⟨_, rfl⟩
  · exact ⟨d.reel.pps, rfl⟩

/-- Of the reel, the passing of time changes its time, the slew left, the second's sum and PPS_OUT (R59, R71). -/
theorem Dev.pass_reel (n : Nat) (d : Dev) : ∃ time slew secSum pps, d.pass n = { d with
    pclk := d.pclk + n, reel := { d.reel with time := time, slew := slew, secSum := secSum, pps := pps } } := by
  unfold Dev.pass
  split
  · rename_i h; subst h; exact ⟨_, _, _, _, rfl⟩
  · simp only
    obtain ⟨pps, h⟩ := Dev.ppsFall_reel _
    exact ⟨_, _, _, pps, h⟩

/-- PPS_OUT does not rise as time passes. -/
theorem Dev.pass_pps (n : Nat) (d : Dev) (h : d.reel.pps = false) : (d.pass n).reel.pps = false := by
  unfold Dev.pass
  split
  · exact h
  · simp only [Dev.ppsFall, h, Bool.false_and, Bool.false_eq_true, if_false]

end Sys2Proof.Machine
end

