-- ==== Sys2Proof/Laws/Splice.lean ====
section
/-! SUPPORT. Everything an appended record and the sequencer around an instruction can do. -/
namespace Sys2Proof.Machine

/-! ## What the delivery of an event touches -/

/-- A change of outputs, counters other than the log head, queue pairs, memories, caches and slice budgets. -/
structure Delivers (d d' : Dev) : Prop where
  shape : ∃ out ctr hif mem cap slc, d' = { d with out := out, ctr := ctr, hif := hif, mem := mem, cap := cap, slc := slc }
  head : d'.count Reg.glbSpliceLogHead = d.count Reg.glbSpliceLogHead
  form : d.memOk = true → d'.memOk = true

theorem Delivers.refl (d : Dev) : Delivers d d := ⟨⟨_, _, _, _, _, _, rfl⟩, rfl, id⟩

theorem Delivers.trans {a b c : Dev} (h : Delivers a b) (k : Delivers b c) : Delivers a c := by
  obtain ⟨⟨_, _, _, _, _, _, rfl⟩, h2, h3⟩ := h
  obtain ⟨⟨_, _, _, _, _, _, rfl⟩, k2, k3⟩ := k
  exact ⟨⟨_, _, _, _, _, _, rfl⟩, k2.trans h2, fun m => k3 (h3 m)⟩

theorem Delivers.foldl {α : Type} {f : Dev → α → Dev} (hf : ∀ d x, Delivers d (f d x)) (l : List α) (d : Dev) :
    Delivers d (l.foldl f d) := by
  induction l generalizing d with
  | nil => exact .refl d
  | cons a l ih => exact (hf d a).trans (ih _)

theorem Dev.bump_delivers {off : Nat} (h : off ≠ Reg.glbSpliceLogHead) (d : Dev) : Delivers d (d.bump off) :=
  ⟨⟨_, _, _, _, _, _, rfl⟩, Dev.count_add_other 1 d h, id⟩

theorem Dev.onQp_delivers (q : Nat) (f : Qp → Qp) (d : Dev) : Delivers d (d.onQp q f) := ⟨⟨_, _, _, _, _, _, rfl⟩, rfl, id⟩

theorem Dev.send_delivers (k : OutKind) (a : List Nat) (b : List Byte) (d : Dev) : Delivers d (d.send k a b) :=
  ⟨⟨_, _, _, _, _, _, rfl⟩, rfl, id⟩

/-- A store at a physical address keeps the canonical form. -/
theorem Dev.physPut_memOk (a : Nat) (b : Byte) (d : Dev) (h : d.memOk = true) : (d.physPut a b).memOk = true := by
  simp only [Dev.memOk, Bool.and_eq_true] at h
  unfold Dev.physPut
  split
  · simp only [Dev.memOk, Bool.and_eq_true]; exact ⟨⟨h.1.1, Memory.write_wf _ _ _ h.1.2⟩, h.2⟩
  · simp only [Dev.memOk, Bool.and_eq_true]; exact ⟨h.1, Memory.write_wf _ _ _ h.2⟩
  · simp only [Dev.memOk, Bool.and_eq_true]; exact h

theorem Dev.physPut_delivers (a : Nat) (b : Byte) (d : Dev) : Delivers d (d.physPut a b) := by
  refine ⟨?_, ?_, d.physPut_memOk a b⟩
  · unfold Dev.physPut; split <;> exact ⟨_, _, _, _, _, _, rfl⟩
  · unfold Dev.physPut; split <;> rfl

theorem Dev.physWrite_delivers (bs : List Byte) (a : Nat) (d : Dev) : Delivers d (d.physWrite a bs) := by
  induction bs generalizing a d with
  | nil => exact .refl d
  | cons b bs ih => exact (d.physPut_delivers a b).trans (ih _ _)

theorem Dev.onSlice_delivers (n : Nat) (f : Slice → Slice) (d : Dev) : Delivers d (d.onSlice n f) := by
  unfold Dev.onSlice; split <;> exact ⟨⟨_, _, _, _, _, _, rfl⟩, rfl, id⟩

theorem Dev.ownerWrite_delivers (q a : Nat) (bs : List Byte) (d : Dev) : Delivers d (d.ownerWrite q a bs) := by
  unfold Dev.ownerWrite
  simp only
  have h : Delivers d ((d.debitSlice (d.qp q).slice (kindBucket (d.qp q).kind + 1) bs.length).send .hostWrite
      [q, a, d.pasidOf (d.qp q).slice] bs) := (d.onSlice_delivers _ _).trans (Dev.send_delivers _ _ _ _)
  split
  · exact d.bump_delivers (by decide)
  · split
    · exact h.trans (Dev.physWrite_delivers _ _ _)
    · exact h

theorem Dev.complete_delivers (q id st : Nat) (dws : List Nat) (d : Dev) : Delivers d (d.complete q id st dws) := by
  unfold Dev.complete
  split
  · exact .refl d
  · split
    · exact .refl d
    · exact d.onQp_delivers _ _

theorem Dev.offer_delivers (q : Nat) (ev : List Byte) (d : Dev) : Delivers d (d.offer q ev).1 := by
  unfold Dev.offer
  simp only
  split
  · exact ((d.onQp_delivers _ _).trans (.foldl (fun d b => d.complete_delivers _ _ _ _) _ _)).trans (Dev.ownerWrite_delivers _ _ _ _)
  · exact ((d.onQp_delivers _ _).trans (.foldl (fun d b => d.complete_delivers _ _ _ _) _ _)).trans (Dev.bump_delivers (by decide) _)
  · split
    · exact .refl d
    · exact (d.onQp_delivers _ _).trans (.foldl (fun d b => d.complete_delivers _ _ _ _) _ _)

theorem Dev.logTake1_delivers (q : Nat) (d : Dev) : Delivers d (d.logTake1 q) := by
  unfold Dev.logTake1
  simp only
  split
  · exact .refl d
  · split
    · exact Dev.onQp_delivers _ _ _
    · split
      · exact d.offer_delivers _ _
      · exact (d.offer_delivers _ _).trans (Dev.onQp_delivers _ _ _)

/-! ## Appended records (R152 to R154) -/

/-- All that appending n records does: what deliveries do, and records in the two rings. -/
structure Records (n : Nat) (d d' : Dev) : Prop where
  shape : ∃ out ctr hif mem cap slc ring stage, d' = { d with
    out := out, ctr := ctr, hif := hif, mem := mem, cap := cap, slc := slc, spl := { d.spl with ring := ring, stage := stage } }
  head : d'.count Reg.glbSpliceLogHead = d.count Reg.glbSpliceLogHead + BitVec.ofNat 64 n
  form : d.memOk = true → d'.memOk = true

theorem Delivers.records {a b : Dev} (h : Delivers a b) : Records 0 a b := by
  obtain ⟨⟨_, _, _, _, _, _, rfl⟩, h2, h3⟩ := h
  exact ⟨⟨_, _, _, _, _, _, a.spl.ring, a.spl.stage, rfl⟩, by simpa using h2, h3⟩

theorem Records.trans {a b c : Dev} {m n : Nat} (h : Records m a b) (k : Records n b c) : Records (m + n) a c := by
  obtain ⟨⟨_, _, _, _, _, _, _, _, rfl⟩, h2, h3⟩ := h
  obtain ⟨⟨_, _, _, _, _, _, _, _, rfl⟩, k2, k3⟩ := k
  refine ⟨⟨_, _, _, _, _, _, _, _, rfl⟩, ?_, fun m => k3 (h3 m)⟩
  rw [k2, h2, BitVec.add_assoc, BitVec.ofNat_add]

theorem Dev.pumpLog_records (d : Dev) : Records 0 d d.pumpLog := by
  have h := Delivers.foldl (f := fun d q => (List.range d.spl.log.length).foldl (fun d _ => d.logTake1 q) d)
    (fun d q => .foldl (fun d _ => d.logTake1_delivers q) _ d) ((d.subscribers 0 0).filter d.waitable) d
  obtain ⟨⟨o, c, hi, m, ca, sl, hd⟩, h2, h3⟩ := h
  refine ⟨⟨o, c, hi, m, ca, sl, d.pumpLog.spl.ring, d.pumpLog.spl.stage, ?_⟩, ?_, h3⟩
  · unfold Dev.pumpLog Dev.moveLog
    simp only
    rw [hd]
  · simp only [Dev.count] at h2 ⊢
    simpa [Dev.pumpLog, Dev.moveLog] using h2

/-- One record more behind the head. -/
theorem Dev.append_records (r : LogRec) (d : Dev) : Records 1 d (d.append r) := by
  have h0 : Records 1 d (({ d with spl := { d.spl with stage := d.spl.stage ++ [r] } } : Dev).bump Reg.glbSpliceLogHead) :=
    ⟨⟨_, _, _, _, _, _, _, _, rfl⟩, by rw [Dev.bump, Dev.count_add_same]; rfl, id⟩
  exact (h0.trans (Delivers.foldl (fun d q => (d.bump_delivers (by decide)).trans (Dev.onQp_delivers _ _ _)) _ _).records).trans
    (Dev.pumpLog_records _)

theorem Dev.logIns_records (p : Prog) (i : Ins) (st ns : Nat) (d : Dev) : Records 1 d (d.logIns p i st ns) := d.append_records _

/-- A device event record is one record more, unless the log is full. -/
theorem Dev.logEventSt_records (code st digest shade : Nat) (d : Dev) : ∃ n, Records n d (d.logEventSt code st digest shade) := by
  unfold Dev.logEventSt
  split
  · exact ⟨0, (d.bump_delivers (by decide)).records⟩
  · exact ⟨1, d.append_records _⟩

/-! ## The sequencer -/

/-- The first program with a number in a list whose program of that number is changed. -/
theorem find_onProg (l : List Prog) (p : Nat) (f : Prog → Prog) (x : Prog) (hf : ∀ y, (f y).seq = y.seq)
    (h : l.find? (·.seq == p) = some x) : (l.map fun y => if y.seq = p then f y else y).find? (·.seq == p) = some (f x) := by
  induction l with
  | nil => simp at h
  | cons y l ih =>
    by_cases hy : y.seq = p
    · have : y = x := by simpa [hy] using h
      subst this; simp [hy, hf]
    · have h' : l.find? (·.seq == p) = some x := by simpa [hy] using h
      simp [hy, ih h']

/-- A program that a list no longer holds. -/
theorem find_gone (l : List Prog) (p : Nat) : (l.filter (·.seq != p)).find? (·.seq == p) = none := by
  simp only [List.find?_eq_none, List.mem_filter, bne_iff_ne, ne_eq, beq_iff_eq, and_imp]
  exact fun _ _ h => h

theorem Dev.prog_seq {d : Dev} {p : Nat} {x : Prog} (h : d.prog p = some x) : x.seq = p := by
  have := List.find?_some h
  simpa using this

theorem Dev.onProg_prog {d : Dev} {p : Nat} {x : Prog} (f : Prog → Prog) (hf : ∀ y, (f y).seq = y.seq) (h : d.prog p = some x) :
    (d.onProg p f).prog p = some (f x) := find_onProg _ _ _ _ hf h

/-- A program ends: nothing but the sequencer, its queue pair's completions and the count of failures changes. -/
theorem Dev.endProg_spec (x : Prog) (st idx : Nat) (d : Dev) :
    (∃ hif ctr spl, d.endProg x st idx = { d with hif := hif, ctr := ctr, spl := spl }) ∧
    (d.endProg x st idx).spl = { d.spl with
      progs := d.spl.progs.filter (·.seq != x.seq), atList := d.spl.atList.filter (·.seq != x.seq)
      cur := if d.spl.cur = some x.seq then none else d.spl.cur } ∧
    (d.endProg x st idx).count Reg.glbSpliceLogHead = d.count Reg.glbSpliceLogHead := by
  unfold Dev.endProg
  have key : ∀ e : Dev, ∀ dws, (∃ hif, e.complete x.qp x.desc st dws = { e with hif := hif }) := by
    intro e dws
    unfold Dev.complete
    split
    · exact ⟨e.hif, rfl⟩
    · split
      · exact ⟨e.hif, rfl⟩
      · exact ⟨_, rfl⟩
  obtain ⟨hif, hk⟩ := key ((d.onSpl fun s => { s with
    progs := s.progs.filter (·.seq != x.seq)
    atList := s.atList.filter (·.seq != x.seq)
    cur := if s.cur = some x.seq then none else s.cur }).bumpIf (st != stDone) Reg.glbSpliceFail)
    [idx, x.seq % 2 ^ 32, x.cookie.toNat % 2 ^ 32, x.cookie.toNat / 2 ^ 32]
  rw [hk]
  unfold Dev.bumpIf
  split
  · refine ⟨⟨_, _, _, rfl⟩, rfl, ?_⟩
    exact Dev.count_add_other (off := Reg.glbSpliceFail) (off' := Reg.glbSpliceLogHead) 1 (d.onSpl _) (by decide)
  · exact ⟨⟨_, _, _, rfl⟩, rfl, rfl⟩

/-- What the end of an instruction with a final status does. -/
theorem Dev.advance_spec {d : Dev} {p st : Nat} {x : Prog} {i : Ins} (hx : d.prog p = some x) (hi : insOf x.words = some i) :
    (∃ hif ctr spl, d.advance p st = { d with hif := hif, ctr := ctr, spl := spl }) ∧
    (d.advance p st).spl.busy = d.spl.busy ∧ (d.advance p st).spl.snaps = d.spl.snaps ∧ (d.advance p st).spl.fences = d.spl.fences ∧
    (d.advance p st).count Reg.glbSpliceLogHead = d.count Reg.glbSpliceLogHead ∧
    (if x.left ≤ 1 ∨ (st ≠ stDone ∧ i.cont = false) then (d.advance p st).prog p = none
      else (d.advance p st).prog p = some { x with
        words := x.words.drop i.len, idx := x.idx + 1, left := x.left - 1, phase := .running
        firstBad := if st = stDone then x.firstBad else x.firstBad.or (some (st, x.idx)) }) := by
  have hseq := Dev.prog_seq hx
  have gone : ∀ st idx, (d.endProg x st idx).prog p = none := by
    intro st idx
    rw [Dev.prog, (d.endProg_spec x st idx).2.1, ← hseq]
    exact find_gone _ _
  have ended : ∀ st idx, (∃ hif ctr spl, d.endProg x st idx = { d with hif := hif, ctr := ctr, spl := spl }) ∧
      (d.endProg x st idx).spl.busy = d.spl.busy ∧ (d.endProg x st idx).spl.snaps = d.spl.snaps ∧
      (d.endProg x st idx).spl.fences = d.spl.fences ∧
      (d.endProg x st idx).count Reg.glbSpliceLogHead = d.count Reg.glbSpliceLogHead := by
    intro st idx
    obtain ⟨a, b, c⟩ := d.endProg_spec x st idx
    exact ⟨a, by rw [b], by rw [b], by rw [b], c⟩
  unfold Dev.advance
  simp only [hx, hi]
  by_cases h1 : (st != stDone && !i.cont) = true
  · have h1' : st ≠ stDone ∧ i.cont = false := by simpa using h1
    obtain ⟨a, b, c, e, f⟩ := ended st x.idx
    simp only [if_pos h1, if_pos (Or.inr h1' : x.left ≤ 1 ∨ _)]
    exact ⟨a, b, c, e, f, gone _ _⟩
  · have h1' : ¬ (st ≠ stDone ∧ i.cont = false) := by simpa using h1
    by_cases h2 : x.left ≤ 1
    · simp only [if_neg h1, if_pos h2, if_pos (Or.inl h2 : x.left ≤ 1 ∨ (st ≠ stDone ∧ i.cont = false))]
      split
      · rename_i s n _
        obtain ⟨a, b, c, e, f⟩ := ended s n
        exact ⟨a, b, c, e, f, gone _ _⟩
      · obtain ⟨a, b, c, e, f⟩ := ended stDone 0xFFFF
        exact ⟨a, b, c, e, f, gone _ _⟩
    · simp only [if_neg h1, if_neg h2, if_neg (not_or.mpr ⟨h2, h1'⟩ : ¬ (x.left ≤ 1 ∨ (st ≠ stDone ∧ i.cont = false)))]
      refine ⟨⟨_, _, _, rfl⟩, rfl, rfl, rfl, rfl, ?_⟩
      exact Dev.onProg_prog (d := d) _ (fun _ => rfl) hx

/-- An instruction of a running program that comes to a status: what `Executed` says, and its effect in every part a record leaves alone. -/
theorem State.ran {s : State} {p : Nat} {x : Prog} {i : Ins} {row : Ins → Bool} {act : Prog → Ins → Dev → SpRes} {st ex : Nat} {d2 : Dev}
    (h : s.atIns p x i) (hr : row i = true) (ha : act x i s.dev = .done st d2 ex)
    (hp : d2.prog p = some x) (hc : d2.count Reg.glbSpliceLogHead = s.dev.count Reg.glbSpliceLogHead) :
    ∃ t, s.run true (Dev.runIns p row act) = .next t ∧ Executed s t p x i st (i.cost + ex) ∧ t.pending = s.pending ∧ t.snaps = s.snaps ∧ t.frozen = s.frozen ∧
      (∃ out ctr hif mem cap slc spl, t.dev = { d2 with
        out := out, ctr := ctr, hif := hif, mem := mem, cap := cap, slc := slc, spl := spl }) ∧
      t.dev.spl.snaps = d2.spl.snaps ∧ t.dev.spl.fences = d2.spl.fences := by
  refine ⟨_, State.run_next rfl h.live, ?_⟩
  have e : Dev.runIns p row act s.dev =
      ((d2.onSpl fun y => { y with busy := s.dev.seqFrom + 2 * i.cost + 2 * ex, logWaited := false }).logIns x i st
        (d2.nsAt (s.dev.seqFrom + 2 * i.cost + 2 * ex))).advance p st := by
    unfold Dev.runIns
    simp only [h.found, h.ins, h.runs, hr, h.room, h.rsv, h.may, ha, Bool.not_true, Bool.or_self, Bool.false_eq_true, if_false]
  have hrec := Dev.logIns_records x i st (d2.nsAt (s.dev.seqFrom + 2 * i.cost + 2 * ex))
    (d2.onSpl fun y => { y with busy := s.dev.seqFrom + 2 * i.cost + 2 * ex, logWaited := false })
  generalize Dev.logIns x i st (d2.nsAt (s.dev.seqFrom + 2 * i.cost + 2 * ex))
    (d2.onSpl fun y => { y with busy := s.dev.seqFrom + 2 * i.cost + 2 * ex, logWaited := false }) = l at e hrec
  obtain ⟨⟨o, c, hi, m, ca, sl, ri, sg, hs⟩, hh, hf⟩ := hrec
  have hp' : l.prog p = some x := by rw [hs]; exact hp
  obtain ⟨⟨hif, ctr, spl, a1⟩, a2, a3, a4, a5, a6⟩ := Dev.advance_spec (st := st) hp' h.ins
  refine ⟨⟨?_, ?_, ?_⟩, rfl, rfl, rfl, ⟨_, _, _, _, _, _, _, by rw [State.onDev_dev, e, a1, hs]; rfl⟩, ?_, ?_⟩
  · rw [State.onDev_dev, e, a2, hs, Nat.mul_add, ← Nat.add_assoc]; rfl
  · rw [State.onDev_dev, e, a5, hh]
    show d2.count Reg.glbSpliceLogHead + 1 = _
    rw [hc]
  · rw [State.onDev_dev, e]; exact a6
  · rw [State.onDev_dev, e, a3, hs]; rfl
  · rw [State.onDev_dev, e, a4, hs]; rfl

/-- An instruction of a running program that waits. -/
theorem State.waited {s : State} {p : Nat} {x : Prog} {i : Ins} {row : Ins → Bool} {act : Prog → Ins → Dev → SpRes} {w : SpWait}
    {ex : Option Nat} {d2 : Dev} (h : s.atIns p x i) (hr : row i = true)
    (ha : act x i s.dev = .wait d2 w ex) (hp : d2.prog p = some x)
    (hc : d2.count Reg.glbSpliceLogHead = s.dev.count Reg.glbSpliceLogHead) (hu : d2.spl.cur = s.dev.spl.cur) :
    ∃ t, s.run true (Dev.runIns p row act) = .next t ∧ Waits s t p x w ex i.cost ∧ t.pending = s.pending ∧ t.snaps = s.snaps ∧ t.frozen = s.frozen ∧
      (∃ spl, t.dev = { d2 with spl := spl }) ∧ t.dev.spl.fences = d2.spl.fences ∧ t.dev.spl.snaps = d2.spl.snaps := by
  refine ⟨_, State.run_next rfl h.live, ?_⟩
  have e : Dev.runIns p row act s.dev =
      (d2.onSpl fun y => { y with busy := s.dev.seqFrom + 2 * i.cost, logWaited := false }).letGo p (.waiting w ex) := by
    unfold Dev.runIns
    simp only [h.found, h.ins, h.runs, hr, h.room, h.rsv, h.may, ha, Bool.not_true, Bool.or_self, Bool.false_eq_true, if_false]
  have hm := h.runs
  simp only [Dev.mayRun, Bool.and_eq_true, Bool.or_eq_true, beq_iff_eq, Dev.prog_seq h.found] at hm
  refine ⟨⟨?_, ?_, ?_, ?_⟩, rfl, rfl, rfl, ⟨_, by simp only [State.onDev_dev, e]; rfl⟩, by simp only [State.onDev_dev, e]; rfl, by simp only [State.onDev_dev, e]; rfl⟩
  · simp only [State.onDev_dev, e]
    exact Dev.onProg_prog (d := d2.onSpl fun y => { y with busy := s.dev.seqFrom + 2 * i.cost, logWaited := false }) _ (fun _ => rfl) hp
  · simp only [State.onDev_dev, e]; rfl
  · simp only [State.onDev_dev, e]
    show (if d2.spl.cur = some p then none else d2.spl.cur) = none
    rw [hu]
    rcases hm.2 with h0 | h0 <;> simp [h0]
  · simp only [State.onDev_dev, e]; exact hc

/-- A wait of a program that ends. -/
theorem Dev.endWait_spec {d : Dev} {p st : Nat} {x : Prog} {i : Ins} (hx : d.prog p = some x) (hi : insOf x.words = some i) :
    (∃ out ctr hif mem cap slc spl, d.endWait p st = { d with
      out := out, ctr := ctr, hif := hif, mem := mem, cap := cap, slc := slc, spl := spl }) ∧
    (d.endWait p st).count Reg.glbSpliceLogHead = d.count Reg.glbSpliceLogHead + 1 ∧
    (d.endWait p st).prog p = some { x with phase := .ended st } := by
  unfold Dev.endWait
  simp only [hx, hi]
  obtain ⟨⟨o, c, hi', m, ca, sl, ri, sg, hs⟩, hh, -⟩ := Dev.logIns_records x i st d.ns d
  refine ⟨⟨_, _, _, _, _, _, _, by rw [hs]; rfl⟩, ?_, ?_⟩
  · exact hh
  · refine Dev.onProg_prog (d := d.logIns x i st d.ns) (fun y => { y with phase := .ended st }) (fun _ => rfl) ?_
    rw [hs]; exact hx

end Sys2Proof.Machine
end

