-- ==== Sys2Proof/Laws/Frames.lean ====
section
/-! SUPPORT. What the shared operations of the shades, the credits and the braid can change: one lemma each. -/
namespace Sys2Proof.Machine

@[simp] theorem Dev.shade_onShade_same (n : Nat) (f : Shade → Shade) (d : Dev) : (d.onShade n f).shade n = f (d.shade n) := by
  simp [Dev.shade, Dev.onShade]

theorem Dev.shade_onShade_other {n m : Nat} (f : Shade → Shade) (d : Dev) (h : m ≠ n) : (d.onShade n f).shade m = d.shade m := by
  simp only [Dev.shade, Dev.onShade]; exact Map.getD_modify_other _ _ _ _ h.symm

theorem Map.find_modify_other {α : Type} (m : Map α) {k j : Nat} (d : α) (f : α → α) (h : k ≠ j) :
    Map.find (Map.modify m k d f) j = Map.find m j := Map.find_put_other _ _ h

theorem Dev.target_inl {d : Dev} {x : Prog} {n : Nat} (h1 : x.shaded = true) (h2 : d.shadeNamed x.shade = some n)
    (h3 : (d.shade n).st = .opened) : d.target x = .inl n := by simp [Dev.target, h1, h2, h3]

/-! ## Frames -/

theorem Dev.keeps_refl (l : List Comp) (d : Dev) : Dev.keeps l d d := by
  intro y _; cases y <;> first | rfl | exact id

theorem Comp.same_trans {y : Comp} {a b c : Dev} (h : y.same a b) (k : y.same b c) : y.same a c := by
  cases y <;> first | exact Eq.trans h k | exact fun m => h (k m)

theorem Dev.keeps_trans {l : List Comp} {a b c : Dev} (h : Dev.keeps l a b) (k : Dev.keeps l b c) : Dev.keeps l a c :=
  fun y hy => Comp.same_trans (k y hy) (h y hy)

/-- A frame holds with more parts allowed to change. -/
theorem Dev.keeps_mono {l m : List Comp} {a b : Dev} (h : Dev.keeps l a b) (hl : ∀ y ∈ l, y ∈ m) : Dev.keeps m a b :=
  fun y hy => h y fun hm => hy (hl y hm)

theorem Dev.keeps_foldl {β : Type} {l : List Comp} {f : Dev → β → Dev} (hf : ∀ d x, Dev.keeps l d (f d x)) (xs : List β) (d : Dev) :
    Dev.keeps l d (xs.foldl f d) := by
  induction xs generalizing d with
  | nil => exact d.keeps_refl l
  | cons x xs ih => exact Dev.keeps_trans (hf d x) (ih _)

theorem Dev.keeps_if {l : List Comp} {c : Prop} [Decidable c] {d a b : Dev} (ha : Dev.keeps l d a) (hb : Dev.keeps l d b) :
    Dev.keeps l d (if c then a else b) := by split <;> assumption

/-- A change of the listed parts alone, and of the counters at the listed offsets alone. -/
structure Touches (l : List Comp) (offs : List Nat) (a b : Dev) : Prop where
  keeps : Dev.keeps l a b
  count : ∀ o, o ∉ offs → b.count o = a.count o

theorem Touches.refl (l : List Comp) (offs : List Nat) (d : Dev) : Touches l offs d d := ⟨d.keeps_refl l, fun _ _ => rfl⟩

theorem Touches.trans {l : List Comp} {offs : List Nat} {a b c : Dev} (h : Touches l offs a b) (k : Touches l offs b c) :
    Touches l offs a c := ⟨Dev.keeps_trans h.keeps k.keeps, fun o ho => (k.count o ho).trans (h.count o ho)⟩

theorem Touches.mono {l m : List Comp} {offs offs' : List Nat} {a b : Dev} (h : Touches l offs a b) (hl : ∀ y ∈ l, y ∈ m)
    (ho : ∀ o ∈ offs, o ∈ offs') : Touches m offs' a b :=
  ⟨Dev.keeps_mono h.keeps hl, fun o h' => h.count o fun hm => h' (ho o hm)⟩

theorem Touches.foldl {β : Type} {l : List Comp} {offs : List Nat} {f : Dev → β → Dev} (hf : ∀ d x, Touches l offs d (f d x))
    (xs : List β) (d : Dev) : Touches l offs d (xs.foldl f d) := by
  induction xs generalizing d with
  | nil => exact .refl l offs d
  | cons x xs ih => exact (hf d x).trans (ih _)

theorem Touches.ite {l : List Comp} {offs : List Nat} {c : Prop} [Decidable c] {d a b : Dev} (ha : Touches l offs d a)
    (hb : Touches l offs d b) : Touches l offs d (if c then a else b) := by split <;> assumption

/-- A change that leaves the counters. -/
theorem Touches.of_keeps {l : List Comp} {offs : List Nat} {a b : Dev} (h : Dev.keeps l a b) (hc : b.ctr = a.ctr) : Touches l offs a b :=
  ⟨h, fun o _ => by simp [Dev.count, hc]⟩

theorem Dev.add_touches (off n : Nat) (d : Dev) : Touches [.ctr] [off] d (d.add off n) :=
  ⟨by intro y hy; cases y <;> first | rfl | exact absurd (by decide) hy | exact id, fun o ho => Dev.count_add_other n d (fun e => ho (by simp [e]))⟩

theorem Dev.bump_touches (off : Nat) (d : Dev) : Touches [.ctr] [off] d (d.bump off) := d.add_touches off 1

/-- A change of the accounts keeps all but the packet path. -/
theorem Dev.onAcct_touches (k : Nat) (f : Acct → Acct) (d : Dev) : Touches [.path] [] d (d.onAcct k f) :=
  .of_keeps (by intro y hy; cases y <;> first | rfl | exact absurd (by decide) hy | exact id) rfl

/-- The recomputation of the headrooms changes the packet path and the count of short credits. -/
theorem Dev.recompute_touches (d : Dev) : Touches [.path, .ctr] [Reg.coilShortCount] d d.recompute := by
  have acct : ∀ (k : Nat) (f : Acct → Acct) (d : Dev), Touches [.path, .ctr] [Reg.coilShortCount] d (d.onAcct k f) := fun k f d =>
    (d.onAcct_touches k f).mono (by simp) (by simp)
  have path : ∀ (f : Path → Path) (d : Dev), Touches [.path, .ctr] [Reg.coilShortCount] d (d.onPath f) := fun f d =>
    .of_keeps (by intro y hy; cases y <;> first | rfl | exact absurd (by decide) hy | exact id) rfl
  have bump : ∀ (b : Bool) (d : Dev), Touches [.path, .ctr] [Reg.coilShortCount] d (d.bumpIf b Reg.coilShortCount) := fun b d =>
    .ite ((Dev.bump_touches _ _).mono (by simp) (fun _ h => h)) (.refl _ _ _)
  unfold Dev.recompute
  exact ((Touches.foldl (fun d p => ((acct _ _ _).trans (path _ _)).trans (.foldl (fun d c => acct _ _ _) _ _)) _ _).trans
    (path _ _)).trans (bump _ _)

/-- An index that becomes FREE: its shade, tables, routes and cached results, and the headrooms. -/
theorem Dev.freeShade_touches (n : Nat) (d : Dev) :
    Touches [.shd, .tbl, .brd, .lay, .path, .ctr] [Reg.coilShortCount] d (d.freeShade n) := by
  have h : Touches [.shd, .tbl, .brd, .lay, .path, .ctr] [Reg.coilShortCount] d
      (((({ d with shd := Map.put d.shd n {} } : Dev).onTbl (Tables.closeIndex n)).closeRoutes n).invalidate fun c => c.shade == n) :=
    .of_keeps (by intro y hy; cases y <;> first | rfl | exact absurd (by decide) hy | exact id) rfl
  exact h.trans ((Dev.recompute_touches _).mono (by simp) (by simp))

@[simp] theorem Dev.freeShade_shd (n : Nat) (d : Dev) : (d.freeShade n).shd = Map.put d.shd n {} :=
  (Dev.recompute_touches _).keeps .shd (by decide)

/-- A braid control message leaves by an output alone. -/
theorem Dev.control_touches (p kind dest w1 : Nat) (body : List Byte) (d : Dev) : Touches [.out] [] d (d.control p kind dest w1 body) := by
  unfold Dev.control Dev.controlFrom Dev.sendGated
  exact .ite (.refl _ _ _) (.of_keeps (by intro y hy; cases y <;> first | rfl | exact absurd (by decide) hy | exact id) rfl)

/-- A flooded GLOBAL message: the braid's sequence, its outputs. -/
theorem Dev.flood_touches (op target turn arg : Nat) (d : Dev) : Touches [.out, .brd] [] d (d.flood op target turn arg) := by
  have onBrd : ∀ (f : Braid → Braid), Touches [.out, .brd] [] d (d.onBrd f) := fun f =>
    .of_keeps (by intro y hy; cases y <;> first | rfl | exact absurd (by decide) hy | exact id) rfl
  unfold Dev.flood
  extract_lets seq d1
  have h : Touches [.out, .brd] [] d d1 := onBrd _
  exact h.trans (.foldl (fun d p => (Dev.control_touches _ _ _ _ _ _).mono (by simp) (by simp)) _ _)

theorem Dev.flood_seq (op target turn arg : Nat) (d : Dev) : (d.flood op target turn arg).brd.seq = (d.brd.seq + 1) % 2 ^ 32 := by
  unfold Dev.flood
  extract_lets seq d1
  have h : Touches [.out] [] d1 (d1.upLinks.foldl (fun d p => d.control p 7 0xFFFFFF 0 (globalBody op target seq turn arg)) d1) :=
    .foldl (fun d p => Dev.control_touches _ _ _ _ _ _) _ _
  rw [h.keeps .brd (by decide)]
  rfl

/-- What one or more records change. -/
theorem Records.keeps {n : Nat} {a b : Dev} (h : Records n a b) : Dev.keeps logged a b := by
  obtain ⟨⟨_, _, _, _, _, _, _, _, rfl⟩, _, hf⟩ := h
  intro y hy; cases y <;> first | rfl | exact absurd (by decide) hy | exact hf

/-- The sequencer's own part of a device event record: nothing but the rings. -/
theorem Records.spl {n : Nat} {a b : Dev} (h : Records n a b) :
    ∃ ring stage, b.spl = { a.spl with ring := ring, stage := stage } := by
  obtain ⟨⟨_, _, _, _, _, _, r, g, rfl⟩, _, _⟩ := h
  exact ⟨r, g, rfl⟩

/-- A command of the main domain runs where the domain runs: what its effect gives holds afterwards. -/
theorem Acts.run {c : Instr} {s : State} {ok : Bool} {f : Dev → Dev} {P : Dev → Prop} (h : exec c s = s.run ok f) (hok : ok = true)
    (hl : s.live) (hp : P (f s.dev)) : Acts c s P :=
  ⟨_, h.trans (State.run_next hok hl), rfl, rfl, rfl, hp⟩

end Sys2Proof.Machine
end

