-- ==== Sys2Proof/Laws/Issue.lean ====
section
/-! SUPPORT. Issuing a packet operation: what it comes to where it runs, where its guard is off and where it traps. -/
namespace Sys2Proof.Machine

@[simp] theorem Dev.fibre_onFibre_same (f : Nat) (g : Fibre → Fibre) (d : Dev) : (d.onFibre f g).fibre f = g (d.fibre f) := by
  simp [Dev.fibre, Dev.onFibre]

theorem Dev.fibre_onFibre_other {f h : Nat} (g : Fibre → Fibre) (d : Dev) (n : h ≠ f) : (d.onFibre f g).fibre h = d.fibre h := by
  simp only [Dev.fibre, Dev.onFibre]; exact Map.getD_modify_other _ _ _ _ n.symm

@[simp] theorem Fibre.begin_slot (t : Nat) (x : Fibre) : (x.begin t).slot = x.slot := by unfold Fibre.begin; split <;> rfl
@[simp] theorem Fibre.begin_arch (t : Nat) (x : Fibre) : (x.begin t).arch = x.arch := by unfold Fibre.begin; split <;> rfl
@[simp] theorem Fibre.begin_run (t : Nat) (x : Fibre) : (x.begin t).run = x.run := by unfold Fibre.begin; split <;> rfl
@[simp] theorem Fibre.begin_posts (t : Nat) (x : Fibre) : (x.begin t).posts = x.posts := by unfold Fibre.begin; split <;> rfl
@[simp] theorem Fibre.begin_subs (t : Nat) (x : Fibre) : (x.begin t).subs = x.subs := by unfold Fibre.begin; split <;> rfl
@[simp] theorem Fibre.begin_waits (t : Nat) (x : Fibre) : (x.begin t).waits = x.waits := by unfold Fibre.begin; split <;> rfl

/-- A change of a fibre is a change of the lays' fibres alone. -/
theorem Dev.onFibre_spec (f : Nat) (g : Fibre → Fibre) (d : Dev) :
    Dev.keeps [.lay] d (d.onFibre f g) ∧ (d.onFibre f g).lay = { d.lay with fibres := (d.onFibre f g).lay.fibres } := by
  refine ⟨?_, rfl⟩
  intro y hy; cases y <;> first | rfl | exact absurd (by decide) hy | exact id

/-! ## The bundle's issue (R90, R92) -/

/-- Beyond its first slot a bundle has issued already. -/
theorem Dev.openBundle_later {f t : Nat} {d : Dev} (h : (d.fibre f).slot ≠ 0) : d.openBundle f t = d := if_pos h

/-- All that the issue of a bundle does: time passes to its pclk, the strand has used it, and the fibre begins. -/
theorem Dev.openBundle_spec (f t : Nat) (d : Dev) :
    ((d.openBundle f t).fibre f).slot = (d.fibre f).slot ∧ ((d.openBundle f t).fibre f).arch = (d.fibre f).arch
      ∧ ((d.openBundle f t).fibre f).run = (d.fibre f).run ∧ (∀ h, h ≠ f → (d.openBundle f t).fibre h = d.fibre h)
      ∧ Dev.keeps [.pclk, .reel, .lay] d (d.openBundle f t) := by
  unfold Dev.openBundle
  split
  · exact ⟨rfl, rfl, rfl, fun _ _ => rfl, d.keeps_refl _⟩
  · obtain ⟨r, hr⟩ := Dev.due_spec t d
    rw [hr]
    refine ⟨?_, ?_, ?_, fun h hn => ?_, ?_⟩
    · rw [Dev.fibre_onFibre_same, Fibre.begin_slot]; rfl
    · rw [Dev.fibre_onFibre_same, Fibre.begin_arch]; rfl
    · rw [Dev.fibre_onFibre_same, Fibre.begin_run]; rfl
    · rw [Dev.fibre_onFibre_other _ _ hn]; rfl
    · intro y hy; cases y <;> first | rfl | exact absurd (by decide) hy | exact id

/-- An operation that issues is of a fibre that runs a program. -/
theorem Dev.opens_run {f t : Nat} {regs preds : List Nat} {m14 : Bool} {d : Dev} (h : d.opens f regs preds m14 = some t) :
    ∃ r, (d.fibre f).run = some r := by
  unfold Dev.opens at h
  simp only at h
  split at h
  · unfold Dev.issueAt at h
    simp only at h
    split at h
    · cases h
    · split at h
      · exact ⟨_, ‹_›⟩
      · cases h
  · split at h
    · rename_i hi
      simp only [Fibre.issues, Bool.and_eq_true] at hi
      exact Option.isSome_iff_exists.mp hi.1.1.1.1.1
    · cases h

/-! ## One operation -/

/-- A legal operation whose guard holds comes to what `act` gives on the begun bundle. -/
theorem State.issue_runs {s : State} {c : Instr} {f t : Nat} {g : BitVec 4} {regs preds : List Nat} {m14 ok last ill : Bool}
    {act : Fibre → Dev → Act} (he : exec c s = s.run ok (Dev.fromStore c (Dev.issue f g last ill regs preds m14 act))) (hok : ok = true)
    (hf : opFibre c = f) (h : s.issuesOp f t c g regs preds m14) (hi : ill = false) (hl : last = true → (s.dev.fibre f).slot = 3) :
    exec c s = .next (s.onDev fun _ =>
      match act (s.begun f t) (s.dev.openBundle f t) with
      | .done d => d.onFibre f (Fibre.next none)
      | .jump d n => d.onFibre f (Fibre.next (some n))
      | .ended d n => (d.onFibre f (Fibre.next none)).finish f n
      | .trap k => (s.dev.openBundle f t).trapF f k
      | .stall => s.dev.openBundle f t) := by
  rw [he, State.run_next hok h.live]
  have hb : ¬(ill || (last && ((s.dev.openBundle f t).fibre f).slot != 3)) = true := by
    rw [(Dev.openBundle_spec f t s.dev).1]
    subst hi; cases last
    · simp
    · simp [hl rfl]
  have hg : guardHolds g ((s.dev.openBundle f t).fibre f).iss = true := h.guard
  simp only [State.onDev, Dev.fromStore, Dev.when, hf, h.held, if_true, Dev.issue, h.opens, hb, hg, Bool.not_true, Bool.false_eq_true,
    if_false, State.begun]
  all_goals
    generalize act ((s.dev.openBundle f t).fibre f) (s.dev.openBundle f t) = a
    cases a <;> rfl

/-- It traps where its form is illegal, whatever its guard. -/
theorem Traps.illegal {s : State} {c : Instr} {f t : Nat} {g : BitVec 4} {regs preds : List Nat} {m14 ok last ill : Bool}
    {act : Fibre → Dev → Act} (he : exec c s = s.run ok (Dev.fromStore c (Dev.issue f g last ill regs preds m14 act))) (hok : ok = true)
    (hf : opFibre c = f) (h : s.slotOp f t c g regs preds m14) (hi : ill = true ∨ (last = true ∧ (s.dev.fibre f).slot ≠ 3)) :
    Traps c s f t 0x04 := by
  unfold Traps
  rw [he, State.run_next hok h.live]
  have hb : (ill || (last && ((s.dev.openBundle f t).fibre f).slot != 3)) = true := by
    rw [(Dev.openBundle_spec f t s.dev).1]
    obtain h | ⟨h, k⟩ := hi
    · simp [h]
    · simp [h, k]
  simp only [State.onDev, Dev.fromStore, Dev.when, hf, h.held, if_true, Dev.issue, h.opens, hb]

/-- It traps with the cause `act` gives. -/
theorem Traps.act {s : State} {c : Instr} {f t k : Nat} {g : BitVec 4} {regs preds : List Nat} {m14 ok last ill : Bool}
    {act : Fibre → Dev → Act} (he : exec c s = s.run ok (Dev.fromStore c (Dev.issue f g last ill regs preds m14 act))) (hok : ok = true)
    (hf : opFibre c = f) (h : s.issuesOp f t c g regs preds m14) (hi : ill = false) (hl : last = true → (s.dev.fibre f).slot = 3)
    (ha : act (s.begun f t) (s.dev.openBundle f t) = .trap k) : Traps c s f t k := by
  unfold Traps
  rw [State.issue_runs he hok hf h hi hl, ha]; rfl

/-- Changes of one fibre keep every part but the lays, and every other fibre. -/
theorem Settles.mk {s : State} {c : Instr} {f t : Nat} {P : Fibre → Prop} {h k : Fibre → Fibre}
    (he : exec c s = .next (s.onDev fun d => ((d.openBundle f t).onFibre f h).onFibre f k)) (hp : P (k (h (s.begun f t)))) :
    Settles c s f t P := by
  refine ⟨_, he, rfl, rfl, rfl, ?_, rfl, ?_, ?_⟩
  · exact Dev.keeps_trans (Dev.onFibre_spec f h _).1 (Dev.onFibre_spec f k _).1
  · intro j hj
    show Dev.fibre (((s.dev.openBundle f t).onFibre f h).onFibre f k) j = _
    rw [Dev.fibre_onFibre_other _ _ hj, Dev.fibre_onFibre_other _ _ hj]
    exact (Dev.openBundle_spec f t s.dev).2.2.2.1 j hj
  · show P (Dev.fibre (((s.dev.openBundle f t).onFibre f h).onFibre f k) f)
    simp only [Dev.fibre_onFibre_same]; exact hp

/-- An operation on the registers alone. -/
theorem Retires.issue {s : State} {c : Instr} {f t : Nat} {g : BitVec 4} {regs preds : List Nat} {m14 ok last ill : Bool}
    {act : Fibre → Dev → Act} {upd : Arch → Arch → Arch}
    (he : exec c s = s.run ok (Dev.fromStore c (Dev.issue f g last ill regs preds m14 act))) (hok : ok = true)
    (hf : opFibre c = f) (h : s.issuesOp f t c g regs preds m14) (hi : ill = false) (hl : last = true → (s.dev.fibre f).slot = 3)
    (ha : act (s.begun f t) (s.dev.openBundle f t) = .done ((s.dev.openBundle f t).onArch f (upd (s.begun f t).iss))) :
    Retires c s f t none upd := by
  apply Settles.mk (h := fun x => { x with arch := upd (s.begun f t).iss x.arch }) (k := Fibre.next none)
  · rw [State.issue_runs he hok hf h hi hl, ha]; rfl
  · rfl

/-- An operation that writes registers from what the bundle reads. -/
theorem Retires.arch {s : State} {c : Instr} {f t : Nat} {g : BitVec 4} {regs preds : List Nat} {m14 : Bool} (ill : Bool)
    {upd : Arch → Arch → Arch} (h : s.issuesOp f t c g regs preds m14)
    (he : exec c s = s.run (decide (f < 4096)) (Dev.fromStore c (Dev.issue f g false ill regs preds m14
      fun x d => .done (d.onArch f (upd x.iss))))) (hf : opFibre c = f) (hi : ill = false) : Retires c s f t none upd :=
  Retires.issue he (by simpa using h.num) hf h hi nofun rfl

/-- An operation whose result is there some pclk after its issue. -/
theorem RetiresAfter.issue {s : State} {c : Instr} {f t lat : Nat} {keys : List Nat} {g : BitVec 4} {regs preds : List Nat}
    {m14 ok last ill : Bool} {act : Fibre → Dev → Act} {upd : Arch → Arch → Arch}
    (he : exec c s = s.run ok (Dev.fromStore c (Dev.issue f g last ill regs preds m14 act))) (hok : ok = true)
    (hf : opFibre c = f) (h : s.issuesOp f t c g regs preds m14) (hi : ill = false) (hl : last = true → (s.dev.fibre f).slot = 3)
    (ha : act (s.begun f t) (s.dev.openBundle f t) =
      .done (((s.dev.openBundle f t).onArch f (upd (s.begun f t).iss)).late f lat keys)) : RetiresAfter c s f t lat keys upd := by
  unfold RetiresAfter
  have e : ∀ d : Dev, ∀ g h k : Fibre → Fibre, ((d.onFibre f g).onFibre f h).onFibre f k = ((d.onFibre f g).onFibre f (k ∘ h)) := by
    intro d g h k
    simp only [Dev.onFibre, Map.modify, Map.put_put, Map.getD, Map.find_put_same, Option.getD_some, Function.comp]
  apply Settles.mk (h := fun x => { x with arch := upd (s.begun f t).iss x.arch })
    (k := Fibre.next none ∘ fun x => x.after (x.at' + lat) keys)
  · rw [State.issue_runs he hok hf h hi hl, ha]
    simp only [Dev.late, Dev.onArch, e]; rfl
  · rfl

/-- An operation whose guard is off. -/
theorem Retires.off {s : State} {c : Instr} {f t : Nat} {g : BitVec 4} {regs preds : List Nat} {m14 ok last ill : Bool}
    {act : Fibre → Dev → Act} (he : exec c s = s.run ok (Dev.fromStore c (Dev.issue f g last ill regs preds m14 act))) (hok : ok = true)
    (hf : opFibre c = f) (h : s.slotOp f t c g regs preds m14) (hi : ill = false) (hl : last = true → (s.dev.fibre f).slot = 3)
    (hg : guardHolds g (s.begun f t).iss = false) : Retires c s f t none fun _ a => a := by
  have hb : ¬(ill || (last && ((s.dev.openBundle f t).fibre f).slot != 3)) = true := by
    rw [(Dev.openBundle_spec f t s.dev).1]
    subst hi; cases last
    · simp
    · simp [hl rfl]
  have hg' : guardHolds g ((s.dev.openBundle f t).fibre f).iss = false := hg
  refine ⟨s.onDev fun d => (d.openBundle f t).onFibre f (Fibre.next none), ?_, rfl, rfl, rfl,
    (Dev.onFibre_spec f (Fibre.next none) (s.dev.openBundle f t)).1, rfl, ?_, ?_⟩
  · rw [he, State.run_next hok h.live]
    simp only [State.onDev, Dev.fromStore, Dev.when, hf, h.held, if_true, Dev.issue, h.opens, hb, hg', Bool.not_false,
      Bool.false_eq_true, if_false]
  · intro k hk
    show Dev.fibre ((s.dev.openBundle f t).onFibre f (Fibre.next none)) k = _
    rw [Dev.fibre_onFibre_other _ _ hk]
    exact (Dev.openBundle_spec f t s.dev).2.2.2.1 k hk
  · show Dev.fibre ((s.dev.openBundle f t).onFibre f (Fibre.next none)) f = _
    simp only [Dev.fibre_onFibre_same]; rfl

end Sys2Proof.Machine
end

