-- ==== Sys2Proof/Laws/Keeps.lean ====
section
/-! SUPPORT. What each operation on the device leaves unchanged: one lemma per operation, the parts it may change listed, and one
per shape of command (`when`, an event with an operand, a splice instruction, a packet operation). -/
namespace Sys2Proof.Machine

theorem Dev.keeps_up_variant24 {l : List Comp} {a e : Dev} {v} (hx : Comp.variant24 ∈ l) (h : Dev.keeps l a e) : Dev.keeps l a { e with variant24 := v } :=
  fun y hy => by cases y <;> first | exact absurd hx hy | exact h _ hy
theorem Dev.keeps_up_pclk {l : List Comp} {a e : Dev} {v} (hx : Comp.pclk ∈ l) (h : Dev.keeps l a e) : Dev.keeps l a { e with pclk := v } :=
  fun y hy => by cases y <;> first | exact absurd hx hy | exact h _ hy
theorem Dev.keeps_up_free {l : List Comp} {a e : Dev} {v} (hx : Comp.free ∈ l) (h : Dev.keeps l a e) : Dev.keeps l a { e with free := v } :=
  fun y hy => by cases y <;> first | exact absurd hx hy | exact h _ hy
theorem Dev.keeps_up_drawn {l : List Comp} {a e : Dev} {v} (hx : Comp.drawn ∈ l) (h : Dev.keeps l a e) : Dev.keeps l a { e with drawn := v } :=
  fun y hy => by cases y <;> first | exact absurd hx hy | exact h _ hy
theorem Dev.keeps_up_out {l : List Comp} {a e : Dev} {v} (hx : Comp.out ∈ l) (h : Dev.keeps l a e) : Dev.keeps l a { e with out := v } :=
  fun y hy => by cases y <;> first | exact absurd hx hy | exact h _ hy
theorem Dev.keeps_up_ctr {l : List Comp} {a e : Dev} {v} (hx : Comp.ctr ∈ l) (h : Dev.keeps l a e) : Dev.keeps l a { e with ctr := v } :=
  fun y hy => by cases y <;> first | exact absurd hx hy | exact h _ hy
theorem Dev.keeps_up_reel {l : List Comp} {a e : Dev} {v} (hx : Comp.reel ∈ l) (h : Dev.keeps l a e) : Dev.keeps l a { e with reel := v } :=
  fun y hy => by cases y <;> first | exact absurd hx hy | exact h _ hy
theorem Dev.keeps_up_spl {l : List Comp} {a e : Dev} {v} (hx : Comp.spl ∈ l) (h : Dev.keeps l a e) : Dev.keeps l a { e with spl := v } :=
  fun y hy => by cases y <;> first | exact absurd hx hy | exact h _ hy
theorem Dev.keeps_up_hif {l : List Comp} {a e : Dev} {v} (hx : Comp.hif ∈ l) (h : Dev.keeps l a e) : Dev.keeps l a { e with hif := v } :=
  fun y hy => by cases y <;> first | exact absurd hx hy | exact h _ hy
theorem Dev.keeps_up_lay {l : List Comp} {a e : Dev} {v} (hx : Comp.lay ∈ l) (h : Dev.keeps l a e) : Dev.keeps l a { e with lay := v } :=
  fun y hy => by cases y <;> first | exact absurd hx hy | exact h _ hy
theorem Dev.keeps_up_shd {l : List Comp} {a e : Dev} {v} (hx : Comp.shd ∈ l) (h : Dev.keeps l a e) : Dev.keeps l a { e with shd := v } :=
  fun y hy => by cases y <;> first | exact absurd hx hy | exact h _ hy
theorem Dev.keeps_up_path {l : List Comp} {a e : Dev} {v} (hx : Comp.path ∈ l) (h : Dev.keeps l a e) : Dev.keeps l a { e with path := v } :=
  fun y hy => by cases y <;> first | exact absurd hx hy | exact h _ hy
theorem Dev.keeps_up_tbl {l : List Comp} {a e : Dev} {v} (hx : Comp.tbl ∈ l) (h : Dev.keeps l a e) : Dev.keeps l a { e with tbl := v } :=
  fun y hy => by cases y <;> first | exact absurd hx hy | exact h _ hy
theorem Dev.keeps_up_log {l : List Comp} {a e : Dev} {v} (hx : Comp.log ∈ l) (h : Dev.keeps l a e) : Dev.keeps l a { e with log := v } :=
  fun y hy => by cases y <;> first | exact absurd hx hy | exact h _ hy
theorem Dev.keeps_up_aut {l : List Comp} {a e : Dev} {v} (hx : Comp.aut ∈ l) (h : Dev.keeps l a e) : Dev.keeps l a { e with aut := v } :=
  fun y hy => by cases y <;> first | exact absurd hx hy | exact h _ hy
theorem Dev.keeps_up_brd {l : List Comp} {a e : Dev} {v} (hx : Comp.brd ∈ l) (h : Dev.keeps l a e) : Dev.keeps l a { e with brd := v } :=
  fun y hy => by cases y <;> first | exact absurd hx hy | exact h _ hy
theorem Dev.keeps_up_cal {l : List Comp} {a e : Dev} {v} (hx : Comp.cal ∈ l) (h : Dev.keeps l a e) : Dev.keeps l a { e with cal := v } :=
  fun y hy => by cases y <;> first | exact absurd hx hy | exact h _ hy
theorem Dev.keeps_up_mem {l : List Comp} {a e : Dev} {v} (hx : Comp.mem ∈ l) (hm : e.memOk = true → Dev.memOk { e with mem := v } = true)
    (h : Dev.keeps l a e) : Dev.keeps l a { e with mem := v } :=
  fun y hy => by cases y <;> first | exact absurd hx hy | exact fun k => hm (h _ hy k) | exact h _ hy
theorem Dev.keeps_up_dmc {l : List Comp} {a e : Dev} {v} (hx : Comp.dmc ∈ l) (h : Dev.keeps l a e) : Dev.keeps l a { e with dmc := v } :=
  fun y hy => by cases y <;> first | exact absurd hx hy | exact h _ hy
theorem Dev.keeps_up_boot {l : List Comp} {a e : Dev} {v} (hx : Comp.boot ∈ l) (h : Dev.keeps l a e) : Dev.keeps l a { e with boot := v } :=
  fun y hy => by cases y <;> first | exact absurd hx hy | exact h _ hy
theorem Dev.keeps_up_cap {l : List Comp} {a e : Dev} {v} (hx : Comp.cap ∈ l) (h : Dev.keeps l a e) : Dev.keeps l a { e with cap := v } :=
  fun y hy => by cases y <;> first | exact absurd hx hy | exact h _ hy
theorem Dev.keeps_up_rdm {l : List Comp} {a e : Dev} {v} (hx : Comp.rdm ∈ l) (h : Dev.keeps l a e) : Dev.keeps l a { e with rdm := v } :=
  fun y hy => by cases y <;> first | exact absurd hx hy | exact h _ hy
theorem Dev.keeps_up_she {l : List Comp} {a e : Dev} {v} (hx : Comp.she ∈ l) (h : Dev.keeps l a e) : Dev.keeps l a { e with she := v } :=
  fun y hy => by cases y <;> first | exact absurd hx hy | exact h _ hy
theorem Dev.keeps_up_pwr {l : List Comp} {a e : Dev} {v} (hx : Comp.pwr ∈ l) (h : Dev.keeps l a e) : Dev.keeps l a { e with pwr := v } :=
  fun y hy => by cases y <;> first | exact absurd hx hy | exact h _ hy
theorem Dev.keeps_up_slc {l : List Comp} {a e : Dev} {v} (hx : Comp.slc ∈ l) (h : Dev.keeps l a e) : Dev.keeps l a { e with slc := v } :=
  fun y hy => by cases y <;> first | exact absurd hx hy | exact h _ hy
theorem Dev.keeps_up_sto {l : List Comp} {a e : Dev} {v} (hx : Comp.sto ∈ l) (h : Dev.keeps l a e) : Dev.keeps l a { e with sto := v } :=
  fun y hy => by cases y <;> first | exact absurd hx hy | exact h _ hy
theorem Dev.keeps_lit {l : List Comp} {a : Dev} {x_variant24 x_pclk x_free x_drawn x_out x_ctr x_reel x_spl x_hif x_lay x_shd x_path x_tbl x_log x_aut x_brd x_cal x_mem x_dmc x_boot x_cap x_rdm x_she x_pwr x_slc x_sto} (h : ∀ y ∉ l, y.same (Dev.mk x_variant24 x_pclk x_free x_drawn x_out x_ctr x_reel x_spl x_hif x_lay x_shd x_path x_tbl x_log x_aut x_brd x_cal x_mem x_dmc x_boot x_cap x_rdm x_she x_pwr x_slc x_sto) a) : Dev.keeps l a (Dev.mk x_variant24 x_pclk x_free x_drawn x_out x_ctr x_reel x_spl x_hif x_lay x_shd x_path x_tbl x_log x_aut x_brd x_cal x_mem x_dmc x_boot x_cap x_rdm x_she x_pwr x_slc x_sto) := h
theorem Dev.keeps_tr {l m : List Comp} {a b c : Dev} (h : Dev.keeps l b c) (hl : ∀ y ∈ l, y ∈ m) (k : Dev.keeps m a b) : Dev.keeps m a c :=
  Dev.keeps_trans k (Dev.keeps_mono h hl)
theorem Dev.keeps_fold_tr {β : Type} {m : List Comp} {a b : Dev} {f : Dev → β → Dev} {xs : List β} (k : Dev.keeps m a b) (hf : ∀ d x, Dev.keeps m d (f d x)) :
    Dev.keeps m a (xs.foldl f b) := Dev.keeps_trans k (Dev.keeps_foldl hf xs b)
theorem Dev.keeps_optmap {m : List Comp} {a e : Dev} {o : Option Dev} {f : Dev → Dev} (h : ∀ x, o = some x → Dev.keeps m a (f x)) (k : Dev.keeps m a e) :
    Dev.keeps m a ((o.map f).getD e) := by
  cases o with
  | none => exact k
  | some x => exact h x rfl
theorem Dev.keeps_up_mem_cap {l : List Comp} {a e : Dev} {v w} (hx : Comp.mem ∈ l) (hz : Comp.cap ∈ l)
    (hm : e.memOk = true → Dev.memOk { e with mem := v } = true) (h : Dev.keeps l a e) : Dev.keeps l a { e with mem := v, cap := w } :=
  fun y hy => by cases y <;> first | exact absurd hx hy | exact absurd hz hy | exact fun k => hm (h _ hy k) | exact h _ hy
theorem Dev.keeps_up_mem_dmc {l : List Comp} {a e : Dev} {v w} (hx : Comp.mem ∈ l) (hz : Comp.dmc ∈ l)
    (hm : e.memOk = true → Dev.memOk { e with mem := v } = true) (h : Dev.keeps l a e) : Dev.keeps l a { e with mem := v, dmc := w } :=
  fun y hy => by cases y <;> first | exact absurd hx hy | exact absurd hz hy | exact fun k => hm (h _ hy k) | exact h _ hy
theorem Dev.keeps_up_pclk_reel {l : List Comp} {a e : Dev} {v w} (hx : Comp.pclk ∈ l) (hz : Comp.reel ∈ l) (h : Dev.keeps l a e) : Dev.keeps l a { e with pclk := v, reel := w } :=
  fun y hy => by cases y <;> first | exact absurd hx hy | exact absurd hz hy | exact h _ hy
/-! ## The canonical form of the memories -/

theorem Dev.memOk_scratch {e : Dev} {m : List Host.Cell} (h : Memory.wf e.mem.scratch = true → Memory.wf m = true) (k : e.memOk = true) :
    Dev.memOk { e with mem := { e.mem with scratch := m } } = true := by
  simp only [Dev.memOk, Bool.and_eq_true] at k ⊢; exact ⟨⟨h k.1.1, k.1.2⟩, k.2⟩
theorem Dev.memOk_flat {e : Dev} {m : List Host.Cell} (h : Memory.wf e.mem.flat = true → Memory.wf m = true) (k : e.memOk = true) :
    Dev.memOk { e with mem := { e.mem with flat := m } } = true := by
  simp only [Dev.memOk, Bool.and_eq_true] at k ⊢; exact ⟨⟨k.1.1, h k.1.2⟩, k.2⟩
theorem Dev.memOk_dram {e : Dev} {m : List Host.Cell} (h : Memory.wf e.mem.dram = true → Memory.wf m = true) (k : e.memOk = true) :
    Dev.memOk { e with mem := { e.mem with dram := m } } = true := by
  simp only [Dev.memOk, Bool.and_eq_true] at k ⊢; exact ⟨k.1, h k.2⟩
/-- Writes one after another keep the form. -/
theorem Memory.fold_wf {β : Type} (f : List Host.Cell → β → List Host.Cell) (hf : ∀ m x, Memory.wf m = true → Memory.wf (f m x) = true)
    (xs : List β) (m : List Host.Cell) (h : Memory.wf m = true) : Memory.wf (xs.foldl f m) = true := by
  induction xs generalizing m with
  | nil => exact h
  | cons x xs ih => exact ih _ (hf m x h)
/-- A masked write keeps the form. -/
theorem writeMasked_wf (m : List Host.Cell) (a mask : Nat) (data : List Byte) (h : Memory.wf m = true) :
    Memory.wf (writeMasked m a mask data) = true :=
  Memory.fold_wf _ (fun m i h => by split <;> first | exact Memory.write_wf _ _ _ h | exact h) _ _ h

theorem Dev.onBoot_keeps (f : Boot → Boot) (d : Dev) : Dev.keeps [.boot] d (Dev.onBoot f d) := by
  unfold Dev.onBoot
  repeat' first
    | with_reducible apply Dev.keeps_refl
    | with_reducible assumption
    | dsimp only
    | split
    | (with_reducible first | (apply Dev.keeps_up_boot; case hx => decide))

theorem Dev.onDir_keeps (f : Directory → Directory) (d : Dev) : Dev.keeps [.boot] d (Dev.onDir f d) := by
  unfold Dev.onDir
  repeat' first
    | with_reducible apply Dev.keeps_refl
    | with_reducible assumption
    | dsimp only
    | split
    | (with_reducible apply Dev.keeps_tr (Dev.onBoot_keeps ..); case hl => decide)

theorem Dev.onPwr_keeps (f : Pwr → Pwr) (d : Dev) : Dev.keeps [.pwr] d (Dev.onPwr f d) := by
  unfold Dev.onPwr
  repeat' first
    | with_reducible apply Dev.keeps_refl
    | with_reducible assumption
    | dsimp only
    | split
    | (with_reducible first | (apply Dev.keeps_up_pwr; case hx => decide))

theorem Dev.send_keeps (k : OutKind) (args : List Nat) (bytes : List Byte) (d : Dev) : Dev.keeps [.out] d (Dev.send k args bytes d) := by
  unfold Dev.send
  repeat' first
    | with_reducible apply Dev.keeps_refl
    | with_reducible assumption
    | dsimp only
    | split
    | (with_reducible first | (apply Dev.keeps_up_out; case hx => decide))

theorem Dev.statusPage_keeps (d : Dev) : Dev.keeps [.out, .boot] d (Dev.statusPage d) := by
  unfold Dev.statusPage
  repeat' first
    | with_reducible apply Dev.keeps_refl
    | with_reducible assumption
    | dsimp only
    | split
    | (with_reducible apply Dev.keeps_tr (Dev.onBoot_keeps ..); case hl => decide)
    | (with_reducible apply Dev.keeps_tr (Dev.send_keeps ..); case hl => decide)

theorem Dev.enterBoot_keeps (st : BootSt) (reason : Nat) (d : Dev) : Dev.keeps [.out, .boot] d (Dev.enterBoot st reason d) := by
  unfold Dev.enterBoot
  repeat' first
    | with_reducible apply Dev.keeps_refl
    | with_reducible assumption
    | dsimp only
    | split
    | (with_reducible apply Dev.keeps_tr (Dev.onBoot_keeps ..); case hl => decide)
    | (with_reducible apply Dev.keeps_tr (Dev.statusPage_keeps ..); case hl => decide)

theorem Dev.onQp_keeps (q : Nat) (f : Qp → Qp) (d : Dev) : Dev.keeps [.hif] d (Dev.onQp q f d) := by
  unfold Dev.onQp
  repeat' first
    | with_reducible apply Dev.keeps_refl
    | with_reducible assumption
    | dsimp only
    | split
    | (with_reducible first | (apply Dev.keeps_up_hif; case hx => decide))

theorem Dev.complete_keeps (q id status : Nat) (dws : List Nat) (d : Dev) : Dev.keeps [.hif] d (Dev.complete q id status dws d) := by
  unfold Dev.complete
  repeat' first
    | with_reducible apply Dev.keeps_refl
    | with_reducible assumption
    | dsimp only
    | split
    | (with_reducible apply Dev.keeps_tr (Dev.onQp_keeps ..); case hl => decide)

theorem Dev.onShe_keeps (f : She → She) (d : Dev) : Dev.keeps [.she] d (Dev.onShe f d) := by
  unfold Dev.onShe
  repeat' first
    | with_reducible apply Dev.keeps_refl
    | with_reducible assumption
    | dsimp only
    | split
    | (with_reducible first | (apply Dev.keeps_up_she; case hx => decide))

theorem Dev.endOp_keeps (o : CryOp) (st written : Nat) (d : Dev) : Dev.keeps [.hif, .she] d (Dev.endOp o st written d) := by
  unfold Dev.endOp
  repeat' first
    | with_reducible apply Dev.keeps_refl
    | with_reducible assumption
    | dsimp only
    | split
    | (with_reducible apply Dev.keeps_tr (Dev.complete_keeps ..); case hl => decide)
    | (with_reducible apply Dev.keeps_tr (Dev.onShe_keeps ..); case hl => decide)

theorem Dev.add_keeps (off n : Nat) (d : Dev) : Dev.keeps [.ctr] d (Dev.add off n d) := by
  unfold Dev.add
  repeat' first
    | with_reducible apply Dev.keeps_refl
    | with_reducible assumption
    | dsimp only
    | split
    | (with_reducible first | (apply Dev.keeps_up_ctr; case hx => decide))

theorem Dev.bump_keeps (off : Nat) (d : Dev) : Dev.keeps [.ctr] d (Dev.bump off d) := by
  unfold Dev.bump
  repeat' first
    | with_reducible apply Dev.keeps_refl
    | with_reducible assumption
    | dsimp only
    | split
    | (with_reducible apply Dev.keeps_tr (Dev.add_keeps ..); case hl => decide)

theorem Dev.onSlice_keeps (s : Nat) (f : Slice → Slice) (d : Dev) : Dev.keeps [.slc] d (Dev.onSlice s f d) := by
  unfold Dev.onSlice
  repeat' first
    | with_reducible apply Dev.keeps_refl
    | with_reducible assumption
    | dsimp only
    | split
    | (with_reducible first | (apply Dev.keeps_up_slc; case hx => decide))

theorem Dev.debitSlice_keeps (s b n : Nat) (d : Dev) : Dev.keeps [.slc] d (Dev.debitSlice s b n d) := by
  unfold Dev.debitSlice
  repeat' first
    | with_reducible apply Dev.keeps_refl
    | with_reducible assumption
    | dsimp only
    | split
    | (with_reducible apply Dev.keeps_tr (Dev.onSlice_keeps ..); case hl => decide)

theorem Dev.physPut_keeps (a : Nat) (b : Byte) (d : Dev) : Dev.keeps [.mem, .cap] d (Dev.physPut a b d) := by
  unfold Dev.physPut
  repeat' first
    | with_reducible apply Dev.keeps_refl
    | with_reducible assumption
    | dsimp only
    | split
    | (with_reducible apply Dev.keeps_up_mem_cap; (case hx => decide); (case hz => decide); (case hm => first | exact Dev.memOk_flat fun h => Memory.write_wf _ _ _ h | exact Dev.memOk_dram fun h => Memory.write_wf _ _ _ h))
    | ((with_reducible apply Dev.keeps_lit); intro y hy; cases y <;> first | exact absurd (by decide) hy | rfl)
    | (with_reducible first | (apply Dev.keeps_up_cap; case hx => decide) | (apply Dev.keeps_up_mem; (case hx => decide); (case hm => first | exact Dev.memOk_flat fun h => Memory.write_wf _ _ _ h | exact Dev.memOk_dram fun h => Memory.write_wf _ _ _ h)))

theorem Dev.physWrite_keeps (a : Nat) (bs : List Byte) (d : Dev) : Dev.keeps [.mem, .cap] d (Dev.physWrite a bs d) := by
  induction bs generalizing a d with
  | nil => exact Dev.keeps_refl _ _
  | cons b bs ih =>
    unfold Dev.physWrite
    with_reducible apply Dev.keeps_tr (ih ..); case hl => decide
    with_reducible apply Dev.keeps_tr (Dev.physPut_keeps ..); case hl => decide
    exact Dev.keeps_refl _ _
theorem Dev.ownerWrite_keeps (q addr : Nat) (bytes : List Byte) (d : Dev) : Dev.keeps [.out, .ctr, .mem, .cap, .slc] d (Dev.ownerWrite q addr bytes d) := by
  unfold Dev.ownerWrite
  repeat' first
    | with_reducible apply Dev.keeps_refl
    | with_reducible assumption
    | dsimp only
    | split
    | (with_reducible apply Dev.keeps_tr (Dev.bump_keeps ..); case hl => decide)
    | (with_reducible apply Dev.keeps_tr (Dev.debitSlice_keeps ..); case hl => decide)
    | (with_reducible apply Dev.keeps_tr (Dev.physWrite_keeps ..); case hl => decide)
    | (with_reducible apply Dev.keeps_tr (Dev.send_keeps ..); case hl => decide)

theorem Dev.useFree_keeps (d : Dev) : Dev.keeps [.free] d (Dev.useFree d) := by
  unfold Dev.useFree
  repeat' first
    | with_reducible apply Dev.keeps_refl
    | with_reducible assumption
    | dsimp only
    | split
    | (with_reducible first | (apply Dev.keeps_up_free; case hx => decide))

theorem Dev.cutOp_keeps (o : CryOp) (st : Nat) (d : Dev) : Dev.keeps [.free, .out, .ctr, .hif, .mem, .cap, .she, .slc] d (Dev.cutOp o st d) := by
  unfold Dev.cutOp
  repeat' first
    | with_reducible apply Dev.keeps_refl
    | with_reducible assumption
    | dsimp only
    | split
    | (with_reducible apply Dev.keeps_tr (Dev.endOp_keeps ..); case hl => decide)
    | (with_reducible apply Dev.keeps_tr (Dev.ownerWrite_keeps ..); case hl => decide)
    | (with_reducible apply Dev.keeps_tr (Dev.useFree_keeps ..); case hl => decide)

theorem Dev.tamperOp_keeps (o : CryOp) (d : Dev) : Dev.keeps [.free, .out, .ctr, .hif, .mem, .cap, .she, .slc] d (Dev.tamperOp o d) := by
  unfold Dev.tamperOp
  repeat' first
    | with_reducible apply Dev.keeps_refl
    | with_reducible assumption
    | dsimp only
    | split
    | (with_reducible apply Dev.keeps_tr (Dev.cutOp_keeps ..); case hl => decide)
    | (with_reducible apply Dev.keeps_tr (Dev.endOp_keeps ..); case hl => decide)

theorem Dev.abortCrypto_keeps (q : Nat) (d : Dev) : Dev.keeps [.free, .out, .ctr, .hif, .mem, .cap, .she, .slc] d (Dev.abortCrypto q d) := by
  unfold Dev.abortCrypto
  repeat' first
    | with_reducible apply Dev.keeps_refl
    | with_reducible assumption
    | dsimp only
    | split
    | (with_reducible apply Dev.keeps_tr (Dev.complete_keeps ..); case hl => decide)
    | (with_reducible apply Dev.keeps_tr (Dev.cutOp_keeps ..); case hl => decide)
    | (with_reducible apply Dev.keeps_fold_tr; case' hf => intro _ _)

theorem Dev.zeroKeys_keeps  (d : Dev) : Dev.keeps [.she] d (Dev.zeroKeys  d) := by
  unfold Dev.zeroKeys
  repeat' first
    | with_reducible apply Dev.keeps_refl
    | with_reducible assumption
    | dsimp only
    | split
    | (with_reducible apply Dev.keeps_tr (Dev.onShe_keeps ..); case hl => decide)

theorem Dev.standbyLog_keeps (r : StbyRec) (d : Dev) : Dev.keeps [.she] d (Dev.standbyLog r d) := by
  unfold Dev.standbyLog
  repeat' first
    | with_reducible apply Dev.keeps_refl
    | with_reducible assumption
    | dsimp only
    | split
    | (with_reducible apply Dev.keeps_tr (Dev.onShe_keeps ..); case hl => decide)

theorem Dev.zeroise_keeps (d : Dev) : Dev.keeps [.free, .out, .ctr, .hif, .mem, .cap, .she, .slc] d (Dev.zeroise d) := by
  unfold Dev.zeroise
  repeat' first
    | with_reducible apply Dev.keeps_refl
    | with_reducible assumption
    | dsimp only
    | split
    | (with_reducible apply Dev.keeps_tr (Dev.onShe_keeps ..); case hl => decide)
    | (with_reducible apply Dev.keeps_tr (Dev.tamperOp_keeps ..); case hl => decide)
    | (with_reducible apply Dev.keeps_tr (Dev.zeroKeys_keeps ..); case hl => decide)
    | (with_reducible apply Dev.keeps_fold_tr; case' hf => intro _ _)

theorem Dev.onAut_keeps (f : Aut → Aut) (d : Dev) : Dev.keeps [.aut] d (Dev.onAut f d) := by
  unfold Dev.onAut
  repeat' first
    | with_reducible apply Dev.keeps_refl
    | with_reducible assumption
    | dsimp only
    | split
    | (with_reducible first | (apply Dev.keeps_up_aut; case hx => decide))

theorem Dev.onCap_keeps (f : Cap → Cap) (d : Dev) : Dev.keeps [.cap] d (Dev.onCap f d) := by
  unfold Dev.onCap
  repeat' first
    | with_reducible apply Dev.keeps_refl
    | with_reducible assumption
    | dsimp only
    | split
    | (with_reducible first | (apply Dev.keeps_up_cap; case hx => decide))

theorem Dev.tamperPhase_keeps (phase : Nat) (d : Dev) : Dev.keeps [.out, .aut, .boot, .cap, .she] d (Dev.tamperPhase phase d) := by
  unfold Dev.tamperPhase
  repeat' first
    | with_reducible apply Dev.keeps_refl
    | with_reducible assumption
    | dsimp only
    | split
    | (with_reducible apply Dev.keeps_tr (Dev.enterBoot_keeps ..); case hl => decide)
    | (with_reducible apply Dev.keeps_tr (Dev.onAut_keeps ..); case hl => decide)
    | (with_reducible apply Dev.keeps_tr (Dev.onBoot_keeps ..); case hl => decide)
    | (with_reducible apply Dev.keeps_tr (Dev.onCap_keeps ..); case hl => decide)
    | (with_reducible apply Dev.keeps_tr (Dev.onShe_keeps ..); case hl => decide)

theorem Dev.tamper_keeps (sources ticks : Nat) (d : Dev) : Dev.keeps [.free, .out, .ctr, .hif, .aut, .mem, .boot, .cap, .she, .slc] d (Dev.tamper sources ticks d) := by
  unfold Dev.tamper
  repeat' first
    | with_reducible apply Dev.keeps_refl
    | with_reducible assumption
    | dsimp only
    | split
    | (with_reducible apply Dev.keeps_tr (Dev.bump_keeps ..); case hl => decide)
    | (with_reducible apply Dev.keeps_tr (Dev.onShe_keeps ..); case hl => decide)
    | (with_reducible apply Dev.keeps_tr (Dev.standbyLog_keeps ..); case hl => decide)
    | (with_reducible apply Dev.keeps_tr (Dev.tamperPhase_keeps ..); case hl => decide)
    | (with_reducible apply Dev.keeps_tr (Dev.zeroise_keeps ..); case hl => decide)
    | (with_reducible apply Dev.keeps_optmap; case' h => intro _ _)

theorem Dev.draw_keeps (n : Nat) (d : Dev) : Dev.keeps [.drawn] d (Dev.draw n d) := by
  unfold Dev.draw
  repeat' first
    | with_reducible apply Dev.keeps_refl
    | with_reducible assumption
    | dsimp only
    | split
    | (with_reducible first | (apply Dev.keeps_up_drawn; case hx => decide))

theorem Dev.generate_keeps (n : Nat) (d : Dev) : Dev.keeps [.drawn, .ctr, .she] d (Dev.generate n d).2 := by
  unfold Dev.generate
  repeat' first
    | with_reducible apply Dev.keeps_refl
    | with_reducible assumption
    | dsimp only
    | split
    | (with_reducible apply Dev.keeps_tr (Dev.bump_keeps ..); case hl => decide)
    | (with_reducible apply Dev.keeps_tr (Dev.draw_keeps ..); case hl => decide)
    | (with_reducible apply Dev.keeps_tr (Dev.onShe_keeps ..); case hl => decide)

theorem Dev.generate_keeps' {n : Nat} {d : Dev} {e : Dev} {y} (hE : Dev.generate n d = (y, e)) : Dev.keeps [.drawn, .ctr, .she] d e := by
  have k := Dev.generate_keeps n d; rw [hE] at k; exact k
theorem Dev.capRand_keeps (d : Dev) : Dev.keeps [.drawn, .ctr, .she] d (Dev.capRand d).2 := by
  unfold Dev.capRand
  repeat' first
    | with_reducible apply Dev.keeps_refl
    | with_reducible assumption
    | dsimp only
    | split
    | (with_reducible apply Dev.keeps_tr (Dev.generate_keeps ..); case hl => decide)
    | (with_reducible apply Dev.keeps_tr (Dev.generate_keeps' (by assumption)); case hl => decide)
    | (with_reducible apply Dev.keeps_tr (Dev.onShe_keeps ..); case hl => decide)

theorem Dev.capRand_keeps' {d : Dev} {e : Dev} {y} (hE : Dev.capRand d = (y, e)) : Dev.keeps [.drawn, .ctr, .she] d e := by
  have k := Dev.capRand_keeps d; rw [hE] at k; exact k
theorem Dev.ownerRead_keeps (q addr n : Nat) (given : List Byte) (d : Dev) : Dev.keeps [.slc] d (Dev.ownerRead q addr n given d).2 := by
  unfold Dev.ownerRead
  repeat' first
    | with_reducible apply Dev.keeps_refl
    | with_reducible assumption
    | dsimp only
    | split
    | (with_reducible apply Dev.keeps_tr (Dev.debitSlice_keeps ..); case hl => decide)

theorem Dev.ownerRead_keeps' {q addr n : Nat} {given : List Byte} {d : Dev} {e : Dev} {y} (hE : Dev.ownerRead q addr n given d = (y, e)) : Dev.keeps [.slc] d e := by
  have k := Dev.ownerRead_keeps q addr n given d; rw [hE] at k; exact k
theorem Dev.startDesc_keeps (q id : Nat) (d : Dev) : Dev.keeps [.hif] d (Dev.startDesc q id d) := by
  unfold Dev.startDesc
  repeat' first
    | with_reducible apply Dev.keeps_refl
    | with_reducible assumption
    | dsimp only
    | split
    | (with_reducible apply Dev.keeps_tr (Dev.onQp_keeps ..); case hl => decide)

theorem Dev.startData_keeps (q : Nat) (e : Desc) (fieldsOk : Bool) (usage : Nat) (f : List Byte → Nat → Nat × List (Nat × List Byte)) (d : Dev) : Dev.keeps [.hif, .she, .slc] d (Dev.startData q e fieldsOk usage f d) := by
  unfold Dev.startData
  repeat' first
    | with_reducible apply Dev.keeps_refl
    | with_reducible assumption
    | dsimp only
    | split
    | (with_reducible apply Dev.keeps_tr (Dev.complete_keeps ..); case hl => decide)
    | (with_reducible apply Dev.keeps_tr (Dev.debitSlice_keeps ..); case hl => decide)
    | (with_reducible apply Dev.keeps_tr (Dev.onShe_keeps ..); case hl => decide)
    | (with_reducible apply Dev.keeps_tr (Dev.startDesc_keeps ..); case hl => decide)

theorem Dev.releaseOp_keeps (o : CryOp) (d : Dev) : Dev.keeps [.out, .ctr, .mem, .cap, .she, .slc] d (Dev.releaseOp o d) := by
  unfold Dev.releaseOp
  repeat' first
    | with_reducible apply Dev.keeps_refl
    | with_reducible assumption
    | dsimp only
    | split
    | (with_reducible apply Dev.keeps_tr (Dev.onShe_keeps ..); case hl => decide)
    | (with_reducible apply Dev.keeps_tr (Dev.ownerWrite_keeps ..); case hl => decide)
    | (with_reducible apply Dev.keeps_fold_tr; case' hf => intro _ _)

theorem Dev.onDmc_keeps (f : Dmc → Dmc) (d : Dev) : Dev.keeps [.dmc] d (Dev.onDmc f d) := by
  unfold Dev.onDmc
  repeat' first
    | with_reducible apply Dev.keeps_refl
    | with_reducible assumption
    | dsimp only
    | split
    | (with_reducible first | (apply Dev.keeps_up_dmc; case hx => decide))

theorem Dev.onChan_keeps (c : Nat) (f : DChan → DChan) (d : Dev) : Dev.keeps [.dmc] d (Dev.onChan c f d) := by
  unfold Dev.onChan
  repeat' first
    | with_reducible apply Dev.keeps_refl
    | with_reducible assumption
    | dsimp only
    | split
    | (with_reducible apply Dev.keeps_tr (Dev.onDmc_keeps ..); case hl => decide)

theorem Dev.leaveRow_keeps (ch : Nat) (r : DReq) (d : Dev) : Dev.keeps [.dmc] d (Dev.leaveRow ch r d) := by
  unfold Dev.leaveRow
  repeat' first
    | with_reducible apply Dev.keeps_refl
    | with_reducible assumption
    | dsimp only
    | split
    | (with_reducible apply Dev.keeps_tr (Dev.onChan_keeps ..); case hl => decide)

theorem Dev.enqueue_keeps (ch : Nat) (r : DReq) (d : Dev) : Dev.keeps [.dmc] d (Dev.enqueue ch r d) := by
  unfold Dev.enqueue
  repeat' first
    | with_reducible apply Dev.keeps_refl
    | with_reducible assumption
    | dsimp only
    | split
    | (with_reducible apply Dev.keeps_tr (Dev.onChan_keeps ..); case hl => decide)

theorem Dev.drainMode_keeps (ch : Nat) (d : Dev) : Dev.keeps [.ctr, .dmc] d (Dev.drainMode ch d) := by
  unfold Dev.drainMode
  repeat' first
    | with_reducible apply Dev.keeps_refl
    | with_reducible assumption
    | dsimp only
    | split
    | (with_reducible apply Dev.keeps_tr (Dev.bump_keeps ..); case hl => decide)
    | (with_reducible apply Dev.keeps_tr (Dev.onChan_keeps ..); case hl => decide)

theorem Dev.inOrder_keeps (ch : Nat) (r : DReq) (d : Dev) : Dev.keeps [.ctr, .dmc] d (Dev.inOrder ch r d) := by
  unfold Dev.inOrder
  repeat' first
    | with_reducible apply Dev.keeps_refl
    | with_reducible assumption
    | dsimp only
    | split
    | (with_reducible apply Dev.keeps_tr (Dev.bump_keeps ..); case hl => decide)
    | (with_reducible apply Dev.keeps_tr (Dev.onChan_keeps ..); case hl => decide)

theorem Dev.take_keeps (ch : Nat) (r : DReq) (d : Dev) : Dev.keeps [.ctr, .dmc] d (Dev.take ch r d) := by
  unfold Dev.take
  repeat' first
    | with_reducible apply Dev.keeps_refl
    | with_reducible assumption
    | dsimp only
    | split
    | (with_reducible apply Dev.keeps_tr (Dev.drainMode_keeps ..); case hl => decide)
    | (with_reducible apply Dev.keeps_tr (Dev.enqueue_keeps ..); case hl => decide)
    | (with_reducible apply Dev.keeps_tr (Dev.inOrder_keeps ..); case hl => decide)

theorem Dev.bumpIf_keeps (c : Bool) (off : Nat) (d : Dev) : Dev.keeps [.ctr] d (Dev.bumpIf c off d) := by
  unfold Dev.bumpIf
  repeat' first
    | with_reducible apply Dev.keeps_refl
    | with_reducible assumption
    | dsimp only
    | split
    | (with_reducible apply Dev.keeps_tr (Dev.bump_keeps ..); case hl => decide)

theorem Dev.reach'_keeps (ch : Nat) (r : DReq) (d : Dev) : Dev.keeps [.ctr, .dmc] d (Dev.reach' ch r d) := by
  unfold Dev.reach'
  repeat' first
    | with_reducible apply Dev.keeps_refl
    | with_reducible assumption
    | dsimp only
    | split
    | (with_reducible apply Dev.keeps_tr (Dev.bump_keeps ..); case hl => decide)
    | (with_reducible apply Dev.keeps_tr (Dev.bumpIf_keeps ..); case hl => decide)
    | (with_reducible apply Dev.keeps_tr (Dev.onChan_keeps ..); case hl => decide)
    | (with_reducible apply Dev.keeps_tr (Dev.take_keeps ..); case hl => decide)

theorem Dev.admitWaiting_keeps (ch : Nat) (fuel : Nat) (d : Dev) : Dev.keeps [.ctr, .dmc] d (Dev.admitWaiting ch fuel d) := by
  induction fuel generalizing d with
  | zero => exact Dev.keeps_refl _ _
  | succ fuel ih =>
  unfold Dev.admitWaiting
  repeat' first
    | with_reducible apply Dev.keeps_refl
    | with_reducible assumption
    | dsimp only
    | split
    | (with_reducible apply Dev.keeps_tr (Dev.onDmc_keeps ..); case hl => decide)
    | (with_reducible apply Dev.keeps_tr (Dev.reach'_keeps ..); case hl => decide)
    | (with_reducible apply Dev.keeps_tr (ih ..); case hl => decide)

theorem Dev.uncorrectable_keeps (ch c : Nat) (patrol : Bool) (d : Dev) : Dev.keeps [.ctr, .dmc] d (Dev.uncorrectable ch c patrol d) := by
  unfold Dev.uncorrectable
  repeat' first
    | with_reducible apply Dev.keeps_refl
    | with_reducible assumption
    | dsimp only
    | split
    | (with_reducible apply Dev.keeps_tr (Dev.bump_keeps ..); case hl => decide)
    | (with_reducible apply Dev.keeps_tr (Dev.onDmc_keeps ..); case hl => decide)

theorem Dev.issueReq_keeps (ch : Nat) (r : DReq) (d : Dev) : Dev.keeps [.ctr, .mem, .dmc] d (Dev.issueReq ch r d) := by
  unfold Dev.issueReq
  repeat' first
    | with_reducible apply Dev.keeps_refl
    | with_reducible assumption
    | dsimp only
    | split
    | (with_reducible apply Dev.keeps_tr (Dev.admitWaiting_keeps ..); case hl => decide)
    | (with_reducible apply Dev.keeps_tr (Dev.bump_keeps ..); case hl => decide)
    | (with_reducible apply Dev.keeps_tr (Dev.bumpIf_keeps ..); case hl => decide)
    | (with_reducible apply Dev.keeps_tr (Dev.drainMode_keeps ..); case hl => decide)
    | (with_reducible apply Dev.keeps_tr (Dev.leaveRow_keeps ..); case hl => decide)
    | (with_reducible apply Dev.keeps_tr (Dev.onChan_keeps ..); case hl => decide)
    | (with_reducible apply Dev.keeps_tr (Dev.uncorrectable_keeps ..); case hl => decide)
    | (with_reducible apply Dev.keeps_up_mem_dmc; (case hx => decide); (case hz => decide); (case hm => exact Dev.memOk_dram fun h => writeMasked_wf _ _ _ _ h))
    | ((with_reducible apply Dev.keeps_lit); intro y hy; cases y <;> first | exact absurd (by decide) hy | rfl)
    | (with_reducible first | (apply Dev.keeps_up_dmc; case hx => decide) | (apply Dev.keeps_up_mem; (case hx => decide); (case hm => exact Dev.memOk_dram fun h => writeMasked_wf _ _ _ _ h)))

theorem Dev.runDrain_keeps (ch : Nat) (fuel : Nat) (d : Dev) : Dev.keeps [.ctr, .mem, .dmc] d (Dev.runDrain ch fuel d) := by
  induction fuel generalizing d with
  | zero => exact Dev.keeps_refl _ _
  | succ fuel ih =>
  unfold Dev.runDrain
  repeat' first
    | with_reducible apply Dev.keeps_refl
    | with_reducible assumption
    | dsimp only
    | split
    | (with_reducible apply Dev.keeps_tr (Dev.issueReq_keeps ..); case hl => decide)
    | (with_reducible apply Dev.keeps_tr (ih ..); case hl => decide)

theorem Dev.corrected_keeps (ch c dev : Nat) (d : Dev) : Dev.keeps [.ctr, .dmc] d (Dev.corrected ch c dev d) := by
  unfold Dev.corrected
  repeat' first
    | with_reducible apply Dev.keeps_refl
    | with_reducible assumption
    | dsimp only
    | split
    | (with_reducible apply Dev.keeps_tr (Dev.bump_keeps ..); case hl => decide)
    | (with_reducible apply Dev.keeps_tr (Dev.onDmc_keeps ..); case hl => decide)
    | (with_reducible apply Dev.keeps_tr (Dev.take_keeps ..); case hl => decide)

theorem Dev.idleWrites_keeps (ch : Nat) (d : Dev) : Dev.keeps [.free, .ctr, .mem, .dmc] d (Dev.idleWrites ch d) := by
  unfold Dev.idleWrites
  repeat' first
    | with_reducible apply Dev.keeps_refl
    | with_reducible assumption
    | dsimp only
    | split
    | (with_reducible apply Dev.keeps_tr (Dev.issueReq_keeps ..); case hl => decide)
    | (with_reducible apply Dev.keeps_tr (Dev.useFree_keeps ..); case hl => decide)
    | (with_reducible apply Dev.keeps_fold_tr; case' hf => intro _ _)

theorem Dev.dramAccept_keeps (r : DReq) (d : Dev) : Dev.keeps [.free, .ctr, .mem, .dmc] d (Dev.dramAccept r d) := by
  unfold Dev.dramAccept
  repeat' first
    | with_reducible apply Dev.keeps_refl
    | with_reducible assumption
    | dsimp only
    | split
    | (with_reducible apply Dev.keeps_tr (Dev.add_keeps ..); case hl => decide)
    | (with_reducible apply Dev.keeps_tr (Dev.bump_keeps ..); case hl => decide)
    | (with_reducible apply Dev.keeps_tr (Dev.idleWrites_keeps ..); case hl => decide)
    | (with_reducible apply Dev.keeps_tr (Dev.onDmc_keeps ..); case hl => decide)
    | (with_reducible apply Dev.keeps_tr (Dev.reach'_keeps ..); case hl => decide)

theorem Dev.closeRank_keeps (ch rank : Nat) (d : Dev) : Dev.keeps [.dmc] d (Dev.closeRank ch rank d) := by
  unfold Dev.closeRank
  repeat' first
    | with_reducible apply Dev.keeps_refl
    | with_reducible assumption
    | dsimp only
    | split
    | (with_reducible apply Dev.keeps_tr (Dev.onChan_keeps ..); case hl => decide)

theorem Dev.trainFail_keeps (ch reason step : Nat) (d : Dev) : Dev.keeps [.dmc] d (Dev.trainFail ch reason step d) := by
  unfold Dev.trainFail
  repeat' first
    | with_reducible apply Dev.keeps_refl
    | with_reducible assumption
    | dsimp only
    | split
    | (with_reducible apply Dev.keeps_tr (Dev.onChan_keeps ..); case hl => decide)
    | (with_reducible apply Dev.keeps_tr (Dev.onDmc_keeps ..); case hl => decide)

theorem Dev.population_keeps (ch : Nat) (p : Spd) (d : Dev) : Dev.keeps [.dmc] d (Dev.population ch p d) := by
  unfold Dev.population
  repeat' first
    | with_reducible apply Dev.keeps_refl
    | with_reducible assumption
    | dsimp only
    | split
    | (with_reducible apply Dev.keeps_tr (Dev.onDmc_keeps ..); case hl => decide)
    | (with_reducible apply Dev.keeps_tr (Dev.trainFail_keeps ..); case hl => decide)
    | (with_reducible apply Dev.keeps_optmap; case' h => intro _ _)

theorem Dev.startTraining_keeps (noRecord : Bool) (rate k : Nat) (masks : List Nat) (ports : List (Nat × Nat)) (d : Dev) : Dev.keeps [.dmc] d (Dev.startTraining noRecord rate k masks ports d) := by
  unfold Dev.startTraining
  repeat' first
    | with_reducible apply Dev.keeps_refl
    | with_reducible assumption
    | dsimp only
    | split
    | (with_reducible apply Dev.keeps_tr (Dev.onDmc_keeps ..); case hl => decide)

theorem Dev.failTrial_keeps (reason : Nat) (d : Dev) : Dev.keeps [.ctr, .boot] d (Dev.failTrial reason d) := by
  unfold Dev.failTrial
  repeat' first
    | with_reducible apply Dev.keeps_refl
    | with_reducible assumption
    | dsimp only
    | split
    | (with_reducible apply Dev.keeps_tr (Dev.bump_keeps ..); case hl => decide)
    | (with_reducible apply Dev.keeps_tr (Dev.onBoot_keeps ..); case hl => decide)
    | (with_reducible apply Dev.keeps_tr (Dev.onDir_keeps ..); case hl => decide)

theorem Dev.onSa_keeps (k : Nat) (f : Sa → Sa) (d : Dev) : Dev.keeps [.she] d (Dev.onSa k f d) := by
  unfold Dev.onSa
  repeat' first
    | with_reducible apply Dev.keeps_refl
    | with_reducible assumption
    | dsimp only
    | split
    | (with_reducible first | (apply Dev.keeps_up_she; case hx => decide))

theorem Dev.macsecRx_keeps (port : Nat) (sas : Map Sa) (sec : Option SecTag) (d : Dev) : Dev.keeps [.ctr, .she] d (Dev.macsecRx port sas sec d).1 := by
  unfold Dev.macsecRx
  repeat' first
    | with_reducible apply Dev.keeps_refl
    | with_reducible assumption
    | dsimp only
    | split
    | (with_reducible apply Dev.keeps_tr (Dev.bump_keeps ..); case hl => decide)
    | (with_reducible apply Dev.keeps_tr (Dev.onSa_keeps ..); case hl => decide)

theorem Dev.macsecRx_keeps' {port : Nat} {sas : Map Sa} {sec : Option SecTag} {d : Dev} {e : Dev} {y} (hE : Dev.macsecRx port sas sec d = (e, y)) : Dev.keeps [.ctr, .she] d e := by
  have k := Dev.macsecRx_keeps port sas sec d; rw [hE] at k; exact k
theorem Dev.macsecTx_keeps (port : Nat) (d : Dev) : Dev.keeps [.ctr, .she] d (Dev.macsecTx port d).1 := by
  unfold Dev.macsecTx
  repeat' first
    | with_reducible apply Dev.keeps_refl
    | with_reducible assumption
    | dsimp only
    | split
    | (with_reducible apply Dev.keeps_tr (Dev.bump_keeps ..); case hl => decide)
    | (with_reducible apply Dev.keeps_tr (Dev.onSa_keeps ..); case hl => decide)

theorem Dev.macsecTx_keeps' {port : Nat} {d : Dev} {e : Dev} {y} (hE : Dev.macsecTx port d = (e, y)) : Dev.keeps [.ctr, .she] d e := by
  have k := Dev.macsecTx_keeps port d; rw [hE] at k; exact k
theorem Dev.onReel_keeps (f : Reel → Reel) (d : Dev) : Dev.keeps [.reel] d (Dev.onReel f d) := by
  unfold Dev.onReel
  repeat' first
    | with_reducible apply Dev.keeps_refl
    | with_reducible assumption
    | dsimp only
    | split
    | (with_reducible first | (apply Dev.keeps_up_reel; case hx => decide))

theorem Dev.onCand_keeps (e : Nat) (f : Cand → Cand) (d : Dev) : Dev.keeps [.reel] d (Dev.onCand e f d) := by
  unfold Dev.onCand
  repeat' first
    | with_reducible apply Dev.keeps_refl
    | with_reducible assumption
    | dsimp only
    | split
    | (with_reducible apply Dev.keeps_tr (Dev.onReel_keeps ..); case hl => decide)

theorem Dev.takeParams_keeps (d : Dev) : Dev.keeps [.reel] d (Dev.takeParams d) := by
  unfold Dev.takeParams
  repeat' first
    | with_reducible apply Dev.keeps_refl
    | with_reducible assumption
    | dsimp only
    | split
    | (with_reducible apply Dev.keeps_tr (Dev.onReel_keeps ..); case hl => decide)

theorem Dev.pickFreq_keeps (d : Dev) : Dev.keeps [.reel] d (Dev.pickFreq d) := by
  unfold Dev.pickFreq
  repeat' first
    | with_reducible apply Dev.keeps_refl
    | with_reducible assumption
    | dsimp only
    | split
    | (with_reducible apply Dev.keeps_tr (Dev.onReel_keeps ..); case hl => decide)
    | (with_reducible apply Dev.keeps_tr (Dev.takeParams_keeps ..); case hl => decide)

theorem Dev.loseSource_keeps (e : Nat) (d : Dev) : Dev.keeps [.reel] d (Dev.loseSource e d) := by
  unfold Dev.loseSource
  repeat' first
    | with_reducible apply Dev.keeps_refl
    | with_reducible assumption
    | dsimp only
    | split
    | (with_reducible apply Dev.keeps_tr (Dev.onCand_keeps ..); case hl => decide)
    | (with_reducible apply Dev.keeps_tr (Dev.onReel_keeps ..); case hl => decide)
    | (with_reducible apply Dev.keeps_tr (Dev.pickFreq_keeps ..); case hl => decide)

theorem Dev.notApplied_keeps (e : Nat) (d : Dev) : Dev.keeps [.reel] d (Dev.notApplied e d) := by
  unfold Dev.notApplied
  repeat' first
    | with_reducible apply Dev.keeps_refl
    | with_reducible assumption
    | dsimp only
    | split
    | (with_reducible apply Dev.keeps_tr (Dev.loseSource_keeps ..); case hl => decide)
    | (with_reducible apply Dev.keeps_tr (Dev.onReel_keeps ..); case hl => decide)

theorem Dev.applySample_keeps (err : Int) (d : Dev) : Dev.keeps [.reel] d (Dev.applySample err d) := by
  unfold Dev.applySample
  repeat' first
    | with_reducible apply Dev.keeps_refl
    | with_reducible assumption
    | dsimp only
    | split
    | (with_reducible apply Dev.keeps_tr (Dev.onReel_keeps ..); case hl => decide)

theorem Dev.dropHeld_keeps (d : Dev) : Dev.keeps [.ctr, .reel] d (Dev.dropHeld d) := by
  unfold Dev.dropHeld
  repeat' first
    | with_reducible apply Dev.keeps_refl
    | with_reducible assumption
    | dsimp only
    | split
    | (with_reducible apply Dev.keeps_tr (Dev.add_keeps ..); case hl => decide)
    | (with_reducible apply Dev.keeps_tr (Dev.onReel_keeps ..); case hl => decide)

theorem Dev.holdSample_keeps (e : Nat) (err : Int) (d : Dev) : Dev.keeps [.ctr, .reel] d (Dev.holdSample e err d) := by
  unfold Dev.holdSample
  repeat' first
    | with_reducible apply Dev.keeps_refl
    | with_reducible assumption
    | dsimp only
    | split
    | (with_reducible apply Dev.keeps_tr (Dev.dropHeld_keeps ..); case hl => decide)
    | (with_reducible apply Dev.keeps_tr (Dev.notApplied_keeps ..); case hl => decide)
    | (with_reducible apply Dev.keeps_tr (Dev.onReel_keeps ..); case hl => decide)

theorem Dev.rootSample_keeps (e : Nat) (err : Int) (d : Dev) : Dev.keeps [.ctr, .reel] d (Dev.rootSample e err d) := by
  unfold Dev.rootSample
  repeat' first
    | with_reducible apply Dev.keeps_refl
    | with_reducible assumption
    | dsimp only
    | split
    | (with_reducible apply Dev.keeps_tr (Dev.applySample_keeps ..); case hl => decide)
    | (with_reducible apply Dev.keeps_tr (Dev.dropHeld_keeps ..); case hl => decide)
    | (with_reducible apply Dev.keeps_tr (Dev.holdSample_keeps ..); case hl => decide)

theorem Dev.learnSource_keeps (d : Dev) : Dev.keeps [.reel] d (Dev.learnSource d) := by
  unfold Dev.learnSource
  repeat' first
    | with_reducible apply Dev.keeps_refl
    | with_reducible assumption
    | dsimp only
    | split
    | (with_reducible apply Dev.keeps_tr (Dev.onReel_keeps ..); case hl => decide)

theorem Dev.select_keeps (d : Dev) : Dev.keeps [.ctr, .reel] d (Dev.select d) := by
  unfold Dev.select
  repeat' first
    | with_reducible apply Dev.keeps_refl
    | with_reducible assumption
    | dsimp only
    | split
    | (with_reducible apply Dev.keeps_tr (Dev.dropHeld_keeps ..); case hl => decide)
    | (with_reducible apply Dev.keeps_tr (Dev.learnSource_keeps ..); case hl => decide)
    | (with_reducible apply Dev.keeps_tr (Dev.onReel_keeps ..); case hl => decide)
    | (with_reducible apply Dev.keeps_tr (Dev.pickFreq_keeps ..); case hl => decide)

theorem Dev.rejectUp_keeps (e : Nat) (d : Dev) : Dev.keeps [.ctr, .reel] d (Dev.rejectUp e d) := by
  unfold Dev.rejectUp
  repeat' first
    | with_reducible apply Dev.keeps_refl
    | with_reducible assumption
    | dsimp only
    | split
    | (with_reducible apply Dev.keeps_tr (Dev.bump_keeps ..); case hl => decide)
    | (with_reducible apply Dev.keeps_tr (Dev.loseSource_keeps ..); case hl => decide)
    | (with_reducible apply Dev.keeps_tr (Dev.onCand_keeps ..); case hl => decide)
    | (with_reducible apply Dev.keeps_tr (Dev.select_keeps ..); case hl => decide)

theorem Dev.upSample_keeps (e : Nat) (err : Int) (era off : Nat) (d : Dev) : Dev.keeps [.ctr, .reel] d (Dev.upSample e err era off d) := by
  unfold Dev.upSample
  repeat' first
    | with_reducible apply Dev.keeps_refl
    | with_reducible assumption
    | dsimp only
    | split
    | (with_reducible apply Dev.keeps_tr (Dev.applySample_keeps ..); case hl => decide)
    | (with_reducible apply Dev.keeps_tr (Dev.onReel_keeps ..); case hl => decide)
    | (with_reducible apply Dev.keeps_tr (Dev.rejectUp_keeps ..); case hl => decide)

theorem Dev.onPath_keeps (f : Path → Path) (d : Dev) : Dev.keeps [.path] d (Dev.onPath f d) := by
  unfold Dev.onPath
  repeat' first
    | with_reducible apply Dev.keeps_refl
    | with_reducible assumption
    | dsimp only
    | split
    | (with_reducible first | (apply Dev.keeps_up_path; case hx => decide))

theorem Dev.delaySample_keeps (port : Nat) (ns : Option Nat) (d : Dev) : Dev.keeps [.path] d (Dev.delaySample port ns d) := by
  unfold Dev.delaySample
  repeat' first
    | with_reducible apply Dev.keeps_refl
    | with_reducible assumption
    | dsimp only
    | split
    | (with_reducible apply Dev.keeps_tr (Dev.onPath_keeps ..); case hl => decide)

theorem Dev.timeOfDay_keeps (e : Nat) (err : Int) (d : Dev) : Dev.keeps [.reel] d (Dev.timeOfDay e err d) := by
  unfold Dev.timeOfDay
  repeat' first
    | with_reducible apply Dev.keeps_refl
    | with_reducible assumption
    | dsimp only
    | split
    | (with_reducible apply Dev.keeps_tr (Dev.onReel_keeps ..); case hl => decide)

theorem Dev.sendGated_keeps (k : OutKind) (args : List Nat) (bytes : List Byte) (d : Dev) : Dev.keeps [.out] d (Dev.sendGated k args bytes d) := by
  unfold Dev.sendGated
  repeat' first
    | with_reducible apply Dev.keeps_refl
    | with_reducible assumption
    | dsimp only
    | split
    | (with_reducible apply Dev.keeps_tr (Dev.send_keeps ..); case hl => decide)

theorem Dev.ptpAnswer_keeps (port : Nat) (d : Dev) : Dev.keeps [.out] d (Dev.ptpAnswer port d) := by
  unfold Dev.ptpAnswer
  repeat' first
    | with_reducible apply Dev.keeps_refl
    | with_reducible assumption
    | dsimp only
    | split
    | (with_reducible apply Dev.keeps_tr (Dev.sendGated_keeps ..); case hl => decide)

theorem Dev.onLog_keeps (f : Log → Log) (d : Dev) : Dev.keeps [.log] d (Dev.onLog f d) := by
  unfold Dev.onLog
  repeat' first
    | with_reducible apply Dev.keeps_refl
    | with_reducible assumption
    | dsimp only
    | split
    | (with_reducible first | (apply Dev.keeps_up_log; case hx => decide))

theorem Dev.stage_keeps (gap : Bool) (ns : Nat) (bytes : List Byte) (d : Dev) {e : Dev} (hE : (Dev.stage gap ns bytes d) = some e) : Dev.keeps [.log] d e := by
  unfold Dev.stage at hE
  revert hE
  repeat' first
    | with_reducible apply Dev.keeps_refl
    | with_reducible assumption
    | dsimp only
    | split
    | (intro h; injection h with h; subst h)
    | (intro h; cases h; done)
    | (with_reducible apply Dev.keeps_tr (Dev.onLog_keeps ..); case hl => decide)
    | (with_reducible apply Dev.keeps_optmap; case' h => intro _ _)

theorem Dev.stageGap_keeps (ns : Nat) (bytes : List Byte) (d : Dev) {e : Dev} (hE : d.stageGap ns bytes = some e) : Dev.keeps [.log] d e := by
  unfold Dev.stageGap at hE
  revert hE
  split
  · rename_i h; intro k; injection k with k; subst k; exact Dev.stage_keeps _ _ _ _ h
  · intro h; exact Dev.stage_keeps _ _ _ _ h
theorem Dev.closeBuf_keeps (q : Nat) (b : Buf) (d : Dev) : Dev.keeps [.hif] d (Dev.closeBuf q b d) := by
  unfold Dev.closeBuf
  repeat' first
    | with_reducible apply Dev.keeps_refl
    | with_reducible assumption
    | dsimp only
    | split
    | (with_reducible apply Dev.keeps_tr (Dev.complete_keeps ..); case hl => decide)

theorem Dev.offer_keeps (q : Nat) (ev : List Byte) (d : Dev) : Dev.keeps [.out, .ctr, .hif, .mem, .cap, .slc] d (Dev.offer q ev d).1 := by
  unfold Dev.offer
  repeat' first
    | with_reducible apply Dev.keeps_refl
    | with_reducible assumption
    | dsimp only
    | split
    | (with_reducible apply Dev.keeps_tr (Dev.bump_keeps ..); case hl => decide)
    | (with_reducible apply Dev.keeps_tr (Dev.closeBuf_keeps ..); case hl => decide)
    | (with_reducible apply Dev.keeps_tr (Dev.onQp_keeps ..); case hl => decide)
    | (with_reducible apply Dev.keeps_tr (Dev.ownerWrite_keeps ..); case hl => decide)
    | (with_reducible apply Dev.keeps_fold_tr; case' hf => intro _ _)

theorem Dev.offer_keeps' {q : Nat} {ev : List Byte} {d : Dev} {e : Dev} {y} (hE : Dev.offer q ev d = (e, y)) : Dev.keeps [.out, .ctr, .hif, .mem, .cap, .slc] d e := by
  have k := Dev.offer_keeps q ev d; rw [hE] at k; exact k
theorem Dev.toView_keeps (n : Nat) (v : View) (body : List Byte) (d : Dev) : Dev.keeps [.out, .ctr, .hif, .log, .mem, .cap, .slc] d (Dev.toView n v body d) := by
  unfold Dev.toView
  repeat' first
    | with_reducible apply Dev.keeps_refl
    | with_reducible assumption
    | dsimp only
    | split
    | (with_reducible apply Dev.keeps_tr (Dev.bump_keeps ..); case hl => decide)
    | (with_reducible apply Dev.keeps_tr (Dev.offer_keeps ..); case hl => decide)
    | (with_reducible apply Dev.keeps_tr (Dev.offer_keeps' (by assumption)); case hl => decide)
    | (with_reducible apply Dev.keeps_tr (Dev.onLog_keeps ..); case hl => decide)

theorem Dev.toViews_keeps (iport eport domain : Nat) (bytes : List Byte) (d : Dev) : Dev.keeps [.out, .ctr, .hif, .log, .mem, .cap, .slc] d (Dev.toViews iport eport domain bytes d) := by
  unfold Dev.toViews
  repeat' first
    | with_reducible apply Dev.keeps_refl
    | with_reducible assumption
    | dsimp only
    | split
    | (with_reducible apply Dev.keeps_tr (Dev.toView_keeps ..); case hl => decide)
    | (with_reducible apply Dev.keeps_fold_tr; case' hf => intro _ _)

theorem Dev.logMark_keeps (turn : Nat) (d : Dev) : Dev.keeps [.out, .ctr, .hif, .log, .mem, .cap, .slc] d (d.logMark turn) := by
  unfold Dev.logMark
  dsimp only
  split
  · rename_i h
    with_reducible apply Dev.keeps_tr (Dev.toViews_keeps ..); case hl => decide
    with_reducible apply Dev.keeps_tr (Dev.onLog_keeps ..); case hl => decide
    with_reducible apply Dev.keeps_tr (Dev.stageGap_keeps _ _ _ h); case hl => decide
    exact Dev.keeps_refl _ _
  · exact Dev.keeps_refl _ _
theorem Dev.emitGap_keeps (at' k : Nat) (count span : Nat) (d : Dev) : Dev.keeps [.out, .ctr, .hif, .log, .mem, .cap, .slc] d (d.emitGap at' k count span) := by
  unfold Dev.emitGap
  dsimp only
  split
  · rename_i h
    with_reducible apply Dev.keeps_fold_tr; case' hf =>
      intro _ _
      split
      · with_reducible apply Dev.keeps_tr (Dev.toView_keeps ..); case hl => decide
        exact Dev.keeps_refl _ _
      · exact Dev.keeps_refl _ _
    with_reducible apply Dev.keeps_tr (Dev.onLog_keeps ..); case hl => decide
    with_reducible apply Dev.keeps_tr (Dev.stageGap_keeps _ _ _ h); case hl => decide
    exact Dev.keeps_refl _ _
  · with_reducible apply Dev.keeps_tr (Dev.onLog_keeps ..); case hl => decide
    exact Dev.keeps_refl _ _
theorem Dev.emitViewGap_keeps (at' n : Nat) (v : View) (d : Dev) : Dev.keeps [.out, .ctr, .hif, .log, .mem, .cap, .slc] d (Dev.emitViewGap at' n v d) := by
  unfold Dev.emitViewGap
  repeat' first
    | with_reducible apply Dev.keeps_refl
    | with_reducible assumption
    | dsimp only
    | split
    | (with_reducible apply Dev.keeps_tr (Dev.offer_keeps ..); case hl => decide)
    | (with_reducible apply Dev.keeps_tr (Dev.offer_keeps' (by assumption)); case hl => decide)
    | (with_reducible apply Dev.keeps_tr (Dev.onLog_keeps ..); case hl => decide)

theorem Dev.newBlock_keeps (anchor : Nat) (d : Dev) : Dev.keeps [.log] d (Dev.newBlock anchor d) := by
  unfold Dev.newBlock
  repeat' first
    | with_reducible apply Dev.keeps_refl
    | with_reducible assumption
    | dsimp only
    | split
    | (with_reducible apply Dev.keeps_tr (Dev.onLog_keeps ..); case hl => decide)

theorem Dev.logTurn_keeps (t : Nat) (d : Dev) : Dev.keeps [.out, .ctr, .hif, .log, .mem, .cap, .slc] d (Dev.logTurn t d) := by
  unfold Dev.logTurn
  repeat' first
    | with_reducible apply Dev.keeps_refl
    | with_reducible assumption
    | dsimp only
    | split
    | (with_reducible apply Dev.keeps_tr (Dev.emitGap_keeps ..); case hl => decide)
    | (with_reducible apply Dev.keeps_tr (Dev.emitViewGap_keeps ..); case hl => decide)
    | (with_reducible apply Dev.keeps_tr (Dev.newBlock_keeps ..); case hl => decide)
    | (with_reducible apply Dev.keeps_tr (Dev.onLog_keeps ..); case hl => decide)
    | (with_reducible apply Dev.keeps_fold_tr; case' hf => intro _ _)

theorem Dev.gap_keeps (iport fate : Nat) (d : Dev) : Dev.keeps [.ctr, .log] d (Dev.gap iport fate d) := by
  unfold Dev.gap
  repeat' first
    | with_reducible apply Dev.keeps_refl
    | with_reducible assumption
    | dsimp only
    | split
    | (with_reducible apply Dev.keeps_tr (Dev.bump_keeps ..); case hl => decide)
    | (with_reducible apply Dev.keeps_tr (Dev.onLog_keeps ..); case hl => decide)

theorem Dev.putRecord_keeps (r : RecFields) (bytes : List Byte) (d : Dev) {e : Dev} (hE : d.putRecord r bytes = some e) : Dev.keeps [.out, .ctr, .hif, .log, .mem, .cap, .slc] d e := by
  unfold Dev.putRecord at hE
  rw [Option.map_eq_some_iff] at hE
  obtain ⟨y, hy, rfl⟩ := hE
  with_reducible apply Dev.keeps_tr (Dev.toViews_keeps ..); case hl => decide
  with_reducible apply Dev.keeps_tr (Dev.bump_keeps ..); case hl => decide
  with_reducible apply Dev.keeps_tr (Dev.onLog_keeps ..); case hl => decide
  with_reducible apply Dev.keeps_tr (Dev.stage_keeps _ _ _ _ hy); case hl => decide
  exact Dev.keeps_refl _ _
theorem Dev.record_keeps (r : RecFields) (frame : List Byte) (d : Dev) : Dev.keeps [.out, .ctr, .hif, .log, .mem, .cap, .slc] d (d.record r frame) := by
  unfold Dev.record
  dsimp only
  split
  · rename_i h; revert h; split
    · intro h; exact Dev.putRecord_keeps _ _ _ h
    · nofun
  · split
    · rename_i h; revert h; split
      · intro h
        with_reducible apply Dev.keeps_tr (Dev.bump_keeps ..); case hl => decide
        exact Dev.putRecord_keeps _ _ _ h
      · nofun
    · with_reducible apply Dev.keeps_tr (Dev.gap_keeps ..); case hl => decide
      split
      · exact Dev.keeps_refl _ _
      · with_reducible apply Dev.keeps_tr (Dev.onLog_keeps ..); case hl => decide
        exact Dev.keeps_refl _ _
theorem Dev.logItem_keeps (i : LogItem) (d : Dev) : Dev.keeps [.out, .ctr, .hif, .log, .mem, .cap, .slc] d (Dev.logItem i d) := by
  unfold Dev.logItem
  repeat' first
    | with_reducible apply Dev.keeps_refl
    | with_reducible assumption
    | dsimp only
    | split
    | (with_reducible apply Dev.keeps_tr (Dev.logMark_keeps ..); case hl => decide)
    | (with_reducible apply Dev.keeps_tr (Dev.logTurn_keeps ..); case hl => decide)
    | (with_reducible apply Dev.keeps_tr (Dev.newBlock_keeps ..); case hl => decide)
    | (with_reducible apply Dev.keeps_tr (Dev.onLog_keeps ..); case hl => decide)
    | (with_reducible apply Dev.keeps_tr (Dev.record_keeps ..); case hl => decide)

theorem Dev.flushLog_keeps (d : Dev) : Dev.keeps [.out, .ctr, .hif, .log, .mem, .cap, .slc] d (Dev.flushLog d) := by
  unfold Dev.flushLog
  repeat' first
    | with_reducible apply Dev.keeps_refl
    | with_reducible assumption
    | dsimp only
    | split
    | (with_reducible apply Dev.keeps_tr (Dev.logItem_keeps ..); case hl => decide)
    | (with_reducible apply Dev.keeps_tr (Dev.onLog_keeps ..); case hl => decide)
    | (with_reducible apply Dev.keeps_fold_tr; case' hf => intro _ _)

theorem Dev.log'_keeps (i : LogItem) (d : Dev) : Dev.keeps [.out, .ctr, .hif, .log, .mem, .cap, .slc] d (Dev.log' i d) := by
  unfold Dev.log'
  repeat' first
    | with_reducible apply Dev.keeps_refl
    | with_reducible assumption
    | dsimp only
    | split
    | (with_reducible apply Dev.keeps_tr (Dev.flushLog_keeps ..); case hl => decide)
    | (with_reducible apply Dev.keeps_tr (Dev.onLog_keeps ..); case hl => decide)

theorem Dev.logTake1_keeps (q : Nat) (d : Dev) : Dev.keeps [.out, .ctr, .hif, .mem, .cap, .slc] d (Dev.logTake1 q d) := by
  unfold Dev.logTake1
  repeat' first
    | with_reducible apply Dev.keeps_refl
    | with_reducible assumption
    | dsimp only
    | split
    | (with_reducible apply Dev.keeps_tr (Dev.offer_keeps ..); case hl => decide)
    | (with_reducible apply Dev.keeps_tr (Dev.offer_keeps' (by assumption)); case hl => decide)
    | (with_reducible apply Dev.keeps_tr (Dev.onQp_keeps ..); case hl => decide)

theorem Dev.moveLog_keeps (d : Dev) : Dev.keeps [.spl] d (Dev.moveLog d) := by
  unfold Dev.moveLog
  repeat' first
    | with_reducible apply Dev.keeps_refl
    | with_reducible assumption
    | dsimp only
    | split
    | (with_reducible first | (apply Dev.keeps_up_spl; case hx => decide))

theorem Dev.pumpLog_keeps (d : Dev) : Dev.keeps [.out, .ctr, .spl, .hif, .mem, .cap, .slc] d (Dev.pumpLog d) := by
  unfold Dev.pumpLog
  repeat' first
    | with_reducible apply Dev.keeps_refl
    | with_reducible assumption
    | dsimp only
    | split
    | (with_reducible apply Dev.keeps_tr (Dev.logTake1_keeps ..); case hl => decide)
    | (with_reducible apply Dev.keeps_tr (Dev.moveLog_keeps ..); case hl => decide)
    | (with_reducible apply Dev.keeps_fold_tr; case' hf => intro _ _)
    | (with_reducible first | (apply Dev.keeps_up_spl; case hx => decide))

theorem Dev.append_keeps (r : LogRec) (d : Dev) : Dev.keeps [.out, .ctr, .spl, .hif, .mem, .cap, .slc] d (Dev.append r d) := by
  unfold Dev.append
  repeat' first
    | with_reducible apply Dev.keeps_refl
    | with_reducible assumption
    | dsimp only
    | split
    | (with_reducible apply Dev.keeps_tr (Dev.bump_keeps ..); case hl => decide)
    | (with_reducible apply Dev.keeps_tr (Dev.onQp_keeps ..); case hl => decide)
    | (with_reducible apply Dev.keeps_tr (Dev.pumpLog_keeps ..); case hl => decide)
    | (with_reducible apply Dev.keeps_fold_tr; case' hf => intro _ _)
    | (with_reducible first | (apply Dev.keeps_up_spl; case hx => decide))

theorem Dev.logEventSt_keeps (code st digest shade : Nat) (d : Dev) : Dev.keeps [.out, .ctr, .spl, .hif, .mem, .cap, .slc] d (Dev.logEventSt code st digest shade d) := by
  unfold Dev.logEventSt
  repeat' first
    | with_reducible apply Dev.keeps_refl
    | with_reducible assumption
    | dsimp only
    | split
    | (with_reducible apply Dev.keeps_tr (Dev.append_keeps ..); case hl => decide)
    | (with_reducible apply Dev.keeps_tr (Dev.bump_keeps ..); case hl => decide)

theorem Dev.logEvent_keeps (code digest shade : Nat) (d : Dev) : Dev.keeps [.out, .ctr, .spl, .hif, .mem, .cap, .slc] d (Dev.logEvent code digest shade d) := by
  unfold Dev.logEvent
  repeat' first
    | with_reducible apply Dev.keeps_refl
    | with_reducible assumption
    | dsimp only
    | split
    | (with_reducible apply Dev.keeps_tr (Dev.logEventSt_keeps ..); case hl => decide)

theorem Dev.discTail_keeps (a : Nat) (signedD : Int) (off era : Nat) (d : Dev) : Dev.keeps [.out, .ctr, .reel, .spl, .hif, .log, .mem, .cap, .slc] d (Dev.discTail a signedD off era d) := by
  unfold Dev.discTail
  repeat' first
    | with_reducible apply Dev.keeps_refl
    | with_reducible assumption
    | dsimp only
    | split
    | (with_reducible apply Dev.keeps_tr (Dev.bump_keeps ..); case hl => decide)
    | (with_reducible apply Dev.keeps_tr (Dev.log'_keeps ..); case hl => decide)
    | (with_reducible apply Dev.keeps_tr (Dev.logEvent_keeps ..); case hl => decide)
    | (with_reducible apply Dev.keeps_tr (Dev.onReel_keeps ..); case hl => decide)

theorem Dev.discontinuity_keeps (d : Dev) : Dev.keeps [.out, .ctr, .reel, .spl, .hif, .log, .mem, .cap, .slc] d (Dev.discontinuity d) := by
  unfold Dev.discontinuity
  repeat' first
    | with_reducible apply Dev.keeps_refl
    | with_reducible assumption
    | dsimp only
    | split
    | (with_reducible apply Dev.keeps_tr (Dev.add_keeps ..); case hl => decide)
    | (with_reducible apply Dev.keeps_tr (Dev.discTail_keeps ..); case hl => decide)
    | (with_reducible apply Dev.keeps_tr (Dev.onReel_keeps ..); case hl => decide)

theorem Dev.onSpl_keeps (f : Splice → Splice) (d : Dev) : Dev.keeps [.spl] d (Dev.onSpl f d) := by
  unfold Dev.onSpl
  repeat' first
    | with_reducible apply Dev.keeps_refl
    | with_reducible assumption
    | dsimp only
    | split
    | (with_reducible first | (apply Dev.keeps_up_spl; case hx => decide))

theorem Dev.spoilBarriers_keeps  (d : Dev) : Dev.keeps [.spl] d (Dev.spoilBarriers  d) := by
  unfold Dev.spoilBarriers
  repeat' first
    | with_reducible apply Dev.keeps_refl
    | with_reducible assumption
    | dsimp only
    | split
    | (with_reducible apply Dev.keeps_tr (Dev.onSpl_keeps ..); case hl => decide)

theorem Dev.holdover_keeps (d : Dev) : Dev.keeps [.ctr, .reel, .spl] d (Dev.holdover d) := by
  unfold Dev.holdover
  repeat' first
    | with_reducible apply Dev.keeps_refl
    | with_reducible assumption
    | dsimp only
    | split
    | (with_reducible apply Dev.keeps_tr (Dev.dropHeld_keeps ..); case hl => decide)
    | (with_reducible apply Dev.keeps_tr (Dev.onReel_keeps ..); case hl => decide)
    | (with_reducible apply Dev.keeps_tr (Dev.pickFreq_keeps ..); case hl => decide)
    | (with_reducible apply Dev.keeps_tr (Dev.spoilBarriers_keeps ..); case hl => decide)

theorem Dev.reelBoundary_keeps (t : Nat) (d : Dev) : Dev.keeps [.reel] d (Dev.reelBoundary t d) := by
  unfold Dev.reelBoundary
  repeat' first
    | with_reducible apply Dev.keeps_refl
    | with_reducible assumption
    | dsimp only
    | split
    | (with_reducible apply Dev.keeps_tr (Dev.onReel_keeps ..); case hl => decide)

theorem Dev.onAcct_keeps (k : Nat) (f : Acct → Acct) (d : Dev) : Dev.keeps [.path] d (Dev.onAcct k f d) := by
  unfold Dev.onAcct
  repeat' first
    | with_reducible apply Dev.keeps_refl
    | with_reducible assumption
    | dsimp only
    | split
    | (with_reducible apply Dev.keeps_tr (Dev.onPath_keeps ..); case hl => decide)

theorem Dev.grant_keeps (p c n : Nat) (d : Dev) : Dev.keeps [.brd] d (Dev.grant p c n d) := by
  unfold Dev.grant
  repeat' first
    | with_reducible apply Dev.keeps_refl
    | with_reducible assumption
    | dsimp only
    | split
    | (with_reducible first | (apply Dev.keeps_up_brd; case hx => decide))

theorem Dev.giveCredits_keeps (k n : Nat) (d : Dev) : Dev.keeps [.path, .brd] d (Dev.giveCredits k n d) := by
  unfold Dev.giveCredits
  repeat' first
    | with_reducible apply Dev.keeps_refl
    | with_reducible assumption
    | dsimp only
    | split
    | (with_reducible apply Dev.keeps_tr (Dev.grant_keeps ..); case hl => decide)
    | (with_reducible apply Dev.keeps_tr (Dev.onAcct_keeps ..); case hl => decide)

theorem Dev.controlFrom_keeps (p kind src dest word1 : Nat) (body : List Byte) (d : Dev) : Dev.keeps [.out] d (Dev.controlFrom p kind src dest word1 body d) := by
  unfold Dev.controlFrom
  repeat' first
    | with_reducible apply Dev.keeps_refl
    | with_reducible assumption
    | dsimp only
    | split
    | (with_reducible apply Dev.keeps_tr (Dev.sendGated_keeps ..); case hl => decide)

theorem Dev.control_keeps (p kind dest word1 : Nat) (body : List Byte) (d : Dev) : Dev.keeps [.out] d (Dev.control p kind dest word1 body d) := by
  unfold Dev.control
  repeat' first
    | with_reducible apply Dev.keeps_refl
    | with_reducible assumption
    | dsimp only
    | split
    | (with_reducible apply Dev.keeps_tr (Dev.controlFrom_keeps ..); case hl => decide)

theorem Dev.sendCredit_keeps (p : Nat) (d : Dev) : Dev.keeps [.out] d (Dev.sendCredit p d) := by
  unfold Dev.sendCredit
  repeat' first
    | with_reducible apply Dev.keeps_refl
    | with_reducible assumption
    | dsimp only
    | split
    | (with_reducible apply Dev.keeps_tr (Dev.control_keeps ..); case hl => decide)
    | (with_reducible apply Dev.keeps_optmap; case' h => intro _ _)

theorem Dev.sendPause_keeps (k quanta : Nat) (d : Dev) : Dev.keeps [.out] d (Dev.sendPause k quanta d) := by
  unfold Dev.sendPause
  repeat' first
    | with_reducible apply Dev.keeps_refl
    | with_reducible assumption
    | dsimp only
    | split
    | (with_reducible apply Dev.keeps_tr (Dev.sendGated_keeps ..); case hl => decide)

theorem Dev.sendXon_keeps (k : Nat) (d : Dev) : Dev.keeps [.out] d (Dev.sendXon k d) := by
  unfold Dev.sendXon
  repeat' first
    | with_reducible apply Dev.keeps_refl
    | with_reducible assumption
    | dsimp only
    | split
    | (with_reducible apply Dev.keeps_tr (Dev.sendGated_keeps ..); case hl => decide)
    | (with_reducible apply Dev.keeps_tr (Dev.sendPause_keeps ..); case hl => decide)

theorem Dev.tryXon_keeps (k : Nat) (d : Dev) : Dev.keeps [.out, .path, .brd] d (Dev.tryXon k d) := by
  unfold Dev.tryXon
  repeat' first
    | with_reducible apply Dev.keeps_refl
    | with_reducible assumption
    | dsimp only
    | split
    | (with_reducible apply Dev.keeps_tr (Dev.giveCredits_keeps ..); case hl => decide)
    | (with_reducible apply Dev.keeps_tr (Dev.onAcct_keeps ..); case hl => decide)
    | (with_reducible apply Dev.keeps_tr (Dev.sendCredit_keeps ..); case hl => decide)
    | (with_reducible apply Dev.keeps_tr (Dev.sendXon_keeps ..); case hl => decide)
    | (with_reducible apply Dev.keeps_fold_tr; case' hf => intro _ _)

theorem Dev.xonAll_keeps (d : Dev) : Dev.keeps [.out, .path, .brd] d (Dev.xonAll d) := by
  unfold Dev.xonAll
  repeat' first
    | with_reducible apply Dev.keeps_refl
    | with_reducible assumption
    | dsimp only
    | split
    | (with_reducible apply Dev.keeps_tr (Dev.tryXon_keeps ..); case hl => decide)
    | (with_reducible apply Dev.keeps_fold_tr; case' hf => intro _ _)

theorem Dev.giveCells_keeps (k n : Nat) (d : Dev) : Dev.keeps [.out, .path, .brd] d (Dev.giveCells k n d) := by
  unfold Dev.giveCells
  repeat' first
    | with_reducible apply Dev.keeps_refl
    | with_reducible assumption
    | dsimp only
    | split
    | (with_reducible apply Dev.keeps_tr (Dev.onAcct_keeps ..); case hl => decide)
    | (with_reducible apply Dev.keeps_tr (Dev.xonAll_keeps ..); case hl => decide)

theorem Dev.onPkt_keeps (k : Nat) (f : Pkt → Pkt) (d : Dev) : Dev.keeps [.path] d (Dev.onPkt k f d) := by
  unfold Dev.onPkt
  repeat' first
    | with_reducible apply Dev.keeps_refl
    | with_reducible assumption
    | dsimp only
    | split
    | (with_reducible apply Dev.keeps_tr (Dev.onPath_keeps ..); case hl => decide)

theorem Dev.freeAll_keeps (k : Nat) (d : Dev) : Dev.keeps [.out, .path, .brd] d (Dev.freeAll k d) := by
  unfold Dev.freeAll
  repeat' first
    | with_reducible apply Dev.keeps_refl
    | with_reducible assumption
    | dsimp only
    | split
    | (with_reducible apply Dev.keeps_tr (Dev.giveCells_keeps ..); case hl => decide)
    | (with_reducible apply Dev.keeps_tr (Dev.onPkt_keeps ..); case hl => decide)

theorem Dev.freePassed_keeps (k : Nat) (d : Dev) : Dev.keeps [.out, .path, .brd] d (Dev.freePassed k d) := by
  unfold Dev.freePassed
  repeat' first
    | with_reducible apply Dev.keeps_refl
    | with_reducible assumption
    | dsimp only
    | split
    | (with_reducible apply Dev.keeps_tr (Dev.giveCells_keeps ..); case hl => decide)
    | (with_reducible apply Dev.keeps_tr (Dev.onPkt_keeps ..); case hl => decide)
    | (with_reducible apply Dev.keeps_fold_tr; case' hf => intro _ _)

theorem Dev.freeIfDone_keeps (k : Nat) (d : Dev) : Dev.keeps [.out, .path, .brd] d (Dev.freeIfDone k d) := by
  unfold Dev.freeIfDone
  repeat' first
    | with_reducible apply Dev.keeps_refl
    | with_reducible assumption
    | dsimp only
    | split
    | (with_reducible apply Dev.keeps_tr (Dev.freeAll_keeps ..); case hl => decide)
    | (with_reducible apply Dev.keeps_tr (Dev.freePassed_keeps ..); case hl => decide)

theorem Dev.freeUnread_keeps (k : Nat) (d : Dev) : Dev.keeps [.out, .path, .brd] d (Dev.freeUnread k d) := by
  unfold Dev.freeUnread
  repeat' first
    | with_reducible apply Dev.keeps_refl
    | with_reducible assumption
    | dsimp only
    | split
    | (with_reducible apply Dev.keeps_tr (Dev.freeAll_keeps ..); case hl => decide)
    | (with_reducible apply Dev.keeps_tr (Dev.freeIfDone_keeps ..); case hl => decide)

theorem Dev.leave_keeps (k : Nat) (d : Dev) : Dev.keeps [.path] d (Dev.leave k d) := by
  unfold Dev.leave
  repeat' first
    | with_reducible apply Dev.keeps_refl
    | with_reducible assumption
    | dsimp only
    | split
    | (with_reducible apply Dev.keeps_tr (Dev.onPath_keeps ..); case hl => decide)
    | (with_reducible apply Dev.keeps_tr (Dev.onPkt_keeps ..); case hl => decide)

theorem Dev.onShade_keeps (n : Nat) (f : Shade → Shade) (d : Dev) : Dev.keeps [.shd] d (Dev.onShade n f d) := by
  unfold Dev.onShade
  repeat' first
    | with_reducible apply Dev.keeps_refl
    | with_reducible assumption
    | dsimp only
    | split
    | (with_reducible first | (apply Dev.keeps_up_shd; case hx => decide))

theorem Dev.leaveShade_keeps (n : Nat) (d : Dev) : Dev.keeps [.shd] d (Dev.leaveShade n d) := by
  unfold Dev.leaveShade
  repeat' first
    | with_reducible apply Dev.keeps_refl
    | with_reducible assumption
    | dsimp only
    | split
    | (with_reducible apply Dev.keeps_tr (Dev.onShade_keeps ..); case hl => decide)

theorem Dev.sub_keeps (off n : Nat) (d : Dev) : Dev.keeps [.ctr] d (Dev.sub off n d) := by
  unfold Dev.sub
  repeat' first
    | with_reducible apply Dev.keeps_refl
    | with_reducible assumption
    | dsimp only
    | split
    | (with_reducible first | (apply Dev.keeps_up_ctr; case hx => decide))

theorem Dev.settle_keeps (k : Nat) (d : Dev) : Dev.keeps [.out, .ctr, .hif, .shd, .path, .log, .mem, .cap, .slc] d (Dev.settle k d) := by
  unfold Dev.settle
  repeat' first
    | with_reducible apply Dev.keeps_refl
    | with_reducible assumption
    | dsimp only
    | split
    | (with_reducible apply Dev.keeps_tr (Dev.bump_keeps ..); case hl => decide)
    | (with_reducible apply Dev.keeps_tr (Dev.leave_keeps ..); case hl => decide)
    | (with_reducible apply Dev.keeps_tr (Dev.leaveShade_keeps ..); case hl => decide)
    | (with_reducible apply Dev.keeps_tr (Dev.log'_keeps ..); case hl => decide)
    | (with_reducible apply Dev.keeps_tr (Dev.sub_keeps ..); case hl => decide)

theorem Dev.dropIngress_keeps (k fate code : Nat) (d : Dev) : Dev.keeps [.out, .ctr, .hif, .shd, .path, .log, .brd, .mem, .cap, .slc] d (Dev.dropIngress k fate code d) := by
  unfold Dev.dropIngress
  repeat' first
    | with_reducible apply Dev.keeps_refl
    | with_reducible assumption
    | dsimp only
    | split
    | (with_reducible apply Dev.keeps_tr (Dev.freeUnread_keeps ..); case hl => decide)
    | (with_reducible apply Dev.keeps_tr (Dev.onPkt_keeps ..); case hl => decide)
    | (with_reducible apply Dev.keeps_tr (Dev.settle_keeps ..); case hl => decide)

theorem Dev.noProgram_keeps (k : Nat) (d : Dev) : Dev.keeps [.out, .ctr, .hif, .shd, .path, .log, .brd, .mem, .cap, .slc] d (Dev.noProgram k d) := by
  unfold Dev.noProgram
  repeat' first
    | with_reducible apply Dev.keeps_refl
    | with_reducible assumption
    | dsimp only
    | split
    | (with_reducible apply Dev.keeps_tr (Dev.dropIngress_keeps ..); case hl => decide)

theorem Dev.ppsFall_keeps (d : Dev) : Dev.keeps [.reel] d (Dev.ppsFall d) := by
  unfold Dev.ppsFall
  repeat' first
    | with_reducible apply Dev.keeps_refl
    | with_reducible assumption
    | dsimp only
    | split
    | (with_reducible first | (apply Dev.keeps_up_reel; case hx => decide))

theorem Dev.pass_keeps (n : Nat) (d : Dev) : Dev.keeps [.pclk, .reel] d (Dev.pass n d) := by
  unfold Dev.pass
  repeat' first
    | with_reducible apply Dev.keeps_refl
    | with_reducible assumption
    | dsimp only
    | split
    | (with_reducible apply Dev.keeps_tr (Dev.ppsFall_keeps ..); case hl => decide)
    | (with_reducible apply Dev.keeps_up_pclk_reel; (case hx => decide); (case hz => decide))
    | ((with_reducible apply Dev.keeps_lit); intro y hy; cases y <;> first | exact absurd (by decide) hy | rfl)
    | (with_reducible first | (apply Dev.keeps_up_pclk; case hx => decide) | (apply Dev.keeps_up_reel; case hx => decide))

theorem Dev.due_keeps (t : Nat) (d : Dev) : Dev.keeps [.pclk, .reel] d (Dev.due t d) := by
  unfold Dev.due
  repeat' first
    | with_reducible apply Dev.keeps_refl
    | with_reducible assumption
    | dsimp only
    | split
    | (with_reducible apply Dev.keeps_tr (Dev.pass_keeps ..); case hl => decide)

theorem Dev.enterShade_keeps (n : Nat) (d : Dev) : Dev.keeps [.shd] d (Dev.enterShade n d) := by
  unfold Dev.enterShade
  repeat' first
    | with_reducible apply Dev.keeps_refl
    | with_reducible assumption
    | dsimp only
    | split
    | (with_reducible apply Dev.keeps_tr (Dev.onShade_keeps ..); case hl => decide)

theorem Dev.onFibre_keeps (f : Nat) (g : Fibre → Fibre) (d : Dev) : Dev.keeps [.lay] d (Dev.onFibre f g d) := by
  unfold Dev.onFibre
  repeat' first
    | with_reducible apply Dev.keeps_refl
    | with_reducible assumption
    | dsimp only
    | split
    | (with_reducible first | (apply Dev.keeps_up_lay; case hx => decide))

theorem Dev.start_keeps (f : Nat) (r : Run) (entry : Entry) (m : Map W) (window : List Host.Cell) (d : Dev) : Dev.keeps [.lay] d (Dev.start f r entry m window d) := by
  unfold Dev.start
  repeat' first
    | with_reducible apply Dev.keeps_refl
    | with_reducible assumption
    | dsimp only
    | split
    | (with_reducible apply Dev.keeps_tr (Dev.onFibre_keeps ..); case hl => decide)

theorem Dev.dispatch_keeps (k f : Nat) (p : Pkt) (d : Dev) : Dev.keeps [.pclk, .out, .ctr, .reel, .hif, .lay, .shd, .path, .log, .brd, .mem, .cap, .slc] d (Dev.dispatch k f p d) := by
  unfold Dev.dispatch
  simp only [Dev.when]
  repeat' first
    | with_reducible apply Dev.keeps_refl
    | with_reducible assumption
    | dsimp only
    | split
    | (with_reducible apply Dev.keeps_tr (Dev.bump_keeps ..); case hl => decide)
    | (with_reducible apply Dev.keeps_tr (Dev.bumpIf_keeps ..); case hl => decide)
    | (with_reducible apply Dev.keeps_tr (Dev.due_keeps ..); case hl => decide)
    | (with_reducible apply Dev.keeps_tr (Dev.enterShade_keeps ..); case hl => decide)
    | (with_reducible apply Dev.keeps_tr (Dev.noProgram_keeps ..); case hl => decide)
    | (with_reducible apply Dev.keeps_tr (Dev.onPkt_keeps ..); case hl => decide)
    | (with_reducible apply Dev.keeps_tr (Dev.start_keeps ..); case hl => decide)

theorem Dev.unline_keeps (k c port : Nat) (d : Dev) : Dev.keeps [.path] d (Dev.unline k c port d) := by
  unfold Dev.unline
  repeat' first
    | with_reducible apply Dev.keeps_refl
    | with_reducible assumption
    | dsimp only
    | split
    | (with_reducible apply Dev.keeps_tr (Dev.onPath_keeps ..); case hl => decide)

theorem Dev.endCopy_keeps (k c fate code : Nat) (d : Dev) : Dev.keeps [.out, .ctr, .hif, .shd, .path, .log, .brd, .mem, .cap, .slc] d (Dev.endCopy k c fate code d) := by
  unfold Dev.endCopy
  repeat' first
    | with_reducible apply Dev.keeps_refl
    | with_reducible assumption
    | dsimp only
    | split
    | (with_reducible apply Dev.keeps_tr (Dev.bump_keeps ..); case hl => decide)
    | (with_reducible apply Dev.keeps_tr (Dev.freeIfDone_keeps ..); case hl => decide)
    | (with_reducible apply Dev.keeps_tr (Dev.log'_keeps ..); case hl => decide)
    | (with_reducible apply Dev.keeps_tr (Dev.onPkt_keeps ..); case hl => decide)
    | (with_reducible apply Dev.keeps_tr (Dev.settle_keeps ..); case hl => decide)
    | (with_reducible apply Dev.keeps_tr (Dev.sub_keeps ..); case hl => decide)
    | (with_reducible apply Dev.keeps_tr (Dev.unline_keeps ..); case hl => decide)
    | (with_reducible apply Dev.keeps_optmap; case' h => intro _ _)

theorem Dev.moveBytes_keeps (n : Nat) (d : Dev) : Dev.keeps [.ctr, .path] d (Dev.moveBytes n d).2 := by
  unfold Dev.moveBytes
  repeat' first
    | with_reducible apply Dev.keeps_refl
    | with_reducible assumption
    | dsimp only
    | split
    | (with_reducible apply Dev.keeps_tr (Dev.bumpIf_keeps ..); case hl => decide)
    | (with_reducible apply Dev.keeps_tr (Dev.onPath_keeps ..); case hl => decide)

theorem Dev.moveBytes_keeps' {n : Nat} {d : Dev} {e : Dev} {y} (hE : Dev.moveBytes n d = (y, e)) : Dev.keeps [.ctr, .path] d e := by
  have k := Dev.moveBytes_keeps n d; rw [hE] at k; exact k
theorem Dev.onCopy_keeps (k c : Nat) (f : Copy → Copy) (d : Dev) : Dev.keeps [.path] d (Dev.onCopy k c f d) := by
  unfold Dev.onCopy
  repeat' first
    | with_reducible apply Dev.keeps_refl
    | with_reducible assumption
    | dsimp only
    | split
    | (with_reducible apply Dev.keeps_tr (Dev.onPkt_keeps ..); case hl => decide)

theorem Dev.egressDispatch_keeps (k c f : Nat) (p : Pkt) (x : Copy) (d : Dev) : Dev.keeps [.pclk, .out, .ctr, .reel, .hif, .lay, .shd, .path, .log, .brd, .mem, .cap, .slc] d (Dev.egressDispatch k c f p x d) := by
  unfold Dev.egressDispatch
  simp only [Dev.when]
  repeat' first
    | with_reducible apply Dev.keeps_refl
    | with_reducible assumption
    | dsimp only
    | split
    | (with_reducible apply Dev.keeps_tr (Dev.bump_keeps ..); case hl => decide)
    | (with_reducible apply Dev.keeps_tr (Dev.bumpIf_keeps ..); case hl => decide)
    | (with_reducible apply Dev.keeps_tr (Dev.due_keeps ..); case hl => decide)
    | (with_reducible apply Dev.keeps_tr (Dev.endCopy_keeps ..); case hl => decide)
    | (with_reducible apply Dev.keeps_tr (Dev.freePassed_keeps ..); case hl => decide)
    | (with_reducible apply Dev.keeps_tr (Dev.moveBytes_keeps ..); case hl => decide)
    | (with_reducible apply Dev.keeps_tr (Dev.moveBytes_keeps' (by assumption)); case hl => decide)
    | (with_reducible apply Dev.keeps_tr (Dev.onCopy_keeps ..); case hl => decide)
    | (with_reducible apply Dev.keeps_tr (Dev.start_keeps ..); case hl => decide)

theorem Dev.unqueue_keeps (k c : Nat) (x : Copy) (d : Dev) : Dev.keeps [.path] d (Dev.unqueue k c x d) := by
  unfold Dev.unqueue
  repeat' first
    | with_reducible apply Dev.keeps_refl
    | with_reducible assumption
    | dsimp only
    | split
    | (with_reducible apply Dev.keeps_tr (Dev.onPath_keeps ..); case hl => decide)
    | (with_reducible apply Dev.keeps_optmap; case' h => intro _ _)

theorem Dev.faultCopy_keeps (k fate : Nat) (c : Nat) (d : Dev) : Dev.keeps [.out, .ctr, .hif, .shd, .path, .log, .brd, .mem, .cap, .slc] d (Dev.faultCopy k fate c d) := by
  unfold Dev.faultCopy
  repeat' first
    | with_reducible apply Dev.keeps_refl
    | with_reducible assumption
    | dsimp only
    | split
    | (with_reducible apply Dev.keeps_tr (Dev.endCopy_keeps ..); case hl => decide)
    | (with_reducible apply Dev.keeps_tr (Dev.onCopy_keeps ..); case hl => decide)
    | (with_reducible apply Dev.keeps_tr (Dev.unqueue_keeps ..); case hl => decide)

theorem Dev.fault_keeps (k fate : Nat) (d : Dev) : Dev.keeps [.out, .ctr, .hif, .shd, .path, .log, .brd, .mem, .cap, .slc] d (Dev.fault k fate d) := by
  unfold Dev.fault
  repeat' first
    | with_reducible apply Dev.keeps_refl
    | with_reducible assumption
    | dsimp only
    | split
    | (with_reducible apply Dev.keeps_tr (Dev.faultCopy_keeps ..); case hl => decide)
    | (with_reducible apply Dev.keeps_tr (Dev.freeAll_keeps ..); case hl => decide)
    | (with_reducible apply Dev.keeps_tr (Dev.freeUnread_keeps ..); case hl => decide)
    | (with_reducible apply Dev.keeps_tr (Dev.onPkt_keeps ..); case hl => decide)
    | (with_reducible apply Dev.keeps_tr (Dev.settle_keeps ..); case hl => decide)
    | (with_reducible apply Dev.keeps_fold_tr; case' hf => intro _ _)

theorem Dev.onBrd_keeps (f : Braid → Braid) (d : Dev) : Dev.keeps [.brd] d (Dev.onBrd f d) := by
  unfold Dev.onBrd
  repeat' first
    | with_reducible apply Dev.keeps_refl
    | with_reducible assumption
    | dsimp only
    | split
    | (with_reducible first | (apply Dev.keeps_up_brd; case hx => decide))

theorem Dev.nextHop_keeps (r : Route) (hash cls : Nat) (d : Dev) : Dev.keeps [.brd] d (Dev.nextHop r hash cls d).2 := by
  unfold Dev.nextHop
  repeat' first
    | with_reducible apply Dev.keeps_refl
    | with_reducible assumption
    | dsimp only
    | split
    | (with_reducible apply Dev.keeps_tr (Dev.onBrd_keeps ..); case hl => decide)
    | (with_reducible apply Dev.keeps_fold_tr; case' hf => intro _ _)
    | (with_reducible apply Dev.keeps_optmap; case' h => intro _ _)

theorem Dev.nextHop_keeps' {r : Route} {hash cls : Nat} {d : Dev} {e : Dev} {y} (hE : Dev.nextHop r hash cls d = (y, e)) : Dev.keeps [.brd] d e := by
  have k := Dev.nextHop_keeps r hash cls d; rw [hE] at k; exact k
theorem Dev.forward_keeps (k : Nat) (d : Dev) : Dev.keeps [.brd] d (Dev.forward k d).2 := by
  unfold Dev.forward
  repeat' first
    | with_reducible apply Dev.keeps_refl
    | with_reducible assumption
    | dsimp only
    | split
    | (with_reducible apply Dev.keeps_tr (Dev.nextHop_keeps ..); case hl => decide)
    | (with_reducible apply Dev.keeps_tr (Dev.nextHop_keeps' (by assumption)); case hl => decide)
    | (with_reducible apply Dev.keeps_optmap; case' h => intro _ _)

theorem Dev.forward_keeps' {k : Nat} {d : Dev} {e : Dev} {y} (hE : Dev.forward k d = (y, e)) : Dev.keeps [.brd] d e := by
  have k := Dev.forward_keeps k d; rw [hE] at k; exact k
theorem Dev.endUnlinked_keeps (k : Nat) (d : Dev) : Dev.keeps [.out, .ctr, .hif, .shd, .path, .log, .brd, .mem, .cap, .slc] d (Dev.endUnlinked k d) := by
  unfold Dev.endUnlinked
  repeat' first
    | with_reducible apply Dev.keeps_refl
    | with_reducible assumption
    | dsimp only
    | split
    | (with_reducible apply Dev.keeps_tr (Dev.endCopy_keeps ..); case hl => decide)
    | (with_reducible apply Dev.keeps_fold_tr; case' hf => intro _ _)

theorem Dev.linkCopy_keeps (k port : Nat) (mirror : Bool) (dest : Nat) (d : Dev) : Dev.keeps [.ctr, .path] d (Dev.linkCopy k port mirror dest d) := by
  unfold Dev.linkCopy
  repeat' first
    | with_reducible apply Dev.keeps_refl
    | with_reducible assumption
    | dsimp only
    | split
    | (with_reducible apply Dev.keeps_tr (Dev.bump_keeps ..); case hl => decide)
    | (with_reducible apply Dev.keeps_tr (Dev.bumpIf_keeps ..); case hl => decide)
    | (with_reducible apply Dev.keeps_tr (Dev.onCopy_keeps ..); case hl => decide)
    | (with_reducible apply Dev.keeps_tr (Dev.onPath_keeps ..); case hl => decide)
    | (with_reducible apply Dev.keeps_tr (Dev.onPkt_keeps ..); case hl => decide)
    | (with_reducible apply Dev.keeps_optmap; case' h => intro _ _)

theorem Dev.countDraw_keeps (k : Nat) (w : Drawn) (yellow past : Bool) (n : Nat) (d : Dev) : Dev.keeps [.ctr] d (Dev.countDraw k w yellow past n d) := by
  unfold Dev.countDraw
  repeat' first
    | with_reducible apply Dev.keeps_refl
    | with_reducible assumption
    | dsimp only
    | split
    | (with_reducible apply Dev.keeps_tr (Dev.bumpIf_keeps ..); case hl => decide)

theorem Dev.creditBack_keeps (k : Nat) (d : Dev) : Dev.keeps [.path, .brd] d (Dev.creditBack k d) := by
  unfold Dev.creditBack
  repeat' first
    | with_reducible apply Dev.keeps_refl
    | with_reducible assumption
    | dsimp only
    | split
    | (with_reducible apply Dev.keeps_tr (Dev.giveCredits_keeps ..); case hl => decide)
    | (with_reducible apply Dev.keeps_tr (Dev.onAcct_keeps ..); case hl => decide)

theorem Dev.enterXoff_keeps (k : Nat) (d : Dev) : Dev.keeps [.out, .ctr, .path] d (Dev.enterXoff k d) := by
  unfold Dev.enterXoff
  repeat' first
    | with_reducible apply Dev.keeps_refl
    | with_reducible assumption
    | dsimp only
    | split
    | (with_reducible apply Dev.keeps_tr (Dev.bump_keeps ..); case hl => decide)
    | (with_reducible apply Dev.keeps_tr (Dev.onAcct_keeps ..); case hl => decide)
    | (with_reducible apply Dev.keeps_tr (Dev.sendPause_keeps ..); case hl => decide)

theorem Dev.charge_keeps (k : Nat) (t : Tier) (d : Dev) : Dev.keeps [.out, .ctr, .path, .brd] d (Dev.charge k t d) := by
  unfold Dev.charge
  repeat' first
    | with_reducible apply Dev.keeps_refl
    | with_reducible assumption
    | dsimp only
    | split
    | (with_reducible apply Dev.keeps_tr (Dev.creditBack_keeps ..); case hl => decide)
    | (with_reducible apply Dev.keeps_tr (Dev.enterXoff_keeps ..); case hl => decide)
    | (with_reducible apply Dev.keeps_tr (Dev.onAcct_keeps ..); case hl => decide)
    | (with_reducible apply Dev.keeps_tr (Dev.onPath_keeps ..); case hl => decide)

theorem Dev.takeCells_keeps (k share n : Nat) (d : Dev) : Dev.keeps [.out, .ctr, .path, .brd] d (Dev.takeCells k share n d).1 := by
  induction n generalizing d with
  | zero => exact Dev.keeps_refl _ _
  | succ n ih =>
    unfold Dev.takeCells
    split
    · with_reducible apply Dev.keeps_tr (Dev.enterXoff_keeps ..); case hl => decide
      exact Dev.keeps_refl _ _
    · with_reducible apply Dev.keeps_tr (ih ..); case hl => decide
      with_reducible apply Dev.keeps_tr (Dev.charge_keeps ..); case hl => decide
      exact Dev.keeps_refl _ _
theorem Dev.moveCells_keeps (k : Nat) (pre : Nat) (d : Dev) : Dev.keeps [.out, .ctr, .path, .brd] d (Dev.moveCells k pre d).1 := by
  unfold Dev.moveCells
  repeat' first
    | with_reducible apply Dev.keeps_refl
    | with_reducible assumption
    | dsimp only
    | split
    | (with_reducible apply Dev.keeps_tr (Dev.countDraw_keeps ..); case hl => decide)
    | (with_reducible apply Dev.keeps_tr (Dev.giveCells_keeps ..); case hl => decide)
    | (with_reducible apply Dev.keeps_tr (Dev.onAcct_keeps ..); case hl => decide)
    | (with_reducible apply Dev.keeps_tr (Dev.onPkt_keeps ..); case hl => decide)
    | (with_reducible apply Dev.keeps_tr (Dev.takeCells_keeps ..); case hl => decide)
    | (with_reducible apply Dev.keeps_tr (Dev.takeCells_keeps' (by assumption)); case hl => decide)
    | (with_reducible apply Dev.keeps_tr (Dev.xonAll_keeps ..); case hl => decide)
    | (with_reducible apply Dev.keeps_optmap; case' h => intro _ _)

theorem Dev.moveCells_keeps' {k : Nat} {pre : Nat} {d : Dev} {e : Dev} {y} (hE : Dev.moveCells k pre d = (e, y)) : Dev.keeps [.out, .ctr, .path, .brd] d e := by
  have k := Dev.moveCells_keeps k pre d; rw [hE] at k; exact k
theorem Dev.writeBack_keeps (k : Nat) (d : Dev) : Dev.keeps [.ctr, .path] d (Dev.writeBack k d) := by
  unfold Dev.writeBack
  repeat' first
    | with_reducible apply Dev.keeps_refl
    | with_reducible assumption
    | dsimp only
    | split
    | (with_reducible apply Dev.keeps_tr (Dev.moveBytes_keeps ..); case hl => decide)
    | (with_reducible apply Dev.keeps_tr (Dev.moveBytes_keeps' (by assumption)); case hl => decide)
    | (with_reducible apply Dev.keeps_tr (Dev.onPkt_keeps ..); case hl => decide)

theorem Dev.linkAll_keeps (k : Nat) (ports : List Nat) (dest : Nat) (mirrors : List Nat) (pre : Nat) (d : Dev) : Dev.keeps [.out, .ctr, .hif, .shd, .path, .log, .brd, .mem, .cap, .slc] d (Dev.linkAll k ports dest mirrors pre d).1 := by
  unfold Dev.linkAll
  repeat' first
    | with_reducible apply Dev.keeps_refl
    | with_reducible assumption
    | dsimp only
    | split
    | (with_reducible apply Dev.keeps_tr (Dev.endUnlinked_keeps ..); case hl => decide)
    | (with_reducible apply Dev.keeps_tr (Dev.linkCopy_keeps ..); case hl => decide)
    | (with_reducible apply Dev.keeps_tr (Dev.moveCells_keeps ..); case hl => decide)
    | (with_reducible apply Dev.keeps_tr (Dev.moveCells_keeps' (by assumption)); case hl => decide)
    | (with_reducible apply Dev.keeps_tr (Dev.writeBack_keeps ..); case hl => decide)
    | (with_reducible apply Dev.keeps_fold_tr; case' hf => intro _ _)

theorem Dev.linkAll_keeps' {k : Nat} {ports : List Nat} {dest : Nat} {mirrors : List Nat} {pre : Nat} {d : Dev} {e : Dev} {y} (hE : Dev.linkAll k ports dest mirrors pre d = (e, y)) : Dev.keeps [.out, .ctr, .hif, .shd, .path, .log, .brd, .mem, .cap, .slc] d e := by
  have k := Dev.linkAll_keeps k ports dest mirrors pre d; rw [hE] at k; exact k
theorem Dev.mirrorPorts_keeps (k : Nat) (d : Dev) : Dev.keeps [.ctr] d (Dev.mirrorPorts k d).2 := by
  unfold Dev.mirrorPorts
  repeat' first
    | with_reducible apply Dev.keeps_refl
    | with_reducible assumption
    | dsimp only
    | split
    | (with_reducible apply Dev.keeps_tr (Dev.bump_keeps ..); case hl => decide)
    | (with_reducible apply Dev.keeps_optmap; case' h => intro _ _)

theorem Dev.mirrorPorts_keeps' {k : Nat} {d : Dev} {e : Dev} {y} (hE : Dev.mirrorPorts k d = (y, e)) : Dev.keeps [.ctr] d e := by
  have k := Dev.mirrorPorts_keeps k d; rw [hE] at k; exact k
theorem Dev.recvInto_keeps (q sub shade hash total : Nat) (l : List Buf) (bs : List Byte) (b : Bool) (d : Dev) : Dev.keeps [.out, .ctr, .hif, .mem, .cap, .slc] d (Dev.recvInto q sub shade hash total l bs b d) := by
  induction l generalizing bs b d with
  | nil => exact Dev.keeps_refl _ _
  | cons q qs ih =>
    unfold Dev.recvInto
    dsimp only
    split
    · with_reducible apply Dev.keeps_tr (Dev.onQp_keeps ..); case hl => decide
      with_reducible apply Dev.keeps_tr (Dev.complete_keeps ..); case hl => decide
      with_reducible apply Dev.keeps_tr (Dev.ownerWrite_keeps ..); case hl => decide
      exact Dev.keeps_refl _ _
    · with_reducible apply Dev.keeps_tr (ih ..); case hl => decide
      with_reducible apply Dev.keeps_tr (Dev.onQp_keeps ..); case hl => decide
      with_reducible apply Dev.keeps_tr (Dev.complete_keeps ..); case hl => decide
      with_reducible apply Dev.keeps_tr (Dev.ownerWrite_keeps ..); case hl => decide
      exact Dev.keeps_refl _ _
theorem Dev.onLay_keeps (l : Nat) (g : Lay → Lay) (d : Dev) : Dev.keeps [.lay] d (Dev.onLay l g d) := by
  unfold Dev.onLay
  repeat' first
    | with_reducible apply Dev.keeps_refl
    | with_reducible assumption
    | dsimp only
    | split
    | (with_reducible first | (apply Dev.keeps_up_lay; case hx => decide))

theorem Dev.toTrapLine_keeps (lay : Nat) (body : List Byte) (d : Dev) : Dev.keeps [.ctr, .lay] d (Dev.toTrapLine lay body d) := by
  unfold Dev.toTrapLine
  repeat' first
    | with_reducible apply Dev.keeps_refl
    | with_reducible assumption
    | dsimp only
    | split
    | (with_reducible apply Dev.keeps_tr (Dev.bump_keeps ..); case hl => decide)
    | (with_reducible apply Dev.keeps_tr (Dev.onLay_keeps ..); case hl => decide)

theorem Dev.trapFrame_keeps (strand sub hash shade : Nat) (frame : List Byte) (d : Dev) : Dev.keeps [.out, .ctr, .hif, .lay, .mem, .cap, .rdm, .slc] d (Dev.trapFrame strand sub hash shade frame d) := by
  unfold Dev.trapFrame
  repeat' first
    | with_reducible apply Dev.keeps_refl
    | with_reducible assumption
    | dsimp only
    | split
    | (with_reducible apply Dev.keeps_tr (Dev.bump_keeps ..); case hl => decide)
    | (with_reducible apply Dev.keeps_tr (Dev.recvInto_keeps ..); case hl => decide)
    | (with_reducible apply Dev.keeps_tr (Dev.toTrapLine_keeps ..); case hl => decide)
    | (with_reducible first | (apply Dev.keeps_up_rdm; case hx => decide))

theorem Dev.giveHost_keeps (k : Nat) (es : List (Nat × Nat × Nat × Option Nat)) (d : Dev) : Dev.keeps [.out, .ctr, .hif, .lay, .mem, .cap, .rdm, .slc] d (Dev.giveHost k es d) := by
  unfold Dev.giveHost
  repeat' first
    | with_reducible apply Dev.keeps_refl
    | with_reducible assumption
    | dsimp only
    | split
    | (with_reducible apply Dev.keeps_tr (Dev.trapFrame_keeps ..); case hl => decide)
    | (with_reducible apply Dev.keeps_fold_tr; case' hf => intro _ _)
    | (with_reducible apply Dev.keeps_optmap; case' h => intro _ _)

theorem Dev.toHostQueue_keeps (k strand sub hash : Nat) (copy : Option Nat) (d : Dev) : Dev.keeps [.out, .ctr, .hif, .lay, .path, .mem, .cap, .rdm, .slc] d (Dev.toHostQueue k strand sub hash copy d) := by
  unfold Dev.toHostQueue
  repeat' first
    | with_reducible apply Dev.keeps_refl
    | with_reducible assumption
    | dsimp only
    | split
    | (with_reducible apply Dev.keeps_tr (Dev.giveHost_keeps ..); case hl => decide)
    | (with_reducible apply Dev.keeps_tr (Dev.onPkt_keeps ..); case hl => decide)

theorem Dev.release_keeps (k : Nat) (d : Dev) : Dev.keeps [.out, .ctr, .hif, .lay, .shd, .path, .log, .brd, .mem, .cap, .rdm, .slc] d (Dev.release k d) := by
  unfold Dev.release
  repeat' first
    | with_reducible apply Dev.keeps_refl
    | with_reducible assumption
    | dsimp only
    | split
    | (with_reducible apply Dev.keeps_tr (Dev.dropIngress_keeps ..); case hl => decide)
    | (with_reducible apply Dev.keeps_tr (Dev.fault_keeps ..); case hl => decide)
    | (with_reducible apply Dev.keeps_tr (Dev.forward_keeps ..); case hl => decide)
    | (with_reducible apply Dev.keeps_tr (Dev.forward_keeps' (by assumption)); case hl => decide)
    | (with_reducible apply Dev.keeps_tr (Dev.freeAll_keeps ..); case hl => decide)
    | (with_reducible apply Dev.keeps_tr (Dev.freeIfDone_keeps ..); case hl => decide)
    | (with_reducible apply Dev.keeps_tr (Dev.linkAll_keeps ..); case hl => decide)
    | (with_reducible apply Dev.keeps_tr (Dev.linkAll_keeps' (by assumption)); case hl => decide)
    | (with_reducible apply Dev.keeps_tr (Dev.mirrorPorts_keeps ..); case hl => decide)
    | (with_reducible apply Dev.keeps_tr (Dev.mirrorPorts_keeps' (by assumption)); case hl => decide)
    | (with_reducible apply Dev.keeps_tr (Dev.onPkt_keeps ..); case hl => decide)
    | (with_reducible apply Dev.keeps_tr (Dev.settle_keeps ..); case hl => decide)
    | (with_reducible apply Dev.keeps_tr (Dev.toHostQueue_keeps ..); case hl => decide)
    | (with_reducible apply Dev.keeps_optmap; case' h => intro _ _)

theorem Dev.toSlowLine_keeps (k lay : Nat) (d : Dev) : Dev.keeps [.out, .ctr, .hif, .lay, .shd, .path, .log, .brd, .mem, .cap, .rdm, .slc] d (Dev.toSlowLine k lay d) := by
  unfold Dev.toSlowLine
  repeat' first
    | with_reducible apply Dev.keeps_refl
    | with_reducible assumption
    | dsimp only
    | split
    | (with_reducible apply Dev.keeps_tr (Dev.bump_keeps ..); case hl => decide)
    | (with_reducible apply Dev.keeps_tr (Dev.dropIngress_keeps ..); case hl => decide)
    | (with_reducible apply Dev.keeps_tr (Dev.fault_keeps ..); case hl => decide)
    | (with_reducible apply Dev.keeps_tr (Dev.onLay_keeps ..); case hl => decide)
    | (with_reducible apply Dev.keeps_tr (Dev.onPkt_keeps ..); case hl => decide)
    | (with_reducible apply Dev.keeps_tr (Dev.release_keeps ..); case hl => decide)
    | (with_reducible apply Dev.keeps_optmap; case' h => intro _ _)

theorem Dev.releaseNow_keeps (k : Nat) (p : Pkt) (d : Dev) : Dev.keeps [.out, .ctr, .hif, .lay, .shd, .path, .log, .brd, .mem, .cap, .rdm, .slc] d (Dev.releaseNow k p d) := by
  unfold Dev.releaseNow
  repeat' first
    | with_reducible apply Dev.keeps_refl
    | with_reducible assumption
    | dsimp only
    | split
    | (with_reducible apply Dev.keeps_tr (Dev.release_keeps ..); case hl => decide)
    | (with_reducible apply Dev.keeps_tr (Dev.toSlowLine_keeps ..); case hl => decide)

theorem Dev.onCore_keeps (c : Nat) (f : Core → Core) (d : Dev) : Dev.keeps [.cap] d (Dev.onCore c f d) := by
  unfold Dev.onCore
  repeat' first
    | with_reducible apply Dev.keeps_refl
    | with_reducible assumption
    | dsimp only
    | split
    | (with_reducible apply Dev.keeps_tr (Dev.onCap_keeps ..); case hl => decide)

theorem Dev.granted_keeps (h : Holder) (d : Dev) : Dev.keeps [.ctr, .lay, .cap] d (Dev.granted h d) := by
  unfold Dev.granted
  repeat' first
    | with_reducible apply Dev.keeps_refl
    | with_reducible assumption
    | dsimp only
    | split
    | (with_reducible apply Dev.keeps_tr (Dev.bump_keeps ..); case hl => decide)
    | (with_reducible apply Dev.keeps_tr (Dev.onCore_keeps ..); case hl => decide)
    | (with_reducible apply Dev.keeps_tr (Dev.onFibre_keeps ..); case hl => decide)

theorem Dev.onCleat_keeps (n : Nat) (f : Cleat → Cleat) (d : Dev) : Dev.keeps [.cap] d (Dev.onCleat n f d) := by
  unfold Dev.onCleat
  repeat' first
    | with_reducible apply Dev.keeps_refl
    | with_reducible assumption
    | dsimp only
    | split
    | (with_reducible apply Dev.keeps_tr (Dev.onCap_keeps ..); case hl => decide)

theorem Dev.passCleat_keeps (n : Nat) (d : Dev) : Dev.keeps [.ctr, .lay, .cap] d (Dev.passCleat n d) := by
  unfold Dev.passCleat
  repeat' first
    | with_reducible apply Dev.keeps_refl
    | with_reducible assumption
    | dsimp only
    | split
    | (with_reducible apply Dev.keeps_tr (Dev.granted_keeps ..); case hl => decide)
    | (with_reducible apply Dev.keeps_tr (Dev.onCleat_keeps ..); case hl => decide)

theorem Dev.dropCleats_keeps (h : Holder) (d : Dev) : Dev.keeps [.ctr, .lay, .cap] d (Dev.dropCleats h d) := by
  unfold Dev.dropCleats
  repeat' first
    | with_reducible apply Dev.keeps_refl
    | with_reducible assumption
    | dsimp only
    | split
    | (with_reducible apply Dev.keeps_tr (Dev.passCleat_keeps ..); case hl => decide)
    | (with_reducible apply Dev.keeps_fold_tr; case' hf => intro _ _)

theorem Dev.freeF_keeps (f : Nat) (d : Dev) : Dev.keeps [.ctr, .lay, .cap] d (Dev.freeF f d) := by
  unfold Dev.freeF
  repeat' first
    | with_reducible apply Dev.keeps_refl
    | with_reducible assumption
    | dsimp only
    | split
    | (with_reducible apply Dev.keeps_tr (Dev.dropCleats_keeps ..); case hl => decide)
    | (with_reducible apply Dev.keeps_tr (Dev.onFibre_keeps ..); case hl => decide)

theorem Dev.onFn_keeps (k : Nat) (f : Fn → Fn) (d : Dev) : Dev.keeps [.hif] d (Dev.onFn k f d) := by
  unfold Dev.onFn
  repeat' first
    | with_reducible apply Dev.keeps_refl
    | with_reducible assumption
    | dsimp only
    | split
    | (with_reducible first | (apply Dev.keeps_up_hif; case hx => decide))

theorem Dev.vector_keeps (k v : Nat) (d : Dev) : Dev.keeps [.out, .ctr, .hif] d (Dev.vector k v d) := by
  unfold Dev.vector
  repeat' first
    | with_reducible apply Dev.keeps_refl
    | with_reducible assumption
    | dsimp only
    | split
    | (with_reducible apply Dev.keeps_tr (Dev.bump_keeps ..); case hl => decide)
    | (with_reducible apply Dev.keeps_tr (Dev.onFn_keeps ..); case hl => decide)
    | (with_reducible apply Dev.keeps_tr (Dev.send_keeps ..); case hl => decide)

theorem Dev.vectorStart_keeps (f : Nat) (t : TrapAt) (r : Run) (d : Dev) : Dev.keeps [.pclk, .out, .ctr, .reel, .hif, .lay, .cap] d (Dev.vectorStart f t r d) := by
  unfold Dev.vectorStart
  repeat' first
    | with_reducible apply Dev.keeps_refl
    | with_reducible assumption
    | dsimp only
    | split
    | (with_reducible apply Dev.keeps_tr (Dev.due_keeps ..); case hl => decide)
    | (with_reducible apply Dev.keeps_tr (Dev.freeF_keeps ..); case hl => decide)
    | (with_reducible apply Dev.keeps_tr (Dev.onFibre_keeps ..); case hl => decide)
    | (with_reducible apply Dev.keeps_tr (Dev.vector_keeps ..); case hl => decide)

theorem Dev.emit_keeps (src lay : Nat) (body : List Byte) (d : Dev) : Dev.keeps [.out, .ctr, .hif, .mem, .cap, .slc] d (d.emit src lay body).1 := by
  unfold Dev.emit
  have key : ∀ (l : List Nat) (a : Dev × Bool), Dev.keeps [.out, .ctr, .hif, .mem, .cap, .slc] a.1 (l.foldl (fun (a : Dev × Bool) q =>
      if a.1.waitable q then
        let r := a.1.offer q (eventBytes (src + 1) body)
        (r.1, a.2 || r.2)
      else (a.1.bump Reg.hifEvtMiss, a.2)) a).1 := by
    intro l
    induction l with
    | nil => exact fun a => Dev.keeps_refl _ _
    | cons q l ih =>
      intro a
      rw [List.foldl_cons]
      refine Dev.keeps_trans ?_ (ih _)
      split
      · with_reducible apply Dev.keeps_tr (Dev.offer_keeps ..); case hl => decide
        exact Dev.keeps_refl _ _
      · with_reducible apply Dev.keeps_tr (Dev.bump_keeps ..); case hl => decide
        exact Dev.keeps_refl _ _
  exact key _ (d, false)
theorem Dev.deliver_keeps (src lay : Nat) (body : List Byte) (d : Dev) : Dev.keeps [.out, .ctr, .hif, .mem, .cap, .slc] d (Dev.deliver src lay body d).1 := by
  unfold Dev.deliver
  repeat' first
    | with_reducible apply Dev.keeps_refl
    | with_reducible assumption
    | dsimp only
    | split
    | (with_reducible apply Dev.keeps_tr (Dev.emit_keeps ..); case hl => decide)
    | (with_reducible apply Dev.keeps_tr (Dev.emit_keeps' (by assumption)); case hl => decide)
    | (with_reducible apply Dev.keeps_tr (Dev.offer_keeps ..); case hl => decide)
    | (with_reducible apply Dev.keeps_tr (Dev.offer_keeps' (by assumption)); case hl => decide)
    | (with_reducible apply Dev.keeps_fold_tr; case' hf => intro _ _)

theorem Dev.deliver_keeps' {src lay : Nat} {body : List Byte} {d : Dev} {e : Dev} {y} (hE : Dev.deliver src lay body d = (e, y)) : Dev.keeps [.out, .ctr, .hif, .mem, .cap, .slc] d e := by
  have k := Dev.deliver_keeps src lay body d; rw [hE] at k; exact k
theorem Dev.startSlow_keeps (k f : Nat) (shade : Nat) (e : Entry) (d : Dev) : Dev.keeps [.ctr, .lay, .path] d (Dev.startSlow k f shade e d) := by
  unfold Dev.startSlow
  repeat' first
    | with_reducible apply Dev.keeps_refl
    | with_reducible assumption
    | dsimp only
    | split
    | (with_reducible apply Dev.keeps_tr (Dev.bump_keeps ..); case hl => decide)
    | (with_reducible apply Dev.keeps_tr (Dev.onPkt_keeps ..); case hl => decide)
    | (with_reducible apply Dev.keeps_tr (Dev.start_keeps ..); case hl => decide)

theorem Dev.newPkt_keeps (p : Pkt) (d : Dev) : Dev.keeps [.ctr, .path] d (Dev.newPkt p d) := by
  unfold Dev.newPkt
  repeat' first
    | with_reducible apply Dev.keeps_refl
    | with_reducible assumption
    | dsimp only
    | split
    | (with_reducible apply Dev.keeps_tr (Dev.bump_keeps ..); case hl => decide)
    | (with_reducible apply Dev.keeps_tr (Dev.onPath_keeps ..); case hl => decide)

theorem Dev.takeInjection_keeps (j : Inject) (lay : Nat) (d : Dev) : Dev.keeps [.free, .ctr, .hif, .shd, .path] d (Dev.takeInjection j lay d).2 := by
  unfold Dev.takeInjection
  repeat' first
    | with_reducible apply Dev.keeps_refl
    | with_reducible assumption
    | dsimp only
    | split
    | (with_reducible apply Dev.keeps_tr (Dev.complete_keeps ..); case hl => decide)
    | (with_reducible apply Dev.keeps_tr (Dev.enterShade_keeps ..); case hl => decide)
    | (with_reducible apply Dev.keeps_tr (Dev.newPkt_keeps ..); case hl => decide)
    | (with_reducible apply Dev.keeps_tr (Dev.useFree_keeps ..); case hl => decide)

theorem Dev.takeInjection_keeps' {j : Inject} {lay : Nat} {d : Dev} {e : Dev} {y} (hE : Dev.takeInjection j lay d = (y, e)) : Dev.keeps [.free, .ctr, .hif, .shd, .path] d e := by
  have k := Dev.takeInjection_keeps j lay d; rw [hE] at k; exact k
theorem Dev.onTbl_keeps (f : Tables → Tables) (d : Dev) : Dev.keeps [.tbl] d (Dev.onTbl f d) := by
  unfold Dev.onTbl
  repeat' first
    | with_reducible apply Dev.keeps_refl
    | with_reducible assumption
    | dsimp only
    | split
    | (with_reducible first | (apply Dev.keeps_up_tbl; case hx => decide))

theorem Dev.oneTime_keeps (n : Nat) (d : Dev) : Dev.keeps [.shd, .path, .tbl, .brd] d (Dev.oneTime n d) := by
  unfold Dev.oneTime
  repeat' first
    | with_reducible apply Dev.keeps_refl
    | with_reducible assumption
    | dsimp only
    | split
    | (with_reducible apply Dev.keeps_tr (Dev.onBrd_keeps ..); case hl => decide)
    | (with_reducible apply Dev.keeps_tr (Dev.onPath_keeps ..); case hl => decide)
    | (with_reducible apply Dev.keeps_tr (Dev.onShade_keeps ..); case hl => decide)
    | (with_reducible apply Dev.keeps_tr (Dev.onTbl_keeps ..); case hl => decide)
    | (with_reducible apply Dev.keeps_fold_tr; case' hf => intro _ _)
    | (with_reducible apply Dev.keeps_optmap; case' h => intro _ _)

theorem Dev.fibreMap_keeps (n : Nat) (d : Dev) : Dev.keeps [.lay] d (Dev.fibreMap n d) := by
  unfold Dev.fibreMap
  repeat' first
    | with_reducible apply Dev.keeps_refl
    | with_reducible assumption
    | dsimp only
    | split
    | (with_reducible apply Dev.keeps_tr (Dev.onLay_keeps ..); case hl => decide)
    | (with_reducible apply Dev.keeps_fold_tr; case' hf => intro _ _)

theorem Dev.recompute_keeps (d : Dev) : Dev.keeps [.ctr, .path] d (Dev.recompute d) := by
  unfold Dev.recompute
  repeat' first
    | with_reducible apply Dev.keeps_refl
    | with_reducible assumption
    | dsimp only
    | split
    | (with_reducible apply Dev.keeps_tr (Dev.bumpIf_keeps ..); case hl => decide)
    | (with_reducible apply Dev.keeps_tr (Dev.onAcct_keeps ..); case hl => decide)
    | (with_reducible apply Dev.keeps_tr (Dev.onPath_keeps ..); case hl => decide)
    | (with_reducible apply Dev.keeps_fold_tr; case' hf => intro _ _)

theorem Dev.commit_keeps (n : Nat) (d : Dev) : Dev.keeps [.out, .ctr, .spl, .hif, .lay, .shd, .path, .tbl, .brd, .mem, .cap, .slc] d (Dev.commit n d) := by
  unfold Dev.commit
  repeat' first
    | with_reducible apply Dev.keeps_refl
    | with_reducible assumption
    | dsimp only
    | split
    | (with_reducible apply Dev.keeps_tr (Dev.fibreMap_keeps ..); case hl => decide)
    | (with_reducible apply Dev.keeps_tr (Dev.logEvent_keeps ..); case hl => decide)
    | (with_reducible apply Dev.keeps_tr (Dev.onShade_keeps ..); case hl => decide)
    | (with_reducible apply Dev.keeps_tr (Dev.oneTime_keeps ..); case hl => decide)
    | (with_reducible apply Dev.keeps_tr (Dev.recompute_keeps ..); case hl => decide)

theorem Dev.commitsTo_keeps (t : Nat) (d : Dev) : Dev.keeps [.out, .ctr, .spl, .hif, .lay, .shd, .path, .tbl, .brd, .mem, .cap, .slc] d (Dev.commitsTo t d) := by
  unfold Dev.commitsTo
  repeat' first
    | with_reducible apply Dev.keeps_refl
    | with_reducible assumption
    | dsimp only
    | split
    | (with_reducible apply Dev.keeps_tr (Dev.commit_keeps ..); case hl => decide)
    | (with_reducible apply Dev.keeps_fold_tr; case' hf => intro _ _)

theorem Dev.refill_keeps (d : Dev) : Dev.keeps [.path, .dmc] d (Dev.refill d) := by
  unfold Dev.refill
  repeat' first
    | with_reducible apply Dev.keeps_refl
    | with_reducible assumption
    | dsimp only
    | split
    | (with_reducible apply Dev.keeps_tr (Dev.onPath_keeps ..); case hl => decide)
    | (with_reducible apply Dev.keeps_fold_tr; case' hf => intro _ _)
    | (with_reducible apply Dev.keeps_optmap; case' h => intro _ _)
    | (with_reducible first | (apply Dev.keeps_up_dmc; case hx => decide))

theorem Dev.onLink_keeps (p : Nat) (f : Link → Link) (d : Dev) : Dev.keeps [.brd] d (Dev.onLink p f d) := by
  unfold Dev.onLink
  repeat' first
    | with_reducible apply Dev.keeps_refl
    | with_reducible assumption
    | dsimp only
    | split
    | (with_reducible apply Dev.keeps_tr (Dev.onBrd_keeps ..); case hl => decide)

theorem Dev.linkTurn_keeps (p : Nat) (d : Dev) : Dev.keeps [.out, .brd] d (Dev.linkTurn p d) := by
  unfold Dev.linkTurn
  repeat' first
    | with_reducible apply Dev.keeps_refl
    | with_reducible assumption
    | dsimp only
    | split
    | (with_reducible apply Dev.keeps_tr (Dev.onLink_keeps ..); case hl => decide)
    | (with_reducible apply Dev.keeps_tr (Dev.sendCredit_keeps ..); case hl => decide)

theorem Dev.clockSteps_keeps  (d : Dev) : Dev.keeps [.cap] d (Dev.clockSteps  d) := by
  unfold Dev.clockSteps
  repeat' first
    | with_reducible apply Dev.keeps_refl
    | with_reducible assumption
    | dsimp only
    | split
    | (with_reducible apply Dev.keeps_tr (Dev.onCap_keeps ..); case hl => decide)
    | (with_reducible apply Dev.keeps_optmap; case' h => intro _ _)

theorem Dev.onCal_keeps (f : Cal → Cal) (d : Dev) : Dev.keeps [.cal] d (Dev.onCal f d) := by
  unfold Dev.onCal
  repeat' first
    | with_reducible apply Dev.keeps_refl
    | with_reducible assumption
    | dsimp only
    | split
    | (with_reducible first | (apply Dev.keeps_up_cal; case hx => decide))

theorem Dev.resumePeriods_keeps (t1 : Nat) (d : Dev) : Dev.keeps [.brd, .cal] d (Dev.resumePeriods t1 d) := by
  unfold Dev.resumePeriods
  repeat' first
    | with_reducible apply Dev.keeps_refl
    | with_reducible assumption
    | dsimp only
    | split
    | (with_reducible apply Dev.keeps_tr (Dev.onBrd_keeps ..); case hl => decide)
    | (with_reducible apply Dev.keeps_tr (Dev.onCal_keeps ..); case hl => decide)

theorem Dev.skippedTurn_keeps (t1 : Nat) (d : Dev) : Dev.keeps [.out, .ctr, .reel, .spl, .hif, .lay, .shd, .path, .tbl, .log, .brd, .cal, .mem, .cap, .slc] d (Dev.skippedTurn t1 d) := by
  unfold Dev.skippedTurn
  repeat' first
    | with_reducible apply Dev.keeps_refl
    | with_reducible assumption
    | dsimp only
    | split
    | (with_reducible apply Dev.keeps_tr (Dev.commitsTo_keeps ..); case hl => decide)
    | (with_reducible apply Dev.keeps_tr (Dev.flushLog_keeps ..); case hl => decide)
    | (with_reducible apply Dev.keeps_tr (Dev.onReel_keeps ..); case hl => decide)
    | (with_reducible apply Dev.keeps_tr (Dev.resumePeriods_keeps ..); case hl => decide)
    | (with_reducible apply Dev.keeps_fold_tr; case' hf => intro _ _)

theorem Dev.changeH_keeps (k v : Nat) (d : Dev) : Dev.keeps [.path, .brd] d (Dev.changeH k v d) := by
  unfold Dev.changeH
  repeat' first
    | with_reducible apply Dev.keeps_refl
    | with_reducible assumption
    | dsimp only
    | split
    | (with_reducible apply Dev.keeps_tr (Dev.giveCredits_keeps ..); case hl => decide)
    | (with_reducible apply Dev.keeps_tr (Dev.onAcct_keeps ..); case hl => decide)

theorem Dev.overLimit_keeps (k : Nat) (d : Dev) : Dev.keeps [.out, .ctr, .path] d (Dev.overLimit k d) := by
  unfold Dev.overLimit
  repeat' first
    | with_reducible apply Dev.keeps_refl
    | with_reducible assumption
    | dsimp only
    | split
    | (with_reducible apply Dev.keeps_tr (Dev.enterXoff_keeps ..); case hl => decide)

theorem Dev.applyHeadroom_keeps (d : Dev) : Dev.keeps [.out, .ctr, .path, .brd] d (Dev.applyHeadroom d) := by
  unfold Dev.applyHeadroom
  repeat' first
    | with_reducible apply Dev.keeps_refl
    | with_reducible assumption
    | dsimp only
    | split
    | (with_reducible apply Dev.keeps_tr (Dev.changeH_keeps ..); case hl => decide)
    | (with_reducible apply Dev.keeps_tr (Dev.onPath_keeps ..); case hl => decide)
    | (with_reducible apply Dev.keeps_tr (Dev.overLimit_keeps ..); case hl => decide)
    | (with_reducible apply Dev.keeps_tr (Dev.xonAll_keeps ..); case hl => decide)
    | (with_reducible apply Dev.keeps_fold_tr; case' hf => intro _ _)
    | (with_reducible apply Dev.keeps_optmap; case' h => intro _ _)

theorem Dev.dueNs_keeps (ns : Nat) (d : Dev) : Dev.keeps [.pclk, .reel] d (Dev.dueNs ns d) := by
  unfold Dev.dueNs
  repeat' first
    | with_reducible apply Dev.keeps_refl
    | with_reducible assumption
    | dsimp only
    | split
    | (with_reducible apply Dev.keeps_tr (Dev.pass_keeps ..); case hl => decide)

theorem Dev.toBoundary_keeps (d : Dev) : Dev.keeps [.pclk, .reel] d (Dev.toBoundary d) := by
  unfold Dev.toBoundary
  repeat' first
    | with_reducible apply Dev.keeps_refl
    | with_reducible assumption
    | dsimp only
    | split
    | (with_reducible apply Dev.keeps_tr (Dev.dueNs_keeps ..); case hl => decide)

theorem Dev.ownTurn_keeps (d : Dev) : Dev.keeps [.pclk, .out, .ctr, .reel, .spl, .hif, .lay, .shd, .path, .tbl, .log, .brd, .mem, .dmc, .cap, .slc] d (Dev.ownTurn d) := by
  unfold Dev.ownTurn
  repeat' first
    | with_reducible apply Dev.keeps_refl
    | with_reducible assumption
    | dsimp only
    | split
    | (with_reducible apply Dev.keeps_tr (Dev.applyHeadroom_keeps ..); case hl => decide)
    | (with_reducible apply Dev.keeps_tr (Dev.clockSteps_keeps ..); case hl => decide)
    | (with_reducible apply Dev.keeps_tr (Dev.commitsTo_keeps ..); case hl => decide)
    | (with_reducible apply Dev.keeps_tr (Dev.discontinuity_keeps ..); case hl => decide)
    | (with_reducible apply Dev.keeps_tr (Dev.flushLog_keeps ..); case hl => decide)
    | (with_reducible apply Dev.keeps_tr (Dev.linkTurn_keeps ..); case hl => decide)
    | (with_reducible apply Dev.keeps_tr (Dev.log'_keeps ..); case hl => decide)
    | (with_reducible apply Dev.keeps_tr (Dev.onPath_keeps ..); case hl => decide)
    | (with_reducible apply Dev.keeps_tr (Dev.onReel_keeps ..); case hl => decide)
    | (with_reducible apply Dev.keeps_tr (Dev.reelBoundary_keeps ..); case hl => decide)
    | (with_reducible apply Dev.keeps_tr (Dev.refill_keeps ..); case hl => decide)
    | (with_reducible apply Dev.keeps_tr (Dev.toBoundary_keeps ..); case hl => decide)
    | (with_reducible apply Dev.keeps_fold_tr; case' hf => intro _ _)

theorem Dev.boundary_keeps (d : Dev) : Dev.keeps [.pclk, .out, .ctr, .reel, .spl, .hif, .lay, .shd, .path, .tbl, .log, .brd, .cal, .mem, .dmc, .cap, .slc] d (Dev.boundary d) := by
  unfold Dev.boundary
  repeat' first
    | with_reducible apply Dev.keeps_refl
    | with_reducible assumption
    | dsimp only
    | split
    | (with_reducible apply Dev.keeps_tr (Dev.ownTurn_keeps ..); case hl => decide)
    | (with_reducible apply Dev.keeps_tr (Dev.skippedTurn_keeps ..); case hl => decide)

theorem Dev.markLinks_keeps (t : Nat) (d : Dev) : Dev.keeps [.out, .brd] d (Dev.markLinks t d) := by
  unfold Dev.markLinks
  repeat' first
    | with_reducible apply Dev.keeps_refl
    | with_reducible assumption
    | dsimp only
    | split
    | (with_reducible apply Dev.keeps_tr (Dev.control_keeps ..); case hl => decide)
    | (with_reducible apply Dev.keeps_tr (Dev.onLink_keeps ..); case hl => decide)
    | (with_reducible apply Dev.keeps_fold_tr; case' hf => intro _ _)

theorem Dev.captured_keeps (x : Snap) (d : Dev) : Dev.keeps [.out, .ctr, .spl, .hif, .log, .brd, .mem, .cap, .slc] d (Dev.captured x d) := by
  unfold Dev.captured
  repeat' first
    | with_reducible apply Dev.keeps_refl
    | with_reducible assumption
    | dsimp only
    | split
    | (with_reducible apply Dev.keeps_tr (Dev.flushLog_keeps ..); case hl => decide)
    | (with_reducible apply Dev.keeps_tr (Dev.log'_keeps ..); case hl => decide)
    | (with_reducible apply Dev.keeps_tr (Dev.markLinks_keeps ..); case hl => decide)
    | (with_reducible apply Dev.keeps_tr (Dev.onSpl_keeps ..); case hl => decide)
    | (with_reducible apply Dev.keeps_fold_tr; case' hf => intro _ _)

theorem Dev.onUnit_keeps (u : Nat) (f : AutUnit → AutUnit) (d : Dev) : Dev.keeps [.aut] d (Dev.onUnit u f d) := by
  unfold Dev.onUnit
  repeat' first
    | with_reducible apply Dev.keeps_refl
    | with_reducible assumption
    | dsimp only
    | split
    | (with_reducible apply Dev.keeps_tr (Dev.onAut_keeps ..); case hl => decide)

theorem Dev.admitSeg_keeps (lay : Nat) (g : Seg) (d : Dev) {e : Dev} (hE : (Dev.admitSeg lay g d) = some e) : Dev.keeps [.aut] d e := by
  unfold Dev.admitSeg at hE
  revert hE
  repeat' first
    | with_reducible apply Dev.keeps_refl
    | with_reducible assumption
    | dsimp only
    | split
    | (intro h; injection h with h; subst h)
    | (intro h; cases h; done)
    | (with_reducible apply Dev.keeps_tr (Dev.onUnit_keeps ..); case hl => decide)

theorem Dev.flag_keeps (f i : Nat) (d : Dev) : Dev.keeps [.lay, .path] d (Dev.flag f i d) := by
  unfold Dev.flag
  repeat' first
    | with_reducible apply Dev.keeps_refl
    | with_reducible assumption
    | dsimp only
    | split
    | (with_reducible apply Dev.keeps_tr (Dev.onFibre_keeps ..); case hl => decide)
    | (with_reducible apply Dev.keeps_tr (Dev.onPkt_keeps ..); case hl => decide)

theorem Dev.takeResult_keeps (f pd : Nat) (s : Sub) (w : W) (d : Dev) : Dev.keeps [.lay, .path] d (Dev.takeResult f pd s w d) := by
  unfold Dev.takeResult
  repeat' first
    | with_reducible apply Dev.keeps_refl
    | with_reducible assumption
    | dsimp only
    | split
    | (with_reducible apply Dev.keeps_tr (Dev.flag_keeps ..); case hl => decide)
    | (with_reducible apply Dev.keeps_tr (Dev.onFibre_keeps ..); case hl => decide)

theorem Dev.feedWait_keeps (f : Nat) (d : Dev) : Dev.keeps [.lay, .path] d (Dev.feedWait f d) := by
  unfold Dev.feedWait
  repeat' first
    | with_reducible apply Dev.keeps_refl
    | with_reducible assumption
    | dsimp only
    | split
    | (with_reducible apply Dev.keeps_tr (Dev.onFibre_keeps ..); case hl => decide)
    | (with_reducible apply Dev.keeps_tr (Dev.takeResult_keeps ..); case hl => decide)

theorem Dev.toFibre_keeps (f id : Nat) (w : W) (d : Dev) : Dev.keeps [.ctr, .lay, .path] d (Dev.toFibre f id w d) := by
  unfold Dev.toFibre
  repeat' first
    | with_reducible apply Dev.keeps_refl
    | with_reducible assumption
    | dsimp only
    | split
    | (with_reducible apply Dev.keeps_tr (Dev.bump_keeps ..); case hl => decide)
    | (with_reducible apply Dev.keeps_tr (Dev.feedWait_keeps ..); case hl => decide)
    | (with_reducible apply Dev.keeps_tr (Dev.onFibre_keeps ..); case hl => decide)

theorem Dev.toNode_keeps (shade dest kind : Nat) (body : List Byte) (d : Dev) : Dev.keeps [.out, .brd] d (Dev.toNode shade dest kind body d) := by
  unfold Dev.toNode
  repeat' first
    | with_reducible apply Dev.keeps_refl
    | with_reducible assumption
    | dsimp only
    | split
    | (with_reducible apply Dev.keeps_tr (Dev.control_keeps ..); case hl => decide)
    | (with_reducible apply Dev.keeps_tr (Dev.nextHop_keeps ..); case hl => decide)
    | (with_reducible apply Dev.keeps_tr (Dev.nextHop_keeps' (by assumption)); case hl => decide)

theorem Dev.deliverGlobal_keeps (w : W) (partial' : Bool) (d : Dev) : Dev.keeps [.free, .ctr, .lay, .path, .aut] d (Dev.deliverGlobal w partial' d) := by
  unfold Dev.deliverGlobal
  repeat' first
    | with_reducible apply Dev.keeps_refl
    | with_reducible assumption
    | dsimp only
    | split
    | (with_reducible apply Dev.keeps_tr (Dev.bumpIf_keeps ..); case hl => decide)
    | (with_reducible apply Dev.keeps_tr (Dev.onAut_keeps ..); case hl => decide)
    | (with_reducible apply Dev.keeps_tr (Dev.toFibre_keeps ..); case hl => decide)
    | (with_reducible apply Dev.keeps_tr (Dev.useFree_keeps ..); case hl => decide)

theorem Dev.chainOut_keeps (c : Chain) (w : W) (partial' : Bool) (d : Dev) : Dev.keeps [.free, .out, .ctr, .lay, .path, .aut, .brd] d (Dev.chainOut c w partial' d) := by
  unfold Dev.chainOut
  repeat' first
    | with_reducible apply Dev.keeps_refl
    | with_reducible assumption
    | dsimp only
    | split
    | (with_reducible apply Dev.keeps_tr (Dev.bump_keeps ..); case hl => decide)
    | (with_reducible apply Dev.keeps_tr (Dev.deliverGlobal_keeps ..); case hl => decide)
    | (with_reducible apply Dev.keeps_tr (Dev.sendGated_keeps ..); case hl => decide)
    | (with_reducible apply Dev.keeps_tr (Dev.toNode_keeps ..); case hl => decide)
    | (with_reducible apply Dev.keeps_optmap; case' h => intro _ _)

theorem Dev.chainLocal_keeps (c : Chain) (w : W) (d : Dev) : Dev.keeps [.free, .out, .ctr, .lay, .path, .aut, .brd] d (Dev.chainLocal c w d) := by
  unfold Dev.chainLocal
  repeat' first
    | with_reducible apply Dev.keeps_refl
    | with_reducible assumption
    | dsimp only
    | split
    | (with_reducible apply Dev.keeps_tr (Dev.bump_keeps ..); case hl => decide)
    | (with_reducible apply Dev.keeps_tr (Dev.chainOut_keeps ..); case hl => decide)
    | (with_reducible apply Dev.keeps_tr (Dev.onAut_keeps ..); case hl => decide)

theorem Dev.chainUp_keeps (c : Chain) (w : W) (d : Dev) : Dev.keeps [.free, .out, .ctr, .lay, .path, .aut, .brd] d (Dev.chainUp c w d) := by
  unfold Dev.chainUp
  repeat' first
    | with_reducible apply Dev.keeps_refl
    | with_reducible assumption
    | dsimp only
    | split
    | (with_reducible apply Dev.keeps_tr (Dev.bump_keeps ..); case hl => decide)
    | (with_reducible apply Dev.keeps_tr (Dev.chainOut_keeps ..); case hl => decide)
    | (with_reducible apply Dev.keeps_tr (Dev.onAut_keeps ..); case hl => decide)

theorem Dev.accepted_keeps (f : Nat) (g : Seg) (unit from' : Nat) (dead : Bool) (d : Dev) : Dev.keeps [.ctr, .lay] d (Dev.accepted f g unit from' dead d) := by
  unfold Dev.accepted
  repeat' first
    | with_reducible apply Dev.keeps_refl
    | with_reducible assumption
    | dsimp only
    | split
    | (with_reducible apply Dev.keeps_tr (Dev.bump_keeps ..); case hl => decide)
    | (with_reducible apply Dev.keeps_tr (Dev.onFibre_keeps ..); case hl => decide)

theorem Dev.submit_keeps (f tag word : Nat) (o : Post) (d : Dev) : Dev.keeps [.out, .ctr, .lay, .path, .aut, .brd] d (Dev.submit f tag word o d).1 := by
  unfold Dev.submit
  repeat' first
    | with_reducible apply Dev.keeps_refl
    | with_reducible assumption
    | dsimp only
    | split
    | (with_reducible apply Dev.keeps_tr (Dev.accepted_keeps ..); case hl => decide)
    | (with_reducible apply Dev.keeps_tr (Dev.admitSeg_keeps (hE := by assumption) ..); case hl => decide)
    | (with_reducible apply Dev.keeps_tr (Dev.bump_keeps ..); case hl => decide)
    | (with_reducible apply Dev.keeps_tr (Dev.onAut_keeps ..); case hl => decide)
    | (with_reducible apply Dev.keeps_tr (Dev.toFibre_keeps ..); case hl => decide)
    | (with_reducible apply Dev.keeps_tr (Dev.toNode_keeps ..); case hl => decide)
    | (with_reducible apply Dev.keeps_fold_tr; case' hf => intro _ _)
    | (with_reducible apply Dev.keeps_optmap; case' h => intro _ _)

theorem Dev.submit_keeps' {f tag word : Nat} {o : Post} {d : Dev} {e : Dev} {y} (hE : Dev.submit f tag word o d = (e, y)) : Dev.keeps [.out, .ctr, .lay, .path, .aut, .brd] d e := by
  have k := Dev.submit_keeps f tag word o d; rw [hE] at k; exact k
theorem Dev.writeReport_keeps (lay : Nat) (body : List Byte) (d : Dev) : Dev.keeps [.out, .ctr, .hif, .mem, .cap, .slc] d (Dev.writeReport lay body d) := by
  unfold Dev.writeReport
  repeat' first
    | with_reducible apply Dev.keeps_refl
    | with_reducible assumption
    | dsimp only
    | split
    | (with_reducible apply Dev.keeps_tr (Dev.bump_keeps ..); case hl => decide)
    | (with_reducible apply Dev.keeps_tr (Dev.emit_keeps ..); case hl => decide)
    | (with_reducible apply Dev.keeps_tr (Dev.emit_keeps' (by assumption)); case hl => decide)

theorem Dev.finishSeg_keeps (lay : Nat) (g : Seg) (scan : Scan) (suspect : Bool) (d : Dev) : Dev.keeps [.free, .out, .ctr, .lay, .path, .aut, .brd, .cap] d (Dev.finishSeg lay g scan suspect d) := by
  unfold Dev.finishSeg
  simp only [Dev.with']
  repeat' first
    | with_reducible apply Dev.keeps_refl
    | with_reducible assumption
    | dsimp only
    | split
    | (with_reducible apply Dev.keeps_tr (Dev.bumpIf_keeps ..); case hl => decide)
    | (with_reducible apply Dev.keeps_tr (Dev.chainLocal_keeps ..); case hl => decide)
    | (with_reducible apply Dev.keeps_tr (Dev.onCore_keeps ..); case hl => decide)
    | (with_reducible apply Dev.keeps_tr (Dev.toFibre_keeps ..); case hl => decide)

theorem Dev.startUnitRepair_keeps (unit line : Nat) (d : Dev) : Dev.keeps [.free, .out, .ctr, .lay, .path, .aut, .brd, .cap] d (Dev.startUnitRepair unit line d) := by
  unfold Dev.startUnitRepair
  repeat' first
    | with_reducible apply Dev.keeps_refl
    | with_reducible assumption
    | dsimp only
    | split
    | (with_reducible apply Dev.keeps_tr (Dev.bump_keeps ..); case hl => decide)
    | (with_reducible apply Dev.keeps_tr (Dev.finishSeg_keeps ..); case hl => decide)
    | (with_reducible apply Dev.keeps_tr (Dev.flag_keeps ..); case hl => decide)
    | (with_reducible apply Dev.keeps_tr (Dev.onUnit_keeps ..); case hl => decide)
    | (with_reducible apply Dev.keeps_fold_tr; case' hf => intro _ _)

theorem Dev.giveFate_keeps (k fate code : Nat) (d : Dev) : Dev.keeps [.out, .ctr, .hif, .shd, .path, .log, .mem, .cap, .slc] d (Dev.giveFate k fate code d) := by
  unfold Dev.giveFate
  repeat' first
    | with_reducible apply Dev.keeps_refl
    | with_reducible assumption
    | dsimp only
    | split
    | (with_reducible apply Dev.keeps_tr (Dev.onPkt_keeps ..); case hl => decide)
    | (with_reducible apply Dev.keeps_tr (Dev.settle_keeps ..); case hl => decide)

theorem Dev.invalidate_keeps (p : CacheEnt → Bool) (d : Dev) : Dev.keeps [.lay] d (Dev.invalidate p d) := by
  unfold Dev.invalidate
  repeat' first
    | with_reducible apply Dev.keeps_refl
    | with_reducible assumption
    | dsimp only
    | split
    | (with_reducible first | (apply Dev.keeps_up_lay; case hx => decide))

theorem Dev.dropCached_keeps (tab n : Nat) (key : Option Nat) (d : Dev) : Dev.keeps [.lay] d (Dev.dropCached tab n key d) := by
  unfold Dev.dropCached
  repeat' first
    | with_reducible apply Dev.keeps_refl
    | with_reducible assumption
    | dsimp only
    | split
    | (with_reducible apply Dev.keeps_tr (Dev.invalidate_keeps ..); case hl => decide)

theorem Dev.moved_keeps (r : Tables × Nat) (d : Dev) : Dev.keeps [.ctr, .tbl] d (Dev.moved r d) := by
  unfold Dev.moved
  repeat' first
    | with_reducible apply Dev.keeps_refl
    | with_reducible assumption
    | dsimp only
    | split
    | (with_reducible apply Dev.keeps_tr (Dev.add_keeps ..); case hl => decide)
    | (with_reducible first | (apply Dev.keeps_up_tbl; case hx => decide))

theorem Dev.openRoutes_keeps (b n : Nat) (d : Dev) : Dev.keeps [.brd] d (Dev.openRoutes b n d) := by
  unfold Dev.openRoutes
  repeat' first
    | with_reducible apply Dev.keeps_refl
    | with_reducible assumption
    | dsimp only
    | split
    | (with_reducible apply Dev.keeps_tr (Dev.onBrd_keeps ..); case hl => decide)

theorem Dev.closeRoutes_keeps (n : Nat) (d : Dev) : Dev.keeps [.brd] d (Dev.closeRoutes n d) := by
  unfold Dev.closeRoutes
  repeat' first
    | with_reducible apply Dev.keeps_refl
    | with_reducible assumption
    | dsimp only
    | split
    | (with_reducible apply Dev.keeps_tr (Dev.onBrd_keeps ..); case hl => decide)

theorem Dev.freeShade_keeps (n : Nat) (d : Dev) : Dev.keeps [.ctr, .lay, .shd, .path, .tbl, .brd] d (Dev.freeShade n d) := by
  unfold Dev.freeShade
  repeat' first
    | with_reducible apply Dev.keeps_refl
    | with_reducible assumption
    | dsimp only
    | split
    | (with_reducible apply Dev.keeps_tr (Dev.closeRoutes_keeps ..); case hl => decide)
    | (with_reducible apply Dev.keeps_tr (Dev.invalidate_keeps ..); case hl => decide)
    | (with_reducible apply Dev.keeps_tr (Dev.onTbl_keeps ..); case hl => decide)
    | (with_reducible apply Dev.keeps_tr (Dev.recompute_keeps ..); case hl => decide)
    | (with_reducible first | (apply Dev.keeps_up_shd; case hx => decide))

theorem Dev.openShade_keeps (num b n : Nat) (d : Dev) : Dev.keeps [.shd, .tbl, .brd] d (Dev.openShade num b n d) := by
  unfold Dev.openShade
  repeat' first
    | with_reducible apply Dev.keeps_refl
    | with_reducible assumption
    | dsimp only
    | split
    | (with_reducible apply Dev.keeps_tr (Dev.onTbl_keeps ..); case hl => decide)
    | (with_reducible apply Dev.keeps_tr (Dev.openRoutes_keeps ..); case hl => decide)
    | (with_reducible first | (apply Dev.keeps_up_shd; case hx => decide))

theorem Dev.pend_keeps (n t : Nat) (fabric : Bool) (d : Dev) : Dev.keeps [.shd] d (Dev.pend n t fabric d) := by
  unfold Dev.pend
  repeat' first
    | with_reducible apply Dev.keeps_refl
    | with_reducible assumption
    | dsimp only
    | split
    | (with_reducible apply Dev.keeps_tr (Dev.onShade_keeps ..); case hl => decide)

theorem Dev.flood_keeps (op target turn arg : Nat) (d : Dev) : Dev.keeps [.out, .brd] d (Dev.flood op target turn arg d) := by
  unfold Dev.flood
  repeat' first
    | with_reducible apply Dev.keeps_refl
    | with_reducible assumption
    | dsimp only
    | split
    | (with_reducible apply Dev.keeps_tr (Dev.control_keeps ..); case hl => decide)
    | (with_reducible apply Dev.keeps_tr (Dev.onBrd_keeps ..); case hl => decide)
    | (with_reducible apply Dev.keeps_fold_tr; case' hf => intro _ _)

theorem Dev.retired_keeps (n asked : Nat) (d : Dev) : Dev.keeps [.out, .ctr, .spl, .hif, .lay, .shd, .path, .tbl, .brd, .mem, .cap, .slc] d (Dev.retired n asked d) := by
  unfold Dev.retired
  repeat' first
    | with_reducible apply Dev.keeps_refl
    | with_reducible assumption
    | dsimp only
    | split
    | (with_reducible apply Dev.keeps_tr (Dev.freeShade_keeps ..); case hl => decide)
    | (with_reducible apply Dev.keeps_tr (Dev.logEvent_keeps ..); case hl => decide)

theorem Dev.loadSet_keeps (n : Nat) (lays : List Nat) (set : ProgSet) (d : Dev) : Dev.keeps [.ctr, .lay, .shd, .path] d (Dev.loadSet n lays set d) := by
  unfold Dev.loadSet
  repeat' first
    | with_reducible apply Dev.keeps_refl
    | with_reducible assumption
    | dsimp only
    | split
    | (with_reducible apply Dev.keeps_tr (Dev.onShade_keeps ..); case hl => decide)
    | (with_reducible apply Dev.keeps_tr (Dev.recompute_keeps ..); case hl => decide)
    | (with_reducible apply Dev.keeps_fold_tr; case' hf => intro _ _)
    | (with_reducible first | (apply Dev.keeps_up_lay; case hx => decide))

theorem Dev.addCounter_keeps (i pk by' : Nat) (d : Dev) : Dev.keeps [.tbl] d (Dev.addCounter i pk by' d) := by
  unfold Dev.addCounter
  repeat' first
    | with_reducible apply Dev.keeps_refl
    | with_reducible assumption
    | dsimp only
    | split
    | (with_reducible first | (apply Dev.keeps_up_tbl; case hx => decide))

theorem Dev.endCharges_keeps (k : Nat) (d : Dev) : Dev.keeps [.path, .tbl] d (Dev.endCharges k d) := by
  unfold Dev.endCharges
  repeat' first
    | with_reducible apply Dev.keeps_refl
    | with_reducible assumption
    | dsimp only
    | split
    | (with_reducible apply Dev.keeps_tr (Dev.addCounter_keeps ..); case hl => decide)
    | (with_reducible apply Dev.keeps_tr (Dev.onPath_keeps ..); case hl => decide)
    | (with_reducible apply Dev.keeps_tr (Dev.onPkt_keeps ..); case hl => decide)
    | (with_reducible apply Dev.keeps_fold_tr; case' hf => intro _ _)

theorem Dev.settlePick_keeps (len : Nat) (e : Nat × Option Nat × Nat) (d : Dev) : Dev.keeps [.ctr, .path, .brd] d (Dev.settlePick len e d) := by
  unfold Dev.settlePick
  repeat' first
    | with_reducible apply Dev.keeps_refl
    | with_reducible assumption
    | dsimp only
    | split
    | (with_reducible apply Dev.keeps_tr (Dev.onLink_keeps ..); case hl => decide)
    | (with_reducible apply Dev.keeps_tr (Dev.onPath_keeps ..); case hl => decide)
    | (with_reducible apply Dev.keeps_optmap; case' h => intro _ _)
    | (with_reducible first | (apply Dev.keeps_up_ctr; case hx => decide))

theorem Dev.endCopyCharge_keeps (k c : Nat) (d : Dev) : Dev.keeps [.ctr, .path, .brd] d (Dev.endCopyCharge k c d) := by
  unfold Dev.endCopyCharge
  repeat' first
    | with_reducible apply Dev.keeps_refl
    | with_reducible assumption
    | dsimp only
    | split
    | (with_reducible apply Dev.keeps_tr (Dev.onCopy_keeps ..); case hl => decide)
    | (with_reducible apply Dev.keeps_tr (Dev.settlePick_keeps ..); case hl => decide)
    | (with_reducible apply Dev.keeps_fold_tr; case' hf => intro _ _)

theorem Dev.lineEnd_keeps (k : Nat) (d : Dev) : Dev.keeps [.pclk, .reel, .path] d (Dev.lineEnd k d) := by
  unfold Dev.lineEnd
  repeat' first
    | with_reducible apply Dev.keeps_refl
    | with_reducible assumption
    | dsimp only
    | split
    | (with_reducible apply Dev.keeps_tr (Dev.due_keeps ..); case hl => decide)
    | (with_reducible apply Dev.keeps_tr (Dev.onPath_keeps ..); case hl => decide)
    | (with_reducible apply Dev.keeps_fold_tr; case' hf => intro _ _)

theorem Dev.linkAll1_keeps (k port dest : Nat) (d : Dev) : Dev.keeps [.out, .ctr, .hif, .shd, .path, .log, .brd, .mem, .cap, .slc] d (Dev.linkAll1 k port dest d) := by
  unfold Dev.linkAll1
  repeat' first
    | with_reducible apply Dev.keeps_refl
    | with_reducible assumption
    | dsimp only
    | split
    | (with_reducible apply Dev.keeps_tr (Dev.endUnlinked_keeps ..); case hl => decide)
    | (with_reducible apply Dev.keeps_tr (Dev.linkCopy_keeps ..); case hl => decide)

theorem Dev.hostAtEnd_keeps (k : Nat) (d : Dev) : Dev.keeps [.out, .ctr, .hif, .lay, .path, .mem, .cap, .rdm, .slc] d (Dev.hostAtEnd k d) := by
  unfold Dev.hostAtEnd
  repeat' first
    | with_reducible apply Dev.keeps_refl
    | with_reducible assumption
    | dsimp only
    | split
    | (with_reducible apply Dev.keeps_tr (Dev.giveHost_keeps ..); case hl => decide)
    | (with_reducible apply Dev.keeps_tr (Dev.onPkt_keeps ..); case hl => decide)

theorem Dev.releaseCopy_keeps (k c : Nat) (d : Dev) : Dev.keeps [.out, .ctr, .hif, .lay, .shd, .path, .log, .brd, .mem, .cap, .rdm, .slc] d (Dev.releaseCopy k c d) := by
  unfold Dev.releaseCopy
  repeat' first
    | with_reducible apply Dev.keeps_refl
    | with_reducible assumption
    | dsimp only
    | split
    | (with_reducible apply Dev.keeps_tr (Dev.endCopy_keeps ..); case hl => decide)
    | (with_reducible apply Dev.keeps_tr (Dev.fault_keeps ..); case hl => decide)
    | (with_reducible apply Dev.keeps_tr (Dev.onCopy_keeps ..); case hl => decide)
    | (with_reducible apply Dev.keeps_tr (Dev.onPath_keeps ..); case hl => decide)
    | (with_reducible apply Dev.keeps_tr (Dev.toHostQueue_keeps ..); case hl => decide)
    | (with_reducible apply Dev.keeps_optmap; case' h => intro _ _)

theorem Dev.stash_keeps (f : Nat) (t : Term) (d : Dev) : Dev.keeps [.path] d (Dev.stash f t d) := by
  unfold Dev.stash
  repeat' first
    | with_reducible apply Dev.keeps_refl
    | with_reducible assumption
    | dsimp only
    | split
    | (with_reducible apply Dev.keeps_tr (Dev.onPkt_keeps ..); case hl => decide)

theorem Dev.park_keeps (f : Nat) (d : Dev) : Dev.keeps [.ctr, .lay, .path, .cap] d (Dev.park f d) := by
  unfold Dev.park
  repeat' first
    | with_reducible apply Dev.keeps_refl
    | with_reducible assumption
    | dsimp only
    | split
    | (with_reducible apply Dev.keeps_tr (Dev.bump_keeps ..); case hl => decide)
    | (with_reducible apply Dev.keeps_tr (Dev.freeF_keeps ..); case hl => decide)
    | (with_reducible apply Dev.keeps_tr (Dev.onCopy_keeps ..); case hl => decide)
    | (with_reducible apply Dev.keeps_tr (Dev.onFibre_keeps ..); case hl => decide)
    | (with_reducible apply Dev.keeps_tr (Dev.onPkt_keeps ..); case hl => decide)

theorem Dev.abandonSubs_keeps (f : Nat) (d : Dev) : Dev.keeps [.ctr, .lay] d (Dev.abandonSubs f d) := by
  unfold Dev.abandonSubs
  repeat' first
    | with_reducible apply Dev.keeps_refl
    | with_reducible assumption
    | dsimp only
    | split
    | (with_reducible apply Dev.keeps_tr (Dev.add_keeps ..); case hl => decide)
    | (with_reducible apply Dev.keeps_tr (Dev.onFibre_keeps ..); case hl => decide)

theorem Dev.undoBundle_keeps (f : Nat) (d : Dev) : Dev.keeps [.lay, .mem] d (Dev.undoBundle f d) := by
  unfold Dev.undoBundle
  repeat' first
    | with_reducible apply Dev.keeps_refl
    | with_reducible assumption
    | dsimp only
    | split
    | (with_reducible apply Dev.keeps_tr (Dev.onFibre_keeps ..); case hl => decide)
    | (with_reducible apply Dev.keeps_fold_tr; case' hf => intro _ _)
    | (with_reducible first | (apply Dev.keeps_up_mem; (case hx => decide); (case hm => exact Dev.memOk_scratch fun h => Memory.fold_wf _ (fun _ _ h => Memory.write_wf _ _ _ h) _ _ h)))

theorem Dev.leaveWaits_keeps (h : Holder) (d : Dev) : Dev.keeps [.cap] d (Dev.leaveWaits h d) := by
  unfold Dev.leaveWaits
  repeat' first
    | with_reducible apply Dev.keeps_refl
    | with_reducible assumption
    | dsimp only
    | split
    | (with_reducible apply Dev.keeps_tr (Dev.onCap_keeps ..); case hl => decide)

theorem Dev.trapF_keeps (f cause : Nat) (d : Dev) : Dev.keeps [.out, .ctr, .hif, .lay, .shd, .path, .log, .brd, .mem, .cap, .slc] d (Dev.trapF f cause d) := by
  unfold Dev.trapF
  repeat' first
    | with_reducible apply Dev.keeps_refl
    | with_reducible assumption
    | dsimp only
    | split
    | (with_reducible apply Dev.keeps_tr (Dev.abandonSubs_keeps ..); case hl => decide)
    | (with_reducible apply Dev.keeps_tr (Dev.bump_keeps ..); case hl => decide)
    | (with_reducible apply Dev.keeps_tr (Dev.endCopy_keeps ..); case hl => decide)
    | (with_reducible apply Dev.keeps_tr (Dev.freeAll_keeps ..); case hl => decide)
    | (with_reducible apply Dev.keeps_tr (Dev.freeF_keeps ..); case hl => decide)
    | (with_reducible apply Dev.keeps_tr (Dev.leaveWaits_keeps ..); case hl => decide)
    | (with_reducible apply Dev.keeps_tr (Dev.onFibre_keeps ..); case hl => decide)
    | (with_reducible apply Dev.keeps_tr (Dev.onLay_keeps ..); case hl => decide)
    | (with_reducible apply Dev.keeps_tr (Dev.onPkt_keeps ..); case hl => decide)
    | (with_reducible apply Dev.keeps_tr (Dev.settle_keeps ..); case hl => decide)
    | (with_reducible apply Dev.keeps_tr (Dev.toTrapLine_keeps ..); case hl => decide)
    | (with_reducible apply Dev.keeps_tr (Dev.undoBundle_keeps ..); case hl => decide)
    | (with_reducible apply Dev.keeps_optmap; case' h => intro _ _)

theorem Dev.refuseCmd_keeps (q id st : Nat) (d : Dev) : Dev.keeps [.ctr, .hif] d (Dev.refuseCmd q id st d) := by
  unfold Dev.refuseCmd
  repeat' first
    | with_reducible apply Dev.keeps_refl
    | with_reducible assumption
    | dsimp only
    | split
    | (with_reducible apply Dev.keeps_tr (Dev.bump_keeps ..); case hl => decide)
    | (with_reducible apply Dev.keeps_tr (Dev.complete_keeps ..); case hl => decide)

theorem Dev.mapBad_keeps (q id : Nat) (d : Dev) : Dev.keeps [.ctr, .hif] d (Dev.mapBad q id d) := by
  unfold Dev.mapBad
  repeat' first
    | with_reducible apply Dev.keeps_refl
    | with_reducible assumption
    | dsimp only
    | split
    | (with_reducible apply Dev.keeps_tr (Dev.refuseCmd_keeps ..); case hl => decide)

theorem Dev.freeTags_keeps (s n : Nat) (d : Dev) : Dev.keeps [.hif] d (Dev.freeTags s n d) := by
  unfold Dev.freeTags
  repeat' first
    | with_reducible apply Dev.keeps_refl
    | with_reducible assumption
    | dsimp only
    | split
    | (with_reducible first | (apply Dev.keeps_up_hif; case hx => decide))

theorem Dev.onSto_keeps (f : Sto → Sto) (d : Dev) : Dev.keeps [.sto] d (Dev.onSto f d) := by
  unfold Dev.onSto
  repeat' first
    | with_reducible apply Dev.keeps_refl
    | with_reducible assumption
    | dsimp only
    | split
    | (with_reducible first | (apply Dev.keeps_up_sto; case hx => decide))

theorem Dev.finishCmd_keeps (id : Nat) (d : Dev) : Dev.keeps [.ctr, .hif, .log, .sto] d (Dev.finishCmd id d) := by
  unfold Dev.finishCmd
  repeat' first
    | with_reducible apply Dev.keeps_refl
    | with_reducible assumption
    | dsimp only
    | split
    | (with_reducible apply Dev.keeps_tr (Dev.bump_keeps ..); case hl => decide)
    | (with_reducible apply Dev.keeps_tr (Dev.complete_keeps ..); case hl => decide)
    | (with_reducible apply Dev.keeps_tr (Dev.freeTags_keeps ..); case hl => decide)
    | (with_reducible apply Dev.keeps_tr (Dev.onLog_keeps ..); case hl => decide)
    | (with_reducible apply Dev.keeps_tr (Dev.onSto_keeps ..); case hl => decide)

theorem Dev.onPart_keeps (id : Nat) (f : Part → Part) (d : Dev) : Dev.keeps [.sto] d (Dev.onPart id f d) := by
  unfold Dev.onPart
  repeat' first
    | with_reducible apply Dev.keeps_refl
    | with_reducible assumption
    | dsimp only
    | split
    | (with_reducible apply Dev.keeps_tr (Dev.onSto_keeps ..); case hl => decide)

theorem Dev.endPart_keeps (id st code type : Nat) (d : Dev) : Dev.keeps [.ctr, .hif, .log, .sto] d (Dev.endPart id st code type d) := by
  unfold Dev.endPart
  repeat' first
    | with_reducible apply Dev.keeps_refl
    | with_reducible assumption
    | dsimp only
    | split
    | (with_reducible apply Dev.keeps_tr (Dev.bump_keeps ..); case hl => decide)
    | (with_reducible apply Dev.keeps_tr (Dev.bumpIf_keeps ..); case hl => decide)
    | (with_reducible apply Dev.keeps_tr (Dev.finishCmd_keeps ..); case hl => decide)
    | (with_reducible apply Dev.keeps_tr (Dev.onPart_keeps ..); case hl => decide)

theorem Dev.onRdm_keeps (f : Rdm → Rdm) (d : Dev) : Dev.keeps [.rdm] d (Dev.onRdm f d) := by
  unfold Dev.onRdm
  repeat' first
    | with_reducible apply Dev.keeps_refl
    | with_reducible assumption
    | dsimp only
    | split
    | (with_reducible first | (apply Dev.keeps_up_rdm; case hx => decide))

theorem Dev.onConn_keeps (c : Nat) (f : Conn → Conn) (d : Dev) : Dev.keeps [.rdm] d (Dev.onConn c f d) := by
  unfold Dev.onConn
  repeat' first
    | with_reducible apply Dev.keeps_refl
    | with_reducible assumption
    | dsimp only
    | split
    | (with_reducible apply Dev.keeps_tr (Dev.onRdm_keeps ..); case hl => decide)

theorem Dev.admitInject_keeps (lay : Nat) (j : Inject) (d : Dev) {e : Dev} (hE : (Dev.admitInject lay j d) = some e) : Dev.keeps [.out, .ctr, .lay, .path, .brd] d e := by
  unfold Dev.admitInject at hE
  revert hE
  repeat' first
    | with_reducible apply Dev.keeps_refl
    | with_reducible assumption
    | dsimp only
    | split
    | (intro h; injection h with h; subst h)
    | (intro h; cases h; done)
    | (with_reducible apply Dev.keeps_tr (Dev.onLay_keeps ..); case hl => decide)
    | (with_reducible apply Dev.keeps_tr (Dev.takeCells_keeps ..); case hl => decide)
    | (with_reducible apply Dev.keeps_tr (Dev.takeCells_keeps' (by assumption)); case hl => decide)

theorem Dev.retryOne_keeps (d : Dev) {e : Dev} (hE : d.retryOne = some e) : Dev.keeps [.out, .ctr, .lay, .path, .brd] d e := by
  unfold Dev.retryOne at hE
  obtain ⟨x, -, hx⟩ := List.exists_of_findSome?_eq_some hE
  rw [Option.map_eq_some_iff] at hx
  obtain ⟨y, hy, rfl⟩ := hx
  with_reducible apply Dev.keeps_tr (Dev.onPath_keeps ..); case hl => decide
  with_reducible apply Dev.keeps_tr (Dev.admitInject_keeps _ _ _ hy); case hl => decide
  exact Dev.keeps_refl _ _
theorem Dev.retryInject_keeps  (fuel : Nat) (d : Dev) : Dev.keeps [.out, .ctr, .lay, .path, .brd] d (Dev.retryInject  fuel d) := by
  induction fuel generalizing d with
  | zero => exact Dev.keeps_refl _ _
  | succ fuel ih =>
  unfold Dev.retryInject
  repeat' first
    | with_reducible apply Dev.keeps_refl
    | with_reducible assumption
    | dsimp only
    | split
    | (with_reducible apply Dev.keeps_tr (Dev.retryOne_keeps (hE := by assumption) ..); case hl => decide)
    | (with_reducible apply Dev.keeps_tr (ih ..); case hl => decide)

theorem Dev.injectFrame_keeps (lay : Nat) (j : Inject) (d : Dev) : Dev.keeps [.out, .ctr, .lay, .path, .brd] d (d.injectFrame lay j) := by
  unfold Dev.injectFrame
  refine Dev.keeps_trans (l := [.out, .ctr, .lay, .path, .brd]) (b := d.retryInject 4096) (by with_reducible apply Dev.keeps_tr (Dev.retryInject_keeps ..); (case hl => decide); exact Dev.keeps_refl _ _) ?_
  generalize d.retryInject 4096 = e
  dsimp only
  split
  · rename_i h; revert h; split
    · nofun
    · intro h
      with_reducible apply Dev.keeps_tr (Dev.admitInject_keeps _ _ _ h); case hl => decide
      exact Dev.keeps_refl _ _
  · with_reducible apply Dev.keeps_tr (Dev.bump_keeps ..); case hl => decide
    with_reducible apply Dev.keeps_tr (Dev.onPath_keeps ..); case hl => decide
    exact Dev.keeps_refl _ _
theorem Dev.touchConn_keeps (c : Nat) (d : Dev) : Dev.keeps [.ctr, .rdm] d (Dev.touchConn c d) := by
  unfold Dev.touchConn
  repeat' first
    | with_reducible apply Dev.keeps_refl
    | with_reducible assumption
    | dsimp only
    | split
    | (with_reducible apply Dev.keeps_tr (Dev.bumpIf_keeps ..); case hl => decide)
    | (with_reducible apply Dev.keeps_tr (Dev.onRdm_keeps ..); case hl => decide)

theorem Dev.rdmaSend_keeps (c : Nat) (k : RSend) (psn epoch : Nat) (payload : List Byte) (d : Dev) : Dev.keeps [.out, .ctr, .lay, .path, .brd, .rdm] d (Dev.rdmaSend c k psn epoch payload d) := by
  unfold Dev.rdmaSend
  repeat' first
    | with_reducible apply Dev.keeps_refl
    | with_reducible assumption
    | dsimp only
    | split
    | (with_reducible apply Dev.keeps_tr (Dev.injectFrame_keeps ..); case hl => decide)
    | (with_reducible apply Dev.keeps_tr (Dev.onConn_keeps ..); case hl => decide)
    | (with_reducible apply Dev.keeps_tr (Dev.send_keeps ..); case hl => decide)
    | (with_reducible apply Dev.keeps_tr (Dev.touchConn_keeps ..); case hl => decide)

theorem Dev.sendReq_keeps (c : Nat) (r : RReq) (payload : List Byte) (d : Dev) : Dev.keeps [.out, .ctr, .lay, .path, .brd, .rdm] d (Dev.sendReq c r payload d) := by
  unfold Dev.sendReq
  repeat' first
    | with_reducible apply Dev.keeps_refl
    | with_reducible assumption
    | dsimp only
    | split
    | (with_reducible apply Dev.keeps_tr (Dev.rdmaSend_keeps ..); case hl => decide)
    | (with_reducible apply Dev.keeps_fold_tr; case' hf => intro _ _)

theorem Dev.postReq_keeps (c part : Nat) (payload : List Byte) (d : Dev) : Dev.keeps [.out, .ctr, .lay, .path, .brd, .rdm] d (Dev.postReq c part payload d) := by
  unfold Dev.postReq
  repeat' first
    | with_reducible apply Dev.keeps_refl
    | with_reducible assumption
    | dsimp only
    | split
    | (with_reducible apply Dev.keeps_tr (Dev.onConn_keeps ..); case hl => decide)
    | (with_reducible apply Dev.keeps_tr (Dev.sendReq_keeps ..); case hl => decide)

theorem Dev.issuePart_keeps (c : Cmd) (p : Part) (d : Dev) : Dev.keeps [.drawn, .out, .ctr, .lay, .path, .brd, .rdm, .sto] d (Dev.issuePart c p d) := by
  unfold Dev.issuePart
  repeat' first
    | with_reducible apply Dev.keeps_refl
    | with_reducible assumption
    | dsimp only
    | split
    | (with_reducible apply Dev.keeps_tr (Dev.draw_keeps ..); case hl => decide)
    | (with_reducible apply Dev.keeps_tr (Dev.onPart_keeps ..); case hl => decide)
    | (with_reducible apply Dev.keeps_tr (Dev.postReq_keeps ..); case hl => decide)
    | (with_reducible apply Dev.keeps_tr (Dev.sendGated_keeps ..); case hl => decide)
    | (with_reducible apply Dev.keeps_optmap; case' h => intro _ _)

theorem Dev.losePart_keeps (c st : Nat) (e : Cmd × Part) (d : Dev) : Dev.keeps [.drawn, .out, .ctr, .hif, .lay, .path, .log, .brd, .rdm, .sto] d (Dev.losePart c st e d) := by
  unfold Dev.losePart
  repeat' first
    | with_reducible apply Dev.keeps_refl
    | with_reducible assumption
    | dsimp only
    | split
    | (with_reducible apply Dev.keeps_tr (Dev.bump_keeps ..); case hl => decide)
    | (with_reducible apply Dev.keeps_tr (Dev.endPart_keeps ..); case hl => decide)
    | (with_reducible apply Dev.keeps_tr (Dev.finishCmd_keeps ..); case hl => decide)
    | (with_reducible apply Dev.keeps_tr (Dev.issuePart_keeps ..); case hl => decide)
    | (with_reducible apply Dev.keeps_tr (Dev.onPart_keeps ..); case hl => decide)

theorem Dev.loseConn_keeps (c st : Nat) (d : Dev) : Dev.keeps [.drawn, .out, .ctr, .hif, .lay, .path, .log, .brd, .rdm, .sto] d (Dev.loseConn c st d) := by
  unfold Dev.loseConn
  repeat' first
    | with_reducible apply Dev.keeps_refl
    | with_reducible assumption
    | dsimp only
    | split
    | (with_reducible apply Dev.keeps_tr (Dev.losePart_keeps ..); case hl => decide)
    | (with_reducible apply Dev.keeps_fold_tr; case' hf => intro _ _)

theorem Dev.connError_keeps (c st : Nat) (d : Dev) : Dev.keeps [.drawn, .out, .ctr, .hif, .lay, .path, .log, .brd, .rdm, .sto] d (Dev.connError c st d) := by
  unfold Dev.connError
  repeat' first
    | with_reducible apply Dev.keeps_refl
    | with_reducible assumption
    | dsimp only
    | split
    | (with_reducible apply Dev.keeps_tr (Dev.bump_keeps ..); case hl => decide)
    | (with_reducible apply Dev.keeps_tr (Dev.loseConn_keeps ..); case hl => decide)
    | (with_reducible apply Dev.keeps_tr (Dev.onConn_keeps ..); case hl => decide)

theorem Dev.contextBad_keeps (c : Nat) (d : Dev) : Dev.keeps [.drawn, .out, .ctr, .hif, .lay, .path, .log, .brd, .rdm, .sto] d (Dev.contextBad c d) := by
  unfold Dev.contextBad
  repeat' first
    | with_reducible apply Dev.keeps_refl
    | with_reducible assumption
    | dsimp only
    | split
    | (with_reducible apply Dev.keeps_tr (Dev.bump_keeps ..); case hl => decide)
    | (with_reducible apply Dev.keeps_tr (Dev.connError_keeps ..); case hl => decide)

theorem Dev.recordLost_keeps (k : Nat) (d : Dev) : Dev.keeps [.ctr, .spl] d (Dev.recordLost k d) := by
  unfold Dev.recordLost
  repeat' first
    | with_reducible apply Dev.keeps_refl
    | with_reducible assumption
    | dsimp only
    | split
    | (with_reducible apply Dev.keeps_tr (Dev.bump_keeps ..); case hl => decide)
    | (with_reducible first | (apply Dev.keeps_up_spl; case hx => decide))

theorem Dev.readBad_keeps (r : DReq) (ch : Nat) (mirrorBad : Bool) (d : Dev) : Dev.keeps [.drawn, .out, .ctr, .spl, .hif, .lay, .path, .log, .brd, .dmc, .rdm, .sto] d (Dev.readBad r ch mirrorBad d) := by
  unfold Dev.readBad
  repeat' first
    | with_reducible apply Dev.keeps_refl
    | with_reducible assumption
    | dsimp only
    | split
    | (with_reducible apply Dev.keeps_tr (Dev.bump_keeps ..); case hl => decide)
    | (with_reducible apply Dev.keeps_tr (Dev.contextBad_keeps ..); case hl => decide)
    | (with_reducible apply Dev.keeps_tr (Dev.mapBad_keeps ..); case hl => decide)
    | (with_reducible apply Dev.keeps_tr (Dev.onDmc_keeps ..); case hl => decide)
    | (with_reducible apply Dev.keeps_tr (Dev.recordLost_keeps ..); case hl => decide)

theorem Dev.doorbell_keeps (q v : Nat) (f : Qp → Nat → Option Qp) (d : Dev) : Dev.keeps [.ctr, .hif] d (Dev.doorbell q v f d) := by
  unfold Dev.doorbell
  repeat' first
    | with_reducible apply Dev.keeps_refl
    | with_reducible assumption
    | dsimp only
    | split
    | (with_reducible apply Dev.keeps_tr (Dev.bump_keeps ..); case hl => decide)
    | (with_reducible apply Dev.keeps_tr (Dev.onQp_keeps ..); case hl => decide)

theorem Dev.rateHold_keeps (q : Nat) (d : Dev) : Dev.keeps [.ctr, .hif] d (Dev.rateHold q d) := by
  unfold Dev.rateHold
  repeat' first
    | with_reducible apply Dev.keeps_refl
    | with_reducible assumption
    | dsimp only
    | split
    | (with_reducible apply Dev.keeps_tr (Dev.bump_keeps ..); case hl => decide)
    | (with_reducible apply Dev.keeps_tr (Dev.onQp_keeps ..); case hl => decide)

theorem Dev.takeTags_keeps (s n : Nat) (d : Dev) : Dev.keeps [.hif] d (Dev.takeTags s n d) := by
  unfold Dev.takeTags
  repeat' first
    | with_reducible apply Dev.keeps_refl
    | with_reducible assumption
    | dsimp only
    | split
    | (with_reducible first | (apply Dev.keeps_up_hif; case hx => decide))

theorem Dev.fetched_keeps (q : Nat) (bs : List Byte) (d : Dev) : Dev.keeps [.hif] d (Dev.fetched q bs d) := by
  unfold Dev.fetched
  repeat' first
    | with_reducible apply Dev.keeps_refl
    | with_reducible assumption
    | dsimp only
    | split
    | (with_reducible apply Dev.keeps_tr (Dev.complete_keeps ..); case hl => decide)
    | (with_reducible apply Dev.keeps_tr (Dev.onQp_keeps ..); case hl => decide)
    | (with_reducible apply Dev.keeps_tr (Dev.takeTags_keeps ..); case hl => decide)

theorem Dev.onHif_keeps (f : Hif → Hif) (d : Dev) : Dev.keeps [.hif] d (Dev.onHif f d) := by
  unfold Dev.onHif
  repeat' first
    | with_reducible apply Dev.keeps_refl
    | with_reducible assumption
    | dsimp only
    | split
    | (with_reducible first | (apply Dev.keeps_up_hif; case hx => decide))

theorem Dev.tagTaken_keeps (w : Nat) (d : Dev) : Dev.keeps [.hif] d (Dev.tagTaken w d) := by
  unfold Dev.tagTaken
  repeat' first
    | with_reducible apply Dev.keeps_refl
    | with_reducible assumption
    | dsimp only
    | split
    | (with_reducible first | (apply Dev.keeps_up_hif; case hx => decide))

theorem Dev.fetchN_keeps (q n : Nat) (given : List (List Byte)) (d : Dev) : Dev.keeps [.out, .hif, .slc] d (Dev.fetchN q n given d) := by
  unfold Dev.fetchN
  repeat' first
    | with_reducible apply Dev.keeps_refl
    | with_reducible assumption
    | dsimp only
    | split
    | (with_reducible apply Dev.keeps_tr (Dev.debitSlice_keeps ..); case hl => decide)
    | (with_reducible apply Dev.keeps_tr (Dev.fetched_keeps ..); case hl => decide)
    | (with_reducible apply Dev.keeps_tr (Dev.onHif_keeps ..); case hl => decide)
    | (with_reducible apply Dev.keeps_tr (Dev.onQp_keeps ..); case hl => decide)
    | (with_reducible apply Dev.keeps_tr (Dev.send_keeps ..); case hl => decide)
    | (with_reducible apply Dev.keeps_tr (Dev.tagTaken_keeps ..); case hl => decide)
    | (with_reducible apply Dev.keeps_fold_tr; case' hf => intro _ _)
    | (with_reducible apply Dev.keeps_optmap; case' h => intro _ _)

theorem Dev.resetCredits_keeps (e : Nat) (d : Dev) : Dev.keeps [.hif] d (Dev.resetCredits e d) := by
  unfold Dev.resetCredits
  repeat' first
    | with_reducible apply Dev.keeps_refl
    | with_reducible assumption
    | dsimp only
    | split
    | (with_reducible apply Dev.keeps_tr (Dev.onHif_keeps ..); case hl => decide)
    | (with_reducible apply Dev.keeps_tr (Dev.onQp_keeps ..); case hl => decide)
    | (with_reducible apply Dev.keeps_fold_tr; case' hf => intro _ _)

theorem Dev.postBuf_keeps (q id addr len : Nat) (d : Dev) : Dev.keeps [.hif] d (Dev.postBuf q id addr len d) := by
  unfold Dev.postBuf
  repeat' first
    | with_reducible apply Dev.keeps_refl
    | with_reducible assumption
    | dsimp only
    | split
    | (with_reducible apply Dev.keeps_tr (Dev.onQp_keeps ..); case hl => decide)
    | (with_reducible apply Dev.keeps_tr (Dev.startDesc_keeps ..); case hl => decide)

theorem Dev.evt_keeps (n : Nat) (high : Bool) (d : Dev) : Dev.keeps [.out] d (Dev.evt n high d) := by
  unfold Dev.evt
  repeat' first
    | with_reducible apply Dev.keeps_refl
    | with_reducible assumption
    | dsimp only
    | split
    | (with_reducible apply Dev.keeps_tr (Dev.send_keeps ..); case hl => decide)

theorem Dev.onHp_keeps (n : Nat) (f : HostPort → HostPort) (d : Dev) : Dev.keeps [.hif] d (Dev.onHp n f d) := by
  unfold Dev.onHp
  repeat' first
    | with_reducible apply Dev.keeps_refl
    | with_reducible assumption
    | dsimp only
    | split
    | (with_reducible first | (apply Dev.keeps_up_hif; case hx => decide))

theorem Dev.hpDown_keeps (n : Nat) (d : Dev) : Dev.keeps [.out, .hif] d (Dev.hpDown n d) := by
  unfold Dev.hpDown
  repeat' first
    | with_reducible apply Dev.keeps_refl
    | with_reducible assumption
    | dsimp only
    | split
    | (with_reducible apply Dev.keeps_tr (Dev.evt_keeps ..); case hl => decide)
    | (with_reducible apply Dev.keeps_tr (Dev.onHp_keeps ..); case hl => decide)

theorem Dev.dropCmd_keeps (q : Nat) (desc : Option Nat) (d : Dev) : Dev.keeps [.sto] d (Dev.dropCmd q desc d) := by
  unfold Dev.dropCmd
  repeat' first
    | with_reducible apply Dev.keeps_refl
    | with_reducible assumption
    | dsimp only
    | split
    | (with_reducible first | (apply Dev.keeps_up_sto; case hx => decide))

theorem Dev.discardCpl_keeps (q : Nat) (c : Cpl) (rest : List Cpl) (d : Dev) : Dev.keeps [.hif, .sto] d (Dev.discardCpl q c rest d) := by
  unfold Dev.discardCpl
  repeat' first
    | with_reducible apply Dev.keeps_refl
    | with_reducible assumption
    | dsimp only
    | split
    | (with_reducible apply Dev.keeps_tr (Dev.dropCmd_keeps ..); case hl => decide)
    | (with_reducible apply Dev.keeps_tr (Dev.freeTags_keeps ..); case hl => decide)
    | (with_reducible apply Dev.keeps_tr (Dev.onQp_keeps ..); case hl => decide)

theorem Dev.idleQp_keeps (q : Nat) (d : Dev) : Dev.keeps [.ctr, .hif, .sto] d (Dev.idleQp q d) := by
  unfold Dev.idleQp
  repeat' first
    | with_reducible apply Dev.keeps_refl
    | with_reducible assumption
    | dsimp only
    | split
    | (with_reducible apply Dev.keeps_tr (Dev.add_keeps ..); case hl => decide)
    | (with_reducible apply Dev.keeps_tr (Dev.discardCpl_keeps ..); case hl => decide)
    | (with_reducible apply Dev.keeps_tr (Dev.onQp_keeps ..); case hl => decide)
    | (with_reducible apply Dev.keeps_fold_tr; case' hf => intro _ _)

theorem Dev.message_keeps (q : Nat) (d : Dev) : Dev.keeps [.out, .ctr, .hif] d (Dev.message q d) := by
  unfold Dev.message
  repeat' first
    | with_reducible apply Dev.keeps_refl
    | with_reducible assumption
    | dsimp only
    | split
    | (with_reducible apply Dev.keeps_tr (Dev.bump_keeps ..); case hl => decide)
    | (with_reducible apply Dev.keeps_tr (Dev.onFn_keeps ..); case hl => decide)
    | (with_reducible apply Dev.keeps_tr (Dev.onHp_keeps ..); case hl => decide)
    | (with_reducible apply Dev.keeps_tr (Dev.onQp_keeps ..); case hl => decide)
    | (with_reducible apply Dev.keeps_tr (Dev.send_keeps ..); case hl => decide)

theorem Dev.sendPending_keeps (k v : Nat) (d : Dev) : Dev.keeps [.out, .ctr, .hif] d (Dev.sendPending k v d) := by
  unfold Dev.sendPending
  repeat' first
    | with_reducible apply Dev.keeps_refl
    | with_reducible assumption
    | dsimp only
    | split
    | (with_reducible apply Dev.keeps_tr (Dev.message_keeps ..); case hl => decide)
    | (with_reducible apply Dev.keeps_tr (Dev.vector_keeps ..); case hl => decide)

theorem Dev.unmask_keeps (k v : Nat) (d : Dev) : Dev.keeps [.out, .ctr, .hif] d (Dev.unmask k v d) := by
  unfold Dev.unmask
  repeat' first
    | with_reducible apply Dev.keeps_refl
    | with_reducible assumption
    | dsimp only
    | split
    | (with_reducible apply Dev.keeps_tr (Dev.onFn_keeps ..); case hl => decide)
    | (with_reducible apply Dev.keeps_tr (Dev.sendPending_keeps ..); case hl => decide)

theorem Dev.logIns_keeps (p : Prog) (i : Ins) (st ns : Nat) (d : Dev) : Dev.keeps [.out, .ctr, .spl, .hif, .mem, .cap, .slc] d (Dev.logIns p i st ns d) := by
  unfold Dev.logIns
  repeat' first
    | with_reducible apply Dev.keeps_refl
    | with_reducible assumption
    | dsimp only
    | split
    | (with_reducible apply Dev.keeps_tr (Dev.append_keeps ..); case hl => decide)

theorem Dev.onProg_keeps (p : Nat) (f : Prog → Prog) (d : Dev) : Dev.keeps [.spl] d (Dev.onProg p f d) := by
  unfold Dev.onProg
  repeat' first
    | with_reducible apply Dev.keeps_refl
    | with_reducible assumption
    | dsimp only
    | split
    | (with_reducible apply Dev.keeps_tr (Dev.onSpl_keeps ..); case hl => decide)

theorem Dev.endWait_keeps (p st : Nat) (d : Dev) : Dev.keeps [.out, .ctr, .spl, .hif, .mem, .cap, .slc] d (Dev.endWait p st d) := by
  unfold Dev.endWait
  repeat' first
    | with_reducible apply Dev.keeps_refl
    | with_reducible assumption
    | dsimp only
    | split
    | (with_reducible apply Dev.keeps_tr (Dev.logIns_keeps ..); case hl => decide)
    | (with_reducible apply Dev.keeps_tr (Dev.onProg_keeps ..); case hl => decide)

theorem Dev.endWaits_keeps (t : SpWait → Bool) (st : Nat) (d : Dev) : Dev.keeps [.out, .ctr, .spl, .hif, .mem, .cap, .slc] d (Dev.endWaits t st d) := by
  unfold Dev.endWaits
  repeat' first
    | with_reducible apply Dev.keeps_refl
    | with_reducible assumption
    | dsimp only
    | split
    | (with_reducible apply Dev.keeps_tr (Dev.endWait_keeps ..); case hl => decide)
    | (with_reducible apply Dev.keeps_fold_tr; case' hf => intro _ _)

theorem Dev.addReset_keeps (target t : Nat) (d : Dev) : Dev.keeps [.brd] d (Dev.addReset target t d) := by
  unfold Dev.addReset
  repeat' first
    | with_reducible apply Dev.keeps_refl
    | with_reducible assumption
    | dsimp only
    | split
    | (with_reducible apply Dev.keeps_tr (Dev.onBrd_keeps ..); case hl => decide)

theorem Dev.transitLink_keeps (k : Nat) (h : BraidHdr) (r : Resolved) (d : Dev) : Dev.keeps [.out, .ctr, .hif, .shd, .path, .log, .brd, .mem, .cap, .slc] d (Dev.transitLink k h r d) := by
  unfold Dev.transitLink
  repeat' first
    | with_reducible apply Dev.keeps_refl
    | with_reducible assumption
    | dsimp only
    | split
    | (with_reducible apply Dev.keeps_tr (Dev.bump_keeps ..); case hl => decide)
    | (with_reducible apply Dev.keeps_tr (Dev.freeAll_keeps ..); case hl => decide)
    | (with_reducible apply Dev.keeps_tr (Dev.giveFate_keeps ..); case hl => decide)
    | (with_reducible apply Dev.keeps_tr (Dev.linkAll1_keeps ..); case hl => decide)
    | (with_reducible apply Dev.keeps_tr (Dev.nextHop_keeps ..); case hl => decide)
    | (with_reducible apply Dev.keeps_tr (Dev.nextHop_keeps' (by assumption)); case hl => decide)
    | (with_reducible apply Dev.keeps_tr (Dev.onPkt_keeps ..); case hl => decide)

theorem Dev.macsecOk_keeps (port : Nat) (sas : Map Sa) (sec : Option SecTag) (bytes : List Byte) (d : Dev) : Dev.keeps [.ctr, .she] d (Dev.macsecOk port sas sec bytes d).1 := by
  unfold Dev.macsecOk
  repeat' first
    | with_reducible apply Dev.keeps_refl
    | with_reducible assumption
    | dsimp only
    | split
    | (with_reducible apply Dev.keeps_tr (Dev.macsecRx_keeps ..); case hl => decide)
    | (with_reducible apply Dev.keeps_tr (Dev.macsecRx_keeps' (by assumption)); case hl => decide)

theorem Dev.macsecOk_keeps' {port : Nat} {sas : Map Sa} {sec : Option SecTag} {bytes : List Byte} {d : Dev} {e : Dev} {y} (hE : Dev.macsecOk port sas sec bytes d = (e, y)) : Dev.keeps [.ctr, .she] d e := by
  have k := Dev.macsecOk_keeps port sas sec bytes d; rw [hE] at k; exact k
theorem Dev.peaks_keeps (k : Nat) (d : Dev) : Dev.keeps [.path] d (Dev.peaks k d) := by
  unfold Dev.peaks
  repeat' first
    | with_reducible apply Dev.keeps_refl
    | with_reducible assumption
    | dsimp only
    | split
    | (with_reducible apply Dev.keeps_tr (Dev.onPath_keeps ..); case hl => decide)
    | (with_reducible apply Dev.keeps_fold_tr; case' hf => intro _ _)

theorem Dev.takeIn_keeps (k n share : Nat) (d : Dev) : Dev.keeps [.out, .ctr, .path, .brd] d (Dev.takeIn k n share d).1 := by
  unfold Dev.takeIn
  repeat' first
    | with_reducible apply Dev.keeps_refl
    | with_reducible assumption
    | dsimp only
    | split
    | (with_reducible apply Dev.keeps_tr (Dev.countDraw_keeps ..); case hl => decide)
    | (with_reducible apply Dev.keeps_tr (Dev.onPkt_keeps ..); case hl => decide)
    | (with_reducible apply Dev.keeps_tr (Dev.peaks_keeps ..); case hl => decide)
    | (with_reducible apply Dev.keeps_tr (Dev.takeCells_keeps ..); case hl => decide)
    | (with_reducible apply Dev.keeps_tr (Dev.takeCells_keeps' (by assumption)); case hl => decide)

theorem Dev.takeIn_keeps' {k n share : Nat} {d : Dev} {e : Dev} {y} (hE : Dev.takeIn k n share d = (e, y)) : Dev.keeps [.out, .ctr, .path, .brd] d e := by
  have k := Dev.takeIn_keeps k n share d; rw [hE] at k; exact k
theorem Dev.transitIn_keeps (port : Nat) (h : BraidHdr) (n : Nat) (r : Resolved) (bytes : List Byte) (rxLen : Nat) (fcsBad : Bool) (sec : Option SecTag) (d : Dev) : Dev.keeps [.out, .ctr, .hif, .shd, .path, .log, .brd, .mem, .cap, .she, .slc] d (Dev.transitIn port h n r bytes rxLen fcsBad sec d) := by
  unfold Dev.transitIn
  repeat' first
    | with_reducible apply Dev.keeps_refl
    | with_reducible assumption
    | dsimp only
    | split
    | (with_reducible apply Dev.keeps_tr (Dev.enterShade_keeps ..); case hl => decide)
    | (with_reducible apply Dev.keeps_tr (Dev.fault_keeps ..); case hl => decide)
    | (with_reducible apply Dev.keeps_tr (Dev.macsecOk_keeps ..); case hl => decide)
    | (with_reducible apply Dev.keeps_tr (Dev.macsecOk_keeps' (by assumption)); case hl => decide)
    | (with_reducible apply Dev.keeps_tr (Dev.newPkt_keeps ..); case hl => decide)
    | (with_reducible apply Dev.keeps_tr (Dev.takeIn_keeps ..); case hl => decide)
    | (with_reducible apply Dev.keeps_tr (Dev.takeIn_keeps' (by assumption)); case hl => decide)
    | (with_reducible apply Dev.keeps_tr (Dev.transitLink_keeps ..); case hl => decide)

theorem Dev.badHeader_keeps (port : Nat) (bytes : List Byte) (rxLen : Nat) (d : Dev) : Dev.keeps [.out, .ctr, .hif, .shd, .path, .log, .brd, .mem, .cap, .slc] d (Dev.badHeader port bytes rxLen d) := by
  unfold Dev.badHeader
  repeat' first
    | with_reducible apply Dev.keeps_refl
    | with_reducible assumption
    | dsimp only
    | split
    | (with_reducible apply Dev.keeps_tr (Dev.bump_keeps ..); case hl => decide)
    | (with_reducible apply Dev.keeps_tr (Dev.fault_keeps ..); case hl => decide)
    | (with_reducible apply Dev.keeps_tr (Dev.newPkt_keeps ..); case hl => decide)

theorem Dev.countRx_keeps (port rxLen : Nat) (d : Dev) : Dev.keeps [.ctr, .brd] d (Dev.countRx port rxLen d) := by
  unfold Dev.countRx
  repeat' first
    | with_reducible apply Dev.keeps_refl
    | with_reducible assumption
    | dsimp only
    | split
    | (with_reducible apply Dev.keeps_tr (Dev.bump_keeps ..); case hl => decide)
    | (with_reducible apply Dev.keeps_tr (Dev.onLink_keeps ..); case hl => decide)

theorem Dev.arrive_keeps (port : Nat) (bytes : List Byte) (rxLen : Nat) (fcsBad : Bool) (sec : Option SecTag) (d : Dev) : Dev.keeps [.out, .ctr, .hif, .shd, .path, .log, .brd, .mem, .cap, .she, .slc] d (Dev.arrive port bytes rxLen fcsBad sec d) := by
  unfold Dev.arrive
  repeat' first
    | with_reducible apply Dev.keeps_refl
    | with_reducible assumption
    | dsimp only
    | split
    | (with_reducible apply Dev.keeps_tr (Dev.fault_keeps ..); case hl => decide)
    | (with_reducible apply Dev.keeps_tr (Dev.macsecOk_keeps ..); case hl => decide)
    | (with_reducible apply Dev.keeps_tr (Dev.macsecOk_keeps' (by assumption)); case hl => decide)
    | (with_reducible apply Dev.keeps_tr (Dev.newPkt_keeps ..); case hl => decide)
    | (with_reducible apply Dev.keeps_tr (Dev.takeIn_keeps ..); case hl => decide)
    | (with_reducible apply Dev.keeps_tr (Dev.takeIn_keeps' (by assumption)); case hl => decide)

theorem Dev.dataIn_keeps (port : Nat) (h : BraidHdr) (bytes : List Byte) (rxLen : Nat) (fcsBad : Bool) (sec : Option SecTag) (d : Dev) : Dev.keeps [.out, .ctr, .hif, .shd, .path, .log, .brd, .mem, .cap, .she, .slc] d (Dev.dataIn port h bytes rxLen fcsBad sec d) := by
  unfold Dev.dataIn
  repeat' first
    | with_reducible apply Dev.keeps_refl
    | with_reducible assumption
    | dsimp only
    | split
    | (with_reducible apply Dev.keeps_tr (Dev.arrive_keeps ..); case hl => decide)
    | (with_reducible apply Dev.keeps_tr (Dev.bumpIf_keeps ..); case hl => decide)
    | (with_reducible apply Dev.keeps_tr (Dev.onLink_keeps ..); case hl => decide)
    | (with_reducible apply Dev.keeps_tr (Dev.transitIn_keeps ..); case hl => decide)
    | (with_reducible apply Dev.keeps_optmap; case' h => intro _ _)

theorem Dev.endLease_keeps (port : Nat) (d : Dev) : Dev.keeps [.out, .brd] d (Dev.endLease port d) := by
  unfold Dev.endLease
  repeat' first
    | with_reducible apply Dev.keeps_refl
    | with_reducible assumption
    | dsimp only
    | split
    | (with_reducible apply Dev.keeps_tr (Dev.onBrd_keeps ..); case hl => decide)
    | (with_reducible apply Dev.keeps_tr (Dev.onLink_keeps ..); case hl => decide)
    | (with_reducible apply Dev.keeps_tr (Dev.toNode_keeps ..); case hl => decide)

theorem Dev.sendCopy_keeps (p : Pkt) (x : Copy) (mac : MacTx) (stomp : Bool) (d : Dev) : Dev.keeps [.out] d (Dev.sendCopy p x mac stomp d) := by
  unfold Dev.sendCopy
  repeat' first
    | with_reducible apply Dev.keeps_refl
    | with_reducible assumption
    | dsimp only
    | split
    | (with_reducible apply Dev.keeps_tr (Dev.send_keeps ..); case hl => decide)

theorem Dev.finishSending_keeps (k : Nat) (d : Dev) : Dev.keeps [.out, .ctr, .hif, .shd, .path, .log, .brd, .mem, .cap, .slc] d (Dev.finishSending k d) := by
  unfold Dev.finishSending
  repeat' first
    | with_reducible apply Dev.keeps_refl
    | with_reducible assumption
    | dsimp only
    | split
    | (with_reducible apply Dev.keeps_tr (Dev.endCopy_keeps ..); case hl => decide)
    | (with_reducible apply Dev.keeps_tr (Dev.sendCopy_keeps ..); case hl => decide)
    | (with_reducible apply Dev.keeps_fold_tr; case' hf => intro _ _)

theorem Dev.countData_keeps (port : Nat) (d : Dev) : Dev.keeps [.ctr, .brd] d (Dev.countData port d) := by
  unfold Dev.countData
  repeat' first
    | with_reducible apply Dev.keeps_refl
    | with_reducible assumption
    | dsimp only
    | split
    | (with_reducible apply Dev.keeps_tr (Dev.bump_keeps ..); case hl => decide)
    | (with_reducible apply Dev.keeps_tr (Dev.onLink_keeps ..); case hl => decide)

theorem Dev.lineSent_keeps (k c port : Nat) (d : Dev) : Dev.keeps [.path] d (Dev.lineSent k c port d) := by
  unfold Dev.lineSent
  repeat' first
    | with_reducible apply Dev.keeps_refl
    | with_reducible assumption
    | dsimp only
    | split
    | (with_reducible apply Dev.keeps_tr (Dev.onPath_keeps ..); case hl => decide)

theorem Dev.sendStomped_keeps (k : Nat) (d : Dev) : Dev.keeps [.out, .ctr, .path, .brd, .she] d (Dev.sendStomped k d) := by
  unfold Dev.sendStomped
  repeat' first
    | with_reducible apply Dev.keeps_refl
    | with_reducible assumption
    | dsimp only
    | split
    | (with_reducible apply Dev.keeps_tr (Dev.countData_keeps ..); case hl => decide)
    | (with_reducible apply Dev.keeps_tr (Dev.lineSent_keeps ..); case hl => decide)
    | (with_reducible apply Dev.keeps_tr (Dev.macsecTx_keeps ..); case hl => decide)
    | (with_reducible apply Dev.keeps_tr (Dev.macsecTx_keeps' (by assumption)); case hl => decide)
    | (with_reducible apply Dev.keeps_tr (Dev.sendCopy_keeps ..); case hl => decide)
    | (with_reducible apply Dev.keeps_fold_tr; case' hf => intro _ _)

theorem Dev.frameEnd_keeps (k : Nat) (bytes : List Byte) (rxLen : Nat) (fcsBad : Bool) (sec : Option SecTag) (d : Dev) : Dev.keeps [.pclk, .out, .ctr, .reel, .hif, .lay, .shd, .path, .tbl, .log, .brd, .mem, .cap, .rdm, .she, .slc] d (Dev.frameEnd k bytes rxLen fcsBad sec d).1 := by
  unfold Dev.frameEnd
  repeat' first
    | with_reducible apply Dev.keeps_refl
    | with_reducible assumption
    | dsimp only
    | split
    | (with_reducible apply Dev.keeps_tr (Dev.endCharges_keeps ..); case hl => decide)
    | (with_reducible apply Dev.keeps_tr (Dev.endCopyCharge_keeps ..); case hl => decide)
    | (with_reducible apply Dev.keeps_tr (Dev.fault_keeps ..); case hl => decide)
    | (with_reducible apply Dev.keeps_tr (Dev.finishSending_keeps ..); case hl => decide)
    | (with_reducible apply Dev.keeps_tr (Dev.flushLog_keeps ..); case hl => decide)
    | (with_reducible apply Dev.keeps_tr (Dev.freeIfDone_keeps ..); case hl => decide)
    | (with_reducible apply Dev.keeps_tr (Dev.hostAtEnd_keeps ..); case hl => decide)
    | (with_reducible apply Dev.keeps_tr (Dev.lineEnd_keeps ..); case hl => decide)
    | (with_reducible apply Dev.keeps_tr (Dev.macsecOk_keeps ..); case hl => decide)
    | (with_reducible apply Dev.keeps_tr (Dev.macsecOk_keeps' (by assumption)); case hl => decide)
    | (with_reducible apply Dev.keeps_tr (Dev.onPkt_keeps ..); case hl => decide)
    | (with_reducible apply Dev.keeps_tr (Dev.sendStomped_keeps ..); case hl => decide)
    | (with_reducible apply Dev.keeps_tr (Dev.settle_keeps ..); case hl => decide)
    | (with_reducible apply Dev.keeps_tr (Dev.takeIn_keeps ..); case hl => decide)
    | (with_reducible apply Dev.keeps_tr (Dev.takeIn_keeps' (by assumption)); case hl => decide)
    | (with_reducible apply Dev.keeps_fold_tr; case' hf => intro _ _)

theorem Dev.frameEnd_keeps' {k : Nat} {bytes : List Byte} {rxLen : Nat} {fcsBad : Bool} {sec : Option SecTag} {d : Dev} {e : Dev} {y} (hE : Dev.frameEnd k bytes rxLen fcsBad sec d = (e, y)) : Dev.keeps [.pclk, .out, .ctr, .reel, .hif, .lay, .shd, .path, .tbl, .log, .brd, .mem, .cap, .rdm, .she, .slc] d e := by
  have k := Dev.frameEnd_keeps k bytes rxLen fcsBad sec d; rw [hE] at k; exact k
theorem Dev.portSources_keeps (p : Nat) (d : Dev) : Dev.keeps [.reel] d (Dev.portSources p d) := by
  unfold Dev.portSources
  repeat' first
    | with_reducible apply Dev.keeps_refl
    | with_reducible assumption
    | dsimp only
    | split
    | (with_reducible apply Dev.keeps_tr (Dev.loseSource_keeps ..); case hl => decide)
    | (with_reducible apply Dev.keeps_tr (Dev.pickFreq_keeps ..); case hl => decide)
    | (with_reducible apply Dev.keeps_fold_tr; case' hf => intro _ _)

theorem Dev.linkLoss_keeps (port : Nat) (d : Dev) : Dev.keeps [.pclk, .out, .ctr, .reel, .spl, .hif, .lay, .shd, .path, .tbl, .log, .brd, .mem, .cap, .rdm, .she, .slc] d (Dev.linkLoss port d) := by
  unfold Dev.linkLoss
  repeat' first
    | with_reducible apply Dev.keeps_refl
    | with_reducible assumption
    | dsimp only
    | split
    | (with_reducible apply Dev.keeps_tr (Dev.add_keeps ..); case hl => decide)
    | (with_reducible apply Dev.keeps_tr (Dev.bump_keeps ..); case hl => decide)
    | (with_reducible apply Dev.keeps_tr (Dev.endCopy_keeps ..); case hl => decide)
    | (with_reducible apply Dev.keeps_tr (Dev.endLease_keeps ..); case hl => decide)
    | (with_reducible apply Dev.keeps_tr (Dev.frameEnd_keeps ..); case hl => decide)
    | (with_reducible apply Dev.keeps_tr (Dev.frameEnd_keeps' (by assumption)); case hl => decide)
    | (with_reducible apply Dev.keeps_tr (Dev.onLink_keeps ..); case hl => decide)
    | (with_reducible apply Dev.keeps_tr (Dev.portSources_keeps ..); case hl => decide)
    | (with_reducible apply Dev.keeps_tr (Dev.spoilBarriers_keeps ..); case hl => decide)
    | (with_reducible apply Dev.keeps_fold_tr; case' hf => intro _ _)

theorem Dev.release'_keeps (p : Hold → Bool) (d : Dev) : Dev.keeps [.cal] d (Dev.release' p d) := by
  unfold Dev.release'
  repeat' first
    | with_reducible apply Dev.keeps_refl
    | with_reducible assumption
    | dsimp only
    | split
    | (with_reducible apply Dev.keeps_tr (Dev.onCal_keeps ..); case hl => decide)

theorem Dev.stopCal_keeps (p : Nat) (d : Dev) : Dev.keeps [.out, .ctr, .spl, .hif, .cal, .mem, .cap, .slc] d (Dev.stopCal p d) := by
  unfold Dev.stopCal
  repeat' first
    | with_reducible apply Dev.keeps_refl
    | with_reducible assumption
    | dsimp only
    | split
    | (with_reducible apply Dev.keeps_tr (Dev.endWait_keeps ..); case hl => decide)
    | (with_reducible apply Dev.keeps_tr (Dev.release'_keeps ..); case hl => decide)
    | (with_reducible apply Dev.keeps_fold_tr; case' hf => intro _ _)

theorem Dev.downCopy_keeps (k c : Nat) (x : Copy) (d : Dev) : Dev.keeps [.out, .ctr, .hif, .shd, .path, .log, .brd, .mem, .cap, .slc] d (Dev.downCopy k c x d) := by
  unfold Dev.downCopy
  repeat' first
    | with_reducible apply Dev.keeps_refl
    | with_reducible assumption
    | dsimp only
    | split
    | (with_reducible apply Dev.keeps_tr (Dev.endCopy_keeps ..); case hl => decide)
    | (with_reducible apply Dev.keeps_tr (Dev.onCopy_keeps ..); case hl => decide)

theorem Dev.onPort_keeps (p : Nat) (f : Port → Port) (d : Dev) : Dev.keeps [.path] d (Dev.onPort p f d) := by
  unfold Dev.onPort
  repeat' first
    | with_reducible apply Dev.keeps_refl
    | with_reducible assumption
    | dsimp only
    | split
    | (with_reducible first | (apply Dev.keeps_up_path; case hx => decide))

theorem Dev.portDown_keeps (port : Nat) (d : Dev) : Dev.keeps [.out, .ctr, .hif, .shd, .path, .log, .brd, .mem, .cap, .slc] d (Dev.portDown port d) := by
  unfold Dev.portDown
  repeat' first
    | with_reducible apply Dev.keeps_refl
    | with_reducible assumption
    | dsimp only
    | split
    | (with_reducible apply Dev.keeps_tr (Dev.downCopy_keeps ..); case hl => decide)
    | (with_reducible apply Dev.keeps_tr (Dev.onPath_keeps ..); case hl => decide)
    | (with_reducible apply Dev.keeps_tr (Dev.onPort_keeps ..); case hl => decide)
    | (with_reducible apply Dev.keeps_fold_tr; case' hf => intro _ _)

theorem Dev.portGone_keeps (p : Nat) (d : Dev) : Dev.keeps [.out, .ctr, .reel, .spl, .hif, .shd, .path, .log, .brd, .cal, .mem, .cap, .slc] d (Dev.portGone p d) := by
  unfold Dev.portGone
  repeat' first
    | with_reducible apply Dev.keeps_refl
    | with_reducible assumption
    | dsimp only
    | split
    | (with_reducible apply Dev.keeps_tr (Dev.portDown_keeps ..); case hl => decide)
    | (with_reducible apply Dev.keeps_tr (Dev.portSources_keeps ..); case hl => decide)
    | (with_reducible apply Dev.keeps_tr (Dev.stopCal_keeps ..); case hl => decide)

theorem Dev.reroute_keeps (p : Pkt) (x : Copy) (d : Dev) : Dev.keeps [.brd] d (Dev.reroute p x d).2 := by
  unfold Dev.reroute
  repeat' first
    | with_reducible apply Dev.keeps_refl
    | with_reducible assumption
    | dsimp only
    | split
    | (with_reducible apply Dev.keeps_tr (Dev.nextHop_keeps ..); case hl => decide)
    | (with_reducible apply Dev.keeps_tr (Dev.nextHop_keeps' (by assumption)); case hl => decide)
    | (with_reducible apply Dev.keeps_optmap; case' h => intro _ _)

theorem Dev.reroute_keeps' {p : Pkt} {x : Copy} {d : Dev} {e : Dev} {y} (hE : Dev.reroute p x d = (y, e)) : Dev.keeps [.brd] d e := by
  have k := Dev.reroute_keeps p x d; rw [hE] at k; exact k
theorem Dev.relinkCopy_keeps (k c : Nat) (x : Copy) (d : Dev) : Dev.keeps [.out, .ctr, .hif, .shd, .path, .log, .brd, .mem, .cap, .slc] d (Dev.relinkCopy k c x d) := by
  unfold Dev.relinkCopy
  repeat' first
    | with_reducible apply Dev.keeps_refl
    | with_reducible assumption
    | dsimp only
    | split
    | (with_reducible apply Dev.keeps_tr (Dev.bump_keeps ..); case hl => decide)
    | (with_reducible apply Dev.keeps_tr (Dev.endCopy_keeps ..); case hl => decide)
    | (with_reducible apply Dev.keeps_tr (Dev.onCopy_keeps ..); case hl => decide)
    | (with_reducible apply Dev.keeps_tr (Dev.onPath_keeps ..); case hl => decide)
    | (with_reducible apply Dev.keeps_tr (Dev.reroute_keeps ..); case hl => decide)
    | (with_reducible apply Dev.keeps_tr (Dev.reroute_keeps' (by assumption)); case hl => decide)
    | (with_reducible apply Dev.keeps_tr (Dev.sub_keeps ..); case hl => decide)
    | (with_reducible apply Dev.keeps_tr (Dev.unline_keeps ..); case hl => decide)
    | (with_reducible apply Dev.keeps_tr (Dev.unqueue_keeps ..); case hl => decide)

theorem Dev.removeResidue_keeps (port : Nat) (d : Dev) : Dev.keeps [.out, .ctr, .hif, .shd, .path, .log, .brd, .mem, .cap, .slc] d (Dev.removeResidue port d) := by
  unfold Dev.removeResidue
  repeat' first
    | with_reducible apply Dev.keeps_refl
    | with_reducible assumption
    | dsimp only
    | split
    | (with_reducible apply Dev.keeps_tr (Dev.bump_keeps ..); case hl => decide)
    | (with_reducible apply Dev.keeps_tr (Dev.endCopy_keeps ..); case hl => decide)
    | (with_reducible apply Dev.keeps_tr (Dev.onPath_keeps ..); case hl => decide)
    | (with_reducible apply Dev.keeps_tr (Dev.onPort_keeps ..); case hl => decide)
    | (with_reducible apply Dev.keeps_tr (Dev.unqueue_keeps ..); case hl => decide)
    | (with_reducible apply Dev.keeps_fold_tr; case' hf => intro _ _)

theorem Dev.lossHandled_keeps (port : Nat) (d : Dev) : Dev.keeps [.out, .ctr, .reel, .spl, .hif, .shd, .path, .log, .brd, .cal, .mem, .cap, .slc] d (Dev.lossHandled port d) := by
  unfold Dev.lossHandled
  repeat' first
    | with_reducible apply Dev.keeps_refl
    | with_reducible assumption
    | dsimp only
    | split
    | (with_reducible apply Dev.keeps_tr (Dev.logEvent_keeps ..); case hl => decide)
    | (with_reducible apply Dev.keeps_tr (Dev.onLink_keeps ..); case hl => decide)
    | (with_reducible apply Dev.keeps_tr (Dev.onPort_keeps ..); case hl => decide)
    | (with_reducible apply Dev.keeps_tr (Dev.portGone_keeps ..); case hl => decide)
    | (with_reducible apply Dev.keeps_tr (Dev.relinkCopy_keeps ..); case hl => decide)
    | (with_reducible apply Dev.keeps_tr (Dev.removeResidue_keeps ..); case hl => decide)
    | (with_reducible apply Dev.keeps_fold_tr; case' hf => intro _ _)

theorem Dev.helloOn_keeps (due : Bool) (p : Nat) (d : Dev) : Dev.keeps [.out, .brd] d (Dev.helloOn due p d) := by
  unfold Dev.helloOn
  repeat' first
    | with_reducible apply Dev.keeps_refl
    | with_reducible assumption
    | dsimp only
    | split
    | (with_reducible apply Dev.keeps_tr (Dev.control_keeps ..); case hl => decide)
    | (with_reducible apply Dev.keeps_tr (Dev.onLink_keeps ..); case hl => decide)
    | (with_reducible apply Dev.keeps_tr (Dev.sendGated_keeps ..); case hl => decide)

theorem Dev.takeSlot_keeps (n : Nat) (d : Dev) : Dev.keeps [.out, .ctr, .hif, .brd, .mem, .cap, .slc] d (Dev.takeSlot n d).2 := by
  unfold Dev.takeSlot
  repeat' first
    | with_reducible apply Dev.keeps_refl
    | with_reducible assumption
    | dsimp only
    | split
    | (with_reducible apply Dev.keeps_tr (Dev.bump_keeps ..); case hl => decide)
    | (with_reducible apply Dev.keeps_tr (Dev.bumpIf_keeps ..); case hl => decide)
    | (with_reducible apply Dev.keeps_tr (Dev.emit_keeps ..); case hl => decide)
    | (with_reducible apply Dev.keeps_tr (Dev.emit_keeps' (by assumption)); case hl => decide)
    | (with_reducible apply Dev.keeps_tr (Dev.onBrd_keeps ..); case hl => decide)

theorem Dev.takeSlot_keeps' {n : Nat} {d : Dev} {e : Dev} {y} (hE : Dev.takeSlot n d = (y, e)) : Dev.keeps [.out, .ctr, .hif, .brd, .mem, .cap, .slc] d e := by
  have k := Dev.takeSlot_keeps n d; rw [hE] at k; exact k
theorem Dev.askLease_keeps (port : Nat) (faceLends : Bool) (d : Dev) : Dev.keeps [.out, .ctr, .hif, .brd, .mem, .cap, .slc] d (Dev.askLease port faceLends d) := by
  unfold Dev.askLease
  repeat' first
    | with_reducible apply Dev.keeps_refl
    | with_reducible assumption
    | dsimp only
    | split
    | (with_reducible apply Dev.keeps_tr (Dev.onLink_keeps ..); case hl => decide)
    | (with_reducible apply Dev.keeps_tr (Dev.takeSlot_keeps ..); case hl => decide)
    | (with_reducible apply Dev.keeps_tr (Dev.takeSlot_keeps' (by assumption)); case hl => decide)
    | (with_reducible apply Dev.keeps_tr (Dev.toNode_keeps ..); case hl => decide)

theorem Dev.tryUp_keeps (port : Nat) (d : Dev) : Dev.keeps [.brd] d (Dev.tryUp port d) := by
  unfold Dev.tryUp
  repeat' first
    | with_reducible apply Dev.keeps_refl
    | with_reducible assumption
    | dsimp only
    | split
    | (with_reducible apply Dev.keeps_tr (Dev.onLink_keeps ..); case hl => decide)

theorem Dev.helloLease_keeps (port : Nat) (h : Hello) (faceLends : Bool) (d : Dev) : Dev.keeps [.out, .ctr, .hif, .brd, .mem, .cap, .slc] d (Dev.helloLease port h faceLends d) := by
  unfold Dev.helloLease
  repeat' first
    | with_reducible apply Dev.keeps_refl
    | with_reducible assumption
    | dsimp only
    | split
    | (with_reducible apply Dev.keeps_tr (Dev.askLease_keeps ..); case hl => decide)
    | (with_reducible apply Dev.keeps_tr (Dev.endLease_keeps ..); case hl => decide)
    | (with_reducible apply Dev.keeps_tr (Dev.offer_keeps ..); case hl => decide)
    | (with_reducible apply Dev.keeps_tr (Dev.offer_keeps' (by assumption)); case hl => decide)
    | (with_reducible apply Dev.keeps_tr (Dev.onBrd_keeps ..); case hl => decide)
    | (with_reducible apply Dev.keeps_tr (Dev.onLink_keeps ..); case hl => decide)

theorem Dev.globalCommit_keeps (num t : Nat) (d : Dev) : Dev.keeps [.out, .ctr, .spl, .hif, .shd, .mem, .cap, .slc] d (Dev.globalCommit num t d) := by
  unfold Dev.globalCommit
  repeat' first
    | with_reducible apply Dev.keeps_refl
    | with_reducible assumption
    | dsimp only
    | split
    | (with_reducible apply Dev.keeps_tr (Dev.bump_keeps ..); case hl => decide)
    | (with_reducible apply Dev.keeps_tr (Dev.logEventSt_keeps ..); case hl => decide)
    | (with_reducible apply Dev.keeps_tr (Dev.pend_keeps ..); case hl => decide)

theorem Dev.globalAct_keeps (op target turn arg : Nat) (d : Dev) : Dev.keeps [.out, .ctr, .spl, .hif, .shd, .brd, .mem, .cap, .slc] d (Dev.globalAct op target turn arg d) := by
  unfold Dev.globalAct
  repeat' first
    | with_reducible apply Dev.keeps_refl
    | with_reducible assumption
    | dsimp only
    | split
    | (with_reducible apply Dev.keeps_tr (Dev.addReset_keeps ..); case hl => decide)
    | (with_reducible apply Dev.keeps_tr (Dev.bumpIf_keeps ..); case hl => decide)
    | (with_reducible apply Dev.keeps_tr (Dev.globalCommit_keeps ..); case hl => decide)
    | (with_reducible apply Dev.keeps_tr (Dev.onSpl_keeps ..); case hl => decide)

theorem Dev.leaseMgmt_keeps (src kind p : Nat) (d : Dev) : Dev.keeps [.out, .ctr, .hif, .brd, .mem, .cap, .slc] d (Dev.leaseMgmt src kind p d) := by
  unfold Dev.leaseMgmt
  repeat' first
    | with_reducible apply Dev.keeps_refl
    | with_reducible assumption
    | dsimp only
    | split
    | (with_reducible apply Dev.keeps_tr (Dev.onBrd_keeps ..); case hl => decide)
    | (with_reducible apply Dev.keeps_tr (Dev.onLink_keeps ..); case hl => decide)
    | (with_reducible apply Dev.keeps_tr (Dev.takeSlot_keeps ..); case hl => decide)
    | (with_reducible apply Dev.keeps_tr (Dev.takeSlot_keeps' (by assumption)); case hl => decide)
    | (with_reducible apply Dev.keeps_tr (Dev.toNode_keeps ..); case hl => decide)

theorem Dev.tagWait_keeps (w : Nat) (d : Dev) : Dev.keeps [.ctr, .hif] d (Dev.tagWait w d) := by
  unfold Dev.tagWait
  repeat' first
    | with_reducible apply Dev.keeps_refl
    | with_reducible assumption
    | dsimp only
    | split
    | (with_reducible apply Dev.keeps_tr (Dev.bump_keeps ..); case hl => decide)
    | (with_reducible first | (apply Dev.keeps_up_hif; case hx => decide))

theorem Dev.writeCompletion_keeps (q : Nat) (d : Dev) : Dev.keeps [.out, .ctr, .hif, .mem, .cap, .slc, .sto] d (Dev.writeCompletion q d) := by
  unfold Dev.writeCompletion
  repeat' first
    | with_reducible apply Dev.keeps_refl
    | with_reducible assumption
    | dsimp only
    | split
    | (with_reducible apply Dev.keeps_tr (Dev.bump_keeps ..); case hl => decide)
    | (with_reducible apply Dev.keeps_tr (Dev.discardCpl_keeps ..); case hl => decide)
    | (with_reducible apply Dev.keeps_tr (Dev.dropCmd_keeps ..); case hl => decide)
    | (with_reducible apply Dev.keeps_tr (Dev.freeTags_keeps ..); case hl => decide)
    | (with_reducible apply Dev.keeps_tr (Dev.message_keeps ..); case hl => decide)
    | (with_reducible apply Dev.keeps_tr (Dev.onQp_keeps ..); case hl => decide)
    | (with_reducible apply Dev.keeps_tr (Dev.ownerWrite_keeps ..); case hl => decide)

theorem Dev.toHclk_keeps (d : Dev) : Dev.keeps [.pclk, .reel] d (Dev.toHclk d) := by
  unfold Dev.toHclk
  repeat' first
    | with_reducible apply Dev.keeps_refl
    | with_reducible assumption
    | dsimp only
    | split
    | (with_reducible apply Dev.keeps_tr (Dev.pass_keeps ..); case hl => decide)

theorem Dev.dueNsH_keeps (ns : Nat) (d : Dev) : Dev.keeps [.pclk, .reel] d (Dev.dueNsH ns d) := by
  unfold Dev.dueNsH
  repeat' first
    | with_reducible apply Dev.keeps_refl
    | with_reducible assumption
    | dsimp only
    | split
    | (with_reducible apply Dev.keeps_tr (Dev.dueNs_keeps ..); case hl => decide)
    | (with_reducible apply Dev.keeps_tr (Dev.toHclk_keeps ..); case hl => decide)

theorem Dev.onArch_keeps (f : Nat) (g : Arch → Arch) (d : Dev) : Dev.keeps [.lay] d (Dev.onArch f g d) := by
  unfold Dev.onArch
  repeat' first
    | with_reducible apply Dev.keeps_refl
    | with_reducible assumption
    | dsimp only
    | split
    | (with_reducible apply Dev.keeps_tr (Dev.onFibre_keeps ..); case hl => decide)

theorem Dev.tryCleat_keeps (n : Nat) (h : Holder) (d : Dev) : Dev.keeps [.ctr, .cap] d (Dev.tryCleat n h d).1 := by
  unfold Dev.tryCleat
  repeat' first
    | with_reducible apply Dev.keeps_refl
    | with_reducible assumption
    | dsimp only
    | split
    | (with_reducible apply Dev.keeps_tr (Dev.bump_keeps ..); case hl => decide)
    | (with_reducible apply Dev.keeps_tr (Dev.onCleat_keeps ..); case hl => decide)

theorem Dev.tryCleat_keeps' {n : Nat} {h : Holder} {d : Dev} {e : Dev} {y} (hE : Dev.tryCleat n h d = (e, y)) : Dev.keeps [.ctr, .cap] d e := by
  have k := Dev.tryCleat_keeps n h d; rw [hE] at k; exact k
theorem Dev.relCleat_keeps (n : Nat) (h : Holder) (d : Dev) : Dev.keeps [.ctr, .lay, .cap] d (Dev.relCleat n h d).1 := by
  unfold Dev.relCleat
  repeat' first
    | with_reducible apply Dev.keeps_refl
    | with_reducible assumption
    | dsimp only
    | split
    | (with_reducible apply Dev.keeps_tr (Dev.passCleat_keeps ..); case hl => decide)

theorem Dev.relCleat_keeps' {n : Nat} {h : Holder} {d : Dev} {e : Dev} {y} (hE : Dev.relCleat n h d = (e, y)) : Dev.keeps [.ctr, .lay, .cap] d e := by
  have k := Dev.relCleat_keeps n h d; rw [hE] at k; exact k
theorem Dev.onLanyard_keeps (n : Nat) (f : Lanyard → Lanyard) (d : Dev) : Dev.keeps [.cap] d (Dev.onLanyard n f d) := by
  unfold Dev.onLanyard
  repeat' first
    | with_reducible apply Dev.keeps_refl
    | with_reducible assumption
    | dsimp only
    | split
    | (with_reducible apply Dev.keeps_tr (Dev.onCap_keeps ..); case hl => decide)

theorem Dev.notify_keeps (n : Nat) (d : Dev) : Dev.keeps [.out, .cap] d (Dev.notify n d) := by
  unfold Dev.notify
  repeat' first
    | with_reducible apply Dev.keeps_refl
    | with_reducible assumption
    | dsimp only
    | split
    | (with_reducible apply Dev.keeps_tr (Dev.onCore_keeps ..); case hl => decide)
    | (with_reducible apply Dev.keeps_tr (Dev.send_keeps ..); case hl => decide)
    | (with_reducible apply Dev.keeps_optmap; case' h => intro _ _)

theorem Dev.putDone_keeps (h : Holder) (d : Dev) : Dev.keeps [.ctr, .lay, .cap] d (Dev.putDone h d) := by
  unfold Dev.putDone
  repeat' first
    | with_reducible apply Dev.keeps_refl
    | with_reducible assumption
    | dsimp only
    | split
    | (with_reducible apply Dev.keeps_tr (Dev.bump_keeps ..); case hl => decide)
    | (with_reducible apply Dev.keeps_tr (Dev.onCore_keeps ..); case hl => decide)
    | (with_reducible apply Dev.keeps_tr (Dev.onFibre_keeps ..); case hl => decide)

theorem Dev.getDone_keeps (n : Nat) (h : Holder) (w : W) (d : Dev) : Dev.keeps [.ctr, .lay, .cap] d (Dev.getDone n h w d) := by
  unfold Dev.getDone
  repeat' first
    | with_reducible apply Dev.keeps_refl
    | with_reducible assumption
    | dsimp only
    | split
    | (with_reducible apply Dev.keeps_tr (Dev.bump_keeps ..); case hl => decide)
    | (with_reducible apply Dev.keeps_tr (Dev.onCore_keeps ..); case hl => decide)
    | (with_reducible apply Dev.keeps_tr (Dev.onFibre_keeps ..); case hl => decide)

theorem Dev.pushWord_keeps (n : Nat) (w : W) (d : Dev) : Dev.keeps [.cap] d (Dev.pushWord n w d) := by
  unfold Dev.pushWord
  repeat' first
    | with_reducible apply Dev.keeps_refl
    | with_reducible assumption
    | dsimp only
    | split
    | (with_reducible apply Dev.keeps_tr (Dev.onLanyard_keeps ..); case hl => decide)

theorem Dev.serveLanyard_keeps (n : Nat) (fuel : Nat) (d : Dev) : Dev.keeps [.out, .ctr, .lay, .cap] d (Dev.serveLanyard n fuel d) := by
  induction fuel generalizing d with
  | zero => exact Dev.keeps_refl _ _
  | succ fuel ih =>
  unfold Dev.serveLanyard
  repeat' first
    | with_reducible apply Dev.keeps_refl
    | with_reducible assumption
    | dsimp only
    | split
    | (with_reducible apply Dev.keeps_tr (Dev.getDone_keeps ..); case hl => decide)
    | (with_reducible apply Dev.keeps_tr (Dev.notify_keeps ..); case hl => decide)
    | (with_reducible apply Dev.keeps_tr (Dev.onLanyard_keeps ..); case hl => decide)
    | (with_reducible apply Dev.keeps_tr (Dev.pushWord_keeps ..); case hl => decide)
    | (with_reducible apply Dev.keeps_tr (Dev.putDone_keeps ..); case hl => decide)
    | (with_reducible apply Dev.keeps_tr (ih ..); case hl => decide)
    | (with_reducible apply Dev.keeps_optmap; case' h => intro _ _)

theorem Dev.serve_keeps (n : Nat) (d : Dev) : Dev.keeps [.out, .ctr, .lay, .cap] d (Dev.serve n d) := by
  unfold Dev.serve
  repeat' first
    | with_reducible apply Dev.keeps_refl
    | with_reducible assumption
    | dsimp only
    | split
    | (with_reducible apply Dev.keeps_tr (Dev.serveLanyard_keeps ..); case hl => decide)

theorem Dev.tryPut_keeps (n : Nat) (w : W) (d : Dev) : Dev.keeps [.out, .ctr, .lay, .cap] d (Dev.tryPut n w d).1 := by
  unfold Dev.tryPut
  repeat' first
    | with_reducible apply Dev.keeps_refl
    | with_reducible assumption
    | dsimp only
    | split
    | (with_reducible apply Dev.keeps_tr (Dev.bump_keeps ..); case hl => decide)
    | (with_reducible apply Dev.keeps_tr (Dev.notify_keeps ..); case hl => decide)
    | (with_reducible apply Dev.keeps_tr (Dev.pushWord_keeps ..); case hl => decide)
    | (with_reducible apply Dev.keeps_tr (Dev.serve_keeps ..); case hl => decide)

theorem Dev.tryPut_keeps' {n : Nat} {w : W} {d : Dev} {e : Dev} {y} (hE : Dev.tryPut n w d = (e, y)) : Dev.keeps [.out, .ctr, .lay, .cap] d e := by
  have k := Dev.tryPut_keeps n w d; rw [hE] at k; exact k
theorem Dev.tryGet_keeps (n : Nat) (d : Dev) : Dev.keeps [.out, .ctr, .lay, .cap] d (Dev.tryGet n d).1 := by
  unfold Dev.tryGet
  repeat' first
    | with_reducible apply Dev.keeps_refl
    | with_reducible assumption
    | dsimp only
    | split
    | (with_reducible apply Dev.keeps_tr (Dev.bump_keeps ..); case hl => decide)
    | (with_reducible apply Dev.keeps_tr (Dev.onLanyard_keeps ..); case hl => decide)
    | (with_reducible apply Dev.keeps_tr (Dev.serve_keeps ..); case hl => decide)

theorem Dev.tryGet_keeps' {n : Nat} {d : Dev} {e : Dev} {y} (hE : Dev.tryGet n d = (e, y)) : Dev.keeps [.out, .ctr, .lay, .cap] d e := by
  have k := Dev.tryGet_keeps n d; rw [hE] at k; exact k
theorem Dev.standbyEmpty_keeps (d : Dev) : Dev.keeps [.she, .pwr] d (Dev.standbyEmpty d) := by
  unfold Dev.standbyEmpty
  repeat' first
    | with_reducible apply Dev.keeps_refl
    | with_reducible assumption
    | dsimp only
    | split
    | (with_reducible apply Dev.keeps_tr (Dev.onPwr_keeps ..); case hl => decide)
    | (with_reducible apply Dev.keeps_tr (Dev.onShe_keeps ..); case hl => decide)
    | (with_reducible apply Dev.keeps_tr (Dev.zeroKeys_keeps ..); case hl => decide)

theorem Dev.avsFails_keeps (d : Dev) : Dev.keeps [.ctr, .pwr] d (Dev.avsFails d) := by
  unfold Dev.avsFails
  simp only [Dev.when]
  repeat' first
    | with_reducible apply Dev.keeps_refl
    | with_reducible assumption
    | dsimp only
    | split
    | (with_reducible apply Dev.keeps_tr (Dev.bump_keeps ..); case hl => decide)
    | (with_reducible apply Dev.keeps_tr (Dev.onPwr_keeps ..); case hl => decide)

theorem Dev.retarget_keeps (mv : Nat) (err : Bool) (d : Dev) : Dev.keeps [.ctr, .pwr] d (Dev.retarget mv err d) := by
  unfold Dev.retarget
  repeat' first
    | with_reducible apply Dev.keeps_refl
    | with_reducible assumption
    | dsimp only
    | split
    | (with_reducible apply Dev.keeps_tr (Dev.avsFails_keeps ..); case hl => decide)
    | (with_reducible apply Dev.keeps_tr (Dev.bump_keeps ..); case hl => decide)
    | (with_reducible apply Dev.keeps_tr (Dev.onPwr_keeps ..); case hl => decide)

theorem Dev.refDown_keeps (p : Nat) (d : Dev) : Dev.keeps [.pclk, .out, .ctr, .reel, .spl, .hif, .lay, .shd, .path, .tbl, .log, .brd, .cal, .mem, .cap, .rdm, .she, .slc] d (Dev.refDown p d) := by
  unfold Dev.refDown
  repeat' first
    | with_reducible apply Dev.keeps_refl
    | with_reducible assumption
    | dsimp only
    | split
    | (with_reducible apply Dev.keeps_tr (Dev.linkLoss_keeps ..); case hl => decide)
    | (with_reducible apply Dev.keeps_tr (Dev.onPort_keeps ..); case hl => decide)
    | (with_reducible apply Dev.keeps_tr (Dev.portGone_keeps ..); case hl => decide)

theorem Dev.abortBufs_keeps (q : Nat) (d : Dev) : Dev.keeps [.hif] d (Dev.abortBufs q d) := by
  unfold Dev.abortBufs
  repeat' first
    | with_reducible apply Dev.keeps_refl
    | with_reducible assumption
    | dsimp only
    | split
    | (with_reducible apply Dev.keeps_tr (Dev.complete_keeps ..); case hl => decide)
    | (with_reducible apply Dev.keeps_tr (Dev.onQp_keeps ..); case hl => decide)
    | (with_reducible apply Dev.keeps_fold_tr; case' hf => intro _ _)

theorem Dev.abortDescs_keeps (q : Nat) (d : Dev) : Dev.keeps [.hif] d (Dev.abortDescs q d) := by
  unfold Dev.abortDescs
  repeat' first
    | with_reducible apply Dev.keeps_refl
    | with_reducible assumption
    | dsimp only
    | split
    | (with_reducible apply Dev.keeps_tr (Dev.complete_keeps ..); case hl => decide)
    | (with_reducible apply Dev.keeps_fold_tr; case' hf => intro _ _)

theorem Dev.abortInjects_keeps (q : Nat) (d : Dev) : Dev.keeps [.out, .lay, .path, .brd] d (Dev.abortInjects q d) := by
  unfold Dev.abortInjects
  repeat' first
    | with_reducible apply Dev.keeps_refl
    | with_reducible assumption
    | dsimp only
    | split
    | (with_reducible apply Dev.keeps_tr (Dev.giveCells_keeps ..); case hl => decide)
    | (with_reducible apply Dev.keeps_tr (Dev.onPath_keeps ..); case hl => decide)
    | (with_reducible first | (apply Dev.keeps_up_lay; case hx => decide))

theorem Dev.withdraw_keeps (seq : Nat) (d : Dev) : Dev.keeps [.cal] d (Dev.withdraw seq d) := by
  unfold Dev.withdraw
  repeat' first
    | with_reducible apply Dev.keeps_refl
    | with_reducible assumption
    | dsimp only
    | split
    | (with_reducible apply Dev.keeps_tr (Dev.onCal_keeps ..); case hl => decide)

theorem Dev.abandonWait_keeps (x : Prog) (d : Dev) : Dev.keeps [.shd, .cal, .slc] d (Dev.abandonWait x d) := by
  unfold Dev.abandonWait
  repeat' first
    | with_reducible apply Dev.keeps_refl
    | with_reducible assumption
    | dsimp only
    | split
    | (with_reducible apply Dev.keeps_tr (Dev.onShade_keeps ..); case hl => decide)
    | (with_reducible apply Dev.keeps_tr (Dev.onSlice_keeps ..); case hl => decide)
    | (with_reducible apply Dev.keeps_tr (Dev.withdraw_keeps ..); case hl => decide)

theorem Dev.endProg_keeps (x : Prog) (st idx : Nat) (d : Dev) : Dev.keeps [.ctr, .spl, .hif] d (Dev.endProg x st idx d) := by
  unfold Dev.endProg
  repeat' first
    | with_reducible apply Dev.keeps_refl
    | with_reducible assumption
    | dsimp only
    | split
    | (with_reducible apply Dev.keeps_tr (Dev.bumpIf_keeps ..); case hl => decide)
    | (with_reducible apply Dev.keeps_tr (Dev.complete_keeps ..); case hl => decide)
    | (with_reducible apply Dev.keeps_tr (Dev.onSpl_keeps ..); case hl => decide)

theorem Dev.advance_keeps (p st : Nat) (d : Dev) : Dev.keeps [.ctr, .spl, .hif] d (Dev.advance p st d) := by
  unfold Dev.advance
  repeat' first
    | with_reducible apply Dev.keeps_refl
    | with_reducible assumption
    | dsimp only
    | split
    | (with_reducible apply Dev.keeps_tr (Dev.endProg_keeps ..); case hl => decide)
    | (with_reducible apply Dev.keeps_tr (Dev.onProg_keeps ..); case hl => decide)
    | (with_reducible apply Dev.keeps_tr (Dev.onSpl_keeps ..); case hl => decide)

theorem Dev.abortProg_keeps (x : Prog) (d : Dev) : Dev.keeps [.out, .ctr, .spl, .hif, .shd, .cal, .mem, .cap, .slc] d (Dev.abortProg x d) := by
  unfold Dev.abortProg
  repeat' first
    | with_reducible apply Dev.keeps_refl
    | with_reducible assumption
    | dsimp only
    | split
    | (with_reducible apply Dev.keeps_tr (Dev.abandonWait_keeps ..); case hl => decide)
    | (with_reducible apply Dev.keeps_tr (Dev.advance_keeps ..); case hl => decide)
    | (with_reducible apply Dev.keeps_tr (Dev.endProg_keeps ..); case hl => decide)
    | (with_reducible apply Dev.keeps_tr (Dev.logIns_keeps ..); case hl => decide)

theorem Dev.enterPlaces_keeps  (fuel : Nat) (d : Dev) : Dev.keeps [.out, .ctr, .spl, .hif, .cal, .mem, .cap, .slc] d (Dev.enterPlaces  fuel d) := by
  induction fuel generalizing d with
  | zero => exact Dev.keeps_refl _ _
  | succ fuel ih =>
  unfold Dev.enterPlaces
  repeat' first
    | with_reducible apply Dev.keeps_refl
    | with_reducible assumption
    | dsimp only
    | split
    | (with_reducible apply Dev.keeps_tr (Dev.bump_keeps ..); case hl => decide)
    | (with_reducible apply Dev.keeps_tr (Dev.logIns_keeps ..); case hl => decide)
    | (with_reducible apply Dev.keeps_tr (Dev.onCal_keeps ..); case hl => decide)
    | (with_reducible apply Dev.keeps_tr (Dev.onProg_keeps ..); case hl => decide)
    | (with_reducible apply Dev.keeps_tr (ih ..); case hl => decide)

theorem Dev.abortProgs_keeps (t : Prog → Bool) (d : Dev) : Dev.keeps [.out, .ctr, .spl, .hif, .shd, .cal, .mem, .cap, .slc] d (Dev.abortProgs t d) := by
  unfold Dev.abortProgs
  repeat' first
    | with_reducible apply Dev.keeps_refl
    | with_reducible assumption
    | dsimp only
    | split
    | (with_reducible apply Dev.keeps_tr (Dev.abortProg_keeps ..); case hl => decide)
    | (with_reducible apply Dev.keeps_tr (Dev.enterPlaces_keeps ..); case hl => decide)
    | (with_reducible apply Dev.keeps_fold_tr; case' hf => intro _ _)

theorem Dev.abortStore_keeps (q : Nat) (d : Dev) : Dev.keeps [.ctr, .hif, .sto] d (Dev.abortStore q d) := by
  unfold Dev.abortStore
  repeat' first
    | with_reducible apply Dev.keeps_refl
    | with_reducible assumption
    | dsimp only
    | split
    | (with_reducible apply Dev.keeps_tr (Dev.onSto_keeps ..); case hl => decide)
    | (with_reducible apply Dev.keeps_tr (Dev.refuseCmd_keeps ..); case hl => decide)
    | (with_reducible apply Dev.keeps_fold_tr; case' hf => intro _ _)

theorem Dev.abortWork_keeps (q : Nat) (but : Option Nat) (d : Dev) : Dev.keeps [.free, .out, .ctr, .spl, .hif, .lay, .shd, .path, .brd, .cal, .mem, .cap, .she, .slc, .sto] d (Dev.abortWork q but d) := by
  unfold Dev.abortWork
  repeat' first
    | with_reducible apply Dev.keeps_refl
    | with_reducible assumption
    | dsimp only
    | split
    | (with_reducible apply Dev.keeps_tr (Dev.abortBufs_keeps ..); case hl => decide)
    | (with_reducible apply Dev.keeps_tr (Dev.abortCrypto_keeps ..); case hl => decide)
    | (with_reducible apply Dev.keeps_tr (Dev.abortDescs_keeps ..); case hl => decide)
    | (with_reducible apply Dev.keeps_tr (Dev.abortInjects_keeps ..); case hl => decide)
    | (with_reducible apply Dev.keeps_tr (Dev.abortProgs_keeps ..); case hl => decide)
    | (with_reducible apply Dev.keeps_tr (Dev.abortStore_keeps ..); case hl => decide)
    | (with_reducible apply Dev.keeps_tr (Dev.complete_keeps ..); case hl => decide)
    | (with_reducible apply Dev.keeps_tr (Dev.onSpl_keeps ..); case hl => decide)
    | (with_reducible apply Dev.keeps_fold_tr; case' hf => intro _ _)

theorem Dev.abortQp_keeps (q : Nat) (but : Option Nat) (d : Dev) : Dev.keeps [.free, .out, .ctr, .spl, .hif, .lay, .shd, .path, .brd, .cal, .mem, .cap, .she, .slc, .sto] d (Dev.abortQp q but d) := by
  unfold Dev.abortQp
  repeat' first
    | with_reducible apply Dev.keeps_refl
    | with_reducible assumption
    | dsimp only
    | split
    | (with_reducible apply Dev.keeps_tr (Dev.abortWork_keeps ..); case hl => decide)
    | (with_reducible apply Dev.keeps_tr (Dev.onQp_keeps ..); case hl => decide)

theorem Dev.resetSlice_keeps (s : Nat) (but : Option Nat) (d : Dev) : Dev.keeps [.free, .out, .ctr, .spl, .hif, .lay, .shd, .path, .brd, .cal, .mem, .cap, .she, .slc, .sto] d (Dev.resetSlice s but d) := by
  unfold Dev.resetSlice
  repeat' first
    | with_reducible apply Dev.keeps_refl
    | with_reducible assumption
    | dsimp only
    | split
    | (with_reducible apply Dev.keeps_tr (Dev.abortQp_keeps ..); case hl => decide)
    | (with_reducible apply Dev.keeps_tr (Dev.add_keeps ..); case hl => decide)
    | (with_reducible apply Dev.keeps_tr (Dev.bump_keeps ..); case hl => decide)
    | (with_reducible apply Dev.keeps_tr (Dev.onSlice_keeps ..); case hl => decide)
    | (with_reducible apply Dev.keeps_fold_tr; case' hf => intro _ _)

theorem Dev.resetFn_keeps (k : Nat) (d : Dev) : Dev.keeps [.free, .out, .ctr, .spl, .hif, .lay, .shd, .path, .brd, .cal, .mem, .cap, .she, .slc, .sto] d (Dev.resetFn k d) := by
  unfold Dev.resetFn
  repeat' first
    | with_reducible apply Dev.keeps_refl
    | with_reducible assumption
    | dsimp only
    | split
    | (with_reducible apply Dev.keeps_tr (Dev.abortQp_keeps ..); case hl => decide)
    | (with_reducible apply Dev.keeps_tr (Dev.onHif_keeps ..); case hl => decide)
    | (with_reducible apply Dev.keeps_tr (Dev.onQp_keeps ..); case hl => decide)
    | (with_reducible apply Dev.keeps_tr (Dev.resetSlice_keeps ..); case hl => decide)
    | (with_reducible apply Dev.keeps_fold_tr; case' hf => intro _ _)
    | (with_reducible first | (apply Dev.keeps_up_slc; case hx => decide))

theorem Dev.resetPort_keeps (n : Nat) (d : Dev) : Dev.keeps [.free, .out, .ctr, .spl, .hif, .lay, .shd, .path, .brd, .cal, .mem, .cap, .she, .slc, .sto] d (Dev.resetPort n d) := by
  unfold Dev.resetPort
  repeat' first
    | with_reducible apply Dev.keeps_refl
    | with_reducible assumption
    | dsimp only
    | split
    | (with_reducible apply Dev.keeps_tr (Dev.bump_keeps ..); case hl => decide)
    | (with_reducible apply Dev.keeps_tr (Dev.resetFn_keeps ..); case hl => decide)
    | (with_reducible apply Dev.keeps_fold_tr; case' hf => intro _ _)

theorem Dev.refLoss_keeps (kind n : Nat) (d : Dev) : Dev.keeps [.pclk, .free, .out, .ctr, .reel, .spl, .hif, .lay, .shd, .path, .tbl, .log, .brd, .cal, .mem, .cap, .rdm, .she, .slc, .sto] d (Dev.refLoss kind n d) := by
  unfold Dev.refLoss
  repeat' first
    | with_reducible apply Dev.keeps_refl
    | with_reducible assumption
    | dsimp only
    | split
    | (with_reducible apply Dev.keeps_tr (Dev.hpDown_keeps ..); case hl => decide)
    | (with_reducible apply Dev.keeps_tr (Dev.refDown_keeps ..); case hl => decide)
    | (with_reducible apply Dev.keeps_tr (Dev.resetPort_keeps ..); case hl => decide)
    | (with_reducible apply Dev.keeps_fold_tr; case' hf => intro _ _)

theorem Dev.accessErr_keeps (who bar off : Nat) (write : Bool) (d : Dev) : Dev.keeps [.ctr, .hif] d (Dev.accessErr who bar off write d) := by
  unfold Dev.accessErr
  repeat' first
    | with_reducible apply Dev.keeps_refl
    | with_reducible assumption
    | dsimp only
    | split
    | (with_reducible apply Dev.keeps_tr (Dev.bump_keeps ..); case hl => decide)
    | (with_reducible apply Dev.keeps_tr (Dev.onFn_keeps ..); case hl => decide)
    | (with_reducible apply Dev.keeps_tr (Dev.onHif_keeps ..); case hl => decide)

theorem Dev.abortStale_keeps (d : Dev) : Dev.keeps [.out, .ctr, .spl, .hif, .shd, .cal, .mem, .cap, .slc] d (Dev.abortStale d) := by
  unfold Dev.abortStale
  repeat' first
    | with_reducible apply Dev.keeps_refl
    | with_reducible assumption
    | dsimp only
    | split
    | (with_reducible apply Dev.keeps_tr (Dev.abortProgs_keeps ..); case hl => decide)

theorem Dev.mbDoorbell_keeps (s : Nat) (up : Bool) (v : Nat) (d : Dev) : Dev.keeps [.ctr, .slc] d (Dev.mbDoorbell s up v d) := by
  unfold Dev.mbDoorbell
  repeat' first
    | with_reducible apply Dev.keeps_refl
    | with_reducible assumption
    | dsimp only
    | split
    | (with_reducible apply Dev.keeps_tr (Dev.bump_keeps ..); case hl => decide)
    | (with_reducible apply Dev.keeps_tr (Dev.onSlice_keeps ..); case hl => decide)

theorem Dev.mbWrite_keeps (capstan : Bool) (s pasid addr : Nat) (bytes : List Byte) (d : Dev) : Dev.keeps [.out, .ctr, .mem, .cap] d (Dev.mbWrite capstan s pasid addr bytes d) := by
  unfold Dev.mbWrite
  repeat' first
    | with_reducible apply Dev.keeps_refl
    | with_reducible assumption
    | dsimp only
    | split
    | (with_reducible apply Dev.keeps_tr (Dev.bump_keeps ..); case hl => decide)
    | (with_reducible apply Dev.keeps_tr (Dev.physWrite_keeps ..); case hl => decide)
    | (with_reducible apply Dev.keeps_tr (Dev.send_keeps ..); case hl => decide)

theorem Dev.sliceBoundary_keeps (d : Dev) : Dev.keeps [.pclk, .out, .ctr, .reel, .spl, .hif, .lay, .shd, .path, .tbl, .log, .brd, .cal, .mem, .dmc, .cap, .slc] d (Dev.sliceBoundary d) := by
  unfold Dev.sliceBoundary
  repeat' first
    | with_reducible apply Dev.keeps_refl
    | with_reducible assumption
    | dsimp only
    | split
    | (with_reducible apply Dev.keeps_tr (Dev.boundary_keeps ..); case hl => decide)
    | (with_reducible first | (apply Dev.keeps_up_slc; case hx => decide))

theorem Dev.lcApply_keeps (t : LcToken) (d : Dev) : Dev.keeps [.drawn, .ctr, .she] d (Dev.lcApply t d).1 := by
  unfold Dev.lcApply
  repeat' first
    | with_reducible apply Dev.keeps_refl
    | with_reducible assumption
    | dsimp only
    | split
    | (with_reducible apply Dev.keeps_tr (Dev.generate_keeps ..); case hl => decide)
    | (with_reducible apply Dev.keeps_tr (Dev.generate_keeps' (by assumption)); case hl => decide)
    | (with_reducible apply Dev.keeps_tr (Dev.onShe_keeps ..); case hl => decide)
    | (with_reducible apply Dev.keeps_tr (Dev.zeroKeys_keeps ..); case hl => decide)

theorem Dev.lcApply_keeps' {t : LcToken} {d : Dev} {e : Dev} {y} (hE : Dev.lcApply t d = (e, y)) : Dev.keeps [.drawn, .ctr, .she] d e := by
  have k := Dev.lcApply_keeps t d; rw [hE] at k; exact k
theorem Dev.enterRecovery_keeps (reason : Nat) (d : Dev) : Dev.keeps [.hif, .boot] d (Dev.enterRecovery reason d) := by
  unfold Dev.enterRecovery
  repeat' first
    | with_reducible apply Dev.keeps_refl
    | with_reducible assumption
    | dsimp only
    | split
    | (with_reducible apply Dev.keeps_tr (Dev.onBoot_keeps ..); case hl => decide)
    | (with_reducible apply Dev.keeps_tr (Dev.onHp_keeps ..); case hl => decide)

theorem Dev.handOver_keeps (d : Dev) : Dev.keeps [.boot, .she, .pwr] d (Dev.handOver d) := by
  unfold Dev.handOver
  repeat' first
    | with_reducible apply Dev.keeps_refl
    | with_reducible assumption
    | dsimp only
    | split
    | (with_reducible apply Dev.keeps_tr (Dev.onBoot_keeps ..); case hl => decide)
    | (with_reducible apply Dev.keeps_tr (Dev.onPwr_keeps ..); case hl => decide)
    | (with_reducible apply Dev.keeps_tr (Dev.onShe_keeps ..); case hl => decide)

theorem Dev.runSlot_keeps (n : Nat) (trial : Bool) (d : Dev) : Dev.keeps [.boot, .she, .pwr] d (Dev.runSlot n trial d) := by
  unfold Dev.runSlot
  repeat' first
    | with_reducible apply Dev.keeps_refl
    | with_reducible assumption
    | dsimp only
    | split
    | (with_reducible apply Dev.keeps_tr (Dev.handOver_keeps ..); case hl => decide)
    | (with_reducible apply Dev.keeps_tr (Dev.onBoot_keeps ..); case hl => decide)
    | (with_reducible apply Dev.keeps_tr (Dev.onDir_keeps ..); case hl => decide)
    | (with_reducible apply Dev.keeps_tr (Dev.onShe_keeps ..); case hl => decide)

theorem Dev.interrupted_keeps (d : Dev) : Dev.keeps [.ctr, .boot] d (Dev.interrupted d) := by
  unfold Dev.interrupted
  repeat' first
    | with_reducible apply Dev.keeps_refl
    | with_reducible assumption
    | dsimp only
    | split
    | (with_reducible apply Dev.keeps_tr (Dev.failTrial_keeps ..); case hl => decide)

theorem Dev.loadActive_keeps (chk : Nat → SlotChk) (d : Dev) : Dev.keeps [.hif, .boot, .she, .pwr] d (Dev.loadActive chk d) := by
  unfold Dev.loadActive
  repeat' first
    | with_reducible apply Dev.keeps_refl
    | with_reducible assumption
    | dsimp only
    | split
    | (with_reducible apply Dev.keeps_tr (Dev.enterRecovery_keeps ..); case hl => decide)
    | (with_reducible apply Dev.keeps_tr (Dev.onDir_keeps ..); case hl => decide)
    | (with_reducible apply Dev.keeps_tr (Dev.runSlot_keeps ..); case hl => decide)
    | (with_reducible apply Dev.keeps_optmap; case' h => intro _ _)

theorem Dev.commitSlot_keeps (d : Dev) : Dev.keeps [.boot, .she] d (Dev.commitSlot d) := by
  unfold Dev.commitSlot
  repeat' first
    | with_reducible apply Dev.keeps_refl
    | with_reducible assumption
    | dsimp only
    | split
    | (with_reducible apply Dev.keeps_tr (Dev.onBoot_keeps ..); case hl => decide)
    | (with_reducible apply Dev.keeps_tr (Dev.onDir_keeps ..); case hl => decide)
    | (with_reducible apply Dev.keeps_tr (Dev.onShe_keeps ..); case hl => decide)

theorem Dev.sheathSteps_keeps (ok : Bool) (dram : Option DramRecord) (d : Dev) : Dev.keeps [.hif, .dmc, .boot] d (Dev.sheathSteps ok dram d) := by
  unfold Dev.sheathSteps
  repeat' first
    | with_reducible apply Dev.keeps_refl
    | with_reducible assumption
    | dsimp only
    | split
    | (with_reducible apply Dev.keeps_tr (Dev.onBoot_keeps ..); case hl => decide)
    | (with_reducible apply Dev.keeps_tr (Dev.onHp_keeps ..); case hl => decide)
    | (with_reducible apply Dev.keeps_tr (Dev.startTraining_keeps ..); case hl => decide)
    | (with_reducible apply Dev.keeps_fold_tr; case' hf => intro _ _)

theorem Dev.released_keeps (who : Nat) (bs : List Byte) (chk : ImgChk) (d : Dev) : Dev.keeps [.hif, .boot, .cap] d (Dev.released who bs chk d) := by
  unfold Dev.released
  repeat' first
    | with_reducible apply Dev.keeps_refl
    | with_reducible assumption
    | dsimp only
    | split
    | (with_reducible apply Dev.keeps_tr (Dev.onBoot_keeps ..); case hl => decide)
    | (with_reducible apply Dev.keeps_tr (Dev.onCore_keeps ..); case hl => decide)
    | (with_reducible apply Dev.keeps_tr (Dev.onDir_keeps ..); case hl => decide)
    | (with_reducible apply Dev.keeps_tr (Dev.onQp_keeps ..); case hl => decide)
    | (with_reducible apply Dev.keeps_fold_tr; case' hf => intro _ _)
    | (with_reducible apply Dev.keeps_optmap; case' h => intro _ _)

theorem Dev.claim_keeps (r : Req) (d : Dev) : Dev.keeps [.ctr, .cal] d (Dev.claim r d).2 := by
  unfold Dev.claim
  repeat' first
    | with_reducible apply Dev.keeps_refl
    | with_reducible assumption
    | dsimp only
    | split
    | (with_reducible apply Dev.keeps_tr (Dev.bump_keeps ..); case hl => decide)
    | (with_reducible apply Dev.keeps_tr (Dev.onCal_keeps ..); case hl => decide)

theorem Dev.claim_keeps' {r : Req} {d : Dev} {e : Dev} {y} (hE : Dev.claim r d = (y, e)) : Dev.keeps [.ctr, .cal] d e := by
  have k := Dev.claim_keeps r d; rw [hE] at k; exact k
theorem Dev.onBoth_keeps (f : Nat) (h : Arch → Arch) (d : Dev) : Dev.keeps [.lay] d (Dev.onBoth f h d) := by
  unfold Dev.onBoth
  repeat' first
    | with_reducible apply Dev.keeps_refl
    | with_reducible assumption
    | dsimp only
    | split
    | (with_reducible apply Dev.keeps_tr (Dev.onFibre_keeps ..); case hl => decide)

theorem Dev.giveResult_keeps (f : Nat) (ws : List (Nat × W)) (pd : Nat) (ok : Bool) (st : Nat) (d : Dev) : Dev.keeps [.lay] d (Dev.giveResult f ws pd ok st d) := by
  unfold Dev.giveResult
  repeat' first
    | with_reducible apply Dev.keeps_refl
    | with_reducible assumption
    | dsimp only
    | split
    | (with_reducible apply Dev.keeps_tr (Dev.onBoth_keeps ..); case hl => decide)
    | (with_reducible apply Dev.keeps_fold_tr; case' hf => intro _ _)

theorem Dev.noResult_keeps (f pd st : Nat) (d : Dev) : Dev.keeps [.lay] d (Dev.noResult f pd st d) := by
  unfold Dev.noResult
  repeat' first
    | with_reducible apply Dev.keeps_refl
    | with_reducible assumption
    | dsimp only
    | split
    | (with_reducible apply Dev.keeps_tr (Dev.giveResult_keeps ..); case hl => decide)

theorem Dev.arrayLookup_keeps (tab n key : Nat) (d : Dev) : Dev.keeps [.free] d (Dev.arrayLookup tab n key d).2 := by
  unfold Dev.arrayLookup
  repeat' first
    | with_reducible apply Dev.keeps_refl
    | with_reducible assumption
    | dsimp only
    | split
    | (with_reducible apply Dev.keeps_tr (Dev.useFree_keeps ..); case hl => decide)

theorem Dev.arrayLookup_keeps' {tab n key : Nat} {d : Dev} {e : Dev} {y} (hE : Dev.arrayLookup tab n key d = (y, e)) : Dev.keeps [.free] d e := by
  have k := Dev.arrayLookup_keeps tab n key d; rw [hE] at k; exact k
theorem Dev.lookup_keeps (lay tab n key : Nat) (d : Dev) : Dev.keeps [.free, .lay] d (Dev.lookup lay tab n key d).2 := by
  unfold Dev.lookup
  repeat' first
    | with_reducible apply Dev.keeps_refl
    | with_reducible assumption
    | dsimp only
    | split
    | (with_reducible apply Dev.keeps_tr (Dev.arrayLookup_keeps ..); case hl => decide)
    | (with_reducible apply Dev.keeps_tr (Dev.arrayLookup_keeps' (by assumption)); case hl => decide)
    | (with_reducible apply Dev.keeps_tr (Dev.onLay_keeps ..); case hl => decide)

theorem Dev.lookup_keeps' {lay tab n key : Nat} {d : Dev} {e : Dev} {y} (hE : Dev.lookup lay tab n key d = (y, e)) : Dev.keeps [.free, .lay] d e := by
  have k := Dev.lookup_keeps lay tab n key d; rw [hE] at k; exact k
theorem Dev.suspect_keeps (f : Nat) (d : Dev) : Dev.keeps [.ctr, .lay, .path] d (Dev.suspect f d) := by
  unfold Dev.suspect
  repeat' first
    | with_reducible apply Dev.keeps_refl
    | with_reducible assumption
    | dsimp only
    | split
    | (with_reducible apply Dev.keeps_tr (Dev.bump_keeps ..); case hl => decide)
    | (with_reducible apply Dev.keeps_tr (Dev.flag_keeps ..); case hl => decide)

theorem Dev.startRepair_keeps (tab line : Nat) (d : Dev) : Dev.keeps [.ctr, .lay, .path, .tbl] d (Dev.startRepair tab line d) := by
  unfold Dev.startRepair
  repeat' first
    | with_reducible apply Dev.keeps_refl
    | with_reducible assumption
    | dsimp only
    | split
    | (with_reducible apply Dev.keeps_tr (Dev.onTbl_keeps ..); case hl => decide)
    | (with_reducible apply Dev.keeps_tr (Dev.suspect_keeps ..); case hl => decide)
    | (with_reducible apply Dev.keeps_fold_tr; case' hf => intro _ _)

theorem Dev.readTable_keeps (lay tab key ecc way n : Nat) (d : Dev) : Dev.keeps [.free, .ctr, .lay, .path, .tbl] d (Dev.readTable lay tab key ecc way n d).1 := by
  unfold Dev.readTable
  repeat' first
    | with_reducible apply Dev.keeps_refl
    | with_reducible assumption
    | dsimp only
    | split
    | (with_reducible apply Dev.keeps_tr (Dev.bumpIf_keeps ..); case hl => decide)
    | (with_reducible apply Dev.keeps_tr (Dev.lookup_keeps ..); case hl => decide)
    | (with_reducible apply Dev.keeps_tr (Dev.lookup_keeps' (by assumption)); case hl => decide)
    | (with_reducible apply Dev.keeps_tr (Dev.startRepair_keeps ..); case hl => decide)
    | (with_reducible apply Dev.keeps_optmap; case' h => intro _ _)

theorem Dev.readTable_keeps' {lay tab key ecc way n : Nat} {d : Dev} {e : Dev} {y} (hE : Dev.readTable lay tab key ecc way n d = (e, y)) : Dev.keeps [.free, .ctr, .lay, .path, .tbl] d e := by
  have k := Dev.readTable_keeps lay tab key ecc way n d; rw [hE] at k; exact k
theorem Dev.lookupResult_keeps (f tab rd pd : Nat) (r : Option (Option (Nat × W))) (d : Dev) : Dev.keeps [.ctr, .lay, .path] d (Dev.lookupResult f tab rd pd r d) := by
  unfold Dev.lookupResult
  repeat' first
    | with_reducible apply Dev.keeps_refl
    | with_reducible assumption
    | dsimp only
    | split
    | (with_reducible apply Dev.keeps_tr (Dev.bump_keeps ..); case hl => decide)
    | (with_reducible apply Dev.keeps_tr (Dev.flag_keeps ..); case hl => decide)
    | (with_reducible apply Dev.keeps_tr (Dev.giveResult_keeps ..); case hl => decide)
    | (with_reducible apply Dev.keeps_tr (Dev.noResult_keeps ..); case hl => decide)
    | (with_reducible apply Dev.keeps_tr (Dev.onFibre_keeps ..); case hl => decide)
    | (with_reducible apply Dev.keeps_tr (Dev.suspect_keeps ..); case hl => decide)

theorem Dev.learn_keeps (lay key iport kind shade old : Nat) (d : Dev) : Dev.keeps [.out, .ctr, .hif, .tbl, .mem, .cap, .slc] d (Dev.learn lay key iport kind shade old d) := by
  unfold Dev.learn
  repeat' first
    | with_reducible apply Dev.keeps_refl
    | with_reducible assumption
    | dsimp only
    | split
    | (with_reducible apply Dev.keeps_tr (Dev.bump_keeps ..); case hl => decide)
    | (with_reducible apply Dev.keeps_tr (Dev.emit_keeps ..); case hl => decide)
    | (with_reducible apply Dev.keeps_tr (Dev.emit_keeps' (by assumption)); case hl => decide)
    | (with_reducible apply Dev.keeps_tr (Dev.onTbl_keeps ..); case hl => decide)

theorem Dev.macLearned_keeps (lay m0 : Nat) (learn dest : Bool) (key shade : Nat) (r : Option (Option (Nat × W))) (d : Dev) : Dev.keeps [.out, .ctr, .hif, .tbl, .mem, .cap, .slc] d (Dev.macLearned lay m0 learn dest key shade r d) := by
  unfold Dev.macLearned
  repeat' first
    | with_reducible apply Dev.keeps_refl
    | with_reducible assumption
    | dsimp only
    | split
    | (with_reducible apply Dev.keeps_tr (Dev.bumpIf_keeps ..); case hl => decide)
    | (with_reducible apply Dev.keeps_tr (Dev.learn_keeps ..); case hl => decide)
    | (with_reducible apply Dev.keeps_tr (Dev.onTbl_keeps ..); case hl => decide)
    | (with_reducible apply Dev.keeps_fold_tr; case' hf => intro _ _)

theorem Dev.countNow_keeps (index by' : Nat) (atEnd : Option (Nat × Int)) (d : Dev) : Dev.keeps [.path, .tbl] d (Dev.countNow index by' atEnd d).1 := by
  unfold Dev.countNow
  repeat' first
    | with_reducible apply Dev.keeps_refl
    | with_reducible assumption
    | dsimp only
    | split
    | (with_reducible apply Dev.keeps_tr (Dev.addCounter_keeps ..); case hl => decide)
    | (with_reducible apply Dev.keeps_tr (Dev.onPkt_keeps ..); case hl => decide)

theorem Dev.countNow_keeps' {index by' : Nat} {atEnd : Option (Nat × Int)} {d : Dev} {e : Dev} {y} (hE : Dev.countNow index by' atEnd d = (e, y)) : Dev.keeps [.path, .tbl] d e := by
  have k := Dev.countNow_keeps index by' atEnd d; rw [hE] at k; exact k
theorem Dev.policeNow_keeps (index shade colour charge : Nat) (atEnd : Option (Nat × Int)) (d : Dev) : Dev.keeps [.path] d (Dev.policeNow index shade colour charge atEnd d).1 := by
  unfold Dev.policeNow
  repeat' first
    | with_reducible apply Dev.keeps_refl
    | with_reducible assumption
    | dsimp only
    | split
    | (with_reducible apply Dev.keeps_tr (Dev.onPath_keeps ..); case hl => decide)
    | (with_reducible apply Dev.keeps_tr (Dev.onPkt_keeps ..); case hl => decide)
    | (with_reducible apply Dev.keeps_optmap; case' h => intro _ _)

theorem Dev.policeNow_keeps' {index shade colour charge : Nat} {atEnd : Option (Nat × Int)} {d : Dev} {e : Dev} {y} (hE : Dev.policeNow index shade colour charge atEnd d = (e, y)) : Dev.keeps [.path] d e := by
  have k := Dev.policeNow_keeps index shade colour charge atEnd d; rw [hE] at k; exact k
theorem Dev.lookupFor_keeps (f ecc way tab key : Nat) (p : Post) (d : Dev) : Dev.keeps [.free, .ctr, .lay, .path, .tbl] d (Dev.lookupFor f ecc way tab key p d).1 := by
  unfold Dev.lookupFor
  repeat' first
    | with_reducible apply Dev.keeps_refl
    | with_reducible assumption
    | dsimp only
    | split
    | (with_reducible apply Dev.keeps_tr (Dev.lookupResult_keeps ..); case hl => decide)
    | (with_reducible apply Dev.keeps_tr (Dev.readTable_keeps ..); case hl => decide)
    | (with_reducible apply Dev.keeps_tr (Dev.readTable_keeps' (by assumption)); case hl => decide)

theorem Dev.lookupFor_keeps' {f ecc way tab key : Nat} {p : Post} {d : Dev} {e : Dev} {y} (hE : Dev.lookupFor f ecc way tab key p d = (e, y)) : Dev.keeps [.free, .ctr, .lay, .path, .tbl] d e := by
  have k := Dev.lookupFor_keeps f ecc way tab key p d; rw [hE] at k; exact k
theorem Dev.arrive'_keeps (f ecc way : Nat) (p : Post) (d : Dev) : Dev.keeps [.free, .out, .ctr, .hif, .lay, .path, .tbl, .aut, .brd, .mem, .cap, .slc] d (Dev.arrive' f ecc way p d) := by
  unfold Dev.arrive'
  repeat' first
    | with_reducible apply Dev.keeps_refl
    | with_reducible assumption
    | dsimp only
    | split
    | (with_reducible apply Dev.keeps_tr (Dev.countNow_keeps ..); case hl => decide)
    | (with_reducible apply Dev.keeps_tr (Dev.countNow_keeps' (by assumption)); case hl => decide)
    | (with_reducible apply Dev.keeps_tr (Dev.giveResult_keeps ..); case hl => decide)
    | (with_reducible apply Dev.keeps_tr (Dev.lookupFor_keeps ..); case hl => decide)
    | (with_reducible apply Dev.keeps_tr (Dev.lookupFor_keeps' (by assumption)); case hl => decide)
    | (with_reducible apply Dev.keeps_tr (Dev.macLearned_keeps ..); case hl => decide)
    | (with_reducible apply Dev.keeps_tr (Dev.noResult_keeps ..); case hl => decide)
    | (with_reducible apply Dev.keeps_tr (Dev.policeNow_keeps ..); case hl => decide)
    | (with_reducible apply Dev.keeps_tr (Dev.policeNow_keeps' (by assumption)); case hl => decide)
    | (with_reducible apply Dev.keeps_tr (Dev.submit_keeps ..); case hl => decide)
    | (with_reducible apply Dev.keeps_tr (Dev.submit_keeps' (by assumption)); case hl => decide)

theorem Dev.reloadDone_keeps (tab line age : Nat) (d : Dev) : Dev.keeps [.ctr, .tbl] d (Dev.reloadDone tab line age d) := by
  unfold Dev.reloadDone
  repeat' first
    | with_reducible apply Dev.keeps_refl
    | with_reducible assumption
    | dsimp only
    | split
    | (with_reducible apply Dev.keeps_tr (Dev.bump_keeps ..); case hl => decide)
    | (with_reducible apply Dev.keeps_tr (Dev.onTbl_keeps ..); case hl => decide)

theorem Dev.transmit_keeps (k c : Nat) (p : Pkt) (x : Copy) (d : Dev) : Dev.keeps [.out, .ctr, .hif, .shd, .path, .log, .brd, .mem, .cap, .she, .slc] d (Dev.transmit k c p x d) := by
  unfold Dev.transmit
  repeat' first
    | with_reducible apply Dev.keeps_refl
    | with_reducible assumption
    | dsimp only
    | split
    | (with_reducible apply Dev.keeps_tr (Dev.countData_keeps ..); case hl => decide)
    | (with_reducible apply Dev.keeps_tr (Dev.endCopy_keeps ..); case hl => decide)
    | (with_reducible apply Dev.keeps_tr (Dev.freePassed_keeps ..); case hl => decide)
    | (with_reducible apply Dev.keeps_tr (Dev.lineSent_keeps ..); case hl => decide)
    | (with_reducible apply Dev.keeps_tr (Dev.macsecTx_keeps ..); case hl => decide)
    | (with_reducible apply Dev.keeps_tr (Dev.macsecTx_keeps' (by assumption)); case hl => decide)
    | (with_reducible apply Dev.keeps_tr (Dev.onCopy_keeps ..); case hl => decide)
    | (with_reducible apply Dev.keeps_tr (Dev.sendCopy_keeps ..); case hl => decide)

theorem Dev.pauseClass_keeps (port c quanta : Nat) (d : Dev) : Dev.keeps [.path] d (Dev.pauseClass port c quanta d) := by
  unfold Dev.pauseClass
  repeat' first
    | with_reducible apply Dev.keeps_refl
    | with_reducible assumption
    | dsimp only
    | split
    | (with_reducible apply Dev.keeps_tr (Dev.onPath_keeps ..); case hl => decide)

theorem Dev.accessFault_keeps (who cause : Nat) (d : Dev) : Dev.keeps [.ctr, .cap] d (Dev.accessFault who cause d) := by
  unfold Dev.accessFault
  repeat' first
    | with_reducible apply Dev.keeps_refl
    | with_reducible assumption
    | dsimp only
    | split
    | (with_reducible apply Dev.keeps_tr (Dev.bump_keeps ..); case hl => decide)
    | (with_reducible apply Dev.keeps_tr (Dev.onCore_keeps ..); case hl => decide)

theorem Dev.regWrite_keeps (who off size : Nat) (d : Dev) : Dev.keeps [.ctr, .hif] d (Dev.regWrite who off size d) := by
  unfold Dev.regWrite
  repeat' first
    | with_reducible apply Dev.keeps_refl
    | with_reducible assumption
    | dsimp only
    | split
    | (with_reducible apply Dev.keeps_tr (Dev.accessErr_keeps ..); case hl => decide)

theorem Dev.msixWrite_keeps (k off v : Nat) (d : Dev) : Dev.keeps [.out, .ctr, .hif] d (Dev.msixWrite k off v d) := by
  unfold Dev.msixWrite
  repeat' first
    | with_reducible apply Dev.keeps_refl
    | with_reducible assumption
    | dsimp only
    | split
    | (with_reducible apply Dev.keeps_tr (Dev.onFn_keeps ..); case hl => decide)
    | (with_reducible apply Dev.keeps_tr (Dev.unmask_keeps ..); case hl => decide)

theorem Dev.mailboxWrite_keeps (off v : Nat) (d : Dev) : Dev.keeps [.boot] d (Dev.mailboxWrite off v d) := by
  unfold Dev.mailboxWrite
  repeat' first
    | with_reducible apply Dev.keeps_refl
    | with_reducible assumption
    | dsimp only
    | split
    | (with_reducible apply Dev.keeps_tr (Dev.onBoot_keeps ..); case hl => decide)

theorem Dev.rcRead_keeps (off : Nat) (d : Dev) : Dev.keeps [.path] d (Dev.rcRead off d).2 := by
  unfold Dev.rcRead
  repeat' first
    | with_reducible apply Dev.keeps_refl
    | with_reducible assumption
    | dsimp only
    | split
    | (with_reducible apply Dev.keeps_tr (Dev.onPath_keeps ..); case hl => decide)

theorem Dev.rcRead_keeps' {off : Nat} {d : Dev} {e : Dev} {y} (hE : Dev.rcRead off d = (y, e)) : Dev.keeps [.path] d e := by
  have k := Dev.rcRead_keeps off d; rw [hE] at k; exact k
theorem Dev.hitRead_keeps (who off : Nat) (d : Dev) : Dev.keeps [.tbl] d (Dev.hitRead who off d) := by
  unfold Dev.hitRead
  repeat' first
    | with_reducible apply Dev.keeps_refl
    | with_reducible assumption
    | dsimp only
    | split
    | (with_reducible apply Dev.keeps_tr (Dev.onTbl_keeps ..); case hl => decide)
    | (with_reducible apply Dev.keeps_optmap; case' h => intro _ _)

theorem Dev.setDir_keeps (ln : Nat) (e : DirEnt) (d : Dev) : Dev.keeps [.cap] d (Dev.setDir ln e d) := by
  unfold Dev.setDir
  repeat' first
    | with_reducible apply Dev.keeps_refl
    | with_reducible assumption
    | dsimp only
    | split
    | (with_reducible apply Dev.keeps_tr (Dev.onCap_keeps ..); case hl => decide)

theorem Dev.tell_keeps (kind : CKind) (core line : Nat) (data : Option (List Byte)) (d : Dev) : Dev.keeps [.cap] d (Dev.tell kind core line data d) := by
  unfold Dev.tell
  repeat' first
    | with_reducible apply Dev.keeps_refl
    | with_reducible assumption
    | dsimp only
    | split
    | (with_reducible apply Dev.keeps_tr (Dev.onCap_keeps ..); case hl => decide)

theorem Dev.l3Put_keeps (ln : Nat) (bs : List Byte) (d : Dev) : Dev.keeps [.mem, .dmc] d (Dev.l3Put ln bs d) := by
  unfold Dev.l3Put
  repeat' first
    | with_reducible apply Dev.keeps_refl
    | with_reducible assumption
    | dsimp only
    | split
    | (with_reducible apply Dev.keeps_up_mem_dmc; (case hx => decide); (case hz => decide); (case hm => first | exact Dev.memOk_dram fun h => Memory.write_wf _ _ _ h | exact Dev.memOk_dram fun h => Memory.writeBytes_wf _ _ _ h))
    | ((with_reducible apply Dev.keeps_lit); intro y hy; cases y <;> first | exact absurd (by decide) hy | rfl)
    | (with_reducible first | (apply Dev.keeps_up_dmc; case hx => decide) | (apply Dev.keeps_up_mem; (case hx => decide); (case hm => first | exact Dev.memOk_dram fun h => Memory.write_wf _ _ _ h | exact Dev.memOk_dram fun h => Memory.writeBytes_wf _ _ _ h)))

theorem Dev.grantLine_keeps (ln : Nat) (req : CReq) (data : Option (List Byte)) (buf : Bool) (d : Dev) : Dev.keeps [.out, .mem, .dmc, .cap] d (Dev.grantLine ln req data buf d) := by
  unfold Dev.grantLine
  repeat' first
    | with_reducible apply Dev.keeps_refl
    | with_reducible assumption
    | dsimp only
    | split
    | (with_reducible apply Dev.keeps_tr (Dev.l3Put_keeps ..); case hl => decide)
    | (with_reducible apply Dev.keeps_tr (Dev.send_keeps ..); case hl => decide)
    | (with_reducible apply Dev.keeps_tr (Dev.setDir_keeps ..); case hl => decide)
    | (with_reducible apply Dev.keeps_tr (Dev.tell_keeps ..); case hl => decide)
    | (with_reducible apply Dev.keeps_optmap; case' h => intro _ _)

theorem Dev.takeReq_keeps (ln : Nat) (req : CReq) (queue : List CReq) (d : Dev) : Dev.keeps [.out, .mem, .dmc, .cap] d (Dev.takeReq ln req queue d).1 := by
  unfold Dev.takeReq
  repeat' first
    | with_reducible apply Dev.keeps_refl
    | with_reducible assumption
    | dsimp only
    | split
    | (with_reducible apply Dev.keeps_tr (Dev.grantLine_keeps ..); case hl => decide)
    | (with_reducible apply Dev.keeps_tr (Dev.onCap_keeps ..); case hl => decide)
    | (with_reducible apply Dev.keeps_tr (Dev.tell_keeps ..); case hl => decide)
    | (with_reducible apply Dev.keeps_fold_tr; case' hf => intro _ _)

theorem Dev.takeReq_keeps' {ln : Nat} {req : CReq} {queue : List CReq} {d : Dev} {e : Dev} {y} (hE : Dev.takeReq ln req queue d = (e, y)) : Dev.keeps [.out, .mem, .dmc, .cap] d e := by
  have k := Dev.takeReq_keeps ln req queue d; rw [hE] at k; exact k
theorem Dev.takeQueue_keeps (ln : Nat) (qs : List CReq) (d : Dev) : Dev.keeps [.out, .mem, .dmc, .cap] d (Dev.takeQueue ln qs d) := by
  induction qs generalizing d with
  | nil => exact Dev.keeps_refl _ _
  | cons q qs ih =>
    unfold Dev.takeQueue
    dsimp only
    split
    · with_reducible apply Dev.keeps_tr (ih ..); case hl => decide
      with_reducible apply Dev.keeps_tr (Dev.takeReq_keeps ..); case hl => decide
      exact Dev.keeps_refl _ _
    · with_reducible apply Dev.keeps_tr (Dev.takeReq_keeps ..); case hl => decide
      exact Dev.keeps_refl _ _
theorem Dev.askDir_keeps (ln : Nat) (req : CReq) (d : Dev) : Dev.keeps [.out, .mem, .dmc, .cap] d (Dev.askDir ln req d) := by
  unfold Dev.askDir
  repeat' first
    | with_reducible apply Dev.keeps_refl
    | with_reducible assumption
    | dsimp only
    | split
    | (with_reducible apply Dev.keeps_tr (Dev.onCap_keeps ..); case hl => decide)
    | (with_reducible apply Dev.keeps_tr (Dev.takeQueue_keeps ..); case hl => decide)

theorem Dev.snoopAnswer_keeps (ln c : Nat) (data : Option (List Byte)) (buf gone : Bool) (d : Dev) : Dev.keeps [.out, .mem, .dmc, .cap] d (Dev.snoopAnswer ln c data buf gone d) := by
  unfold Dev.snoopAnswer
  repeat' first
    | with_reducible apply Dev.keeps_refl
    | with_reducible assumption
    | dsimp only
    | split
    | (with_reducible apply Dev.keeps_tr (Dev.grantLine_keeps ..); case hl => decide)
    | (with_reducible apply Dev.keeps_tr (Dev.onCap_keeps ..); case hl => decide)
    | (with_reducible apply Dev.keeps_tr (Dev.setDir_keeps ..); case hl => decide)
    | (with_reducible apply Dev.keeps_tr (Dev.takeQueue_keeps ..); case hl => decide)
    | (with_reducible apply Dev.keeps_tr (Dev.tell_keeps ..); case hl => decide)

theorem Dev.evict_keeps (c ln : Nat) (x : L2Line) (d : Dev) : Dev.keeps [.ctr, .cap] d (Dev.evict c ln x d) := by
  unfold Dev.evict
  repeat' first
    | with_reducible apply Dev.keeps_refl
    | with_reducible assumption
    | dsimp only
    | split
    | (with_reducible apply Dev.keeps_tr (Dev.bumpIf_keeps ..); case hl => decide)
    | (with_reducible apply Dev.keeps_tr (Dev.onCore_keeps ..); case hl => decide)

theorem Dev.backInv_keeps (ln : Nat) (d : Dev) : Dev.keeps [.out, .ctr, .mem, .dmc, .cap] d (Dev.backInv ln d) := by
  unfold Dev.backInv
  repeat' first
    | with_reducible apply Dev.keeps_refl
    | with_reducible assumption
    | dsimp only
    | split
    | (with_reducible apply Dev.keeps_tr (Dev.askDir_keeps ..); case hl => decide)
    | (with_reducible apply Dev.keeps_tr (Dev.bump_keeps ..); case hl => decide)

theorem Dev.miss_keeps (c ln : Nat) (victim : Option (Nat × Option (List Byte))) (back : Option Nat) (req : CReq) (d : Dev) : Dev.keeps [.out, .ctr, .mem, .dmc, .cap] d (Dev.miss c ln victim back req d) := by
  unfold Dev.miss
  simp only [Dev.when]
  repeat' first
    | with_reducible apply Dev.keeps_refl
    | with_reducible assumption
    | dsimp only
    | split
    | (with_reducible apply Dev.keeps_tr (Dev.askDir_keeps ..); case hl => decide)
    | (with_reducible apply Dev.keeps_tr (Dev.backInv_keeps ..); case hl => decide)
    | (with_reducible apply Dev.keeps_tr (Dev.bump_keeps ..); case hl => decide)
    | (with_reducible apply Dev.keeps_tr (Dev.evict_keeps ..); case hl => decide)

theorem Dev.noticed_keeps (c ln : Nat) (d : Dev) : Dev.keeps [.cap] d (Dev.noticed c ln d) := by
  unfold Dev.noticed
  repeat' first
    | with_reducible apply Dev.keeps_refl
    | with_reducible assumption
    | dsimp only
    | split
    | (with_reducible apply Dev.keeps_tr (Dev.onCore_keeps ..); case hl => decide)

theorem Dev.countScrubDefer_keeps (r : Req) (d : Dev) : Dev.keeps [.ctr] d (Dev.countScrubDefer r d) := by
  unfold Dev.countScrubDefer
  repeat' first
    | with_reducible apply Dev.keeps_refl
    | with_reducible assumption
    | dsimp only
    | split
    | (with_reducible apply Dev.keeps_tr (Dev.bumpIf_keeps ..); case hl => decide)

theorem Dev.deviceAsk_keeps (code res : Nat) (d : Dev) : Dev.keeps [.ctr, .cal] d (Dev.deviceAsk code res d) := by
  unfold Dev.deviceAsk
  repeat' first
    | with_reducible apply Dev.keeps_refl
    | with_reducible assumption
    | dsimp only
    | split
    | (with_reducible apply Dev.keeps_tr (Dev.bump_keeps ..); case hl => decide)
    | (with_reducible apply Dev.keeps_tr (Dev.claim_keeps ..); case hl => decide)
    | (with_reducible apply Dev.keeps_tr (Dev.claim_keeps' (by assumption)); case hl => decide)
    | (with_reducible apply Dev.keeps_tr (Dev.countScrubDefer_keeps ..); case hl => decide)

theorem Dev.turnAct_keeps (t code res : Nat) (dflt : Bool) (d : Dev) : Dev.keeps [.ctr, .cal] d (Dev.turnAct t code res dflt d) := by
  unfold Dev.turnAct
  repeat' first
    | with_reducible apply Dev.keeps_refl
    | with_reducible assumption
    | dsimp only
    | split
    | (with_reducible apply Dev.keeps_tr (Dev.deviceAsk_keeps ..); case hl => decide)
    | (with_reducible apply Dev.keeps_tr (Dev.onCal_keeps ..); case hl => decide)

theorem Dev.scrubAct_keeps (t code res : Nat) (d : Dev) : Dev.keeps [.ctr, .cal] d (Dev.scrubAct t code res d) := by
  unfold Dev.scrubAct
  repeat' first
    | with_reducible apply Dev.keeps_refl
    | with_reducible assumption
    | dsimp only
    | split
    | (with_reducible apply Dev.keeps_tr (Dev.deviceAsk_keeps ..); case hl => decide)
    | (with_reducible apply Dev.keeps_tr (Dev.onCal_keeps ..); case hl => decide)
    | (with_reducible apply Dev.keeps_optmap; case' h => intro _ _)

theorem Dev.periodic_keeps (t : Nat) (d : Dev) : Dev.keeps [.ctr, .cal] d (Dev.periodic t d) := by
  unfold Dev.periodic
  repeat' first
    | with_reducible apply Dev.keeps_refl
    | with_reducible assumption
    | dsimp only
    | split
    | (with_reducible apply Dev.keeps_tr (Dev.deviceAsk_keeps ..); case hl => decide)
    | (with_reducible apply Dev.keeps_tr (Dev.scrubAct_keeps ..); case hl => decide)
    | (with_reducible apply Dev.keeps_tr (Dev.turnAct_keeps ..); case hl => decide)
    | (with_reducible apply Dev.keeps_fold_tr; case' hf => intro _ _)
    | (with_reducible apply Dev.keeps_optmap; case' h => intro _ _)

theorem Dev.askedAct_keeps (q : Req) (d : Dev) : Dev.keeps [.out, .ctr, .spl, .hif, .cal, .mem, .cap, .slc] d (Dev.askedAct q d) := by
  unfold Dev.askedAct
  repeat' first
    | with_reducible apply Dev.keeps_refl
    | with_reducible assumption
    | dsimp only
    | split
    | (with_reducible apply Dev.keeps_tr (Dev.bump_keeps ..); case hl => decide)
    | (with_reducible apply Dev.keeps_tr (Dev.claim_keeps ..); case hl => decide)
    | (with_reducible apply Dev.keeps_tr (Dev.claim_keeps' (by assumption)); case hl => decide)
    | (with_reducible apply Dev.keeps_tr (Dev.countScrubDefer_keeps ..); case hl => decide)
    | (with_reducible apply Dev.keeps_tr (Dev.logIns_keeps ..); case hl => decide)

theorem Dev.markSlot_keeps (d : Dev) : Dev.keeps [.cal] d (Dev.markSlot d) := by
  unfold Dev.markSlot
  repeat' first
    | with_reducible apply Dev.keeps_refl
    | with_reducible assumption
    | dsimp only
    | split
    | (with_reducible apply Dev.keeps_tr (Dev.onCal_keeps ..); case hl => decide)

theorem Dev.onPeriod_keeps (i : Ins) (f : Period → Period) (d : Dev) : Dev.keeps [.cal] d (Dev.onPeriod i f d) := by
  unfold Dev.onPeriod
  repeat' first
    | with_reducible apply Dev.keeps_refl
    | with_reducible assumption
    | dsimp only
    | split
    | (with_reducible apply Dev.keeps_tr (Dev.onCal_keeps ..); case hl => decide)

theorem Dev.compared_keeps (tab first n : Nat) (not' : List Nat) (d : Dev) : Dev.keeps [.tbl] d (Dev.compared tab first n not' d) := by
  unfold Dev.compared
  repeat' first
    | with_reducible apply Dev.keeps_refl
    | with_reducible assumption
    | dsimp only
    | split
    | (with_reducible apply Dev.keeps_tr (Dev.onTbl_keeps ..); case hl => decide)
    | (with_reducible apply Dev.keeps_fold_tr; case' hf => intro _ _)

theorem Dev.scrubStep_keeps (n : Nat) (h : Hold) (bad shadowErr : List Nat) (d : Dev) : Dev.keeps [.ctr, .lay, .path, .tbl] d (Dev.scrubStep n h bad shadowErr d) := by
  unfold Dev.scrubStep
  repeat' first
    | with_reducible apply Dev.keeps_refl
    | with_reducible assumption
    | dsimp only
    | split
    | (with_reducible apply Dev.keeps_tr (Dev.add_keeps ..); case hl => decide)
    | (with_reducible apply Dev.keeps_tr (Dev.compared_keeps ..); case hl => decide)
    | (with_reducible apply Dev.keeps_tr (Dev.startRepair_keeps ..); case hl => decide)
    | (with_reducible apply Dev.keeps_fold_tr; case' hf => intro _ _)

theorem Dev.closeOne_keeps (d : Dev) : Dev.keeps [.ctr, .tbl] d (Dev.closeOne d) := by
  unfold Dev.closeOne
  repeat' first
    | with_reducible apply Dev.keeps_refl
    | with_reducible assumption
    | dsimp only
    | split
    | (with_reducible apply Dev.keeps_tr (Dev.add_keeps ..); case hl => decide)
    | (with_reducible first | (apply Dev.keeps_up_tbl; case hx => decide))

theorem Dev.store_keeps (h : Hold) (d : Dev) : Dev.keeps [.cal] d (Dev.store h d) := by
  unfold Dev.store
  repeat' first
    | with_reducible apply Dev.keeps_refl
    | with_reducible assumption
    | dsimp only
    | split
    | (with_reducible apply Dev.keeps_tr (Dev.onCal_keeps ..); case hl => decide)
    | (with_reducible apply Dev.keeps_optmap; case' h => intro _ _)

theorem Dev.stepEnd_keeps (h : Hold) (d : Dev) : Dev.keeps [.ctr, .tbl, .aut] d (Dev.stepEnd h d) := by
  unfold Dev.stepEnd
  repeat' first
    | with_reducible apply Dev.keeps_refl
    | with_reducible assumption
    | dsimp only
    | split
    | (with_reducible apply Dev.keeps_tr (Dev.bumpIf_keeps ..); case hl => decide)
    | (with_reducible apply Dev.keeps_tr (Dev.onAut_keeps ..); case hl => decide)
    | (with_reducible apply Dev.keeps_tr (Dev.onTbl_keeps ..); case hl => decide)

theorem Dev.actOver_keeps (h : Hold) (d : Dev) : Dev.keeps [.pclk, .reel] d (Dev.actOver h d) := by
  unfold Dev.actOver
  repeat' first
    | with_reducible apply Dev.keeps_refl
    | with_reducible assumption
    | dsimp only
    | split
    | (with_reducible apply Dev.keeps_tr (Dev.due_keeps ..); case hl => decide)
    | (with_reducible apply Dev.keeps_tr (Dev.dueNs_keeps ..); case hl => decide)

theorem Dev.retake_keeps (code res : Nat) (d : Dev) : Dev.keeps [.ctr, .path, .cal] d (Dev.retake code res d) := by
  unfold Dev.retake
  repeat' first
    | with_reducible apply Dev.keeps_refl
    | with_reducible assumption
    | dsimp only
    | split
    | (with_reducible apply Dev.keeps_tr (Dev.deviceAsk_keeps ..); case hl => decide)
    | (with_reducible apply Dev.keeps_tr (Dev.onCal_keeps ..); case hl => decide)
    | (with_reducible apply Dev.keeps_tr (Dev.onPath_keeps ..); case hl => decide)

theorem Dev.readTemps_keeps (ts : List Int) (d : Dev) : Dev.keeps [.ctr, .pwr] d (Dev.readTemps ts d) := by
  unfold Dev.readTemps
  repeat' first
    | with_reducible apply Dev.keeps_refl
    | with_reducible assumption
    | dsimp only
    | split
    | (with_reducible apply Dev.keeps_tr (Dev.bumpIf_keeps ..); case hl => decide)
    | (with_reducible apply Dev.keeps_tr (Dev.onPwr_keeps ..); case hl => decide)

theorem Dev.letGo_keeps (p : Nat) (ph : SpPhase) (d : Dev) : Dev.keeps [.spl] d (Dev.letGo p ph d) := by
  unfold Dev.letGo
  repeat' first
    | with_reducible apply Dev.keeps_refl
    | with_reducible assumption
    | dsimp only
    | split
    | (with_reducible apply Dev.keeps_tr (Dev.onProg_keeps ..); case hl => decide)
    | (with_reducible apply Dev.keeps_tr (Dev.onSpl_keeps ..); case hl => decide)

theorem Dev.awaitRoom_keeps (d : Dev) : Dev.keeps [.ctr, .spl] d (Dev.awaitRoom d) := by
  unfold Dev.awaitRoom
  repeat' first
    | with_reducible apply Dev.keeps_refl
    | with_reducible assumption
    | dsimp only
    | split
    | (with_reducible apply Dev.keeps_tr (Dev.bump_keeps ..); case hl => decide)
    | (with_reducible apply Dev.keeps_tr (Dev.onSpl_keeps ..); case hl => decide)

theorem Dev.refuseProg_keeps (x : Prog) (ws : List W) (st : Nat) (d : Dev) : Dev.keeps [.out, .ctr, .spl, .hif, .mem, .cap, .slc] d (Dev.refuseProg x ws st d) := by
  unfold Dev.refuseProg
  repeat' first
    | with_reducible apply Dev.keeps_refl
    | with_reducible assumption
    | dsimp only
    | split
    | (with_reducible apply Dev.keeps_tr (Dev.append_keeps ..); case hl => decide)
    | (with_reducible apply Dev.keeps_tr (Dev.endProg_keeps ..); case hl => decide)

theorem Dev.holdOffer_keeps (o : Offer) (forAt : Bool) (d : Dev) : Dev.keeps [.ctr, .spl] d (Dev.holdOffer o forAt d) := by
  unfold Dev.holdOffer
  repeat' first
    | with_reducible apply Dev.keeps_refl
    | with_reducible assumption
    | dsimp only
    | split
    | (with_reducible apply Dev.keeps_tr (Dev.bumpIf_keeps ..); case hl => decide)
    | (with_reducible apply Dev.keeps_tr (Dev.onSpl_keeps ..); case hl => decide)

theorem Dev.countHold_keeps (q : Nat) (d : Dev) : Dev.keeps [.ctr, .path] d (Dev.countHold q d) := by
  unfold Dev.countHold
  repeat' first
    | with_reducible apply Dev.keeps_refl
    | with_reducible assumption
    | dsimp only
    | split
    | (with_reducible apply Dev.keeps_tr (Dev.bump_keeps ..); case hl => decide)
    | (with_reducible apply Dev.keeps_tr (Dev.onCopy_keeps ..); case hl => decide)

theorem Dev.trimLine_keeps (port : Nat) (d : Dev) : Dev.keeps [.path] d (Dev.trimLine port d) := by
  unfold Dev.trimLine
  repeat' first
    | with_reducible apply Dev.keeps_refl
    | with_reducible assumption
    | dsimp only
    | split
    | (with_reducible apply Dev.keeps_tr (Dev.onPath_keeps ..); case hl => decide)
    | (with_reducible apply Dev.keeps_optmap; case' h => intro _ _)

theorem Dev.takeHead_keeps (q : Nat) (d : Dev) : Dev.keeps [.out, .ctr, .path, .brd] d (Dev.takeHead q d) := by
  unfold Dev.takeHead
  repeat' first
    | with_reducible apply Dev.keeps_refl
    | with_reducible assumption
    | dsimp only
    | split
    | (with_reducible apply Dev.keeps_tr (Dev.add_keeps ..); case hl => decide)
    | (with_reducible apply Dev.keeps_tr (Dev.bump_keeps ..); case hl => decide)
    | (with_reducible apply Dev.keeps_tr (Dev.charge_keeps ..); case hl => decide)
    | (with_reducible apply Dev.keeps_tr (Dev.onCopy_keeps ..); case hl => decide)
    | (with_reducible apply Dev.keeps_tr (Dev.onLink_keeps ..); case hl => decide)
    | (with_reducible apply Dev.keeps_tr (Dev.onPath_keeps ..); case hl => decide)
    | (with_reducible apply Dev.keeps_tr (Dev.trimLine_keeps ..); case hl => decide)
    | (with_reducible apply Dev.keeps_tr (Dev.unqueue_keeps ..); case hl => decide)

theorem Dev.pick_keeps (port : Nat) (d : Dev) : Dev.keeps [.out, .ctr, .path, .brd] d (Dev.pick port d) := by
  unfold Dev.pick
  repeat' first
    | with_reducible apply Dev.keeps_refl
    | with_reducible assumption
    | dsimp only
    | split
    | (with_reducible apply Dev.keeps_tr (Dev.charge_keeps ..); case hl => decide)
    | (with_reducible apply Dev.keeps_tr (Dev.countHold_keeps ..); case hl => decide)
    | (with_reducible apply Dev.keeps_tr (Dev.onPath_keeps ..); case hl => decide)
    | (with_reducible apply Dev.keeps_tr (Dev.takeHead_keeps ..); case hl => decide)
    | (with_reducible apply Dev.keeps_fold_tr; case' hf => intro _ _)
    | (with_reducible apply Dev.keeps_optmap; case' h => intro _ _)

theorem Dev.halve_keeps (c : Nat) (d : Dev) : Dev.keeps [.rdm] d (Dev.halve c d) := by
  unfold Dev.halve
  repeat' first
    | with_reducible apply Dev.keeps_refl
    | with_reducible assumption
    | dsimp only
    | split
    | (with_reducible apply Dev.keeps_tr (Dev.onConn_keeps ..); case hl => decide)

theorem Dev.goBackN_keeps (c counter : Nat) (d : Dev) : Dev.keeps [.drawn, .out, .ctr, .hif, .lay, .path, .log, .brd, .rdm, .sto] d (Dev.goBackN c counter d) := by
  unfold Dev.goBackN
  repeat' first
    | with_reducible apply Dev.keeps_refl
    | with_reducible assumption
    | dsimp only
    | split
    | (with_reducible apply Dev.keeps_tr (Dev.bump_keeps ..); case hl => decide)
    | (with_reducible apply Dev.keeps_tr (Dev.connError_keeps ..); case hl => decide)
    | (with_reducible apply Dev.keeps_tr (Dev.onConn_keeps ..); case hl => decide)
    | (with_reducible apply Dev.keeps_tr (Dev.sendReq_keeps ..); case hl => decide)
    | (with_reducible apply Dev.keeps_fold_tr; case' hf => intro _ _)

theorem Dev.retryParts_keeps (d : Dev) : Dev.keeps [.drawn, .out, .ctr, .lay, .path, .brd, .rdm, .sto] d (Dev.retryParts d) := by
  unfold Dev.retryParts
  repeat' first
    | with_reducible apply Dev.keeps_refl
    | with_reducible assumption
    | dsimp only
    | split
    | (with_reducible apply Dev.keeps_tr (Dev.issuePart_keeps ..); case hl => decide)
    | (with_reducible apply Dev.keeps_fold_tr; case' hf => intro _ _)

theorem Dev.ackTo_keeps (c psn : Nat) (d : Dev) : Dev.keeps [.drawn, .out, .ctr, .lay, .path, .brd, .rdm, .sto] d (Dev.ackTo c psn d) := by
  unfold Dev.ackTo
  repeat' first
    | with_reducible apply Dev.keeps_refl
    | with_reducible assumption
    | dsimp only
    | split
    | (with_reducible apply Dev.keeps_tr (Dev.onConn_keeps ..); case hl => decide)
    | (with_reducible apply Dev.keeps_tr (Dev.retryParts_keeps ..); case hl => decide)

theorem Dev.notify'_keeps (c : Nat) (ce : Bool) (d : Dev) : Dev.keeps [.out, .ctr, .lay, .path, .brd, .rdm] d (Dev.notify' c ce d) := by
  unfold Dev.notify'
  repeat' first
    | with_reducible apply Dev.keeps_refl
    | with_reducible assumption
    | dsimp only
    | split
    | (with_reducible apply Dev.keeps_tr (Dev.bump_keeps ..); case hl => decide)
    | (with_reducible apply Dev.keeps_tr (Dev.onConn_keeps ..); case hl => decide)
    | (with_reducible apply Dev.keeps_tr (Dev.rdmaSend_keeps ..); case hl => decide)

theorem Dev.place_keeps (p : RPkt) (d : Dev) : Dev.keeps [.out, .ctr, .mem, .cap, .slc] d (Dev.place p d) := by
  unfold Dev.place
  repeat' first
    | with_reducible apply Dev.keeps_refl
    | with_reducible assumption
    | dsimp only
    | split
    | (with_reducible apply Dev.keeps_tr (Dev.add_keeps ..); case hl => decide)
    | (with_reducible apply Dev.keeps_tr (Dev.bump_keeps ..); case hl => decide)
    | (with_reducible apply Dev.keeps_tr (Dev.ownerWrite_keeps ..); case hl => decide)

theorem Dev.answerRead_keeps (p : RPkt) (d : Dev) : Dev.keeps [.out, .ctr, .lay, .path, .brd, .rdm, .slc] d (Dev.answerRead p d) := by
  unfold Dev.answerRead
  repeat' first
    | with_reducible apply Dev.keeps_refl
    | with_reducible assumption
    | dsimp only
    | split
    | (with_reducible apply Dev.keeps_tr (Dev.add_keeps ..); case hl => decide)
    | (with_reducible apply Dev.keeps_tr (Dev.bump_keeps ..); case hl => decide)
    | (with_reducible apply Dev.keeps_tr (Dev.debitSlice_keeps ..); case hl => decide)
    | (with_reducible apply Dev.keeps_tr (Dev.rdmaSend_keeps ..); case hl => decide)
    | (with_reducible apply Dev.keeps_fold_tr; case' hf => intro _ _)

theorem Dev.respond_keeps (p : RPkt) (d : Dev) : Dev.keeps [.out, .ctr, .lay, .path, .brd, .mem, .cap, .rdm, .slc] d (Dev.respond p d) := by
  unfold Dev.respond
  repeat' first
    | with_reducible apply Dev.keeps_refl
    | with_reducible assumption
    | dsimp only
    | split
    | (with_reducible apply Dev.keeps_tr (Dev.answerRead_keeps ..); case hl => decide)
    | (with_reducible apply Dev.keeps_tr (Dev.bump_keeps ..); case hl => decide)
    | (with_reducible apply Dev.keeps_tr (Dev.onConn_keeps ..); case hl => decide)
    | (with_reducible apply Dev.keeps_tr (Dev.place_keeps ..); case hl => decide)
    | (with_reducible apply Dev.keeps_tr (Dev.rdmaSend_keeps ..); case hl => decide)

theorem Dev.answered_keeps (p : RPkt) (d : Dev) : Dev.keeps [.drawn, .out, .ctr, .hif, .lay, .path, .log, .brd, .rdm, .sto] d (Dev.answered p d) := by
  unfold Dev.answered
  repeat' first
    | with_reducible apply Dev.keeps_refl
    | with_reducible assumption
    | dsimp only
    | split
    | (with_reducible apply Dev.keeps_tr (Dev.ackTo_keeps ..); case hl => decide)
    | (with_reducible apply Dev.keeps_tr (Dev.bump_keeps ..); case hl => decide)
    | (with_reducible apply Dev.keeps_tr (Dev.connError_keeps ..); case hl => decide)
    | (with_reducible apply Dev.keeps_tr (Dev.goBackN_keeps ..); case hl => decide)
    | (with_reducible apply Dev.keeps_tr (Dev.halve_keeps ..); case hl => decide)

theorem Dev.rdmaPacket_keeps (enc : Bool) (p : RPkt) (d : Dev) : Dev.keeps [.drawn, .out, .ctr, .hif, .lay, .path, .log, .brd, .mem, .cap, .rdm, .slc, .sto] d (Dev.rdmaPacket enc p d) := by
  unfold Dev.rdmaPacket
  repeat' first
    | with_reducible apply Dev.keeps_refl
    | with_reducible assumption
    | dsimp only
    | split
    | (with_reducible apply Dev.keeps_tr (Dev.answered_keeps ..); case hl => decide)
    | (with_reducible apply Dev.keeps_tr (Dev.bump_keeps ..); case hl => decide)
    | (with_reducible apply Dev.keeps_tr (Dev.connError_keeps ..); case hl => decide)
    | (with_reducible apply Dev.keeps_tr (Dev.notify'_keeps ..); case hl => decide)
    | (with_reducible apply Dev.keeps_tr (Dev.onConn_keeps ..); case hl => decide)
    | (with_reducible apply Dev.keeps_tr (Dev.place_keeps ..); case hl => decide)
    | (with_reducible apply Dev.keeps_tr (Dev.respond_keeps ..); case hl => decide)
    | (with_reducible apply Dev.keeps_tr (Dev.touchConn_keeps ..); case hl => decide)

theorem Dev.takeDown_keeps (p : Nat) (d : Dev) : Dev.keeps [.pclk, .out, .ctr, .reel, .spl, .hif, .lay, .shd, .path, .tbl, .log, .brd, .cal, .mem, .cap, .rdm, .she, .slc] d (Dev.takeDown p d) := by
  unfold Dev.takeDown
  repeat' first
    | with_reducible apply Dev.keeps_refl
    | with_reducible assumption
    | dsimp only
    | split
    | (with_reducible apply Dev.keeps_tr (Dev.linkLoss_keeps ..); case hl => decide)
    | (with_reducible apply Dev.keeps_tr (Dev.lossHandled_keeps ..); case hl => decide)
    | (with_reducible apply Dev.keeps_tr (Dev.onPort_keeps ..); case hl => decide)
    | (with_reducible apply Dev.keeps_tr (Dev.portGone_keeps ..); case hl => decide)

theorem Dev.recomputeNow_keeps (p : Nat) (d : Dev) : Dev.keeps [.out, .ctr, .path, .brd] d (Dev.recomputeNow p d) := by
  unfold Dev.recomputeNow
  repeat' first
    | with_reducible apply Dev.keeps_refl
    | with_reducible assumption
    | dsimp only
    | split
    | (with_reducible apply Dev.keeps_tr (Dev.applyHeadroom_keeps ..); case hl => decide)
    | (with_reducible apply Dev.keeps_tr (Dev.onAcct_keeps ..); case hl => decide)
    | (with_reducible apply Dev.keeps_tr (Dev.recompute_keeps ..); case hl => decide)
    | (with_reducible apply Dev.keeps_fold_tr; case' hf => intro _ _)

theorem Dev.portset_keeps (p : Nat) (c : Port) (d : Dev) : Dev.keeps [.pclk, .out, .ctr, .reel, .spl, .hif, .lay, .shd, .path, .tbl, .log, .brd, .cal, .mem, .cap, .rdm, .she, .slc] d (Dev.portset p c d) := by
  unfold Dev.portset
  repeat' first
    | with_reducible apply Dev.keeps_refl
    | with_reducible assumption
    | dsimp only
    | split
    | (with_reducible apply Dev.keeps_tr (Dev.onBrd_keeps ..); case hl => decide)
    | (with_reducible apply Dev.keeps_tr (Dev.onLink_keeps ..); case hl => decide)
    | (with_reducible apply Dev.keeps_tr (Dev.onPath_keeps ..); case hl => decide)
    | (with_reducible apply Dev.keeps_tr (Dev.recomputeNow_keeps ..); case hl => decide)
    | (with_reducible apply Dev.keeps_tr (Dev.takeDown_keeps ..); case hl => decide)

theorem Dev.braidUp_keeps (p : Nat) (d : Dev) : Dev.keeps [.path, .brd] d (Dev.braidUp p d) := by
  unfold Dev.braidUp
  repeat' first
    | with_reducible apply Dev.keeps_refl
    | with_reducible assumption
    | dsimp only
    | split
    | (with_reducible apply Dev.keeps_tr (Dev.onAcct_keeps ..); case hl => decide)
    | (with_reducible apply Dev.keeps_tr (Dev.onLink_keeps ..); case hl => decide)
    | (with_reducible apply Dev.keeps_fold_tr; case' hf => intro _ _)

theorem Dev.refSlot_keeps (n : Nat) (f : Nat → Nat) (d : Dev) : Dev.keeps [.she] d (Dev.refSlot n f d) := by
  unfold Dev.refSlot
  repeat' first
    | with_reducible apply Dev.keeps_refl
    | with_reducible assumption
    | dsimp only
    | split
    | (with_reducible apply Dev.keeps_tr (Dev.onShe_keeps ..); case hl => decide)

theorem Dev.startCmd_keeps (c : Cmd) (ps : List Part) (d : Dev) : Dev.keeps [.drawn, .out, .ctr, .hif, .lay, .path, .log, .brd, .rdm, .sto] d (Dev.startCmd c ps d) := by
  unfold Dev.startCmd
  repeat' first
    | with_reducible apply Dev.keeps_refl
    | with_reducible assumption
    | dsimp only
    | split
    | (with_reducible apply Dev.keeps_tr (Dev.bumpIf_keeps ..); case hl => decide)
    | (with_reducible apply Dev.keeps_tr (Dev.finishCmd_keeps ..); case hl => decide)
    | (with_reducible apply Dev.keeps_tr (Dev.issuePart_keeps ..); case hl => decide)
    | (with_reducible apply Dev.keeps_tr (Dev.onSto_keeps ..); case hl => decide)
    | (with_reducible apply Dev.keeps_tr (Dev.startDesc_keeps ..); case hl => decide)
    | (with_reducible apply Dev.keeps_fold_tr; case' hf => intro _ _)

theorem Dev.orderWait_keeps (c : Cmd) (d : Dev) : Dev.keeps [.ctr, .sto] d (Dev.orderWait c d) := by
  unfold Dev.orderWait
  repeat' first
    | with_reducible apply Dev.keeps_refl
    | with_reducible assumption
    | dsimp only
    | split
    | (with_reducible apply Dev.keeps_tr (Dev.bump_keeps ..); case hl => decide)
    | (with_reducible apply Dev.keeps_tr (Dev.onSto_keeps ..); case hl => decide)

theorem Dev.storeRow_keeps (op q id : Nat) (scatter : List (Nat × Nat)) (d : Dev) : Dev.keeps [.drawn, .out, .ctr, .hif, .lay, .path, .log, .brd, .rdm, .sto] d (Dev.storeRow op q id scatter d) := by
  unfold Dev.storeRow
  repeat' first
    | with_reducible apply Dev.keeps_refl
    | with_reducible assumption
    | dsimp only
    | split
    | (with_reducible apply Dev.keeps_tr (Dev.orderWait_keeps ..); case hl => decide)
    | (with_reducible apply Dev.keeps_tr (Dev.refuseCmd_keeps ..); case hl => decide)
    | (with_reducible apply Dev.keeps_tr (Dev.startCmd_keeps ..); case hl => decide)

theorem Dev.writePage_keeps (p : Page) (d : Dev) : Dev.keeps [.drawn, .out, .ctr, .hif, .lay, .path, .log, .brd, .rdm, .sto] d (Dev.writePage p d) := by
  unfold Dev.writePage
  repeat' first
    | with_reducible apply Dev.keeps_refl
    | with_reducible assumption
    | dsimp only
    | split
    | (with_reducible apply Dev.keeps_tr (Dev.onLog_keeps ..); case hl => decide)
    | (with_reducible apply Dev.keeps_tr (Dev.startCmd_keeps ..); case hl => decide)
    | (with_reducible apply Dev.keeps_tr (Dev.tagTaken_keeps ..); case hl => decide)
    | (with_reducible apply Dev.keeps_tr (Dev.tagWait_keeps ..); case hl => decide)
    | (with_reducible apply Dev.keeps_tr (Dev.takeTags_keeps ..); case hl => decide)
    | (with_reducible apply Dev.keeps_optmap; case' h => intro _ _)

theorem Dev.freePage_keeps (seq : Nat) (d : Dev) : Dev.keeps [.log] d (Dev.freePage seq d) := by
  unfold Dev.freePage
  repeat' first
    | with_reducible apply Dev.keeps_refl
    | with_reducible assumption
    | dsimp only
    | split
    | (with_reducible apply Dev.keeps_tr (Dev.onLog_keeps ..); case hl => decide)

theorem Dev.setDoneWith_keeps (st recs n : Nat) (d : Dev) : Dev.keeps [.boot] d (Dev.setDoneWith st recs n d) := by
  unfold Dev.setDoneWith
  repeat' first
    | with_reducible apply Dev.keeps_refl
    | with_reducible assumption
    | dsimp only
    | split
    | (with_reducible apply Dev.keeps_tr (Dev.onBoot_keeps ..); case hl => decide)

theorem Dev.bootResult_keeps (st : Nat) (d : Dev) : Dev.keeps [.boot] d (Dev.bootResult st d) := by
  unfold Dev.bootResult
  repeat' first
    | with_reducible apply Dev.keeps_refl
    | with_reducible assumption
    | dsimp only
    | split
    | (with_reducible apply Dev.keeps_tr (Dev.onBoot_keeps ..); case hl => decide)

theorem Dev.setRd_keeps (c : Nat) (rd : BitVec 5) (v : Nat) (d : Dev) : Dev.keeps [.cap] d (Dev.setRd c rd v d) := by
  unfold Dev.setRd
  repeat' first
    | with_reducible apply Dev.keeps_refl
    | with_reducible assumption
    | dsimp only
    | split
    | (with_reducible apply Dev.keeps_tr (Dev.onCore_keeps ..); case hl => decide)

theorem Dev.coreReset_keeps (c : Nat) (d : Dev) : Dev.keeps [.ctr, .hif, .lay, .aut, .cap] d (Dev.coreReset c d) := by
  unfold Dev.coreReset
  repeat' first
    | with_reducible apply Dev.keeps_refl
    | with_reducible assumption
    | dsimp only
    | split
    | (with_reducible apply Dev.keeps_tr (Dev.add_keeps ..); case hl => decide)
    | (with_reducible apply Dev.keeps_tr (Dev.dropCleats_keeps ..); case hl => decide)
    | (with_reducible apply Dev.keeps_tr (Dev.leaveWaits_keeps ..); case hl => decide)
    | (with_reducible apply Dev.keeps_tr (Dev.onAut_keeps ..); case hl => decide)
    | (with_reducible apply Dev.keeps_tr (Dev.onCore_keeps ..); case hl => decide)
    | (with_reducible apply Dev.keeps_tr (Dev.onHif_keeps ..); case hl => decide)

theorem Dev.storeCheck_keeps (f ecc : Nat) (d : Dev) : Dev.keeps [.ctr] d (Dev.storeCheck f ecc d) := by
  unfold Dev.storeCheck
  repeat' first
    | with_reducible apply Dev.keeps_refl
    | with_reducible assumption
    | dsimp only
    | split
    | (with_reducible apply Dev.keeps_tr (Dev.bumpIf_keeps ..); case hl => decide)

theorem Dev.abortRing_keeps (q : Nat) (ring : List (List Byte)) (d : Dev) : Dev.keeps [.hif] d (Dev.abortRing q ring d) := by
  unfold Dev.abortRing
  repeat' first
    | with_reducible apply Dev.keeps_refl
    | with_reducible assumption
    | dsimp only
    | split
    | (with_reducible apply Dev.keeps_tr (Dev.onQp_keeps ..); case hl => decide)
    | (with_reducible apply Dev.keeps_optmap; case' h => intro _ _)

theorem Dev.finish_keeps (f : Nat) (t : Term) (d : Dev) : Dev.keeps [.out, .ctr, .hif, .lay, .shd, .path, .log, .brd, .mem, .cap, .rdm, .slc] d (Dev.finish f t d) := by
  unfold Dev.finish
  repeat' first
    | with_reducible apply Dev.keeps_refl
    | with_reducible assumption
    | dsimp only
    | split
    | (with_reducible apply Dev.keeps_tr (Dev.abandonSubs_keeps ..); case hl => decide)
    | (with_reducible apply Dev.keeps_tr (Dev.onFibre_keeps ..); case hl => decide)
    | (with_reducible apply Dev.keeps_tr (Dev.park_keeps ..); case hl => decide)
    | (with_reducible apply Dev.keeps_tr (Dev.releaseNow_keeps ..); case hl => decide)
    | (with_reducible apply Dev.keeps_tr (Dev.stash_keeps ..); case hl => decide)

theorem Dev.openBundle_keeps (f t : Nat) (d : Dev) : Dev.keeps [.pclk, .reel, .lay] d (Dev.openBundle f t d) := by
  unfold Dev.openBundle
  repeat' first
    | with_reducible apply Dev.keeps_refl
    | with_reducible assumption
    | dsimp only
    | split
    | (with_reducible apply Dev.keeps_tr (Dev.due_keeps ..); case hl => decide)
    | (with_reducible apply Dev.keeps_tr (Dev.onFibre_keeps ..); case hl => decide)
    | (with_reducible first | (apply Dev.keeps_up_lay; case hx => decide))

theorem Dev.late_keeps (f lat : Nat) (keys : List Nat) (d : Dev) : Dev.keeps [.lay] d (Dev.late f lat keys d) := by
  unfold Dev.late
  repeat' first
    | with_reducible apply Dev.keeps_refl
    | with_reducible assumption
    | dsimp only
    | split
    | (with_reducible apply Dev.keeps_tr (Dev.onFibre_keeps ..); case hl => decide)

theorem Dev.storeStore_keeps (f : Nat) (region : BitVec 2) (addr : Nat) (bs : List Byte) (d : Dev) : Dev.keeps [.lay, .mem] d (Dev.storeStore f region addr bs d) := by
  unfold Dev.storeStore
  repeat' first
    | with_reducible apply Dev.keeps_refl
    | with_reducible assumption
    | dsimp only
    | split
    | (with_reducible apply Dev.keeps_tr (Dev.onArch_keeps ..); case hl => decide)
    | (with_reducible apply Dev.keeps_tr (Dev.onFibre_keeps ..); case hl => decide)
    | (with_reducible first | (apply Dev.keeps_up_mem; (case hx => decide); (case hm => exact Dev.memOk_scratch fun h => Memory.writeBytes_wf _ _ _ h)))



/-- What a splice instruction comes to keeps all but the listed parts. -/
def SpRes.keeps (l : List Comp) (d : Dev) : SpRes → Prop
  | .done _ e _ => Dev.keeps l d e
  | .wait e _ _ => Dev.keeps l d e
  | .defer e => Dev.keeps l d e
  | .place e _ => Dev.keeps l d e

/-- What an operation comes to keeps all but the listed parts. -/
def Act.keeps (l : List Comp) (d : Dev) : Act → Prop
  | .done e => Dev.keeps l d e
  | .jump e _ => Dev.keeps l d e
  | .ended e _ => Dev.keeps l d e
  | .trap _ => True
  | .stall => True

theorem Dev.keeps_when {m : List Comp} {a b : Dev} {c : Bool} {f : Dev → Dev} (k : Dev.keeps m a b) (hf : ∀ d, Dev.keeps m d (f d)) :
    Dev.keeps m a (b.when c f) := by
  unfold Dev.when; split
  · exact Dev.keeps_trans k (hf _)
  · exact k
theorem Dev.keeps_with' {α : Type} {m : List Comp} {a b : Dev} {o : Option α} {f : α → Dev → Dev} (k : Dev.keeps m a b)
    (hf : ∀ x d, Dev.keeps m d (f x d)) : Dev.keeps m a (b.with' o f) := by
  unfold Dev.with'; split
  · exact Dev.keeps_trans k (hf _ _)
  · exact k
theorem Dev.keeps_act {m : List Comp} {a b : Dev} {code res bin : Nat} {temp : Int} {f : Hold → Dev → Dev} (hx : Comp.cal ∈ m)
    (k : Dev.keeps m a b) (hf : ∀ h d, Dev.keeps m d (f h d)) : Dev.keeps m a (b.act code res temp bin f) := by
  unfold Dev.act; split
  · exact k
  · exact Dev.keeps_trans (Dev.keeps_trans k (Dev.keeps_mono (Dev.onCal_keeps _ _) (by simpa using hx))) (hf _ _)
theorem Dev.keeps_receive {m : List Comp} {a b : Dev} {p : CKind → Bool} {c ln : Nat} {f : CMsg → Dev → Dev} (hx : Comp.cap ∈ m)
    (k : Dev.keeps m a b) (hf : ∀ x d, Dev.keeps m d (f x d)) : Dev.keeps m a (b.receive p c ln f) := by
  unfold Dev.receive; split
  · exact k
  · exact Dev.keeps_trans (Dev.keeps_trans k (Dev.keeps_mono (Dev.onCap_keeps _ _) (by simpa using hx))) (hf _ _)
theorem Dev.keeps_cryRow {m : List Comp} {a b : Dev} {op q id : Nat} {f : Desc → Dev → Dev} (k : Dev.keeps m a b)
    (hf : ∀ e d, Dev.keeps m d (f e d)) : Dev.keeps m a (b.cryRow op q id f) := by
  unfold Dev.cryRow; split
  · exact k
  · exact Dev.keeps_when k fun d => hf _ d
theorem Dev.keeps_hostRow {m : List Comp} {a b : Dev} {kind op q id : Nat} {f : Desc → Dev → Dev} (k : Dev.keeps m a b)
    (hf : ∀ e d, Dev.keeps m d (f e d)) : Dev.keeps m a (b.hostRow kind op q id f) := by
  unfold Dev.hostRow; split
  · exact k
  · exact Dev.keeps_when k fun d => hf _ d
theorem Dev.keeps_startKey {m : List Comp} {a b : Dev} {q : Nat} {e : Desc} {ok : Bool} {named : List (Nat × Nat)} {t : Option Nat}
    {f : Dev → CryOp → CryOp × Dev} (hx : Comp.hif ∈ m) (hz : Comp.she ∈ m) (k : Dev.keeps m a b)
    (hf : ∀ d o, Dev.keeps m d (f d o).2) : Dev.keeps m a (b.startKey q e ok named t f) := by
  unfold Dev.startKey; dsimp only; split
  · exact Dev.keeps_trans k (Dev.keeps_mono (Dev.complete_keeps _ _ _ _ _) (by simpa using hx))
  · refine Dev.keeps_trans ?_ (Dev.keeps_mono (Dev.onShe_keeps _ _) (by simpa using hz))
    exact Dev.keeps_trans (Dev.keeps_trans k (hf _ _)) (Dev.keeps_mono (Dev.startDesc_keeps _ _ _) (by simpa using hx))
theorem Dev.keeps_reach {m : List Comp} {a b : Dev} {c : Nat} {legal : Bool} {f : Core → Dev → Dev} (hx : Comp.cap ∈ m) (hz : Comp.ctr ∈ m)
    (k : Dev.keeps m a b) (hf : ∀ x d, Dev.keeps m d (f x d)) : Dev.keeps m a (b.reach c legal f) := by
  have bmp : ∀ (o : Nat) (d : Dev), Dev.keeps m d (d.bump o) := fun _ d => Dev.keeps_mono (Dev.bump_keeps _ _) (by simpa using hz)
  unfold Dev.reach; refine Dev.keeps_when k fun d => ?_
  dsimp only
  have h := Dev.keeps_trans (bmp (Reg.capCFetched c) d) (bmp (Reg.capCIssued c) _)
  split
  · exact Dev.keeps_trans h (hf _ _)
  · exact Dev.keeps_trans h (Dev.keeps_mono (Dev.onCore_keeps _ _ _) (by simpa using hx))
theorem Dev.keeps_retire {m : List Comp} {a b : Dev} {c : Nat} {legal : Bool} {f : Core → Dev → Dev} (hx : Comp.cap ∈ m) (hz : Comp.ctr ∈ m)
    (k : Dev.keeps m a b) (hf : ∀ x d, Dev.keeps m d (f x d)) : Dev.keeps m a (b.retire c legal f) :=
  Dev.keeps_reach hx hz k fun x d => Dev.keeps_trans (hf x d) (Dev.keeps_mono (Dev.bump_keeps _ _) (by simpa using hz))
theorem Dev.keeps_store' {m : List Comp} {a b : Dev} {who off size : Nat} {f : Dev → Dev} (hx : Comp.ctr ∈ m) (hz : Comp.cap ∈ m)
    (k : Dev.keeps m a b) (hf : ∀ d, Dev.keeps m d (f d)) : Dev.keeps m a (Dev.store' who off size f b) := by
  unfold Dev.store'; split
  · exact Dev.keeps_trans k (Dev.keeps_mono (Dev.accessFault_keeps _ _ _) (by simp [hx, hz]))
  · exact Dev.keeps_trans k (hf _)
theorem Dev.keeps_rw1c {m : List Comp} {a b : Dev} {who off size : Nat} {f : Dev → Dev} (hx : Comp.ctr ∈ m) (hz : Comp.hif ∈ m)
    (hw : Comp.cap ∈ m) (k : Dev.keeps m a b) (hf : ∀ d, Dev.keeps m d (f d)) : Dev.keeps m a (b.rw1c who off size f) := by
  unfold Dev.rw1c; refine Dev.keeps_store' hx hw k fun d => ?_
  split
  · exact Dev.keeps_mono (Dev.accessErr_keeps _ _ _ _ _) (by simp [hx, hz])
  · exact hf _
theorem Dev.keeps_mailbox {m : List Comp} {a b : Dev} {c : Nat} {g f : Dev → Dev} (hx : Comp.cap ∈ m) (hz : Comp.ctr ∈ m)
    (k : Dev.keeps m a b) (hg : ∀ d, Dev.keeps m d (g d)) (hf : ∀ d, Dev.keeps m d (f d)) : Dev.keeps m a (Dev.mailbox c g f b) := by
  unfold Dev.mailbox; refine Dev.keeps_retire hx hz k fun x d => ?_
  split
  · exact hg _
  · exact hf _
theorem Dev.keeps_settings {m : List Comp} {a b : Dev} {c : Nat} {f : Dev → Dev} (hx : Comp.cap ∈ m) (hz : Comp.boot ∈ m)
    (hw : Comp.ctr ∈ m) (k : Dev.keeps m a b) (hf : ∀ d, Dev.keeps m d (f d)) : Dev.keeps m a (b.settings c f) := by
  unfold Dev.settings; refine Dev.keeps_retire hx hw k fun x d => ?_
  split
  · exact Dev.keeps_refl _ _
  · split
    · exact Dev.keeps_mono (Dev.setDoneWith_keeps _ _ _ _) (by simpa using hz)
    · exact hf _
theorem Dev.keeps_fromStore {m : List Comp} {a b : Dev} {i : Instr} {f : Dev → Dev} (k : Dev.keeps m a b) (hf : ∀ d, Dev.keeps m d (f d)) :
    Dev.keeps m a (b.fromStore i f) := Dev.keeps_when k hf

theorem Dev.keeps_issue {m : List Comp} {a b : Dev} {f : Nat} {g : BitVec 4} {last ill m14 : Bool} {rs ps : List Nat}
    {act : Fibre → Dev → Act} (hl : ∀ y ∈ issued, y ∈ m) (k : Dev.keeps m a b) (hf : ∀ x d, (act x d).keeps m d) :
    Dev.keeps m a (b.issue f g last ill rs ps m14 act) := by
  have fib : ∀ (h : Fibre → Fibre) (d : Dev), Dev.keeps m d (d.onFibre f h) := fun h d => Dev.keeps_mono (Dev.onFibre_keeps _ _ _) (by
    intro y hy; exact hl y (by simp only [List.mem_singleton] at hy; subst hy; decide))
  have trp : ∀ (c : Nat) (d : Dev), Dev.keeps m d (d.trapF f c) := fun c d => Dev.keeps_mono (Dev.trapF_keeps _ _ _) (fun y hy => hl y (by
    revert hy; cases y <;> decide))
  have fin : ∀ (t : Term) (d : Dev), Dev.keeps m d (d.finish f t) := fun c d => Dev.keeps_mono (Dev.finish_keeps _ _ _) (fun y hy => hl y (by
    revert hy; cases y <;> decide))
  have opn : ∀ (t : Nat) (d : Dev), Dev.keeps m d (d.openBundle f t) := fun t d => Dev.keeps_mono (Dev.openBundle_keeps _ _ _)
    (fun y hy => hl y (by revert hy; cases y <;> decide))
  unfold Dev.issue
  split
  · exact k
  · rename_i t ht
    dsimp only
    split
    · exact Dev.keeps_trans (Dev.keeps_trans k (opn _ _)) (trp _ _)
    · split
      · exact Dev.keeps_trans (Dev.keeps_trans k (opn _ _)) (fib _ _)
      · have h := hf ((b.openBundle f t).fibre f) (b.openBundle f t)
        have k := Dev.keeps_trans k (opn t b)
        generalize b.openBundle f t = e at *
        generalize act _ _ = r at *
        cases r with
        | done d => exact Dev.keeps_trans (Dev.keeps_trans k h) (fib _ _)
        | jump d t => exact Dev.keeps_trans (Dev.keeps_trans k h) (fib _ _)
        | ended d t => exact Dev.keeps_trans (Dev.keeps_trans (Dev.keeps_trans k h) (fib _ _)) (fin _ _)
        | trap c => exact Dev.keeps_trans k (trp _ _)
        | stall => exact k

theorem Dev.keeps_lane {m : List Comp} {a b : Dev} {f lane : Nat} {g : BitVec 4} {ill : Bool} {rs : List Nat} {rd : BitVec 5} {pd : BitVec 3}
    {op : Fibre → Dev → LaneOp} (hl : ∀ y ∈ issued, y ∈ m) (k : Dev.keeps m a b) :
    Dev.keeps m a (Dev.lane f g ill rs lane rd pd op b) := by
  unfold Dev.lane
  refine Dev.keeps_issue hl k fun x d => ?_
  unfold Dev.post
  split
  · trivial
  split
  · trivial
  · show Dev.keeps m d _
    have h1 : Comp.lay ∈ m := hl _ (by decide)
    have h2 : Comp.ctr ∈ m := hl _ (by decide)
    refine Dev.keeps_trans ?_ (Dev.keeps_mono (Dev.onFibre_keeps _ _ _) (by simpa using h1))
    apply Dev.keeps_up_lay h1
    exact Dev.keeps_mono (Dev.bumpIf_keeps _ _ _) (by simpa using h2)

theorem Dev.keeps_shareOp {m : List Comp} {a b : Dev} {f : Nat} {g : BitVec 4} {v : BitVec 9} {rs : List Nat} {act : Fibre → Dev → Act}
    (hl : ∀ y ∈ issued, y ∈ m) (k : Dev.keeps m a b) (hf : ∀ x d, (act x d).keeps m d) : Dev.keeps m a (Dev.shareOp f g v rs act b) :=
  Dev.keeps_issue hl k hf

theorem Dev.keeps_runIns {m : List Comp} {a b : Dev} {p : Nat} {row : Ins → Bool} {act : Prog → Ins → Dev → SpRes}
    (hl : ∀ y ∈ logged, y ∈ m) (k : Dev.keeps m a b) (hf : ∀ x i d, (act x i d).keeps m d) : Dev.keeps m a (b.runIns p row act) := by
  have hs : Comp.spl ∈ m := hl _ (by decide)
  have hc : Comp.ctr ∈ m := hl _ (by decide)
  have spl : ∀ (h : Splice → Splice) (d : Dev), Dev.keeps m d (d.onSpl h) := fun h d => Dev.keeps_mono (Dev.onSpl_keeps _ _) (by simpa using hs)
  have bmp : ∀ (o : Nat) (d : Dev), Dev.keeps m d (d.bump o) := fun h d => Dev.keeps_mono (Dev.bump_keeps _ _) (by simpa using hc)
  have log : ∀ (x : Prog) (i : Ins) (st t : Nat) (d : Dev), Dev.keeps m d (d.logIns x i st t) := fun x i st t d =>
    Dev.keeps_mono (Dev.logIns_keeps _ _ _ _ _) (fun y hy => hl y (by revert hy; cases y <;> decide))
  have adv : ∀ (st : Nat) (d : Dev), Dev.keeps m d (d.advance p st) := fun st d =>
    Dev.keeps_mono (Dev.advance_keeps _ _ _) (fun y hy => hl y (by revert hy; cases y <;> decide))
  have go : ∀ (ph : SpPhase) (d : Dev), Dev.keeps m d (d.letGo p ph) := fun ph d =>
    Dev.keeps_mono (Dev.letGo_keeps _ _ _) (fun y hy => hl y (by revert hy; cases y <;> decide))
  unfold Dev.runIns
  split
  · exact k
  · rename_i x hx
    split
    · exact k
    · rename_i i hi
      split
      · exact k
      · split
        · exact Dev.keeps_trans k (Dev.keeps_mono (Dev.awaitRoom_keeps _) (fun y hy => hl y (by revert hy; cases y <;> decide)))
        · dsimp only
          have h : (if i.rsv || !b.mayExec x i then SpRes.done stBadOperand b 0 else act x i b).keeps m b := by
            split
            · exact Dev.keeps_refl _ _
            · exact hf _ _ _
          generalize (if i.rsv || !b.mayExec x i then SpRes.done stBadOperand b 0 else act x i b) = r at h
          cases r with
          | done st d e => exact Dev.keeps_trans (Dev.keeps_trans (Dev.keeps_trans (Dev.keeps_trans k h) (spl _ _)) (log _ _ _ _ _)) (adv _ _)
          | wait d w e => exact Dev.keeps_trans (Dev.keeps_trans (Dev.keeps_trans k h) (spl _ _)) (go _ _)
          | defer d => exact Dev.keeps_trans (Dev.keeps_trans (Dev.keeps_trans (Dev.keeps_trans (Dev.keeps_trans k h) (spl _ _)) (log _ _ _ _ _)) (bmp _ _)) (go _ _)
          | place d w => exact Dev.keeps_trans (Dev.keeps_trans (Dev.keeps_trans k h) (spl _ _)) (go _ _)

/-- A command of the main domain keeps what its effect on the device keeps. -/
theorem State.run_frame {m : List Comp} {ok : Bool} {f : Dev → Dev} {s t : State} (hf : Dev.keeps m s.dev (f s.dev)) (h : s.run ok f = .next t) : Kept m s t := by
  unfold State.run at h
  split at h
  · split at h <;> (injection h with h; subst h)
    · exact ⟨rfl, rfl, rfl, Dev.keeps_refl _ _⟩
    · exact ⟨rfl, rfl, rfl, hf⟩
  · cases h
theorem SpRes.keeps_done {l : List Comp} {d e : Dev} {st x : Nat} (h : Dev.keeps l d e) : (SpRes.done st e x).keeps l d := h
theorem SpRes.keeps_wait {l : List Comp} {d e : Dev} {w : SpWait} {x : Option Nat} (h : Dev.keeps l d e) : (SpRes.wait e w x).keeps l d := h
theorem SpRes.keeps_defer {l : List Comp} {d e : Dev} (h : Dev.keeps l d e) : (SpRes.defer e).keeps l d := h
theorem SpRes.keeps_place {l : List Comp} {d e : Dev} {w : SpWait} (h : Dev.keeps l d e) : (SpRes.place e w).keeps l d := h
theorem Act.keeps_done {l : List Comp} {d e : Dev} (h : Dev.keeps l d e) : (Act.done e).keeps l d := h
theorem Act.keeps_jump {l : List Comp} {d e : Dev} {t : Nat} (h : Dev.keeps l d e) : (Act.jump e t).keeps l d := h
theorem Act.keeps_ended {l : List Comp} {d e : Dev} {t : Term} (h : Dev.keeps l d e) : (Act.ended e t).keeps l d := h
theorem Act.keeps_trap {l : List Comp} {d : Dev} {c : Nat} : (Act.trap c).keeps l d := trivial
theorem Act.keeps_stall {l : List Comp} {d : Dev} : Act.stall.keeps l d := trivial

theorem Dev.keeps_withTokens {m : List Comp} {d : Dev} {x : Prog} {cl : List (Token × Bool)} {f : Dev → SpRes} (hl : ∀ y ∈ claimed, y ∈ m)
    (hf : ∀ d, (f d).keeps m d) : (d.withTokens x cl f).keeps m d := by
  have rel : ∀ (g : Hold → Bool) (d : Dev), Dev.keeps m d ((d.release' g).enterPlaces 64) := fun g d =>
    Dev.keeps_trans (Dev.keeps_mono (Dev.release'_keeps _ _) (fun y hy => hl y (by revert hy; cases y <;> decide)))
      (Dev.keeps_mono (Dev.enterPlaces_keeps _ _) (fun y hy => hl y (by revert hy; cases y <;> decide)))
  have fin : ∀ (e : Dev), Dev.keeps m d e → SpRes.keeps m d (match f e with
      | .done st d k => .done st ((d.release' fun h => h.req.who == .prog x.seq && h.req.code == 0).enterPlaces 64) k
      | r => r) := by
    intro e he
    have h := hf e
    generalize f e = r at h
    cases r with
    | done st d k => exact Dev.keeps_trans (Dev.keeps_trans he h) (rel _ _)
    | wait d w e => exact Dev.keeps_trans he h
    | defer d => exact Dev.keeps_trans he h
    | place d w => exact Dev.keeps_trans he h
  have clm : ∀ (r : Req), Dev.keeps m d (d.claim r).2 := fun r =>
    Dev.keeps_mono (Dev.claim_keeps _ _) (fun y hy => hl y (by revert hy; cases y <;> decide))
  unfold Dev.withTokens
  dsimp only
  split
  · exact fin d (Dev.keeps_refl _ _)
  · split
    · exact fin _ (clm _)
    · exact clm _
    · exact clm _

theorem Dev.keeps_serveQs {m : List Comp} {qs : List Nat} {a : Dev} {b : Dev × List (List Byte) × Bool}
    (hl : ∀ y ∈ [Comp.out, .ctr, .hif, .slc], y ∈ m) (k : Dev.keeps m a b.1) : Dev.keeps m a (qs.foldl Dev.serveQ b).1 := by
  have one : ∀ (b : Dev × List (List Byte) × Bool) (q : Nat), Dev.keeps m b.1 (Dev.serveQ b q).1 := by
    intro b q
    unfold Dev.serveQ
    dsimp only
    split
    · exact Dev.keeps_refl _ _
    · split
      · exact Dev.keeps_mono (Dev.tagWait_keeps _ _) (fun y hy => hl y (by revert hy; cases y <;> decide))
      · split
        · exact Dev.keeps_mono (Dev.rateHold_keeps _ _) (fun y hy => hl y (by revert hy; cases y <;> decide))
        · exact Dev.keeps_mono (Dev.fetchN_keeps _ _ _ _) (fun y hy => hl y (by revert hy; cases y <;> decide))
  induction qs generalizing b with
  | nil => exact k
  | cons q qs ih => exact ih (Dev.keeps_trans k (one b q))

theorem Dev.keeps_runToRead {m : List Comp} {a b e : Dev} {ch n : Nat} {r : Option DReq} (hE : b.runToRead ch n = (r, e))
    (hl : ∀ y ∈ [Comp.ctr, .mem, .dmc], y ∈ m) (k : Dev.keeps m a b) : Dev.keeps m a e := by
  induction n generalizing b with
  | zero => simp only [Dev.runToRead] at hE; injection hE with _ h; exact h ▸ k
  | succ n ih =>
    unfold Dev.runToRead at hE
    split at hE
    · injection hE with _ h; exact h ▸ k
    · rename_i x hx
      have k2 := Dev.keeps_trans k (Dev.keeps_mono (Dev.issueReq_keeps ch x b) (fun y hy => hl y (by revert hy; cases y <;> decide)))
      dsimp only at hE
      split at hE
      · exact ih hE k2
      · injection hE with _ h; exact h ▸ k2
end Sys2Proof.Machine
end

