-- ==== Sys2Proof/Laws/PerInstr.lean ====
section
/-! SUPPORT. No statement of this package is made per instruction as syntax. -/
end

