-- ==== Sys2Proof/Tests/Slice0.lean ====
section
/-! SUPPORT. The model's own tests: a command no device receives is refused, operation words of Tables 4.1 and 4.2, and for
every statement concrete states and operands that meet its hypotheses. -/
namespace Sys2Proof.Tests
set_option Elab.async false
open Sys2Proof.Machine

/-! ## Small states -/

/-- The device out of reset, with its gates open. -/
def live (f : Dev → Dev) : State := { dev := f { boot := { held := false, gated := false, st := .opened } } }

/-- The head word of an instruction (R135). -/
def head (op len field a : Nat) : W := BitVec.ofNat 64 (op + 2 ^ 8 * len + 2 ^ 24 * field + 2 ^ 32 * a)

/-- Program 1, of control queue pair 2, with a target shade. -/
def prog (words : List W) (phase : SpPhase) : Prog :=
  { seq := 1, qp := 2, desc := 0, capstan := false, slice := 0, shaded := true, shade := 5, words, left := 1, phase }

/-- The instruction of a program. -/
def insn (words : List W) : Ins := (insOf words).getD ⟨0, 0, 0, false, false, 0, 0, []⟩

/-- Program 1 in progress, shade 5 OPEN at index 1. -/
def splice (words : List W) (phase : SpPhase) (f : Dev → Dev) : State :=
  live fun d => f { d with spl := { progs := [prog words phase] }, shd := [(0, { st := .current }), (1, { st := .opened, num := 5 })] }

/-- Fibre 8 with work of a role. -/
def work (role : Role) (slot : Nat) (f : Dev → Dev) : State :=
  live fun d => f { d with lay := { fibres := [(8, { run := some { role, pkt := 0 }, slot })] } }

/-- The 64 bytes of a descriptor whose first double words are given. -/
def dsc (ws : List Nat) : List Byte := padTo 64 (ws.flatMap (le 4))

theorem atIns_of {s : State} {p : Nat} {x : Prog} {i : Ins} (h : s.dev.boot.held = false ∧ s.dev.prog p = some x ∧ insOf x.words = some i
    ∧ s.dev.mayRun x = true ∧ s.dev.seqRoom = true ∧ i.rsv = false ∧ s.dev.mayExec x i = true) : s.atIns p x i :=
  let ⟨a, b, c, d, e, f, g⟩ := h; ⟨a, b, c, d, e, f, g⟩

theorem atTable_of {s : State} {p : Nat} {x : Prog} {i : Ins} {n : Nat} (h : (s.dev.boot.held = false ∧ s.dev.prog p = some x
    ∧ insOf x.words = some i ∧ s.dev.mayRun x = true ∧ s.dev.seqRoom = true ∧ i.rsv = false ∧ s.dev.mayExec x i = true)
    ∧ s.dev.target x = .inl n ∧ s.dev.dmc.ready = true ∧ s.dev.holdsFor x.seq = false
    ∧ s.dev.grantable s.dev.cal.waiting { who := .prog x.seq, code := 0, res := 0, claims := s.dev.tableClaims i n } = true
    ∧ s.dev.cal.placeQ = []) : s.atTable p x i n :=
  let ⟨q, a, b, c, d, e⟩ := h; ⟨atIns_of q, a, b, c, d, e⟩

theorem slotOp_of {s : State} {f t : Nat} {c : Instr} {g : BitVec 4} {regs preds : List Nat} {m : Bool} (h : s.dev.boot.held = false
    ∧ f < 4096 ∧ s.dev.fetches f c = true ∧ s.dev.opens f regs (guardPred g :: preds) m = some t) : s.slotOp f t c g regs preds m :=
  let ⟨a, b, c, d⟩ := h; ⟨a, b, c, d⟩

theorem issuesOp_of {s : State} {f t : Nat} {c : Instr} {g : BitVec 4} {regs preds : List Nat} {m : Bool} (h : (s.dev.boot.held = false
    ∧ f < 4096 ∧ s.dev.fetches f c = true ∧ s.dev.opens f regs (guardPred g :: preds) m = some t)
    ∧ guardHolds g (s.begun f t).iss = true) : s.issuesOp f t c g regs preds m := ⟨slotOp_of h.1, h.2⟩

theorem coreRuns_of {s : State} {c : Nat} (h : s.dev.boot.held = false ∧ c < 32 ∧ s.dev.coreReady c = true) : s.coreRuns c := ⟨h.1, h.2.1, h.2.2⟩

theorem nextIs_of {s : State} {k op q : Nat} {e : Desc} (h : s.dev.boot.held = false ∧ q < 65536 ∧ (s.dev.qp q).kind = k
    ∧ (s.dev.qp q).nextDesc = some e ∧ e.op = op ∧ e.done = false) : s.nextIs k op q e :=
  let ⟨a, b, c, d, e, f⟩ := h; ⟨a, b, c, d, e, f⟩

theorem cryIs_of {s : State} {op q : Nat} {e : Desc} (h : s.dev.boot.held = false ∧ q < 65536 ∧ (s.dev.qp q).kind = 3
    ∧ s.dev.desc q e.id = some e ∧ e.op = op ∧ e.started = false) : s.cryIs op q e :=
  let ⟨a, b, c, d, e, f⟩ := h; ⟨a, b, c, d, e, f⟩

theorem storeIs_of {s : State} {op q id : Nat} {sc : List (Nat × Nat)} {e : Desc} {c : Cmd} (h : s.dev.boot.held = false ∧ q < 65536
    ∧ s.dev.desc q id = some e ∧ e.started = false ∧ e.op = op ∧ (s.dev.qp q).kind = 2 ∧ c = cmdOf q id e.gen e.bytes sc
    ∧ storeDescOk e.bytes = true ∧ scatterOk e.bytes c = true ∧ (s.dev.qp q).mayStart id c.ordered = true) : s.storeIs op q id sc e c :=
  let ⟨a, b, c, d, e, f, g, h, i, j⟩ := h; ⟨a, b, c, d, e, f, g, h, i, j⟩

theorem activity_of {s : State} {code res : Nat} {h : Hold} (q : s.dev.boot.held = false
    ∧ s.dev.cal.holds.find? (fun h => h.req.code == code && h.req.res == res && !h.ran) = some h) : s.activity code res h := ⟨q.1, q.2⟩

theorem find_range {α : Type} (v : Nat → α) (l : List Nat) (k : Nat) (h : k ∈ l) : Map.find (l.map fun i => (i, v i)) k = some (v k) := by
  induction l with
  | nil => cases h
  | cons a t ih =>
    by_cases e : a = k
    · simp [Map.find, e]
    · simp [Map.find, e, ih ((List.mem_cons.1 h).resolve_left fun q => e q.symm)]

/-- Every line of one way set taken. -/
def fullSet : Tables := { mac := (ways 0 77).map fun l => (l, { key := 5, result := 0, mask := 1 }) }

/-- An LPM region of n narrow rows. -/
def lpmOf (n : Nat) : Tables := { narrow := List.replicate n { plen := 64, key := 5, result := 0, mask := 2 } }

theorem any_replicate {α : Type} (n : Nat) (a : α) (p : α → Bool) (h : p a = false) : (List.replicate n a).any p = false := by
  induction n with
  | zero => rfl
  | succ k ih => rw [List.replicate_succ, List.any_cons, h, ih]; rfl

theorem lpmOf_narrow (n k : Nat) (hn : 1572864 ≤ n) :
    narrowBand.fits k (lpmOf n).narrowRoom (lpmOf n).narrow = false := by
  unfold Band.fits
  rw [show (lpmOf n).narrow = List.replicate n { plen := 64, key := 5, result := 0, mask := 2 } from rfl,
    any_replicate _ _ _ (by simp [narrowBand]), Bool.or_false]
  simp only [Tables.narrowRoom, lpmOf, List.length_replicate, List.length_nil]
  exact decide_eq_false (by omega)

theorem lpmOf_wide (n k : Nat) (hn : 1572864 ≤ n) : wideBand.fits k (lpmOf n).wideRoom (lpmOf n).wide = false := by
  unfold Band.fits
  rw [show (lpmOf n).wide = [] from rfl, List.any_nil, Bool.or_false]
  simp only [Tables.wideRoom, lpmOf, List.length_replicate, List.length_nil]
  exact decide_eq_false (by omega)

theorem lpmOf_entry (n k key m : Nat) (h : k < 64) : (lpmOf n).narrow.any (Row.isEntry k key m) = false :=
  any_replicate _ _ _ (by simp only [Row.isEntry, Bool.and_eq_false_iff, beq_eq_false_iff_ne]; omega)

/-- An ACL without a free row. -/
def fullAcl : Tables := { acl := (List.range 65536).map fun k => (k, { pos := k, key := 1, cmask := 1, action := 3, mask := 1 }) }

theorem fullAcl_full (r : Nat) (h : r < 65536) : (Map.find fullAcl.acl r).all (fun e => e.mask == 0) = false := by
  simp only [fullAcl, find_range (fun k => ({ pos := k, key := 1, cmask := 1, action := 3, mask := 1 } : AclRow)) _ r (List.mem_range.2 h)]
  rfl

theorem fullAcl_none (p : Nat) : fullAcl.aclAt 1 p = none := by
  simp only [Tables.aclAt, fullAcl, List.find?_eq_none, List.mem_map]
  rintro _ ⟨k, -, rfl⟩ h
  rw [Bool.and_eq_true] at h
  exact absurd h.2 (show ¬ bit 1 1 = true by decide)

/-- The LPM with one entry of length 8. -/
def oneLpm : Tables := { narrow := [{ plen := 8, key := 0x1200000000000000, result := 9, mask := 2 }] }

/-- The ACL with one row, at line 7. -/
def oneAcl : Tables := { acl := [(7, { pos := 5, key := 1, cmask := 1, action := 3, mask := 2 })] }

theorem sum_replicate (n a : Nat) : (List.replicate n a).sum = n * a := by
  induction n with
  | zero => simp
  | succ k ih => rw [List.replicate_succ, List.sum_cons, ih, Nat.succ_mul, Nat.add_comm]

/-- A half of the settings journal with no room left. -/
def fullJournal : Journal := { recs := List.replicate 512 { kind := 1, schema := 1, inst := 0, seq := 0, body := List.replicate 4080 0 } }

theorem fullJournal_room (n : Nat) : fullJournal.room n = false := by
  simp only [Journal.room, Journal.used, fullJournal, List.map_replicate, SetRec.size, List.length_replicate, sum_replicate]
  exact decide_eq_false (by omega)

/-- The general exact table with one entry. -/
def oneExact : Tables := (({} : Tables).setExact 1 0 77 3).getD {}

/-! ## Ill-formed commands are refused, one term for each check of WellFormed.lean -/

theorem test_ill_formed_1 : ([
    .spliceProgramAccept (List.replicate 65537 0),
    .turnBoundary (List.replicate 65 0),
    .moderationTimerExpiry 65536,
    .eventBufferClose 65536,
    .ptpMessageReceive 256 none none none,
    .timeMessageReceive 256 0 0 0 0 false none none,
    .timeMessageReceive 0 0 65536 0 0 false none none,
    .reelSourceLoss 16,
    .frameArrival 256 [] false 0 false none,
    .macControlFrame 256 0,
    .macControlFrame 0 65536,
    .pfcFrameReceive 256 0 (List.replicate 8 0),
    .pfcFrameReceive 0 256 (List.replicate 8 0),
    .pfcFrameReceive 0 0 [],
    .pfcFrameReceive 0 0 (65536 :: List.replicate 7 0),
    .pauseFrameReceive 256 0,
    .pauseFrameReceive 0 65536,
    .pauseTimerExpiry 256 0,
    .pauseTimerExpiry 0 8,
    .packetDispatch 0 4096,
    .copyEgressDispatch 0 0 4096,
    .envelopeExpiry 4096,
    .trapVectorStart 4096,
    .trapRecordDeliver 32,
    .slowTimeout 4096,
    .slowLineTake 4096,
    .injectionTake 4096,
    .nop 4096 0 0,
    .nop 0 0 3,
    .aluAdd 4096 0 0 0 0,
    .aluSub 4096 0 0 0 0,
    .aluAnd 4096 0 0 0 0,
    .aluOr 4096 0 0 0 0,
    .aluXor 4096 0 0 0 0,
    .aluAndn 4096 0 0 0 0,
    .aluShl 4096 0 0 0 0,
    .aluShr 4096 0 0 0 0,
    .aluSar 4096 0 0 0 0,
    .aluMov 4096 0 0 0 0,
    .aluMinu 4096 0 0 0 0,
    .aluMaxu 4096 0 0 0 0,
    .aluPopc 4096 0 0 0 0,
    .aluClz 4096 0 0 0 0,
    .aluMul 4096 0 0 0 0,
    .addi 4096 0 0 0 0,
    .andi 4096 0 0 0 0,
    .ori 4096 0 0 0 0,
    .xori 4096 0 0 0 0,
    .shli 4096 0 0 0 0,
    .shri 4096 0 0 0 0,
    .sari 4096 0 0 0 0,
    .movz 4096 0 0 0 0,
    .movk 4096 0 0 0 0,
    .cmp 4096 0 0 0 0 0 0,
    .cmpi 4096 0 0 0 0 0,
    .plogAnd 4096 0 0 0 0 0,
    .plogOr 4096 0 0 0 0 0,
    .plogXor 4096 0 0 0 0 0,
    .plogAndn 4096 0 0 0 0 0,
    .plogNot 4096 0 0 0 0 0] : List Instr).all (fun c => !c.wf) = true := by decide +kernel

theorem test_ill_formed_2 : ([
    .plogSet 4096 0 0 0 0 0,
    .plogClr 4096 0 0 0 0 0,
    .ext 4096 0 0 0 0 0,
    .ins 4096 0 0 0 0 0,
    .mrd 4096 0 0 0 0,
    .mwr 4096 0 0 0 0,
    .mwri 4096 0 0 0 0,
    .wld 4096 0 0 0 0 0 0 0,
    .wld 0 0 0 0 0 0 0 3,
    .wst 4096 0 0 0 0 0 0,
    .sld 4096 0 0 0 0 0 0 0,
    .sld 0 0 0 0 0 0 0 3,
    .sst 4096 0 0 0 0 0 0,
    .br 4096 0 0 0,
    .lkx 4096 0 0 0 0 0,
    .lkx 0 0 0 0 0 0x100,
    .lkxMac 4096 0 0 0 0 0x100,
    .lkxMac 0 0 0 0 0 0,
    .lkl 4096 0 0 0 0 0,
    .lka 4096 0 0 0 0 0,
    .count 4096 0 0 0 0 0,
    .police 4096 0 0 0 0 0,
    .mcrd 4096 0 0 0 0 0,
    .autsub 4096 0 0 0 0 0,
    .autwait 4096 0 0 0 0,
    .autwaitu 4096 0 0 0 0,
    .autwaitTimeout 4096,
    .cltry 4096 0 0 0 0 0,
    .clrel 4096 0 0 0 0 0,
    .clwait 4096 0 0 0 0 0,
    .lnput 4096 0 0 0 0 0,
    .lnget 4096 0 0 0 0 0,
    .lnputw 4096 0 0 0 0 0,
    .lngetw 4096 0 0 0 0 0,
    .fwd 4096 0 0 0,
    .drop 4096 0 0 0,
    .trap 4096 0 0 0,
    .slow 4096 0 0 0,
    .laneResultArrival 4096 0 ⟨0, 0⟩,
    .laneResultArrival 0 4 ⟨0, 0⟩,
    .laneResultArrival 0 0 ⟨3, 0⟩,
    .laneResultArrival 0 0 ⟨0, 8⟩,
    .automatonResultDelivery 64 ⟨none, 0, [], false, 0, none⟩,
    .automatonResultDelivery 0 ⟨none, 0, [], false, 0, some 4096⟩,
    .schedulerPick 256,
    .portLinkLoss 256,
    .residueRemovalDone 256,
    .chainSegmentReceive 256 0 0 0 [],
    .chainTagTimeout (2 ^ 24),
    .autLineReloadDone 64,
    .tableLineReloadDone 4 0,
    .staleWindowClose 4 0,
    .lookupCacheExpiry 32 0 0 0,
    .lookupCacheExpiry 0 5 0 0,
    .lookupCacheExpiry 0 0 4 0,
    .braidDataReceive 256 ⟨0, 3, false, 0, 0, 0, 1, 0, 0⟩ false [] false 0 false none,
    .helloReceive 256 ⟨9, false, false, false, 0, 0, 0, 0, false⟩ false,
    .creditReceive 256 (List.replicate 8 0) 0,
    .creditReceive 0 [] 0,
    .globalReceive 256 0 1 0 0 0 0] : List Instr).all (fun c => !c.wf) = true := by decide +kernel

theorem test_ill_formed_3 : ([
    .globalReceive 0 0 0 0 0 0 0,
    .globalReceive 0 0 4 0 0 0 0,
    .markerReceive 256 0,
    .mgmtReceive 256 0 0 0 0 [],
    .leaseExpiry 256,
    .braidLinkLoss 256 false,
    .linkLossHandlingDone 256,
    .serdesScan 256 0 0,
    .serdesScan 0 0 4,
    .serdesRecal 256 0 0,
    .serdesRecal 0 0 4,
    .dramEye 12 0 false 0 0,
    .dramEye 0 0 false 0 4,
    .dramEye 0 2 false 0 0,
    .dramRetrain 12 0 0,
    .dramRetrain 0 0 4,
    .dramPatrol 12 [] [] 0,
    .dramTrack 12,
    .headroom 256 0 0,
    .headroom 0 0 4,
    .tcamScrub [256] [],
    .tcamScrub [] [256],
    .exactScrub [1024] [],
    .exactScrub [] [1024],
    .autScrub 32 ⟨[], 0⟩,
    .flashWrite 16,
    .hcCrc 32 0 0 0 0,
    .hcKey 32 0 0 0 0,
    .aqSub 32 0 0 0 0 none,
    .aqGet 32 0 0 0,
    .clTry 32 0 0,
    .clWait 32 0 0 0,
    .clRel 32 0 0,
    .clRead 32 0 0,
    .clWaitTimeout 32,
    .lnPut 32 0 0 0,
    .lnGet 32 0 0,
    .lnPutw 32 0 0 0,
    .lnGetw 32 0 0,
    .coreInterrupt 32,
    .coreReset 32 false,
    .capRandRead 32 0,
    .lanyardNotifyWrite 32 0 0,
    .lanyardNotifyWrite 0 1024 0,
    .l3ModeSwitch 32,
    .rdShared 32 0 none none,
    .rdUnique 32 0 none none,
    .upgrade 32 0,
    .evictDirty 32 0,
    .evictClean 32 0,
    .ioRead 4 0,
    .ioWrite 4 0 0 [],
    .ioWrite 0 0 (2 ^ 64) [],
    .snpShared 32 0 none,
    .snpInv 32 0 none,
    .ack 32 0,
    .miss 32 0,
    .evicting 32 0,
    .data 32 0,
    .evictAck 32 0] : List Instr).all (fun c => !c.wf) = true := by decide +kernel

theorem test_ill_formed_4 : ([
    .sqDoorbell 65536 0,
    .sqDoorbell 0 (2 ^ 64),
    .cqDoorbell 65536 0,
    .cqDoorbell 0 (2 ^ 64),
    .fetchRound 5 [],
    .inject 65536 0 [],
    .netRecvBuf 65536 0,
    .controlRun 65536 0,
    .eventBuf 65536 0,
    .completionWrite 65536,
    .perstAssert 4,
    .hostLinkDown 4,
    .d3hotEntry 32,
    .d0Return 32,
    .msixUnmask 32 0,
    .msixUnmask 0 2048,
    .registerWrite 64 0 0 1 0,
    .registerWrite 0 5 0 1 0,
    .registerWrite 0 0 0 0 0,
    .registerWrite 0 0 0 1 (2 ^ 64),
    .counterLowRead 64 ⟨0, 1⟩,
    .counterLowRead 0 ⟨0, 0⟩,
    .counterLowRead 0 ⟨0, 9⟩,
    .rcRegisterRead 64 0,
    .rcRegisterRead 0 (2 ^ 26),
    .rcRegisterRead 0 1,
    .glbSnapViewWrite 64 0 0,
    .glbSnapViewWrite 0 (2 ^ 32) 0,
    .glbSnapViewWrite 0 0 16,
    .tblRawSelectWrite 64 0 0,
    .tblRawSelectWrite 0 (2 ^ 32) 0,
    .tblRawSelectWrite 0 0 16,
    .rawWindowWrite 64 0 1 0,
    .rawWindowWrite 0 (2 ^ 22) 1 0,
    .rawWindowWrite 0 0 0 0,
    .rawWindowWrite 0 0 9 0,
    .rawWindowWrite 0 0 1 (2 ^ 64),
    .rawStatusCommit 64 0 0,
    .rawStatusCommit 0 (2 ^ 22) 0,
    .rawStatusCommit 0 1 0,
    .rawStatusCommit 0 0 (2 ^ 64),
    .rawStatusRead 64 0,
    .rawStatusRead 0 (2 ^ 22),
    .rawStatusRead 0 1,
    .bootWindowWrite 64 0x2000000 [],
    .bootWindowWrite 0 0x1FFFFFF [],
    .bootWindowWrite 0 0x3F00000 [0],
    .bootWindowWrite 0 0x2000000 [],
    .sheTamperLatchClear 64 1 0,
    .sheTamperLatchClear 0 0 0,
    .sheTamperLatchClear 0 9 0,
    .sheTamperLatchClear 0 1 (2 ^ 32),
    .pwrTripClear 64 1 0,
    .pwrTripClear 0 0 0,
    .pwrTripClear 0 9 0,
    .pwrTripClear 0 1 (2 ^ 32),
    .mbUp 64 0 0,
    .mbUp 0 4096 0,
    .mbUp 0 0 (2 ^ 64),
    .mbDown 64 0 0] : List Instr).all (fun c => !c.wf) = true := by decide +kernel

theorem test_ill_formed_5 : ([
    .mbDown 0 4096 0,
    .mbDown 0 0 (2 ^ 64),
    .mailboxDelivery 4096 false [],
    .storeRead 65536 0 [],
    .storeWrite 65536 0 [],
    .storeFlush 65536 0,
    .storeTrim 65536 0,
    .abortTag 65536 0,
    .nvmeCompletionReceive 0 256 0,
    .nvmeCompletionReceive 0 0 8,
    .rdmaPacketReceive ⟨131072, .send, 0, 0, true, true, false, 0, 0, 0, []⟩,
    .rdmaAckTimeout 131072,
    .gcmEncrypt 65536 0 [] [],
    .gcmDecrypt 65536 0 [] [] [],
    .xtsEncrypt 65536 0 [],
    .xtsDecrypt 65536 0 [],
    .ctr 65536 0 [],
    .keyUnwrap 65536 0 [],
    .keyGen 65536 0,
    .keyWrap 65536 0,
    .keyZero 65536 0,
    .saSet 65536 0,
    .dramRequestAccept ⟨5, 0, 0⟩ false 0 0 [] false,
    .dramRequestAccept ⟨0, 0, 0⟩ false 0 (2 ^ 64) [] false,
    .dramRequestAccept ⟨0, 0, 0⟩ false 0 0 (List.replicate 65 0) false,
    .dramReadReturn 12 0 0 false,
    .dramReadReturn 0 3 0 false,
    .dramReadReturn 0 0 32 false,
    .dramRefresh 12 0,
    .dramRefresh 0 4,
    .dramParityAlert 12,
    .dramTrainingStep 12 false none,
    .tamperAlarm 256 0,
    .sysRstRelease 8 false 0,
    .bootRelease 64 1 ⟨true, true, 0⟩,
    .bootRelease 0 0 ⟨true, true, 0⟩,
    .bootRelease 0 9 ⟨true, true, 0⟩,
    .setRead 32 0,
    .setRead 0 (2 ^ 64),
    .setAppend 32 0,
    .setAppend 0 (2 ^ 64),
    .bootCommit 32,
    .bootSelect 32 0,
    .bootSelect 0 (2 ^ 64),
    .pmbAlert [],
    .pmbAlert (65536 :: List.replicate 8 0),
    .telemetryPoll [],
    .railExcursion 7,
    .refclkLoss 3 0,
    .refclkLoss 0 8,
    .refclkLoss 1 4,
    .thermalTrip 64,
    .portLinkUp 256,
    .perstDeassert 4,
    .hostLinkL0 4,
    .refclkReturn 4 0,
    .refclkReturn 0 8,
    .refclkReturn 1 4,
    .railExcursionEnd 7,
    .cryptoResultRelease 65536 0 false] : List Instr).all (fun c => !c.wf) = true := by decide +kernel

theorem test_ill_formed_6 : ([
    .oldestWriteWaitExpiry 12,
    .rowIdleClose 12 0] : List Instr).all (fun c => !c.wf) = true := by decide +kernel

/-! ## Words of the specification's own tables -/

/-- Table 4.4, slots 0 to 3. -/
theorem test_table_4_4_words :
    decodeOperation 9 0x0506140B = .ext 9 0 3 1 16 11 ∧ decodeOperation 9 0x06040003 = .mwri 9 0 1 0 3
    ∧ decodeOperation 9 0x00000000 = .nop 9 0 0 ∧ decodeOperation 9 0x0A104300 = .lkxMac 9 0 8 4 1 0x100 := by decide +kernel

/-- The 128-bit bundle under Table 4.4. -/
theorem test_table_4_4_bundle :
    (List.range 4).map (slotWord 0x0A104300000000000604_00030506140B) = [0x0506140B, 0x06040003, 0, 0x0A104300] := by decide +kernel

/-- A word of each remaining format of Table 4.1, written out from its fields. -/
theorem test_formats :
    decodeOperation 9 0b0000_000001_00011_00100_00101_0000000 = .aluAdd 9 0 3 4 5
    ∧ decodeOperation 9 0b0000_000001_00011_00100_00101_0010000 = .aluMul 9 0 3 4 5 := by decide +kernel

/-- Table 4.11, word 4: SHADEOPEN of shade 0x105. -/
theorem test_table_4_11_instruction :
    (insOf [0x0000010500000208, 0x104]).map (fun i => (i.op, i.len, i.field, i.a, i.w 0)) = some (8, 2, 0, 0x105, 0x104) := by decide +kernel

/-- Table 18.3: channel F, its address, row, and bank 3 of group 1 in subchannel 0 of rank 0. -/
theorem test_table_18_3 :
    dramChannel 8 0x123456780 = 5 ∧ dramAddress 8 0x123456780 = 0x1845C880
    ∧ (let m : Dmc := { k := 8, dimms := 2, ranks := 2, masks := defaultMasks }
       m.row 0x1845C880 = 776 ∧ m.bank 0x1845C880 = 2 * 0b00111) := by decide +kernel

/-- The two words of the example of chapter 9. -/
theorem test_logline_example :
    ({ iport := 16, eport := 0, fate := 0, len := 1518, shade := 1, hash := 0x5A3C19E7, stale := false, suspect := false, cut := true,
       mirror := false, cls := 3, code := 1, copy := false, ref := 1000000, domain := 0, time := 1000480 } : RecFields).bytes 0
      = le 8 0x45EE0000040F4420 ++ le 8 0x01E000B45A3C19E7 := by decide +kernel

/-- The bound of R65 after 1,000 s and 3,600 s, as the example under R66 works it out. -/
theorem test_holdover_bound :
    (let d (secs : Nat) : Dev := ({ reel := { st := .holdover, time := 24000 * secs * 10 ^ 9, holdB0 := 8, uMilli := 10000, holdA := 1000 } } : Dev)
     (d 1000).holdBound = 10058 ∧ (d 3600).holdBound = 36656) := by decide +kernel

/-- No row of the opcode table gives bits. -/
theorem test_no_table_word : decodeTableWord 64 0x208 = none := by decide

/-- A command put in front of the queue runs; the queue keeps its rest. -/
theorem test_step_runs_the_front :
    (match step { live id with pending := [.perstAssert 3, .ppsInEdge] } with
     | .next t => (t.dev.hp 3).perst && t.pending == [.ppsInEdge]
     | _ => false) = true := by decide +kernel

/-- The inner hypotheses of ResetState and OperationWordsAndCounters. -/
theorem test_hypotheses_ResetState : (∃ b : Int, 0 < b) ∧ ∃ o off : Nat, o ≠ off := ⟨⟨1, by decide⟩, ⟨1, 0, by decide⟩⟩

/-- A command of each of the four frame statements goes on, as their hypothesis asks. -/
theorem test_hypotheses_frames :
    (∃ t, exec .atProgramStart (live id) = .next t) ∧ (∃ t, exec (.aluAdd 8 0 1 2 3) (work .ingress 3 id) = .next t)
    ∧ (∃ t, exec (.frameArrival 8 [1, 2] true 2 false none) (live id) = .next t) ∧ ∃ t, exec (.msixUnmask 3 5) (live id) = .next t :=
  ⟨⟨_, rfl⟩, ⟨_, rfl⟩, ⟨_, rfl⟩, ⟨_, rfl⟩⟩

/-! ## States that meet the statements' hypotheses -/

theorem test_hypotheses_RateAndGroupInstructions :
    (∃ (s : State) (p : Nat) (x : Prog) (i : Ins), s.atIns p x i ∧ i.op = 0x11 ∧ i.field < 8 ∧ i.len = 2 ∧ i.a < s.dev.lanes ∧ bits (i.w 0) 0 16 ≠ 0 ∧ i.w 0 < 2 ^ 36 
      ∧ (bits (i.w 0) 16 20 < 4096 ∨ bits (i.w 0) 16 20 = 0xFFFFF) ∧ (∀ e ∈ s.dev.path.queues, e.2.shaper = some (bits (i.w 0) 16 20) → e.1 / 8 = i.a))
    ∧ (∃ (s : State) (p : Nat) (x : Prog) (i : Ins) (n : Nat), s.atIns p x i ∧ i.op = 0x12 ∧ x.shaded = true ∧ s.dev.shadeNamed x.shade = some n 
      ∧ (s.dev.shade n).st = .opened ∧ i.field < 2 ∧ i.len = 3 ∧ i.a < 4096 ∧ i.w 0 ≤ 1600000000000 ∧ i.w 1 < 2 ^ 32)
    ∧ (∃ (s : State) (p : Nat) (x : Prog) (i : Ins) (n : Nat), s.atIns p x i ∧ i.op = 0x13 ∧ x.shaded = true ∧ s.dev.shadeNamed x.shade = some n 
      ∧ (s.dev.shade n).st = .opened ∧ i.field < 8 ∧ i.len = 4 ∧ i.a < 262144 ∧ i.w 0 ≤ 51200000000000 ∧ i.w 1 ≤ 51200000000000 ∧ (bit i.field 1 = true ∨ i.w 0 ≤ i.w 1))
    ∧ (∃ (s : State) (p : Nat) (x : Prog) (i : Ins) (n : Nat), s.atIns p x i ∧ i.op = 0x14 ∧ x.shaded = true ∧ s.dev.shadeNamed x.shade = some n 
      ∧ (s.dev.shade n).st = .opened ∧ i.field = 0 ∧ i.len = 5 ∧ i.a < 65536 ∧ portMap i 0 < 2 ^ s.dev.lanes) :=
  ⟨⟨splice [head 0x11 2 7 199, (0xFFFFF * 2 ^ 16 + 0x2FFF)] (.running) id, 1, prog [head 0x11 2 7 199, (0xFFFFF * 2 ^ 16 + 0x2FFF)] (.running), insn [head 0x11 2 7 199,
      (0xFFFFF * 2 ^ 16 + 0x2FFF)], atIns_of (by decide +kernel), by decide +kernel⟩,
  ⟨splice [head 0x12 3 1 4095, 1600000000000, 0xFFFFFFFF] (.running) id, 1, prog [head 0x12 3 1 4095, 1600000000000, 0xFFFFFFFF] (.running), insn [head 0x12 3 1 4095,
      1600000000000, 0xFFFFFFFF], 1, atIns_of (by decide +kernel), by decide +kernel⟩,
  ⟨splice [head 0x13 4 1 262143, 5, 7, 9] (.running) id, 1, prog [head 0x13 4 1 262143, 5, 7, 9] (.running), insn [head 0x13 4 1 262143, 5, 7, 9], 1, atIns_of (by decide +kernel), by decide +kernel⟩,
  ⟨splice [head 0x14 5 0 65535, 1, 2, 3, 4] (.running) id, 1, prog [head 0x14 5 0 65535, 1, 2, 3, 4] (.running), insn [head 0x14 5 0 65535, 1, 2, 3, 4], 1,
      atIns_of (by decide +kernel), by decide +kernel⟩⟩

theorem test_hypotheses_ShadeLifecycleInstructions :
    (∃ (s : State) (p : Nat) (x : Prog) (i : Ins) (b : Nat) (n : Nat), s.atIns p x i ∧ i.op = 0x08 ∧ i.field = 0 ∧ i.len = 2 ∧ i.w 0 < 2 ^ 32 ∧ (∀ k ∈ s.dev.live,
      serialGt i.a (s.dev.shade k).num = true) ∧ s.dev.shadeNamed (i.w 0) = some b ∧ (List.range 4).find? (fun n => (s.dev.shade n).st == .free) = some n)
    ∧ (∃ (s : State) (p : Nat) (x : Prog) (i : Ins) (n : Nat), s.atIns p x i ∧ i.op = 0x09 ∧ i.field = 0 ∧ i.len = 2 ∧ i.w 0 < 2 ^ 54 ∧ i.w 0 ≤ s.dev.turn + 2 ^ 32 
      ∧ s.dev.turn + 2 ≤ i.w 0 ∧ s.dev.shadeNamed i.a = some n ∧ (s.dev.shade n).st = .opened ∧ (∀ k ∈ s.dev.live,
      ((s.dev.shade k).st = .current ∨ (s.dev.shade k).st = .pending) → serialGt i.a (s.dev.shade k).num = true) ∧ (∀ k ∈ s.dev.live, (s.dev.shade k).st = .pending → (s.dev.shade k).turn < i.w 0))
    ∧ (∃ (s : State) (p : Nat) (x : Prog) (i : Ins) (n : Nat), s.atIns p x i ∧ i.op = 0x09 ∧ i.field = 0 ∧ i.len = 2 ∧ bit (i.w 0) 63 = true ∧ bits (i.w 0) 54 9 = 0 
      ∧ bits (i.w 0) 0 54 ≤ s.dev.turn + 2 ^ 32 ∧ s.dev.turn + max 2 s.dev.lead ≤ bits (i.w 0) 0 54 ∧ s.dev.shadeNamed i.a = some n ∧ (s.dev.shade n).st = .opened 
      ∧ (∀ k ∈ s.dev.live, ((s.dev.shade k).st = .current ∨ (s.dev.shade k).st = .pending) → serialGt i.a (s.dev.shade k).num = true) ∧ (∀ k ∈ s.dev.live, (s.dev.shade k).st = .pending → (s.dev.shade k).turn < bits (i.w 0) 0 54))
    ∧ (∃ (s : State) (p : Nat) (x : Prog) (i : Ins) (n : Nat), s.atIns p x i ∧ i.op = 0x0A ∧ i.field = 0 ∧ i.len = 2 ∧ 0 < i.w 0 ∧ i.w 0 < 2 ^ 32 
      ∧ s.dev.shadeNamed i.a = some n ∧ (s.dev.shade n).st = .opened)
    ∧ (∃ (s : State) (p : Nat) (x : Prog) (i : Ins) (n : Nat), s.atIns p x i ∧ i.op = 0x0A ∧ i.field = 0 ∧ i.len = 2 ∧ 0 < i.w 0 ∧ i.w 0 < 2 ^ 32 
      ∧ s.dev.shadeNamed i.a = some n ∧ (s.dev.shade n).st = .draining ∧ (s.dev.shade n).resident ≠ 0)
    ∧ (∃ (s : State) (p : Nat) (x : Prog) (i : Ins) (n : Nat) (asked : Nat) (e : Option Nat), s.live ∧ s.dev.prog p = some x ∧ insOf x.words = some i 
      ∧ x.phase = .waiting (.retire n asked) e ∧ (s.dev.shade n).resident = 0)
    ∧ (∃ (s : State) (p : Nat) (x : Prog) (i : Ins) (n : Nat) (k : Nat) (e : Nat), s.live ∧ s.dev.prog p = some x ∧ insOf x.words = some i 
      ∧ x.phase = .waiting (.retire n k) (some e) ∧ s.dev.reached e = true ∧ (s.dev.shade n).resident ≠ 0) :=
  ⟨⟨splice [head 0x08 2 0 6, 5] (.running) id, 1, prog [head 0x08 2 0 6, 5] (.running), insn [head 0x08 2 0 6, 5], 1, 2, atIns_of (by decide +kernel), by decide +kernel⟩,
  ⟨splice [head 0x09 2 0 5, 11] (.running) (fun d => { d with reel := { time := 24000 * 1024 * 9, served := 9 } }), 1, prog [head 0x09 2 0 5, 11] (.running),
      insn [head 0x09 2 0 5, 11], 1, atIns_of (by decide +kernel), by decide +kernel⟩,
  ⟨splice [head 0x09 2 0 5, (2 ^ 63 + 11)] (.running) (fun d => { d with reel := { time := 24000 * 1024 * 9, served := 9 } }), 1, prog [head 0x09 2 0 5,
      (2 ^ 63 + 11)] (.running), insn [head 0x09 2 0 5, (2 ^ 63 + 11)], 1, atIns_of (by decide +kernel), by decide +kernel⟩,
  ⟨splice [head 0x0A 2 0 5, 1] (.running) id, 1, prog [head 0x0A 2 0 5, 1] (.running), insn [head 0x0A 2 0 5, 1], 1, atIns_of (by decide +kernel), by decide +kernel⟩,
  ⟨splice [head 0x0A 2 0 5, 0xFFFFFFFF] (.running) (fun d => { d with shd := [(0, { st := .current }), (1, { st := .draining, num := 5, resident := 1 })] }), 1,
      prog [head 0x0A 2 0 5, 0xFFFFFFFF] (.running), insn [head 0x0A 2 0 5, 0xFFFFFFFF], 1, atIns_of (by decide +kernel), by decide +kernel⟩,
  ⟨splice [head 0x0A 2 0 5,
      1] (.waiting (.retire 1 3) (some 12)) (fun d => { d with shd := [(0, { st := .current }), (1, { st := .retiring, num := 5, resident := 0 })] }), 1, prog [head 0x0A 2 0 5,
      1] (.waiting (.retire 1 3) (some 12)), insn [head 0x0A 2 0 5, 1], 1, 3, (some 12), rfl, by decide +kernel⟩,
  ⟨splice [head 0x0A 2 0 5,
      1] (.waiting (.retire 1 3) (some 9)) (fun d => { d with reel := { time := 24000 * 1024 * 9, served := 9 }, shd := [(0, { st := .current }), (1, { st := .retiring, num := 5, resident := 2 })] }),
      1, prog [head 0x0A 2 0 5, 1] (.waiting (.retire 1 3) (some 9)), insn [head 0x0A 2 0 5, 1], 1, 3, 9, rfl, by decide +kernel⟩⟩

theorem test_hypotheses_TableInstructions :
    (∃ (s : State) (p : Nat) (x : Prog) (i : Ins) (n : Nat), s.atTable p x i n ∧ ((ways i.field (tableKey i)).any (s.dev.tbl.freeLine i.field) = true
        ∨ ∃ l e, (s.dev.tbl.holders i.field n (tableKey i)).head? = some l ∧ Map.find (s.dev.tbl.lines i.field) l = some e ∧ e.mask = 2 ^ n) ∧ i.op = 0x01 ∧ i.field ≤ 1 ∧ tsetOk i = true)
    ∧ (∃ (s : State) (p : Nat) (x : Prog) (i : Ins) (n : Nat), s.atTable p x i n ∧ (∀ l e,
      (s.dev.tbl.holders i.field n (tableKey i)).head? = some l → Map.find (s.dev.tbl.lines i.field) l = some e → e.mask ≠ 2 ^ n) ∧ i.op = 0x01 ∧ i.field ≤ 1 ∧ tsetOk i = true ∧ (ways i.field (tableKey i)).any (s.dev.tbl.freeLine i.field) = false)
    ∧ (∃ (s : State) (p : Nat) (x : Prog) (i : Ins) (n : Nat), s.atTable p x i n ∧ i.op = 0x01 ∧ i.field = 2 ∧ bit i.a 8 = false ∧ tsetOk i = true ∧ narrowBand.fits (i.a % 256) s.dev.tbl.narrowRoom s.dev.tbl.narrow = true)
    ∧ (∃ (s : State) (p : Nat) (x : Prog) (i : Ins) (n : Nat), s.atTable p x i n ∧ narrowBand.fits (i.a % 256) s.dev.tbl.narrowRoom s.dev.tbl.narrow = false 
      ∧ s.dev.tbl.narrow.any (Row.isEntry (i.a % 256) (tableKey i) n) = false ∧ i.op = 0x01 ∧ i.field = 2 ∧ bit i.a 8 = false ∧ tsetOk i = true)
    ∧ (∃ (s : State) (p : Nat) (x : Prog) (i : Ins) (n : Nat), s.atTable p x i n ∧ i.op = 0x01 ∧ i.field = 2 ∧ bit i.a 8 = true ∧ tsetOk i = true 
      ∧ wideBand.fits (i.a % 256) s.dev.tbl.wideRoom s.dev.tbl.wide = true ∧ (s.dev.tbl.wide.any (fun q => q.isEntry (i.a % 256) (tableKey i) n) = false))
    ∧ (∃ (s : State) (p : Nat) (x : Prog) (i : Ins) (n : Nat), s.atTable p x i n ∧ wideBand.fits (i.a % 256) s.dev.tbl.wideRoom s.dev.tbl.wide = false 
      ∧ (∀ q ∈ s.dev.tbl.wide, q.plen = i.a % 256 → q.half = false) ∧ (s.dev.tbl.wide.any (fun q => q.isEntry (i.a % 256) (tableKey i) n) = false) ∧ i.op = 0x01 ∧ i.field = 2 
      ∧ bit i.a 8 = true ∧ tsetOk i = true)
    ∧ (∃ (s : State) (p : Nat) (x : Prog) (i : Ins) (n : Nat) (T : Tables) (moves : Nat), s.atTable p x i n ∧ i.op = 0x01 ∧ i.field = 2 ∧ tsetOk i = true ∧ s.dev.tbl.tset i n = some (T, moves))
    ∧ (∃ (s : State) (p : Nat) (x : Prog) (i : Ins) (n : Nat), s.atTable p x i n ∧ (∃ r, r < 65536 ∧ (Map.find s.dev.tbl.acl r).all (fun e => e.mask == 0) = true) 
      ∧ i.op = 0x01 ∧ i.field = 3 ∧ tsetOk i = true)
    ∧ (∃ (s : State) (p : Nat) (x : Prog) (i : Ins) (n : Nat), s.atTable p x i n ∧ (∀ r, r < 65536 → (Map.find s.dev.tbl.acl r).all (fun e => e.mask == 0) = false) 
      ∧ s.dev.tbl.aclAt n i.a = none ∧ i.op = 0x01 ∧ i.field = 3 ∧ tsetOk i = true)
    ∧ (∃ (s : State) (p : Nat) (x : Prog) (i : Ins) (n : Nat), s.atIns p x i ∧ i.op = 0x01 ∧ i.field = 4 ∧ tsetOk i = true ∧ s.dev.target x = .inl n)
    ∧ (∃ (s : State) (p : Nat) (x : Prog) (i : Ins) (n : Nat) (l : Nat) (e : Line), s.atTable p x i n ∧ i.op = 0x02 ∧ i.field ≤ 1 ∧ tdelOk i = true 
      ∧ s.dev.tbl.holders i.field n (tableKey i) = [l] ∧ Map.find (s.dev.tbl.lines i.field) l = some e)
    ∧ (∃ (s : State) (p : Nat) (x : Prog) (i : Ins) (n : Nat), s.atTable p x i n ∧ i.op = 0x02 ∧ i.field ≤ 1 ∧ tdelOk i = true ∧ s.dev.tbl.holders i.field n (tableKey i) = [])
    ∧ (∃ (s : State) (p : Nat) (x : Prog) (i : Ins) (n : Nat) (T : Tables) (moves : Nat), s.atTable p x i n ∧ i.op = 0x02 ∧ i.field = 2 ∧ tdelOk i = true ∧ s.dev.tbl.tdel i n = some (T, moves))
    ∧ (∃ (s : State) (p : Nat) (x : Prog) (i : Ins) (n : Nat), s.atTable p x i n ∧ i.op = 0x02 ∧ i.field = 2 ∧ tdelOk i = true ∧ bit i.a 8 = false ∧ (s.dev.tbl.narrow.filter (Row.isEntry (i.a % 256) (tableKey i) n)).length = 1)
    ∧ (∃ (s : State) (p : Nat) (x : Prog) (i : Ins) (n : Nat), s.atTable p x i n ∧ i.op = 0x02 ∧ i.field = 2 ∧ tdelOk i = true ∧ (if bit i.a 8 then s.dev.tbl.wide.any (fun q => q.isEntry (i.a % 256) (tableKey i) n)
        else s.dev.tbl.narrow.any (Row.isEntry (i.a % 256) (tableKey i) n)) = false)
    ∧ (∃ (s : State) (p : Nat) (x : Prog) (i : Ins) (n : Nat) (l : Nat) (e : AclRow), s.atTable p x i n ∧ i.op = 0x02 ∧ i.field = 3 ∧ tdelOk i = true 
      ∧ s.dev.tbl.aclAt n i.a = some (l, e) ∧ Map.find s.dev.tbl.acl l = some e)
    ∧ (∃ (s : State) (p : Nat) (x : Prog) (i : Ins) (n : Nat), s.atTable p x i n ∧ i.op = 0x02 ∧ i.field = 3 ∧ tdelOk i = true ∧ s.dev.tbl.aclAt n i.a = none)
    ∧ (∃ (s : State) (p : Nat) (x : Prog) (i : Ins), s.atIns p x i ∧ i.op = 0x01 ∧ tsetOk i = false)
    ∧ (∃ (s : State) (p : Nat) (x : Prog) (i : Ins), s.atIns p x i ∧ i.op = 0x02 ∧ tdelOk i = false)
    ∧ (∃ (s : State) (p : Nat) (x : Prog) (i : Ins) (st : Nat), s.atIns p x i ∧ i.op = 0x01 ∧ tsetOk i = true ∧ s.dev.target x = .inr st)
    ∧ (∃ (s : State) (p : Nat) (x : Prog) (i : Ins) (st : Nat), s.atIns p x i ∧ i.op = 0x02 ∧ tdelOk i = true ∧ s.dev.target x = .inr st)
    ∧ (∃ (s : State) (p : Nat) (x : Prog) (i : Ins) (n : Nat), s.atIns p x i ∧ i.op = 0x01 ∧ i.field ≤ 3 ∧ tsetOk i = true ∧ s.dev.target x = .inl n ∧ s.dev.dmc.ready = false)
    ∧ (∃ (s : State) (p : Nat) (x : Prog) (i : Ins) (n : Nat) (r : Req), s.atIns p x i ∧ r = { who := .prog x.seq, code := 0, res := 0, claims := s.dev.tableClaims i n } 
      ∧ i.op = 0x01 ∧ i.field ≤ 3 ∧ tsetOk i = true ∧ s.dev.target x = .inl n ∧ s.dev.dmc.ready = true ∧ s.dev.holdsFor x.seq = false 
      ∧ s.dev.grantable s.dev.cal.waiting r = false ∧ s.dev.cal.spliceWaits < 64) :=
  ⟨⟨splice [head 0x01 3 0 0, 77, 3] (.running) (fun d => { d with dmc := { ready := true } }), 1, prog [head 0x01 3 0 0, 77, 3] (.running), insn [head 0x01 3 0 0, 77, 3],
      1, atTable_of (by decide +kernel), (.inl (by decide +kernel)), by decide +kernel⟩,
  ⟨splice [head 0x01 3 0 0, 77, 3] (.running) (fun d => { d with dmc := { ready := true }, tbl := fullSet }), 1, prog [head 0x01 3 0 0, 77, 3] (.running),
      insn [head 0x01 3 0 0, 77, 3], 1, atTable_of (by decide +kernel),
      (by intro l e h; have q : (fullSet.holders 0 1 77).head? = none := (by decide +kernel); exact absurd (q.symm.trans h) (by simp)), by decide +kernel⟩,
  ⟨splice [head 0x01 3 2 8, 0x1200000000000000, 9] (.running) (fun d => { d with dmc := { ready := true } }), 1, prog [head 0x01 3 2 8, 0x1200000000000000, 9] (.running),
      insn [head 0x01 3 2 8, 0x1200000000000000, 9], 1, atTable_of (by decide +kernel), by decide +kernel⟩,
  ⟨splice [head 0x01 3 2 8, 0x1200000000000000, 9] (.running) (fun d => { d with dmc := { ready := true }, tbl := lpmOf 1572864 }), 1, prog [head 0x01 3 2 8,
      0x1200000000000000, 9] (.running), insn [head 0x01 3 2 8, 0x1200000000000000, 9], 1, atTable_of (by decide +kernel), (lpmOf_narrow 1572864 8 (Nat.le_refl _)),
      (lpmOf_entry 1572864 8 _ _ (by decide)), by decide +kernel⟩,
  ⟨splice [head 0x01 4 2 264, 0x1200000000000000, 0, 9] (.running) (fun d => { d with dmc := { ready := true } }), 1, prog [head 0x01 4 2 264, 0x1200000000000000, 0,
      9] (.running), insn [head 0x01 4 2 264, 0x1200000000000000, 0, 9], 1, atTable_of (by decide +kernel), by decide +kernel⟩,
  ⟨splice [head 0x01 4 2 264, 0x1200000000000000, 0, 9] (.running) (fun d => { d with dmc := { ready := true }, tbl := lpmOf 1572864 }), 1, prog [head 0x01 4 2 264,
      0x1200000000000000, 0, 9] (.running), insn [head 0x01 4 2 264, 0x1200000000000000, 0, 9], 1, atTable_of (by decide +kernel), (lpmOf_wide 1572864 8 (Nat.le_refl _)),
      (fun _ h => nomatch h), (rfl), by decide +kernel⟩,
  ⟨splice [head 0x01 3 2 8, 0x1200000000000000, 9] (.running) (fun d => { d with dmc := { ready := true } }), 1, prog [head 0x01 3 2 8, 0x1200000000000000, 9] (.running),
      insn [head 0x01 3 2 8, 0x1200000000000000, 9], 1, ((({} : Tables).setNarrow 1 8 0x1200000000000000 9).getD ({}, 9)).1,
      ((({} : Tables).setNarrow 1 8 0x1200000000000000 9).getD ({}, 9)).2, atTable_of (by decide +kernel), by decide +kernel⟩,
  ⟨splice [head 0x01 22 3 5, 1, 1, 1, 1, 1, 1, 1, 1, 1, 1, 3, 3, 3, 3, 3, 3, 3, 3, 3, 3, 4] (.running) (fun d => { d with dmc := { ready := true } }), 1,
      prog [head 0x01 22 3 5, 1, 1, 1, 1, 1, 1, 1, 1, 1, 1, 3, 3, 3, 3, 3, 3, 3, 3, 3, 3, 4] (.running), insn [head 0x01 22 3 5, 1, 1, 1, 1, 1, 1, 1, 1, 1, 1, 3, 3, 3, 3, 3, 3,
      3, 3, 3, 3, 4], 1, atTable_of (by decide +kernel), (⟨0, by decide +kernel⟩), by decide +kernel⟩,
  ⟨splice [head 0x01 22 3 5, 1, 1, 1, 1, 1, 1, 1, 1, 1, 1, 3, 3, 3, 3, 3, 3, 3, 3, 3, 3, 4] (.running) (fun d => { d with dmc := { ready := true }, tbl := fullAcl }), 1,
      prog [head 0x01 22 3 5, 1, 1, 1, 1, 1, 1, 1, 1, 1, 1, 3, 3, 3, 3, 3, 3, 3, 3, 3, 3, 4] (.running), insn [head 0x01 22 3 5, 1, 1, 1, 1, 1, 1, 1, 1, 1, 1, 3, 3, 3, 3, 3, 3,
      3, 3, 3, 3, 4], 1, atTable_of (by decide +kernel), (fullAcl_full), (fullAcl_none 5), by decide +kernel⟩,
  ⟨splice [head 0x01 3 4 9, 1, 64] (.running) id, 1, prog [head 0x01 3 4 9, 1, 64] (.running), insn [head 0x01 3 4 9, 1, 64], 1, atIns_of (by decide +kernel), by decide +kernel⟩,
  ⟨splice [head 0x02 2 0 0, 77] (.running) (fun d => { d with dmc := { ready := true }, tbl := (({} : Tables).setExact 0 1 77 3).getD {} }), 1, prog [head 0x02 2 0 0,
      77] (.running), insn [head 0x02 2 0 0, 77], 1, ((({} : Tables).setExact 0 1 77 3).getD {}).holders 0 1 77 |>.headD 0, { key := 77, result := 3, mask := 2 },
      atTable_of (by decide +kernel), by decide +kernel⟩,
  ⟨splice [head 0x02 2 0 0, 78] (.running) (fun d => { d with dmc := { ready := true } }), 1, prog [head 0x02 2 0 0, 78] (.running), insn [head 0x02 2 0 0, 78], 1,
      atTable_of (by decide +kernel), by decide +kernel⟩,
  ⟨splice [head 0x02 2 2 8, 0x1200000000000000] (.running) (fun d => { d with dmc := { ready := true }, tbl := oneLpm }), 1, prog [head 0x02 2 2 8,
      0x1200000000000000] (.running), insn [head 0x02 2 2 8, 0x1200000000000000], 1, {}, 0, atTable_of (by decide +kernel), by decide +kernel⟩,
  ⟨splice [head 0x02 2 2 8, 0x1200000000000000] (.running) (fun d => { d with dmc := { ready := true }, tbl := oneLpm }), 1, prog [head 0x02 2 2 8,
      0x1200000000000000] (.running), insn [head 0x02 2 2 8, 0x1200000000000000], 1, atTable_of (by decide +kernel), by decide +kernel⟩,
  ⟨splice [head 0x02 2 2 9, 0x1200000000000000] (.running) (fun d => { d with dmc := { ready := true }, tbl := oneLpm }), 1, prog [head 0x02 2 2 9,
      0x1200000000000000] (.running), insn [head 0x02 2 2 9, 0x1200000000000000], 1, atTable_of (by decide +kernel), by decide +kernel⟩,
  ⟨splice [head 0x02 1 3 5] (.running) (fun d => { d with dmc := { ready := true }, tbl := oneAcl }), 1, prog [head 0x02 1 3 5] (.running), insn [head 0x02 1 3 5], 1, 7,
      { pos := 5, key := 1, cmask := 1, action := 3, mask := 2 }, atTable_of (by decide +kernel), by decide +kernel⟩,
  ⟨splice [head 0x02 1 3 6] (.running) (fun d => { d with dmc := { ready := true }, tbl := oneAcl }), 1, prog [head 0x02 1 3 6] (.running), insn [head 0x02 1 3 6], 1,
      atTable_of (by decide +kernel), by decide +kernel⟩,
  ⟨splice [head 0x01 3 5 0, 0, 0] (.running) id, 1, prog [head 0x01 3 5 0, 0, 0] (.running), insn [head 0x01 3 5 0, 0, 0], atIns_of (by decide +kernel), by decide +kernel⟩,
  ⟨splice [head 0x02 3 4 0, 0, 0] (.running) id, 1, prog [head 0x02 3 4 0, 0, 0] (.running), insn [head 0x02 3 4 0, 0, 0], atIns_of (by decide +kernel), by decide +kernel⟩,
  ⟨live (fun d => { d with dmc := { ready := true }, spl := { progs := [{ prog [head 0x01 3 2 8, 0x1200000000000000, 9] .running with shaded := false }] } }), 1,
      { prog [head 0x01 3 2 8, 0x1200000000000000, 9] .running with shaded := false }, insn [head 0x01 3 2 8, 0x1200000000000000, 9], stBadOperand, atIns_of (by decide +kernel), by decide +kernel⟩,
  ⟨live (fun d => { d with dmc := { ready := true }, spl := { progs := [{ prog [head 0x02 2 2 8, 0x1200000000000000] .running with shaded := false }] } }), 1,
      { prog [head 0x02 2 2 8, 0x1200000000000000] .running with shaded := false }, insn [head 0x02 2 2 8, 0x1200000000000000], stBadOperand, atIns_of (by decide +kernel), by decide +kernel⟩,
  ⟨splice [head 0x01 3 2 8, 0x1200000000000000, 9] (.running) id, 1, prog [head 0x01 3 2 8, 0x1200000000000000, 9] (.running), insn [head 0x01 3 2 8, 0x1200000000000000,
      9], 1, atIns_of (by decide +kernel), by decide +kernel⟩,
  ⟨splice [head 0x01 3 2 8, 0x1200000000000000,
      9] (.running) (fun d => { d with dmc := { ready := true }, cal := { holds := [{ req := ⟨.device, 0x30, 0, [(.tcam, true)], 0, 0⟩ }] } }), 1, prog [head 0x01 3 2 8,
      0x1200000000000000, 9] (.running), insn [head 0x01 3 2 8, 0x1200000000000000, 9], 1,
      { who := .prog 1, code := 0, res := 0, claims := (splice [head 0x01 3 2 8, 0x1200000000000000, 9] (.running) (fun d => { d with dmc := { ready := true }, cal := { holds := [{ req := ⟨.device, 0x30, 0, [(.tcam, true)], 0, 0⟩ }] } })).dev.tableClaims (insn [head 0x01 3 2 8, 0x1200000000000000, 9]) 1 },
      atIns_of (by decide +kernel), (rfl), by decide +kernel⟩⟩

theorem test_hypotheses_FenceAndWaitInstructions :
    (∃ (s : State) (p : Nat) (x : Prog) (i : Ins), s.atIns p x i ∧ i.op = 0x28 ∧ i.field ≤ 2 ∧ i.len = 2 ∧ 0 < i.w 0 ∧ i.w 0 < 2 ^ 32 
      ∧ s.dev.fenceTarget i.field i.a = true ∧ fenceKey i.field i.a ∉ s.dev.spl.fences ∧ s.dev.residentOf (fenceKey i.field i.a).1 (fenceKey i.field i.a).2 = 0)
    ∧ (∃ (s : State) (p : Nat) (x : Prog) (i : Ins), s.atIns p x i ∧ i.op = 0x28 ∧ i.field ≤ 2 ∧ i.len = 2 ∧ 0 < i.w 0 ∧ i.w 0 < 2 ^ 32 
      ∧ s.dev.fenceTarget i.field i.a = true ∧ fenceKey i.field i.a ∉ s.dev.spl.fences ∧ s.dev.residentOf (fenceKey i.field i.a).1 (fenceKey i.field i.a).2 ≠ 0)
    ∧ (∃ (s : State) (p : Nat) (x : Prog) (i : Ins), s.atIns p x i ∧ (∀ y ∈ s.dev.spl.progs, ∀ w e, y.phase ≠ .waiting w e) ∧ i.op = 0x28 ∧ 4 ≤ i.field ∧ i.field ≤ 6 
      ∧ i.len = 2 ∧ i.w 0 < 2 ^ 32 ∧ s.dev.fenceTarget (i.field % 4) i.a = true)
    ∧ (∃ (s : State) (p : Nat) (x : Prog) (i : Ins), s.atIns p x i ∧ i.op = 0x28 ∧ i.field = 3 ∧ i.len = 2 ∧ i.a < 2 ^ 24 ∧ i.w 0 < 2 ^ 32 ∧ s.dev.lead ≤ i.w 0 ∧ s.dev.resetPending i.a = false)
    ∧ (∃ (s : State) (p : Nat) (x : Prog) (i : Ins) (k : Nat) (t0 : Nat) (e : Option Nat), s.live ∧ s.dev.prog p = some x ∧ insOf x.words = some i 
      ∧ x.phase = .waiting (.fence k t0) e ∧ s.dev.residentOf k t0 = 0)
    ∧ (∃ (s : State) (p : Nat) (x : Prog) (i : Ins), s.atIns p x i ∧ i.op = 0x29 ∧ i.field = 0 ∧ i.a = 0 ∧ i.len = 2 ∧ i.w 0 < 2 ^ 54 ∧ i.w 0 ≤ s.dev.turn)
    ∧ (∃ (s : State) (p : Nat) (x : Prog) (i : Ins), s.atIns p x i ∧ i.op = 0x29 ∧ i.field = 0 ∧ i.a = 0 ∧ i.len = 2 ∧ i.w 0 < 2 ^ 54 ∧ s.dev.turn < i.w 0 ∧ i.w 0 ≤ s.dev.turn + 2 ^ 32)
    ∧ (∃ (s : State) (p : Nat) (x : Prog) (i : Ins) (t0 : Nat) (e : Option Nat), s.live ∧ s.dev.prog p = some x ∧ insOf x.words = some i ∧ x.phase = .waiting (.turn t0) e ∧ s.dev.reached t0 = true)
    ∧ (∃ (s : State) (p : Nat) (x : Prog) (i : Ins), s.atIns p x i ∧ i.op = 0x2A ∧ i.field = 0 ∧ i.a < 2 ^ 16 ∧ i.len = 1)
    ∧ (∃ (s : State) (p : Nat) (x : Prog) (i : Ins), s.atIns p x i ∧ i.op = 0x2A ∧ i.field = 1 ∧ i.a < 2 ^ 16 ∧ i.len = 1)
    ∧ (∃ (s : State) (p : Nat) (x : Prog) (i : Ins) (t0 : Nat) (f : Bool) (b : Bool) (e : Option Nat), s.live ∧ s.dev.prog p = some x ∧ insOf x.words = some i 
      ∧ x.phase = .waiting (.barrier t0 f b) e ∧ s.dev.reached t0 = true)
    ∧ (∃ (s : State) (p : Nat) (x : Prog) (i : Ins) (w : SpWait) (e : Nat), s.live ∧ (∀ n k, w ≠ .retire n k) ∧ s.dev.prog p = some x ∧ insOf x.words = some i 
      ∧ x.phase = .waiting w (some e) ∧ s.dev.reached e = true ∧ s.dev.awaited w = false) :=
  ⟨⟨splice [head 0x28 2 0 9, 1] (.running) (fun d => { d with path := { ports := [(9, {})] } }), 1, prog [head 0x28 2 0 9, 1] (.running), insn [head 0x28 2 0 9, 1],
      atIns_of (by decide +kernel), by decide +kernel⟩,
  ⟨splice [head 0x28 2 0 9,
      0xFFFFFFFF] (.running) (fun d => { d with path := { ports := [(9, {})], pkts := [(0, { iport := 3, copies := [(0, { port := 9, cls := 0 })] })] } }), 1,
      prog [head 0x28 2 0 9, 0xFFFFFFFF] (.running), insn [head 0x28 2 0 9, 0xFFFFFFFF], atIns_of (by decide +kernel), by decide +kernel⟩,
  ⟨splice [head 0x28 2 4 9,
      0] (.running) (fun d => { d with path := { ports := [(9, {})] }, spl := { progs := [prog [head 0x28 2 4 9, 0] .running], fences := [(0, 9)] } }), 1, prog [head 0x28 2 4 9,
      0] (.running), insn [head 0x28 2 4 9, 0], atIns_of (by decide +kernel), (by intro y hy w e h; simp [splice, live] at hy; subst hy; simp [prog] at h), by decide +kernel⟩,
  ⟨splice [head 0x28 2 3 7, 2] (.running) id, 1, prog [head 0x28 2 3 7, 2] (.running), insn [head 0x28 2 3 7, 2], atIns_of (by decide +kernel), by decide +kernel⟩,
  ⟨splice [head 0x28 2 0 9, 1] (.waiting (.fence 0 9) (some 12)) id, 1, prog [head 0x28 2 0 9, 1] (.waiting (.fence 0 9) (some 12)), insn [head 0x28 2 0 9, 1], 0, 9,
      (some 12), rfl, by decide +kernel⟩,
  ⟨splice [head 0x29 2 0 0, 9] (.running) (fun d => { d with reel := { time := 24000 * 1024 * 9, served := 9 } }), 1, prog [head 0x29 2 0 0, 9] (.running),
      insn [head 0x29 2 0 0, 9], atIns_of (by decide +kernel), by decide +kernel⟩,
  ⟨splice [head 0x29 2 0 0, 10] (.running) (fun d => { d with reel := { time := 24000 * 1024 * 9, served := 9 } }), 1, prog [head 0x29 2 0 0, 10] (.running),
      insn [head 0x29 2 0 0, 10], atIns_of (by decide +kernel), by decide +kernel⟩,
  ⟨splice [head 0x29 2 0 0, 9] (.waiting (.turn 9) none) (fun d => { d with reel := { time := 24000 * 1024 * 9, served := 9 } }), 1, prog [head 0x29 2 0 0,
      9] (.waiting (.turn 9) none), insn [head 0x29 2 0 0, 9], 9, none, rfl, by decide +kernel⟩,
  ⟨splice [head 0x2A 1 0 0xFFFF] (.running) id, 1, prog [head 0x2A 1 0 0xFFFF] (.running), insn [head 0x2A 1 0 0xFFFF], atIns_of (by decide +kernel), by decide +kernel⟩,
  ⟨splice [head 0x2A 1 1 0] (.running) (fun d => { d with reel := { st := .locked } }), 1, prog [head 0x2A 1 1 0] (.running), insn [head 0x2A 1 1 0], atIns_of (by decide +kernel), by decide +kernel⟩,
  ⟨splice [head 0x2A 1 1 0] (.waiting (.barrier 9 true false) none) (fun d => { d with reel := { st := .locked, time := 24000 * 1024 * 9, served := 9 } }), 1,
      prog [head 0x2A 1 1 0] (.waiting (.barrier 9 true false) none), insn [head 0x2A 1 1 0], 9, true, false, none, rfl, by decide +kernel⟩,
  ⟨splice [head 0x28 2 0 9,
      1] (.waiting (.fence 0 9) (some 9)) (fun d => { d with reel := { time := 24000 * 1024 * 9, served := 9 }, path := { ports := [(9, {})], pkts := [(0, { iport := 3, copies := [(0, { port := 9, cls := 0 })] })] } }),
      1, prog [head 0x28 2 0 9, 1] (.waiting (.fence 0 9) (some 9)), insn [head 0x28 2 0 9, 1], .fence 0 9, 9, rfl, (by intro n k h; cases h), by decide +kernel⟩⟩

theorem test_hypotheses_ProgramInstructions :
    (∃ (s : State) (words : List W) (o : Offer), s.live ∧ s.dev.nextOffer = some o ∧ words.length ≤ 65536 ∧ headerOk words = true ∧ s.dev.logKept + 3 ≤ s.dev.room 
      ∧ (s.dev.progOf o words).turn = none ∧ s.dev.spl.progs.length < 16)
    ∧ (∃ (s : State) (words : List W) (o : Offer) (t0 : Nat), s.live ∧ s.dev.nextOffer = some o ∧ words.length ≤ 65536 ∧ headerOk words = true 
      ∧ s.dev.logKept + 3 ≤ s.dev.room ∧ (s.dev.progOf o words).turn = some t0 ∧ s.dev.turn < t0 ∧ t0 ≤ s.dev.turn + 2 ^ 32 ∧ s.dev.spl.atList.length < 1024)
    ∧ (∃ (s : State) (x : Prog), s.live ∧ s.dev.nextAt = some x ∧ s.dev.reached (x.turn.getD 0) = true ∧ s.dev.slotOver (x.turn.getD 0) = true 
      ∧ s.dev.timersOver (x.turn.getD 0) = true ∧ s.dev.spl.progs.length < 16)
    ∧ (∃ (s : State) (p : Nat) (x : Prog) (i : Ins), s.live ∧ s.dev.prog p = some x ∧ insOf x.words = some i ∧ x.phase = .ended stDone ∧ s.dev.spl.cur = none ∧ 2 ≤ x.left)
    ∧ (∃ (s : State) (p : Nat) (x : Prog) (i : Ins) (n : Nat) (img : Image) (set : ProgSet), s.atIns p x i 
      ∧ set = { img.set with x := i.field, strands := bits (i.w 1) 48 16 } ∧ i.op = 0x18 ∧ i.field ≤ 4 ∧ i.a ≠ 0 ∧ i.len = 3 ∧ bits (i.w 1) 32 16 = 0 
      ∧ (s.dev.variant24 = true → i.a < 2 ^ 16) ∧ s.dev.target x = .inl n ∧ img.digestOk = true ∧ (bit s.dev.she.policy 0 = true ∨ img.header = true → img.signedOk = true) 
      ∧ setBlocks img.set = false ∧ envelopesOk img.set = true ∧ (setSlows img.set = true → i.field ≠ 0) ∧ (∀ l ∈ bitList i.a 32, s.dev.fits n l set = true) 
      ∧ (img.set.autBytes = 0 ∨ (s.dev.cal.holds = [] ∧ s.dev.cal.waiting = [] ∧ s.dev.cal.placeQ = [])))
    ∧ (∃ (s : State) (p : Nat) (x : Prog) (i : Ins), s.atIns p x i ∧ i.op = 0x22 ∧ i.field < 16 ∧ i.len = 3 ∧ i.a < 2 ^ 12 ∧ bits i.a 0 4 ≤ 6 ∧ bits (i.w 0) 24 8 = 0 ∧ (bits i.a 0 4 = 1 ∨ bits i.a 0 4 = 2 ∨ bits i.a 0 4 = 4 → bits i.a 4 8 < s.dev.lanes))
    ∧ (∃ (s : State) (p : Nat) (x : Prog) (i : Ins), s.atIns p x i ∧ i.op = 0x10 ∧ s.dev.portsetOk i = true ∧ s.dev.fenced 0 i.a = false ∧ s.dev.fenced 1 i.a = false)
    ∧ (∃ (s : State) (p : Nat) (x : Prog) (i : Ins), s.atIns p x i ∧ i.op = 0x39 ∧ i.field = 0 ∧ i.len = 2 ∧ 1 ≤ i.a ∧ i.a ≤ 4096 ∧ s.dev.she.rng = .ready)
    ∧ (∃ (s : State) (p : Nat) (x : Prog) (i : Ins), s.atIns p x i ∧ i.op = 0x38 ∧ i.a = 0 ∧ i.len = 1 ∧ (s.dev.qp x.qp).slice = 0 ∧ (i.field = 1 ∨ (0x80 ≤ i.field 
      ∧ i.field ≤ 0xFF)) ∧ s.dev.boot.capTrial = true) :=
  ⟨⟨live (fun d => { d with spl := { offers := [{ qp := 2, desc := 0, len := 40 }] } }), [BitVec.ofNat 64 (1 + 2 ^ 16 + 5 * 2 ^ 32), 0, 0, 0, head 0x29 1 0 0],
      { qp := 2, desc := 0, len := 40 }, rfl, by decide +kernel⟩,
  ⟨live (fun d => { d with spl := { offers := [{ qp := 2, desc := 0, len := 40 }] }, reel := { time := 24000 * 1024 * 9, served := 9 } }),
      [BitVec.ofNat 64 (1 + 2 ^ 8 + 2 ^ 16 + 5 * 2 ^ 32), 10, 0, 0, head 0x29 1 0 0], { qp := 2, desc := 0, len := 40 }, 10, rfl, by decide +kernel⟩,
  ⟨live (fun d => { d with spl := { atList := [{ prog [] .running with turn := some 9 }] }, reel := { time := 24000 * 1024 * 9, served := 9 } }),
      { prog [] .running with turn := some 9 }, rfl, by decide +kernel⟩,
  ⟨live (fun d => { d with spl := { progs := [{ prog [head 0x29 1 0 0] (.ended stDone) with left := 2 }] } }), 1,
      { prog [head 0x29 1 0 0] (.ended stDone) with left := 2 }, insn [head 0x29 1 0 0], rfl, by decide +kernel⟩,
  ⟨splice [head 0x18 3 0 1, 4096, (16 + 2 ^ 48 * 0xFFFF)] (.running) id, 1, prog [head 0x18 3 0 1, 4096, (16 + 2 ^ 48 * 0xFFFF)] (.running), insn [head 0x18 3 0 1, 4096,
      (16 + 2 ^ 48 * 0xFFFF)], 1, { set := { ingress := some { pc := 0, e := 4095 }, code := [0] }, digestOk := true, header := false, signedOk := false },
      { ingress := some { pc := 0, e := 4095 }, code := [0], strands := 0xFFFF }, atIns_of (by decide +kernel), by decide +kernel⟩,
  ⟨splice [head 0x22 3 15 1, 0, 0] (.running) id, 1, prog [head 0x22 3 15 1, 0, 0] (.running), insn [head 0x22 3 15 1, 0, 0], atIns_of (by decide +kernel), by decide +kernel⟩,
  ⟨splice [head 0x10 3 0 199, (2 ^ 7), 0] (.running) id, 1, prog [head 0x10 3 0 199, (2 ^ 7), 0] (.running), insn [head 0x10 3 0 199, (2 ^ 7), 0], atIns_of (by decide +kernel), by decide +kernel⟩,
  ⟨splice [head 0x39 2 0 4096, 4096] (.running) (fun d => { d with she := { rng := .ready } }), 1, prog [head 0x39 2 0 4096, 4096] (.running), insn [head 0x39 2 0 4096,
      4096], atIns_of (by decide +kernel), by decide +kernel⟩,
  ⟨splice [head 0x38 1 1 0] (.running) (fun d => { d with boot := { held := false, gated := false, st := .opened, capTrial := true } }), 1,
      prog [head 0x38 1 1 0] (.running), insn [head 0x38 1 1 0], atIns_of (by decide +kernel), by decide +kernel⟩⟩

theorem test_hypotheses_JoinAndLeaveInstructions :
    (∃ (s : State) (p : Nat) (x : Prog) (i : Ins) (n : Nat), s.atIns p x i ∧ i.op = 0x2B ∧ i.field = 0 ∧ i.len = 2 ∧ 1 ≤ i.a ∧ i.a ≤ 0xFFFF ∧ bits (i.w 0) 6 10 = 0 
      ∧ bits (i.w 0) 32 32 = 0 ∧ s.dev.target x = .inl n)
    ∧ (∃ (s : State) (p : Nat) (x : Prog) (i : Ins) (n : Nat), s.atIns p x i ∧ i.op = 0x2B ∧ i.field = 1 ∧ i.len = 3 ∧ 1 ≤ i.a ∧ i.a ≤ 0xFFFF ∧ s.dev.joinOk i = true 
      ∧ s.dev.target x = .inl n ∧ s.dev.hopFenced i = false ∧ (leaveRoutes n i.a s.dev.brd.nodes).length < 65536)
    ∧ (∃ (s : State) (p : Nat) (x : Prog) (i : Ins) (n : Nat), s.atIns p x i ∧ i.op = 0x2B ∧ i.field = 2 ∧ i.len = 4 ∧ 0x10000 ≤ i.a ∧ i.a ≤ 0xEFFFFF ∧ 1 ≤ i.w 2 
      ∧ i.w 2 ≤ 0xEFFFFF ∧ s.dev.joinOk i = true ∧ s.dev.target x = .inl n ∧ s.dev.hopFenced i = false ∧ (leaveRoutes n i.a s.dev.brd.knots).length + s.dev.brd.members.length < 16384)
    ∧ (∃ (s : State) (p : Nat) (x : Prog) (i : Ins) (n : Nat), s.atIns p x i ∧ i.op = 0x2B ∧ i.field = 3 ∧ i.len = 2 ∧ 0x10000 ≤ i.a ∧ i.a ≤ 0xEFFFFF ∧ i.w 0 < 8 
      ∧ (bit (i.w 0) 2 = true → bit (i.w 0) 0 = true) ∧ s.dev.target x = .inl n ∧ (routeIn s.dev.brd.knots n i.a).isSome = true ∧ s.dev.brd.knots.length + (leaveMembers n i.a s.dev.brd.members).length < 16384)
    ∧ (∃ (s : State) (p : Nat) (x : Prog) (i : Ins) (n : Nat), s.atIns p x i ∧ i.op = 0x2C ∧ i.field = 0 ∧ i.len = 2 ∧ i.a < 2 ^ 24 ∧ 0 < i.w 0 ∧ i.w 0 < 2 ^ 32 
      ∧ s.dev.target x = .inl n ∧ (2, 0) ∉ s.dev.spl.fences ∧ s.dev.residentOf 2 0 = 0)
    ∧ (∃ (s : State) (p : Nat) (x : Prog) (i : Ins) (n : Nat), s.atIns p x i ∧ i.op = 0x2C ∧ i.field = 0 ∧ i.len = 2 ∧ i.a < 2 ^ 24 ∧ 0 < i.w 0 ∧ i.w 0 < 2 ^ 32 
      ∧ s.dev.target x = .inl n ∧ (2, 0) ∉ s.dev.spl.fences ∧ s.dev.residentOf 2 0 ≠ 0)
    ∧ (∃ (s : State) (p : Nat) (x : Prog) (i : Ins) (n : Nat) (e : Option Nat), s.live ∧ s.dev.prog p = some x ∧ insOf x.words = some i ∧ x.phase = .waiting .leaveSelf e 
      ∧ s.dev.residentOf 2 0 = 0 ∧ s.dev.shadeNamed x.shade = some n)
    ∧ (∃ (s : State) (p : Nat) (x : Prog) (i : Ins) (n : Nat), s.atIns p x i ∧ i.op = 0x2C ∧ i.field = 1 ∧ i.len = 1 ∧ i.a < 2 ^ 24 ∧ s.dev.target x = .inl n ∧ (routeIn s.dev.brd.nodes n i.a).isSome = true)
    ∧ (∃ (s : State) (p : Nat) (x : Prog) (i : Ins) (n : Nat), s.atIns p x i ∧ i.op = 0x2C ∧ i.field = 2 ∧ i.len = 1 ∧ i.a < 2 ^ 24 ∧ s.dev.target x = .inl n ∧ (routeIn s.dev.brd.knots n i.a).isSome = true)
    ∧ (∃ (s : State) (p : Nat) (x : Prog) (i : Ins) (n : Nat), s.atIns p x i ∧ i.op = 0x2C ∧ i.field = 3 ∧ i.len = 1 ∧ i.a < 2 ^ 24 ∧ s.dev.target x = .inl n ∧ (s.dev.member n i.a).isSome = true) :=
  ⟨⟨splice [head 0x2B 2 0 0xFFFF, 0] (.running) id, 1, prog [head 0x2B 2 0 0xFFFF, 0] (.running), insn [head 0x2B 2 0 0xFFFF, 0], 1, atIns_of (by decide +kernel), by decide +kernel⟩,
  ⟨splice [head 0x2B 3 1 9, 0x10,
      0] (.running) (fun d => { d with brd := { knots := [⟨0x10001, 2, [0], false, 0, 0⟩], members := [⟨0x10001, 2, true, false, false⟩], nodes := [⟨9, 2, [0], false, 0, 0⟩] }, path := { ports := [(0, { braid := true, enable := true })] } }),
      1, prog [head 0x2B 3 1 9, 0x10, 0] (.running), insn [head 0x2B 3 1 9, 0x10, 0], 1, atIns_of (by decide +kernel), by decide +kernel⟩,
  ⟨splice [head 0x2B 4 2 0x10000, 0x10, 0,
      0xEFFFFF] (.running) (fun d => { d with brd := { knots := [⟨0x10001, 2, [0], false, 0, 0⟩], members := [⟨0x10001, 2, true, false, false⟩], nodes := [⟨9, 2, [0], false, 0, 0⟩] }, path := { ports := [(0, { braid := true, enable := true })] } }),
      1, prog [head 0x2B 4 2 0x10000, 0x10, 0, 0xEFFFFF] (.running), insn [head 0x2B 4 2 0x10000, 0x10, 0, 0xEFFFFF], 1, atIns_of (by decide +kernel), by decide +kernel⟩,
  ⟨splice [head 0x2B 2 3 0x10001,
      7] (.running) (fun d => { d with brd := { knots := [⟨0x10001, 2, [0], false, 0, 0⟩], members := [⟨0x10001, 2, true, false, false⟩], nodes := [⟨9, 2, [0], false, 0, 0⟩] }, path := { ports := [(0, { braid := true, enable := true })] } }),
      1, prog [head 0x2B 2 3 0x10001, 7] (.running), insn [head 0x2B 2 3 0x10001, 7], 1, atIns_of (by decide +kernel), by decide +kernel⟩,
  ⟨splice [head 0x2C 2 0 9, 1] (.running) id, 1, prog [head 0x2C 2 0 9, 1] (.running), insn [head 0x2C 2 0 9, 1], 1, atIns_of (by decide +kernel), by decide +kernel⟩,
  ⟨splice [head 0x2C 2 0 9, 1] (.running) (fun d => { d with path := { pkts := [(0, { iport := 3, transit := some ⟨1, 0, false, 3, 4, 0, 63, 77, 4⟩ })] } }), 1,
      prog [head 0x2C 2 0 9, 1] (.running), insn [head 0x2C 2 0 9, 1], 1, atIns_of (by decide +kernel), by decide +kernel⟩,
  ⟨splice [head 0x2C 2 0 9, 1] (.waiting .leaveSelf (some 12)) id, 1, prog [head 0x2C 2 0 9, 1] (.waiting .leaveSelf (some 12)), insn [head 0x2C 2 0 9, 1], 1, (some 12), rfl, by decide +kernel⟩,
  ⟨splice [head 0x2C 1 1 9] (.running) (fun d => { d with brd := { knots := [⟨0x10001, 2, [0], false, 0, 0⟩], members := [⟨0x10001, 2, true, false, false⟩], nodes := [⟨9, 2, [0], false, 0, 0⟩] }, path := { ports := [(0, { braid := true, enable := true })] } }),
      1, prog [head 0x2C 1 1 9] (.running), insn [head 0x2C 1 1 9], 1, atIns_of (by decide +kernel), by decide +kernel⟩,
  ⟨splice [head 0x2C 1 2 0x10001] (.running) (fun d => { d with brd := { knots := [⟨0x10001, 2, [0], false, 0, 0⟩], members := [⟨0x10001, 2, true, false, false⟩], nodes := [⟨9, 2, [0], false, 0, 0⟩] }, path := { ports := [(0, { braid := true, enable := true })] } }),
      1, prog [head 0x2C 1 2 0x10001] (.running), insn [head 0x2C 1 2 0x10001], 1, atIns_of (by decide +kernel), by decide +kernel⟩,
  ⟨splice [head 0x2C 1 3 0x10001] (.running) (fun d => { d with brd := { knots := [⟨0x10001, 2, [0], false, 0, 0⟩], members := [⟨0x10001, 2, true, false, false⟩], nodes := [⟨9, 2, [0], false, 0, 0⟩] }, path := { ports := [(0, { braid := true, enable := true })] } }),
      1, prog [head 0x2C 1 3 0x10001] (.running), insn [head 0x2C 1 3 0x10001], 1, atIns_of (by decide +kernel), by decide +kernel⟩⟩

theorem test_hypotheses_SnapAndCalInstructions :
    (∃ (s : State) (p : Nat) (x : Prog) (i : Ins), s.atIns p x i ∧ i.op = 0x20 ∧ i.field = 0 ∧ i.len = 2 ∧ i.a < 2 ^ 19 ∧ i.w 0 < 2 ^ 54 ∧ s.dev.turn < i.w 0 
      ∧ i.w 0 ≤ s.dev.turn + 2 ^ 32 ∧ s.dev.spl.snaps.length < 4)
    ∧ (∃ (s : State) (p : Nat) (x : Prog) (i : Ins), s.atIns p x i ∧ i.op = 0x20 ∧ i.field = 1 ∧ i.len = 2 ∧ i.a < 2 ^ 19 ∧ i.w 0 < 2 ^ 54 ∧ s.dev.turn < i.w 0 
      ∧ s.dev.turn + s.dev.lead ≤ i.w 0 ∧ i.w 0 ≤ s.dev.turn + 2 ^ 32 ∧ s.dev.spl.snaps.length < 4)
    ∧ (∃ (s : State) (p : Nat) (x : Prog) (i : Ins), s.atIns p x i ∧ i.op = 0x21 ∧ i.w 0 % 4 = 0 ∧ s.dev.calOk i = true ∧ s.dev.calNotReady i.field = false ∧ s.dev.flashOk i.field i.a = true)
    ∧ (∃ (s : State) (p : Nat) (x : Prog) (i : Ins), s.atIns p x i ∧ i.op = 0x21 ∧ i.w 0 % 4 = 1 ∧ s.dev.calOk i = true ∧ s.dev.calNotReady i.field = false)
    ∧ (∃ (s : State) (p : Nat) (x : Prog) (i : Ins), s.atIns p x i ∧ i.op = 0x21 ∧ i.w 0 % 4 = 2 ∧ s.dev.calOk i = true ∧ s.dev.calNotReady i.field = false)
    ∧ (∃ (s : State) (p : Nat) (x : Prog) (i : Ins), s.atIns p x i ∧ i.op = 0x21 ∧ i.w 0 % 4 = 3 ∧ s.dev.calOk i = true ∧ s.dev.calNotReady i.field = false) :=
  ⟨⟨splice [head 0x20 2 0 0x7FFFF, 10] (.running) (fun d => { d with reel := { time := 24000 * 1024 * 9, served := 9 } }), 1, prog [head 0x20 2 0 0x7FFFF, 10] (.running),
      insn [head 0x20 2 0 0x7FFFF, 10], atIns_of (by decide +kernel), by decide +kernel⟩,
  ⟨splice [head 0x20 2 1 1, 11] (.running) (fun d => { d with reel := { time := 24000 * 1024 * 9, served := 9 } }), 1, prog [head 0x20 2 1 1, 11] (.running),
      insn [head 0x20 2 1 1, 11], atIns_of (by decide +kernel), by decide +kernel⟩,
  ⟨splice [head 0x21 2 0x10 11, 0] (.running) (fun d => { d with dmc := { ready := true } }), 1, prog [head 0x21 2 0x10 11, 0] (.running), insn [head 0x21 2 0x10 11, 0],
      atIns_of (by decide +kernel), by decide +kernel⟩,
  ⟨splice [head 0x21 2 0x10 11, (1 + 2 ^ 32 * 4096)] (.running) (fun d => { d with dmc := { ready := true } }), 1, prog [head 0x21 2 0x10 11,
      (1 + 2 ^ 32 * 4096)] (.running), insn [head 0x21 2 0x10 11, (1 + 2 ^ 32 * 4096)], atIns_of (by decide +kernel), by decide +kernel⟩,
  ⟨splice [head 0x21 2 0x10 11, 2] (.running) (fun d => { d with dmc := { ready := true } }), 1, prog [head 0x21 2 0x10 11, 2] (.running), insn [head 0x21 2 0x10 11, 2],
      atIns_of (by decide +kernel), by decide +kernel⟩,
  ⟨splice [head 0x21 2 0x10 11, 3] (.running) (fun d => { d with dmc := { ready := true } }), 1, prog [head 0x21 2 0x10 11, 3] (.running), insn [head 0x21 2 0x10 11, 3],
      atIns_of (by decide +kernel), by decide +kernel⟩⟩

theorem test_hypotheses_QueuePairInstructions :
    (∃ (s : State) (p : Nat) (x : Prog) (i : Ins), s.atIns p x i ∧ i.op = 0x30 ∧ i.field ≠ 6 ∧ bit (i.w 2) 32 = true ∧ s.dev.qpsetOk i = true 
      ∧ (bit (i.w 2) 33 = true ∨ (s.dev.countQps fun k y => k != i.a && !y.capstan && y.fnKey == (qpOf i).fnKey) < 2048) 
      ∧ (s.dev.countQps fun k y => k != i.a && y.slice == (qpOf i).slice) < 256 ∧ (i.field = 2 → (s.dev.countQps fun k y => k != i.a && y.kind == 2) < 4096))
    ∧ (∃ (s : State) (p : Nat) (x : Prog) (i : Ins), s.atIns p x i ∧ i.op = 0x30 ∧ i.field ≤ 5 ∧ bit (i.w 2) 32 = false ∧ i.len = 6 ∧ i.a < 65536 ∧ (s.dev.qp i.a).st = .idle)
    ∧ (∃ (s : State) (p : Nat) (x : Prog) (i : Ins), s.atIns p x i ∧ i.op = 0x31 ∧ i.field = 0 ∧ i.len = 2 ∧ 0 < i.w 0 ∧ i.w 0 < 2 ^ 32 ∧ s.dev.stoppable x i.a = true)
    ∧ (∃ (s : State) (p : Nat) (x : Prog) (i : Ins), s.atIns p x i ∧ (i.a = x.qp ∨ (s.dev.qp i.a).st = .disabled ∨ (s.dev.qp i.a).st = .idle) ∧ i.op = 0x31)
    ∧ (∃ (s : State) (p : Nat) (x : Prog) (i : Ins), s.atIns p x i ∧ (i.a = x.qp ∨ (s.dev.qp i.a).st = .disabled ∨ (s.dev.qp i.a).st = .idle) ∧ i.op = 0x32)
    ∧ (∃ (s : State) (p : Nat) (x : Prog) (i : Ins), s.atIns p x i ∧ i.op = 0x32 ∧ i.field = 0 ∧ i.len = 1 ∧ s.dev.stoppable x i.a = true)
    ∧ (∃ (s : State) (p : Nat) (x : Prog) (i : Ins), s.atIns p x i ∧ i.op = 0x30 ∧ i.field = 6 ∧ bit (i.w 0) 0 = true ∧ i.len = 10 ∧ i.a = 0 ∧ bit (i.w 0) 1 = false 
      ∧ bits (i.w 0) 3 29 = 0 ∧ portMap i 1 &&& portMap i 5 = 0 ∧ portMap i 1 < 2 ^ s.dev.lanes ∧ portMap i 5 < 2 ^ s.dev.lanes ∧ bit (i.w 0) 2 = true ∧ bits (i.w 0) 32 32 < 16384)
    ∧ (∃ (s : State) (p : Nat) (x : Prog) (i : Ins), s.atIns p x i ∧ i.op = 0x30 ∧ i.field = 6 ∧ bit (i.w 0) 0 = true ∧ i.len = 10 ∧ i.a = 0 ∧ bit (i.w 0) 1 = false 
      ∧ bits (i.w 0) 3 29 = 0 ∧ portMap i 1 &&& portMap i 5 = 0 ∧ portMap i 1 < 2 ^ s.dev.lanes ∧ portMap i 5 < 2 ^ s.dev.lanes ∧ bit (i.w 0) 2 = false)
    ∧ (∃ (s : State) (p : Nat) (x : Prog) (i : Ins), s.atIns p x i ∧ i.op = 0x30 ∧ i.field = 6 ∧ bit (i.w 0) 0 = false ∧ i.len = 10 ∧ i.a < 64 ∧ bits (i.w 0) 15 17 = 0 
      ∧ bits (i.w 0) 48 16 = 0 ∧ portMap i 1 < 2 ^ s.dev.lanes ∧ bit (i.w 0) 2 = true ∧ (s.dev.qp (viewOf i).qp).st = .active ∧ (s.dev.qp (viewOf i).qp).kind = 5 ∧ (s.dev.qp (viewOf i).qp).slice = (viewOf i).slice)
    ∧ (∃ (s : State) (p : Nat) (x : Prog) (i : Ins), s.atIns p x i ∧ i.op = 0x30 ∧ i.field = 6 ∧ bit (i.w 0) 0 = false ∧ i.len = 10 ∧ i.a < 64 ∧ bits (i.w 0) 15 17 = 0 
      ∧ bits (i.w 0) 48 16 = 0 ∧ portMap i 1 < 2 ^ s.dev.lanes ∧ bit (i.w 0) 2 = false) :=
  ⟨⟨splice [head 0x30 6 1 9, 0x1000, 0x2000, (0x01 * 2 ^ 8 + 0x40 * 2 ^ 16 + 2 ^ 32), 0, (7 + 2 ^ 12)] (.running) id, 1, prog [head 0x30 6 1 9, 0x1000, 0x2000,
      (0x01 * 2 ^ 8 + 0x40 * 2 ^ 16 + 2 ^ 32), 0, (7 + 2 ^ 12)] (.running), insn [head 0x30 6 1 9, 0x1000, 0x2000, (0x01 * 2 ^ 8 + 0x40 * 2 ^ 16 + 2 ^ 32), 0, (7 + 2 ^ 12)],
      atIns_of (by decide +kernel), by decide +kernel⟩,
  ⟨splice [head 0x30 6 1 9, 0, 0, 0, 0, 0] (.running) (fun d => { d with hif := { qps := [(2, { st := .active, kind := 4 }), (9, { st := .idle, kind := 1 })] } }), 1,
      prog [head 0x30 6 1 9, 0, 0, 0, 0, 0] (.running), insn [head 0x30 6 1 9, 0, 0, 0, 0, 0], atIns_of (by decide +kernel), by decide +kernel⟩,
  ⟨splice [head 0x31 2 0 9, 1] (.running) (fun d => { d with hif := { qps := [(2, { st := .active, kind := 4 }), (9, { st := .active, kind := 1 })] } }), 1,
      prog [head 0x31 2 0 9, 1] (.running), insn [head 0x31 2 0 9, 1], atIns_of (by decide +kernel), by decide +kernel⟩,
  ⟨splice [head 0x31 2 0 2, 1] (.running) (fun d => { d with hif := { qps := [(2, { st := .active, kind := 4 }), (9, { st := .active, kind := 1 })] } }), 1,
      prog [head 0x31 2 0 2, 1] (.running), insn [head 0x31 2 0 2, 1], atIns_of (by decide +kernel), by decide +kernel⟩,
  ⟨splice [head 0x32 1 0 2] (.running) (fun d => { d with hif := { qps := [(2, { st := .active, kind := 4 }), (9, { st := .active, kind := 1 })] } }), 1,
      prog [head 0x32 1 0 2] (.running), insn [head 0x32 1 0 2], atIns_of (by decide +kernel), by decide +kernel⟩,
  ⟨splice [head 0x32 1 0 9] (.running) (fun d => { d with hif := { qps := [(2, { st := .active, kind := 4 }), (9, { st := .active, kind := 1 })] } }), 1,
      prog [head 0x32 1 0 9] (.running), insn [head 0x32 1 0 9], atIns_of (by decide +kernel), by decide +kernel⟩,
  ⟨splice [head 0x30 10 6 0, (5 + 2 ^ 32 * 16383), 1, 1, 1, 1, 2, 2, 2, 2] (.running) id, 1, prog [head 0x30 10 6 0, (5 + 2 ^ 32 * 16383), 1, 1, 1, 1, 2, 2, 2,
      2] (.running), insn [head 0x30 10 6 0, (5 + 2 ^ 32 * 16383), 1, 1, 1, 1, 2, 2, 2, 2], atIns_of (by decide +kernel), by decide +kernel⟩,
  ⟨splice [head 0x30 10 6 0, 1, 1, 1, 1, 1, 2, 2, 2, 2] (.running) id, 1, prog [head 0x30 10 6 0, 1, 1, 1, 1, 1, 2, 2, 2, 2] (.running), insn [head 0x30 10 6 0, 1, 1, 1,
      1, 1, 2, 2, 2, 2], atIns_of (by decide +kernel), by decide +kernel⟩,
  ⟨splice [head 0x30 10 6 63, (4 + 2 ^ 32 * 9), 1, 1, 1, 1, 2, 2, 2,
      2] (.running) (fun d => { d with hif := { qps := [(2, { st := .active, kind := 4 }), (9, { st := .active, kind := 5 })] } }), 1, prog [head 0x30 10 6 63, (4 + 2 ^ 32 * 9),
      1, 1, 1, 1, 2, 2, 2, 2] (.running), insn [head 0x30 10 6 63, (4 + 2 ^ 32 * 9), 1, 1, 1, 1, 2, 2, 2, 2], atIns_of (by decide +kernel), by decide +kernel⟩,
  ⟨splice [head 0x30 10 6 63, 0, 1, 1, 1, 1, 2, 2, 2, 2] (.running) id, 1, prog [head 0x30 10 6 63, 0, 1, 1, 1, 1, 2, 2, 2, 2] (.running), insn [head 0x30 10 6 63, 0, 1,
      1, 1, 1, 2, 2, 2, 2], atIns_of (by decide +kernel), by decide +kernel⟩⟩

theorem test_hypotheses_SliceInstructions :
    (∃ (s : State) (p : Nat) (x : Prog) (i : Ins), s.atIns p x i ∧ i.op = 0x33 ∧ bit (i.w 0) 0 = true ∧ i.field = 0 ∧ i.len = 13 
      ∧ s.dev.mayName (s.dev.qp x.qp).slice i.a = true ∧ s.dev.slcsetOk i = true ∧ s.dev.slice i.a = none ∧ (bit (i.w 0) 8 = true ∨ (Map.keysWhere s.dev.slc fun n z =>
        n != i.a && !z.capstan && z.port == (sliceOf i).port && z.fn == (sliceOf i).fn).length < 1024))
    ∧ (∃ (s : State) (p : Nat) (x : Prog) (i : Ins) (z : Slice), s.atIns p x i ∧ i.op = 0x33 ∧ bit (i.w 0) 0 = true ∧ i.field = 0 ∧ i.len = 13 
      ∧ s.dev.mayName (s.dev.qp x.qp).slice i.a = true ∧ s.dev.slcsetOk i = true ∧ s.dev.slice i.a = some z ∧ (bit (i.w 0) 8 = true ∨ (Map.keysWhere s.dev.slc fun n z =>
        n != i.a && !z.capstan && z.port == (sliceOf i).port && z.fn == (sliceOf i).fn).length < 1024))
    ∧ (∃ (s : State) (p : Nat) (x : Prog) (i : Ins), s.atIns p x i ∧ i.op = 0x33 ∧ bit (i.w 0) 0 = false ∧ i.field = 0 ∧ i.len = 13 
      ∧ s.dev.mayName (s.dev.qp x.qp).slice i.a = true ∧ s.dev.qpsOf i.a = [] ∧ (∀ e ∈ s.dev.she.slots, e.2.owner = i.a → e.2.refs = 0 ∧ s.dev.slotBusy e.1 = false))
    ∧ (∃ (s : State) (p : Nat) (x : Prog) (i : Ins) (y : Slice), s.atIns p x i ∧ i.op = 0x34 ∧ i.field = 0 ∧ i.len = 1 ∧ s.dev.mayReset (s.dev.qp x.qp).slice i.a = true ∧ s.dev.slice i.a = some y)
    ∧ (∃ (s : State) (p : Nat) (x : Prog) (i : Ins) (n : Nat) (e : Option Nat) (y : Slice), s.live ∧ s.dev.prog p = some x ∧ insOf x.words = some i 
      ∧ x.phase = .waiting (.sliceReset n) e ∧ (s.dev.busyGens n).length < 4 ∧ s.dev.slice n = some y) :=
  ⟨⟨splice [head 0x33 13 0 4095, (1 + 2 * 1 + 2 ^ 47), 0, 0, 0, 0x1000000000000, 0x1000000000000, 0x1000000000000, 0x1000000000000, 0x1000000000000, 0x1000000000000,
      0x1000000000000, 0x1000000000000] (.running) id, 1, prog [head 0x33 13 0 4095, (1 + 2 * 1 + 2 ^ 47), 0, 0, 0, 0x1000000000000, 0x1000000000000, 0x1000000000000,
      0x1000000000000, 0x1000000000000, 0x1000000000000, 0x1000000000000, 0x1000000000000] (.running), insn [head 0x33 13 0 4095, (1 + 2 * 1 + 2 ^ 47), 0, 0, 0, 0x1000000000000,
      0x1000000000000, 0x1000000000000, 0x1000000000000, 0x1000000000000, 0x1000000000000, 0x1000000000000, 0x1000000000000], atIns_of (by decide +kernel), by decide +kernel⟩,
  ⟨splice [head 0x33 13 0 9, (1 + 2 * 1 + 2 ^ 47), 0, 0, 0, 0x1000000000000, 0x1000000000000, 0x1000000000000, 0x1000000000000, 0x1000000000000, 0x1000000000000,
      0x1000000000000, 0x1000000000000] (.running) (fun d => { d with slc := [(0, slice0), (9, { role := 1, mgr := 0, gen := 65535, cfg := { weight := 1 } })] }), 1,
      prog [head 0x33 13 0 9, (1 + 2 * 1 + 2 ^ 47), 0, 0, 0, 0x1000000000000, 0x1000000000000, 0x1000000000000, 0x1000000000000, 0x1000000000000, 0x1000000000000,
      0x1000000000000, 0x1000000000000] (.running), insn [head 0x33 13 0 9, (1 + 2 * 1 + 2 ^ 47), 0, 0, 0, 0x1000000000000, 0x1000000000000, 0x1000000000000, 0x1000000000000,
      0x1000000000000, 0x1000000000000, 0x1000000000000, 0x1000000000000], { role := 1, mgr := 0, gen := 65535, cfg := { weight := 1 } }, atIns_of (by decide +kernel), by decide +kernel⟩,
  ⟨splice [head 0x33 13 0 9, 0, 0, 0, 0, 0, 0, 0, 0, 0, 0, 0,
      0] (.running) (fun d => { d with slc := [(0, slice0), (9, { role := 1, mgr := 0, gen := 65535, cfg := { weight := 1 } })] }), 1, prog [head 0x33 13 0 9, 0, 0, 0, 0, 0, 0,
      0, 0, 0, 0, 0, 0] (.running), insn [head 0x33 13 0 9, 0, 0, 0, 0, 0, 0, 0, 0, 0, 0, 0, 0], atIns_of (by decide +kernel), by decide +kernel⟩,
  ⟨splice [head 0x34 1 0 9] (.running) (fun d => { d with slc := [(0, slice0), (9, { role := 1, mgr := 0, gen := 65535, cfg := { weight := 1 } })] }), 1,
      prog [head 0x34 1 0 9] (.running), insn [head 0x34 1 0 9], { role := 1, mgr := 0, gen := 65535, cfg := { weight := 1 } }, atIns_of (by decide +kernel), by decide +kernel⟩,
  ⟨splice [head 0x34 1 0 9] (.waiting (.sliceReset 9) none) (fun d => { d with slc := [(0, slice0), (9, { role := 1, mgr := 0, gen := 65535, cfg := { weight := 1 } })] }),
      1, prog [head 0x34 1 0 9] (.waiting (.sliceReset 9) none), insn [head 0x34 1 0 9], 9, none, { role := 1, mgr := 0, gen := 65535, cfg := { weight := 1 } }, rfl, by decide +kernel⟩⟩

theorem test_hypotheses_Mailboxes :
    (∃ (s : State) (n : Nat) (x : Slice) (v : Nat), s.live ∧ n < 4096 ∧ v < 2 ^ 64 ∧ s.dev.slice n = some x ∧ x.capstan = false ∧ 8 * x.port + x.fn < 64 
      ∧ bits v 32 16 = x.gen ∧ bits v 0 12 ≤ 2040 ∧ bits v 0 12 % 8 = 0 ∧ 0 < bits v 0 12 ∧ x.up.unack = false)
    ∧ (∃ (s : State) (n : Nat) (x : Slice) (v : Nat), s.live ∧ n < 4096 ∧ v < 2 ^ 64 ∧ s.dev.slice n = some x ∧ x.capstan = false ∧ 8 * x.port + x.fn < 64 
      ∧ bits v 32 16 = x.gen ∧ bits v 0 12 ≤ 2040 ∧ bits v 0 12 % 8 = 0 ∧ 0 < bits v 0 12 ∧ x.up.unack = true)
    ∧ (∃ (s : State) (n : Nat) (x : Slice) (v : Nat), s.live ∧ n < 4096 ∧ v < 2 ^ 64 ∧ s.dev.slice n = some x ∧ x.capstan = false ∧ 8 * x.port + x.fn < 64 
      ∧ bits v 32 16 = x.gen ∧ bits v 0 12 ≤ 2040 ∧ bits v 0 12 % 8 = 0 ∧ bits v 0 12 = 0)
    ∧ (∃ (s : State) (n : Nat) (x : Slice) (m : Slice) (v : Nat) (w : Nat), s.live ∧ n < 4096 ∧ v < 2 ^ 64 ∧ s.dev.slice n = some x ∧ s.dev.slice x.mgr = some m 
      ∧ w = (if m.capstan then 32 + m.core else 8 * m.port + m.fn) ∧ w < 64 ∧ bits v 32 16 = x.gen ∧ 0 < bits v 0 12 ∧ bits v 0 12 ≤ 2040 ∧ bits v 0 12 % 8 = 0 
      ∧ x.down.unack = false ∧ x.orphan = false)
    ∧ (∃ (s : State) (n : Nat) (x : Slice) (v : Nat), s.live ∧ n < 4096 ∧ v < 2 ^ 64 ∧ s.dev.slice n = some x ∧ x.capstan = false ∧ 8 * x.port + x.fn < 64 ∧ bits v 32 16 ≠ x.gen)
    ∧ (∃ (s : State) (n : Nat) (who : Nat) (v : Nat), s.live ∧ who < 64 ∧ n < 4096 ∧ v < 2 ^ 64 ∧ s.dev.slice n = none)
    ∧ (∃ (s : State) (n : Nat) (up : Bool) (x : Slice) (l : Nat) (g : Nat), s.live ∧ n < 4096 ∧ s.dev.slice n = some x ∧ (if up then x.up else x.down).msg = some (l, g)) :=
  ⟨⟨live (fun d => { d with slc := [(0, slice0), (9, { role := 1, mgr := 0, gen := 3, cfg := { weight := 1 } })] }), 9,
      { role := 1, mgr := 0, gen := 3, cfg := { weight := 1 } }, 3 * 2 ^ 32 + 2040, rfl, by decide +kernel⟩,
  ⟨live (fun d => { d with slc := [(0, slice0), (9, { role := 1, mgr := 0, gen := 3, cfg := { weight := 1 }, up := { unack := true } })] }), 9,
      { role := 1, mgr := 0, gen := 3, cfg := { weight := 1 }, up := { unack := true } }, 3 * 2 ^ 32 + 2040, rfl, by decide +kernel⟩,
  ⟨live (fun d => { d with slc := [(0, slice0), (9, { role := 1, mgr := 0, gen := 3, cfg := { weight := 1 } })] }), 9,
      { role := 1, mgr := 0, gen := 3, cfg := { weight := 1 } }, 3 * 2 ^ 32, rfl, by decide +kernel⟩,
  ⟨live (fun d => { d with slc := [(0, slice0), (9, { role := 1, mgr := 0, gen := 3, cfg := { weight := 1 } })] }), 9,
      { role := 1, mgr := 0, gen := 3, cfg := { weight := 1 } }, slice0, 3 * 2 ^ 32 + 8, 32, rfl, by decide +kernel⟩,
  ⟨live (fun d => { d with slc := [(0, slice0), (9, { role := 1, mgr := 0, gen := 3, cfg := { weight := 1 } })] }), 9,
      { role := 1, mgr := 0, gen := 3, cfg := { weight := 1 } }, 4 * 2 ^ 32 + 8, rfl, by decide +kernel⟩,
  ⟨live id, 4095, 63, 8, rfl, by decide +kernel⟩,
  ⟨live (fun d => { d with slc := [(0, slice0), (9, { role := 1, mgr := 0, gen := 3, cfg := { weight := 1 }, up := { msg := some (8, 3), unack := true, seq := 65535 } })] }),
      9, true, { role := 1, mgr := 0, gen := 3, cfg := { weight := 1 }, up := { msg := some (8, 3), unack := true, seq := 65535 } }, 8, 3, rfl, by decide +kernel⟩⟩

theorem test_hypotheses_ConnectionAndVolumeInstructions :
    (∃ (s : State) (p : Nat) (x : Prog) (i : Ins), s.atIns p x i ∧ i.op = 0x36 ∧ i.field = 0 ∧ i.a = 0 ∧ i.len = 3 ∧ i.w 0 = 1 ∧ bits (i.w 1) 16 16 ≠ 4791 
      ∧ 1024 ≤ bits (i.w 1) 32 18 ∧ bits (i.w 1) 32 18 ≤ 131072 ∧ bits (i.w 1) 50 14 = 0 ∧ bits (i.w 1) 0 8 ≠ bits (i.w 1) 8 8 ∧ (∀ e ∈ s.dev.rdm.conns, e.2.st = .disabled) 
      ∧ Map.find s.dev.hif.steer (bits (i.w 1) 0 8) = none ∧ Map.find s.dev.hif.steer (bits (i.w 1) 8 8) = none)
    ∧ (∃ (s : State) (p : Nat) (x : Prog) (i : Ins), s.atIns p x i ∧ i.op = 0x36 ∧ i.w 0 % 4 = 0 ∧ bit (i.w 0) 2 = true ∧ s.dev.dmc.ready = true ∧ s.dev.rdm.set = true 
      ∧ i.a < s.dev.rdm.count ∧ s.dev.connOk i = true ∧ (s.dev.conn i.a).st = .disabled ∧ bit (i.w 0) 3 = false)
    ∧ (∃ (s : State) (p : Nat) (x : Prog) (i : Ins), s.atIns p x i ∧ i.op = 0x36 ∧ i.w 0 % 4 = 0 ∧ bit (i.w 0) 2 = true ∧ s.dev.dmc.ready = true ∧ s.dev.rdm.set = true 
      ∧ i.a < s.dev.rdm.count ∧ s.dev.connOk i = true ∧ (s.dev.conn i.a).st = .disabled ∧ bit (i.w 0) 3 = true)
    ∧ (∃ (s : State) (p : Nat) (x : Prog) (i : Ins), s.atIns p x i ∧ i.op = 0x36 ∧ i.w 0 % 4 = 0 ∧ bit (i.w 0) 2 = false ∧ s.dev.dmc.ready = true ∧ s.dev.rdm.set = true 
      ∧ i.a < s.dev.rdm.count ∧ i.field = 0 ∧ i.len = (if bit (i.w 0) 3 then 17 else 11) ∧ (s.dev.conn i.a).st ≠ .disabled)
    ∧ (∃ (s : State) (p : Nat) (x : Prog) (i : Ins) (v : Vol), s.atIns p x i ∧ (v = ⟨bit (i.w 0) 3, if bit (i.w 0) 4 then some (bits (i.w 0) 5 8) else none, i.w 1⟩) 
      ∧ i.op = 0x35 ∧ i.w 0 % 4 = 0 ∧ i.field = 0 ∧ i.len = 3 ∧ i.a < 16384 ∧ bits (i.w 0) 13 51 = 0 ∧ i.w 1 < 2 ^ 42 ∧ s.dev.dmc.ready = true ∧ bit (i.w 0) 2 = true 
      ∧ (bit (i.w 0) 4 = true → (s.dev.slotFor (s.dev.qp x.qp).slice 3 (bits (i.w 0) 5 8)).isSome = true) ∧ (∀ e ∈ s.dev.sto.exts, e.2.vol = i.a → e.2.first + e.2.len ≤ i.w 1))
    ∧ (∃ (s : State) (p : Nat) (x : Prog) (i : Ins), s.atIns p x i ∧ i.op = 0x35 ∧ i.w 0 % 4 = 0 ∧ i.field = 0 ∧ i.len = 3 ∧ i.a < 16384 ∧ bits (i.w 0) 13 51 = 0 
      ∧ i.w 1 < 2 ^ 42 ∧ s.dev.dmc.ready = true ∧ bit (i.w 0) 2 = false)
    ∧ (∃ (s : State) (p : Nat) (x : Prog) (i : Ins) (e : Ext), s.atIns p x i ∧ i.op = 0x35 ∧ i.w 0 % 4 = 1 ∧ i.field = 0 ∧ i.len = 5 ∧ i.a < 16384 ∧ bits (i.w 0) 3 9 = 0 
      ∧ bits (i.w 0) 32 32 = 0 ∧ i.w 1 < 2 ^ 42 ∧ bits (i.w 2) 42 22 = 0 ∧ s.dev.dmc.ready = true ∧ bit (i.w 0) 2 = true 
      ∧ e = ({ vol := i.a, first := i.w 1, len := bits (i.w 2) 0 32, target := bits (i.w 2) 32 10, at' := i.w 3 } : Ext) ∧ 0 < e.len 
      ∧ s.dev.sto.mappedBut (bits (i.w 0) 12 20) + e.len ≤ 2 ^ 42 ∧ (∃ v, Map.find s.dev.sto.vols i.a = some v ∧ e.first + e.len ≤ v.size) 
      ∧ (Map.find s.dev.sto.tgts e.target).isSome = true ∧ (∀ o ∈ s.dev.sto.exts, o.1 ≠ bits (i.w 0) 12 20 → o.2.meets e.vol e.first e.len = false))
    ∧ (∃ (s : State) (p : Nat) (x : Prog) (i : Ins) (o : Ext), s.atIns p x i ∧ i.op = 0x35 ∧ i.w 0 % 4 = 1 ∧ i.field = 0 ∧ i.len = 5 ∧ i.a < 16384 ∧ bits (i.w 0) 3 9 = 0 
      ∧ bits (i.w 0) 32 32 = 0 ∧ i.w 1 < 2 ^ 42 ∧ bits (i.w 2) 42 22 = 0 ∧ s.dev.dmc.ready = true ∧ bit (i.w 0) 2 = false ∧ Map.find s.dev.sto.exts (bits (i.w 0) 12 20) = some o)
    ∧ (∃ (s : State) (p : Nat) (x : Prog) (i : Ins), s.atIns p x i ∧ i.op = 0x35 ∧ i.w 0 % 4 = 2 ∧ i.field = 0 ∧ i.len = 4 ∧ bits (i.w 0) 10 4 ≤ 8 
      ∧ bits (i.w 0) 14 50 = 0 ∧ bits (i.w 2) 36 28 = 0 ∧ s.dev.dmc.ready = true ∧ i.a < 1024 ∧ bit (i.w 0) 2 = true)
    ∧ (∃ (s : State) (p : Nat) (x : Prog) (i : Ins), s.atIns p x i ∧ i.op = 0x35 ∧ i.w 0 % 4 = 2 ∧ i.field = 0 ∧ i.len = 4 ∧ bits (i.w 0) 10 4 ≤ 8 
      ∧ bits (i.w 0) 14 50 = 0 ∧ bits (i.w 2) 36 28 = 0 ∧ s.dev.dmc.ready = true ∧ i.a < 1024 ∧ bit (i.w 0) 2 = false ∧ (∀ e ∈ s.dev.sto.exts, e.2.target ≠ i.a))
    ∧ (∃ (s : State) (p : Nat) (x : Prog) (i : Ins) (v : Nat) (cut : Nat) (e : Option Nat), s.live ∧ s.dev.prog p = some x ∧ insOf x.words = some i 
      ∧ x.phase = .waiting (.volume v cut) e ∧ s.dev.sto.draining v cut = false) :=
  ⟨⟨splice [head 0x36 3 0 0, 1, (1 + 2 * 2 ^ 8 + 4000 * 2 ^ 16 + 131072 * 2 ^ 32)] (.running) id, 1, prog [head 0x36 3 0 0, 1,
      (1 + 2 * 2 ^ 8 + 4000 * 2 ^ 16 + 131072 * 2 ^ 32)] (.running), insn [head 0x36 3 0 0, 1, (1 + 2 * 2 ^ 8 + 4000 * 2 ^ 16 + 131072 * 2 ^ 32)], atIns_of (by decide +kernel), by decide +kernel⟩,
  ⟨splice [head 0x36 11 0 1, (2 ^ 2), (2 ^ 48), 4096, 0, 0, 0, 0, 0, 0,
      0] (.running) (fun d => { d with rdm := { set := true, count := 4, conns := [(2, { st := .active })] }, dmc := { ready := true } }), 1, prog [head 0x36 11 0 1, (2 ^ 2),
      (2 ^ 48), 4096, 0, 0, 0, 0, 0, 0, 0] (.running), insn [head 0x36 11 0 1, (2 ^ 2), (2 ^ 48), 4096, 0, 0, 0, 0, 0, 0, 0], atIns_of (by decide +kernel), by decide +kernel⟩,
  ⟨splice [head 0x36 17 0 1, (2 ^ 2 + 2 ^ 3), (2 ^ 48), 4096, 0, 0, 0, 0, 0, 0, 0, 0, 0, 0, 0, 0,
      0] (.running) (fun d => { d with rdm := { set := true, count := 4, conns := [(2, { st := .active })] }, dmc := { ready := true } }), 1, prog [head 0x36 17 0 1,
      (2 ^ 2 + 2 ^ 3), (2 ^ 48), 4096, 0, 0, 0, 0, 0, 0, 0, 0, 0, 0, 0, 0, 0] (.running), insn [head 0x36 17 0 1, (2 ^ 2 + 2 ^ 3), (2 ^ 48), 4096, 0, 0, 0, 0, 0, 0, 0, 0, 0, 0,
      0, 0, 0], atIns_of (by decide +kernel), by decide +kernel⟩,
  ⟨splice [head 0x36 11 0 2, 0, 0, 0, 0, 0, 0, 0, 0, 0,
      0] (.running) (fun d => { d with rdm := { set := true, count := 4, conns := [(2, { st := .active })] }, dmc := { ready := true } }), 1, prog [head 0x36 11 0 2, 0, 0, 0, 0,
      0, 0, 0, 0, 0, 0] (.running), insn [head 0x36 11 0 2, 0, 0, 0, 0, 0, 0, 0, 0, 0, 0], atIns_of (by decide +kernel), by decide +kernel⟩,
  ⟨splice [head 0x35 3 0 16383, 4,
      0x3FFFFFFFFFF] (.running) (fun d => { d with dmc := { ready := true }, sto := { vols := [(7, ⟨false, none, 100⟩)], exts := [(3, ⟨7, 0, 10, 5, 0⟩)], tgts := [(5, ⟨true, false, false, 0, 8, 1, 1, 0, 0, 1⟩)] } }),
      1, prog [head 0x35 3 0 16383, 4, 0x3FFFFFFFFFF] (.running), insn [head 0x35 3 0 16383, 4, 0x3FFFFFFFFFF], ⟨false, none, 0x3FFFFFFFFFF⟩, atIns_of (by decide +kernel), by decide +kernel⟩,
  ⟨splice [head 0x35 3 0 7, 0,
      0] (.running) (fun d => { d with dmc := { ready := true }, sto := { vols := [(7, ⟨false, none, 100⟩)], exts := [(3, ⟨7, 0, 10, 5, 0⟩)], tgts := [(5, ⟨true, false, false, 0, 8, 1, 1, 0, 0, 1⟩)] } }),
      1, prog [head 0x35 3 0 7, 0, 0] (.running), insn [head 0x35 3 0 7, 0, 0], atIns_of (by decide +kernel), by decide +kernel⟩,
  ⟨splice [head 0x35 5 0 7, (5 + 2 ^ 12 * 4), 20, (80 + 2 ^ 32 * 5),
      9] (.running) (fun d => { d with dmc := { ready := true }, sto := { vols := [(7, ⟨false, none, 100⟩)], exts := [(3, ⟨7, 0, 10, 5, 0⟩)], tgts := [(5, ⟨true, false, false, 0, 8, 1, 1, 0, 0, 1⟩)] } }),
      1, prog [head 0x35 5 0 7, (5 + 2 ^ 12 * 4), 20, (80 + 2 ^ 32 * 5), 9] (.running), insn [head 0x35 5 0 7, (5 + 2 ^ 12 * 4), 20, (80 + 2 ^ 32 * 5), 9], ⟨7, 20, 80, 5, 9⟩,
      atIns_of (by decide +kernel), by decide +kernel⟩,
  ⟨splice [head 0x35 5 0 7, (1 + 2 ^ 12 * 3), 0, 0,
      0] (.running) (fun d => { d with dmc := { ready := true }, sto := { vols := [(7, ⟨false, none, 100⟩)], exts := [(3, ⟨7, 0, 10, 5, 0⟩)], tgts := [(5, ⟨true, false, false, 0, 8, 1, 1, 0, 0, 1⟩)] } }),
      1, prog [head 0x35 5 0 7, (1 + 2 ^ 12 * 3), 0, 0, 0] (.running), insn [head 0x35 5 0 7, (1 + 2 ^ 12 * 3), 0, 0, 0], ⟨7, 0, 10, 5, 0⟩, atIns_of (by decide +kernel), by decide +kernel⟩,
  ⟨splice [head 0x35 4 0 1023, 6, 0,
      0] (.running) (fun d => { d with dmc := { ready := true }, sto := { vols := [(7, ⟨false, none, 100⟩)], exts := [(3, ⟨7, 0, 10, 5, 0⟩)], tgts := [(5, ⟨true, false, false, 0, 8, 1, 1, 0, 0, 1⟩)] } }),
      1, prog [head 0x35 4 0 1023, 6, 0, 0] (.running), insn [head 0x35 4 0 1023, 6, 0, 0], atIns_of (by decide +kernel), by decide +kernel⟩,
  ⟨splice [head 0x35 4 0 5, 2, 0,
      0] (.running) (fun d => { d with dmc := { ready := true }, sto := { vols := [(7, ⟨false, none, 100⟩)], tgts := [(5, ⟨true, false, false, 0, 8, 1, 1, 0, 0, 1⟩)] } }), 1,
      prog [head 0x35 4 0 5, 2, 0, 0] (.running), insn [head 0x35 4 0 5, 2, 0, 0], atIns_of (by decide +kernel), by decide +kernel⟩,
  ⟨splice [head 0x35 3 0 7, 0,
      0] (.waiting (.volume 7 0) none) (fun d => { d with dmc := { ready := true }, sto := { vols := [(7, ⟨false, none, 100⟩)], exts := [(3, ⟨7, 0, 10, 5, 0⟩)], tgts := [(5, ⟨true, false, false, 0, 8, 1, 1, 0, 0, 1⟩)] } }),
      1, prog [head 0x35 3 0 7, 0, 0] (.waiting (.volume 7 0) none), insn [head 0x35 3 0 7, 0, 0], 7, 0, none, rfl, by decide +kernel⟩⟩

theorem test_hypotheses_PortAndPauseEvents :
    (∃ (s : State) (p : Nat), s.live ∧ p < 256 ∧ (s.dev.port p).link = true ∧ (s.dev.port p).braid = false ∧ s.dev.copiesOf p = [] ∧ s.dev.cal.holds = [] ∧ s.dev.cal.waiting = [])
    ∧ (∃ (s : State) (p : Nat), s.live ∧ p < 256 ∧ (s.dev.port p).removing = true ∧ s.dev.copiesOf p = [])
    ∧ (∃ (s : State) (p : Nat), s.live ∧ p < 256 ∧ (s.dev.port p).enable = true ∧ (s.dev.port p).link = false ∧ s.dev.boot.gated = false ∧ bit s.dev.pwr.plLost (p / 32) = false)
    ∧ (∃ (s : State) (p : Nat) (op : Nat), s.live ∧ p < 256 ∧ op < 65536)
    ∧ (∃ (s : State) (p : Nat) (vec : Nat) (qs : List Nat), s.live ∧ p < 256 ∧ vec < 256 ∧ qs.length = 8 ∧ (∀ q ∈ qs, q < 65536) ∧ s.dev.portUp p = true)
    ∧ (∃ (s : State) (p : Nat) (n : Nat), s.live ∧ p < 256 ∧ n < 65536 ∧ s.dev.portUp p = true)
    ∧ (∃ (s : State) (p : Nat) (c : Nat) (t : Nat), s.live ∧ p < 256 ∧ c < 8 ∧ Map.find s.dev.path.pauseEnd (8 * p + c) = some t)
    ∧ (∃ (s : State) (k : Nat), s.live ∧ (s.dev.acct k).xoff = true ∧ 16 ≤ (s.dev.acct k).xTurns ∧ s.dev.boot.gated = false ∧ (s.dev.port (acctPort k)).braid = false ∧ s.dev.portUp (acctPort k) = true) :=
  ⟨⟨live (fun d => { d with path := { ports := [(199, { enable := true, link := true })] } }), 199, rfl, by decide +kernel⟩,
  ⟨live (fun d => { d with path := { ports := [(199, { enable := true, link := true, removing := true })] } }), 199, rfl, by decide +kernel⟩,
  ⟨live (fun d => { d with path := { ports := [(199, { enable := true })] } }), 199, rfl, by decide +kernel⟩,
  ⟨live id, 255, 0xFFFF, rfl, by decide +kernel⟩,
  ⟨live (fun d => { d with path := { ports := [(199, { enable := true, link := true, pfc := 255 })] } }), 199, 0x81, [0xFFFF, 0, 0, 0, 0, 0, 0, 1], rfl, by decide +kernel⟩,
  ⟨live (fun d => { d with path := { ports := [(199, { enable := true, link := true, pause := true })] } }), 199, 0xFFFF, rfl, by decide +kernel⟩,
  ⟨live (fun d => { d with path := { ports := [(199, { enable := true, link := true })], pauseEnd := [(8 * 199 + 7, 90)] } }), 199, 7, 90, rfl, by decide +kernel⟩,
  ⟨live (fun d => { d with path := { accts := [(256, { xoff := true, xTurns := 16 })], ports := [(0, { enable := true, link := true, pfc := 255 })] } }), 256, rfl, by decide +kernel⟩⟩

theorem test_hypotheses_ReelSourceEvents :
    (∃ (s : State) (e : Nat) (c : Cand), s.live ∧ e < 16 ∧ Map.find s.dev.reel.cands e = some c ∧ s.dev.silentSource e = true)
    ∧ (∃ (s : State), s.live ∧ s.dev.reel.loss = true)
    ∧ (∃ (s : State) (p : Nat) (e : Nat) (c : Cand), s.live ∧ p < 256 ∧ s.dev.portUp p = true ∧ (s.dev.port p).braid = false ∧ s.dev.entryOn 1 p = some e 
      ∧ Map.find s.dev.reel.cands e = some c ∧ s.dev.reel.src ≠ some e ∧ s.dev.reel.loss = true)
    ∧ (∃ (s : State) (p : Nat) (t : Nat) (e : Nat), s.live ∧ p < 256 ∧ s.dev.portUp p = true ∧ (s.dev.port p).braid = false ∧ s.dev.entryOn 1 p = some e 
      ∧ s.dev.reel.src = some e ∧ s.dev.reel.loss = false ∧ (∀ x ∈ s.dev.reel.cands, x.2.kind ≠ 3) ∧ (s.dev.onCand e fun c => { c with present := true }).bestTime = some e ∧ (((t : Int) + 16 * s.dev.reel.eraOffset + (s.dev.cand e).correct - s.dev.reel16).natAbs ≤ 16000000))
    ∧ (∃ (s : State) (p : Nat) (era : Nat), s.live ∧ p < 256 ∧ era < 65536 ∧ (s.dev.port p).braid = true ∧ (s.dev.link p).st ≠ .down ∧ (s.dev.link p).lost = false ∧ s.dev.entryOn 2 p = none)
    ∧ (∃ (s : State) (p : Nat) (era : Nat) (e : Nat) (c : Cand), s.live ∧ p < 256 ∧ era < 65536 ∧ (s.dev.port p).braid = true ∧ (s.dev.link p).st ≠ .down 
      ∧ (s.dev.link p).lost = false ∧ s.dev.entryOn 2 p = some e ∧ Map.find s.dev.reel.cands e = some c ∧ s.dev.reel.src ≠ some e ∧ s.dev.reel.loss = true)
    ∧ (∃ (s : State) (e : Nat) (c : Cand), s.live ∧ (s.dev.reel.cands.find? fun e => e.2.kind == 3) = some (e, c) ∧ Map.find s.dev.reel.cands e = some c ∧ s.dev.reel.loss = true)
    ∧ (∃ (s : State), s.live ∧ s.dev.reel.st ≠ .free ∧ s.dev.boot.gated = false ∧ s.dev.reel.pps = false)
    ∧ (∃ (s : State) (x : PendDisc), s.live ∧ s.dev.reel.disc = some x) :=
  ⟨⟨live (fun d => { d with reel := { cands := [(15, { kind := 1, port := 8, present := true })], st := .locked, src := some 15 } }), 15,
      { kind := 1, port := 8, present := true }, rfl, by decide +kernel⟩,
  ⟨live (fun d => { d with reel := { loss := true, st := .locked, src := some 0 } }), rfl, by decide +kernel⟩,
  ⟨live (fun d => { d with reel := { cands := [(15, { kind := 1, port := 8 })], loss := true }, path := { ports := [(8, { enable := true, link := true })] } }), 8, 15,
      { kind := 1, port := 8 }, rfl, by decide +kernel⟩,
  ⟨live (fun d => { d with reel := { cands := [(15, { kind := 1, port := 8, present := true, dataset := some ⟨6, 0x21, 0x4E5D, 77, 0⟩ })], st := .locked, src := some 15 }, path := { ports := [(8, { enable := true, link := true })] } }),
      8, 160, 15, rfl, by decide +kernel⟩,
  ⟨live (fun d => { d with path := { ports := [(8, { enable := true, link := true, braid := true })] }, brd := { links := [(8, { st := .up })] } }), 8, 0xFFFF, rfl, by decide +kernel⟩,
  ⟨live (fun d => { d with reel := { cands := [(15, { kind := 2, port := 8 })], loss := true }, path := { ports := [(8, { enable := true, link := true, braid := true })] }, brd := { links := [(8, { st := .up })] } }),
      8, 0xFFFF, 15, { kind := 2, port := 8 }, rfl, by decide +kernel⟩,
  ⟨live (fun d => { d with reel := { cands := [(15, { kind := 3, port := 8 })], loss := true } }), 15, { kind := 3, port := 8 }, rfl, by decide +kernel⟩,
  ⟨live (fun d => { d with reel := { st := .locked } }), rfl, by decide +kernel⟩,
  ⟨live (fun d => { d with reel := { disc := some { d := 24000 * 1024 * 3 }, st := .locked } }), { d := 24000 * 1024 * 3 }, rfl, by decide +kernel⟩⟩

theorem test_hypotheses_TurnBoundaryEvents :
    (∃ (s : State) (n : Nat), s.live ∧ n < 4 ∧ (s.dev.shade n).st = .pending ∧ s.dev.atTurn (s.dev.shade n).turn = true ∧ s.dev.nextCommit (s.dev.shade n).turn = some n 
      ∧ s.dev.reel.disc = none ∧ s.dev.current ≠ n ∧ (∀ x ∈ s.dev.spl.snaps, (s.dev.shade n).turn ≤ x.turn))
    ∧ (∃ (s : State) (x : Snap), s.live ∧ s.dev.dueSnap = some x)
    ∧ (∃ (s : State) (temps : List Int), s.live ∧ temps.length ≤ 64 ∧ s.dev.settled = false)
    ∧ (∃ (s : State) (temps : List Int), s.live ∧ temps.length ≤ 64 ∧ s.dev.settled = true ∧ s.dev.boot.fallAt = none)
    ∧ (∃ (s : State) (target : Nat) (e : Nat × Nat), s.live ∧ (s.dev.brd.resets.find? (fun e => e.1 == target) = some e))
    ∧ (∃ (s : State) (q : Nat) (t : Nat), s.live ∧ q < 65536 ∧ (s.dev.qp q).timerAt = some t ∧ s.dev.reached t = true ∧ s.dev.slotOver t = true)
    ∧ (∃ (s : State) (q : Nat) (b : Buf) (rest : List Buf) (t : Nat), s.live ∧ q < 65536 ∧ (s.dev.qp q).bufs = b :: rest ∧ b.first = some t ∧ s.dev.reached (t + 1) = true)
    ∧ (∃ (s : State), s.live) :=
  ⟨⟨live (fun d => { d with shd := [(0, { st := .current }), (1, { st := .pending, num := 5, turn := 10 })], reel := { time := 24000 * 1024 * 9, served := 9 } }), 1, rfl, by decide +kernel⟩,
  ⟨live (fun d => { d with spl := { snaps := [{ turn := 9, mask := 0x7FFFF, fabric := false }] }, reel := { time := 24000 * 1024 * 9, served := 9 } }),
      { turn := 9, mask := 0x7FFFF, fabric := false }, rfl, by decide +kernel⟩,
  ⟨live (fun d => { d with spl := { snaps := [{ turn := 9, mask := 1, fabric := false }] }, reel := { time := 24000 * 1024 * 9, served := 9 } }), List.replicate 64 (-400), rfl, by decide +kernel⟩,
  ⟨live (fun d => { d with reel := { time := 24000 * 1024 * 9, served := 9 } }), List.replicate 64 (-400), rfl, by decide +kernel⟩,
  ⟨live (fun d => { d with brd := { resets := [(7, 10)] }, reel := { time := 24000 * 1024 * 9, served := 9 } }), 7, (7, 10), rfl, by decide +kernel⟩,
  ⟨live (fun d => { d with hif := { qps := [(9, { st := .active, timerAt := some 9 })] }, reel := { time := 24000 * 1024 * 9, served := 9 } }), 9, 9, rfl, by decide +kernel⟩,
  ⟨live (fun d => { d with hif := { qps := [(9, { st := .active, kind := 5, descs := [{ id := 4, bytes := [], gen := 1 }], bufs := [{ desc := 4, addr := 64, len := 256, used := 8, first := some 8 }] })] }, reel := { time := 24000 * 1024 * 9, served := 9 } }),
      9, { desc := 4, addr := 64, len := 256, used := 8, first := some 8 }, [], 8, rfl, by decide +kernel⟩,
  ⟨live (fun d => { d with log := { pages := [{ seq := 3 }] } }), rfl⟩⟩

theorem test_hypotheses_BootSequence :
    (∃ (s : State) (straps : Nat) (tj : Int), straps < 8 ∧ s.dev.boot.held = true ∧ s.dev.pwr.mayRelease tj = true)
    ∧ (∃ (s : State) (a : SlotChk) (b : SlotChk), s.live ∧ s.dev.boot.st = .rom ∧ s.dev.boot.dir.trial = none ∧ s.dev.boot.selected = none ∧ s.dev.forced = false 
      ∧ s.dev.boot.dir.active < 2 ∧ s.dev.slotReason s.dev.boot.dir.active (if s.dev.boot.dir.active = 0 then a else b) = 0)
    ∧ (∃ (s : State), s.live ∧ s.dev.boot.st = .rom ∧ s.dev.boot.dir.trial = none ∧ s.dev.forced = true)
    ∧ (∃ (s : State), s.live ∧ s.dev.boot.st = .sheathInit ∧ s.dev.boot.jnl.fits sheathType s.dev.boot.sheath = true)
    ∧ (∃ (s : State) (who : Nat) (chk : ImgChk), s.live ∧ who < 32 ∧ s.dev.hasGlobal who = true ∧ s.dev.boot.st = .waitPush ∧ s.dev.onHold = false ∧ s.dev.pushReason (Memory.readBytes s.dev.mem.flat 0 512) chk = 0)
    ∧ (∃ (s : State), s.live ∧ s.dev.boot.st = .verify ∧ s.dev.boot.passed = none)
    ∧ (∃ (s : State), s.live ∧ s.dev.boot.st = .verify ∧ s.dev.boot.passed = none)
    ∧ (∃ (s : State) (n : Nat), s.live ∧ s.dev.boot.st = .verify ∧ s.dev.boot.passed = some n)
    ∧ (∃ (s : State), s.live ∧ s.dev.boot.st = .scrub)
    ∧ (∃ (s : State) (g : Nat), s.live ∧ s.dev.boot.capTrial = true ∧ s.dev.boot.dir.trial = some (.capstan g) ∧ (∀ r ∈ s.dev.boot.dir.rejected, r.count ≤ 3))
    ∧ (∃ (s : State) (n : Nat), s.live ∧ s.dev.boot.shTrial = true ∧ s.dev.boot.capTrial = false ∧ s.dev.boot.dir.trial = some (.slot n)) :=
  ⟨⟨State.reset, 7, 1000, by decide +kernel⟩,
  ⟨live (fun d => { d with boot := { held := false, st := .rom, flash := Memory.writeBytes (Memory.writeBytes [] (areaBase 1) [0x4D, 0x49, 0x4E, 0x51, 1, 0, 1, 0]) (areaBase 3) [0x4D, 0x49, 0x4E, 0x51, 1, 0, 2, 0] } }),
      ⟨⟨true, true, 1⟩, ⟨true, true, 2⟩, 3⟩, ⟨⟨true, true, 1⟩, ⟨true, true, 2⟩, 3⟩, rfl, by decide +kernel⟩,
  ⟨live (fun d => { d with boot := { held := false, st := .rom, straps := 2 } }), rfl, by decide +kernel⟩,
  ⟨live (fun d => { d with boot := { held := false, st := .sheathInit } }), rfl, by decide +kernel⟩,
  ⟨live (fun d => { d with boot := { held := false, st := .waitPush }, mem := { flat := Memory.writeBytes (Memory.writeBytes [] 0 [0x4D, 0x49, 0x4E, 0x51, 1, 0, 3, 0]) 0x128 ((List.range 4).flatMap fun _ => le 8 0x11F00000) } }),
      0, ⟨true, true, 9⟩, rfl, by decide +kernel⟩,
  ⟨live (fun d => { d with boot := { held := false, st := .verify } }), rfl, by decide +kernel⟩,
  ⟨live (fun d => { d with boot := { held := false, st := .verify } }), rfl, by decide +kernel⟩,
  ⟨live (fun d => { d with boot := { held := false, st := .verify, passed := some 5 } }), 5, rfl, by decide +kernel⟩,
  ⟨live (fun d => { d with boot := { held := false, st := .scrub, refill := true } }), rfl, by decide +kernel⟩,
  ⟨live (fun d => { d with boot := { held := false, st := .verify, capTrial := true, dir := { trial := some (.capstan 9), rejected := [⟨9, 3, 0⟩] } } }), 9, rfl, by decide +kernel⟩,
  ⟨live (fun d => { d with boot := { held := false, st := .opened, shTrial := true, dir := { trial := some (.slot 1) } } }), 1, rfl, by decide +kernel⟩⟩

theorem test_hypotheses_PowerAndClockEvents :
    (∃ (s : State), s.dev.pwr.good = true)
    ∧ (∃ (s : State), s.dev.pwr.stby = true)
    ∧ (∃ (s : State), s.dev.pwr.stby = false)
    ∧ (∃ (s : State), s.dev.pwr.stby = true ∧ s.dev.pwr.good = false)
    ∧ (∃ (s : State) (k : Nat), s.live ∧ k < 64)
    ∧ (∃ (s : State) (r : Nat), s.live ∧ r < 7 ∧ r ∉ s.dev.pwr.rails)
    ∧ (∃ (s : State) (r : Nat), s.live ∧ r < 7)
    ∧ (∃ (s : State), s.live ∧ s.dev.pwr.avs = true ∧ s.dev.pwr.nextAvs ≤ s.dev.reel.served ∧ s.dev.pwr.avsFault = false ∧ 650 ≤ s.dev.pwr.target ∧ s.dev.pwr.target + 5 ≤ 850)
    ∧ (∃ (s : State), s.live ∧ s.dev.pwr.avs = true ∧ s.dev.pwr.nextAvs ≤ s.dev.reel.served ∧ s.dev.pwr.avsFault = false ∧ 655 ≤ s.dev.pwr.target ∧ s.dev.pwr.target ≤ 850 ∧ s.dev.pwr.above = 15)
    ∧ (∃ (s : State) (ws : List Nat), s.live ∧ ws.length = 9 ∧ (∀ w ∈ ws, w < 65536))
    ∧ (∃ (s : State) (regs : List (Option (Nat × Nat × Nat))) (v : Nat) (i : Nat) (w : Nat) (rest : List (Option (Nat × Nat × Nat))), s.live ∧ regs = some (v, i,
      w) :: rest ∧ regs.length = 9 ∧ s.dev.pwr.nextPoll ≤ s.dev.reel.served ∧ ((v : Int) - s.dev.pwr.target).natAbs ≤ 15)
    ∧ (∃ (s : State) (n : Nat), n < 8 ∧ bit s.dev.pwr.plLost n = false ∧ s.dev.watched 0 n = true ∧ s.dev.boot.held = true)
    ∧ (∃ (s : State) (n : Nat), s.live ∧ n < 4 ∧ bit s.dev.pwr.spLost n = false)
    ∧ (∃ (s : State) (n : Nat), s.live ∧ n < 4 ∧ bit s.dev.pwr.hpLost n = false ∧ (s.dev.hp n).perst = false)
    ∧ (∃ (s : State) (n : Nat), n < 8 ∧ bit s.dev.pwr.plLost n = true)
    ∧ (∃ (s : State) (n : Nat), s.live ∧ n < 4 ∧ s.dev.reel.trefLost = true)
    ∧ (∃ (s : State), s.live) :=
  ⟨⟨live id, by decide +kernel⟩,
  ⟨live (fun d => { d with pwr := { good := false } }), by decide +kernel⟩,
  ⟨live (fun d => { d with pwr := { stby := false } }), by decide +kernel⟩,
  ⟨({ dev := { pwr := { good := false } } } : State), by decide +kernel⟩,
  ⟨live id, 63, rfl, by decide +kernel⟩,
  ⟨live (fun d => { d with pwr := { rails := [5] } }), 6, rfl, by decide +kernel⟩,
  ⟨live (fun d => { d with pwr := { rails := [6] } }), 6, rfl, by decide +kernel⟩,
  ⟨live (fun d => { d with pwr := { avs := true, nextAvs := 9, target := 845 }, reel := { time := 24000 * 1024 * 9, served := 9 } }), rfl, by decide +kernel⟩,
  ⟨live (fun d => { d with pwr := { avs := true, nextAvs := 9, target := 655, above := 15 }, reel := { time := 24000 * 1024 * 9, served := 9 } }), rfl, by decide +kernel⟩,
  ⟨live id, [1, 2, 3, 4, 5, 6, 7, 8, 0xFFFF], rfl, by decide +kernel⟩,
  ⟨live (fun d => { d with pwr := { nextPoll := 9 }, reel := { time := 24000 * 1024 * 9, served := 9 } }), some (765, 3, 9) :: List.replicate 8 none, 765, 3, 9,
      List.replicate 8 none, rfl, by decide +kernel⟩,
  ⟨State.reset, 7, by decide +kernel⟩,
  ⟨live id, 3, rfl, by decide +kernel⟩,
  ⟨live id, 3, rfl, by decide +kernel⟩,
  ⟨live (fun d => { d with pwr := { plLost := 255 } }), 7, by decide +kernel⟩,
  ⟨live (fun d => { d with reel := { trefLost := true } }), 3, rfl, by decide +kernel⟩,
  ⟨live (fun d => { d with reel := { cands := [(3, { kind := 5, port := 8, present := true })], freq := some 3 } }), rfl⟩⟩

theorem test_hypotheses_FrameAndTransmitEvents :
    (∃ (s : State) (p : Nat) (bytes : List Byte) (n : Nat) (fcs : Bool) (c : Nat), s.live ∧ p < 256 ∧ s.dev.portUp p = true ∧ (s.dev.port p).braid = false 
      ∧ (s.dev.port p).macsec = false ∧ s.dev.arrivalOk p bytes (decide (n ≤ 256)) n = true ∧ isMacControl bytes = false ∧ c = ceilDiv (bytes.take 9416).length 256 
      ∧ (s.dev.takeCells (arrAcct p) 1 c).2.placed = c ∧ (n ≤ 256 → 64 ≤ n ∧ fcs = false))
    ∧ (∃ (s : State) (p : Nat) (bytes : List Byte) (n : Nat) (fcs : Bool) (c : Nat), s.live ∧ p < 256 ∧ s.dev.portUp p = true ∧ (s.dev.port p).braid = false 
      ∧ (s.dev.port p).macsec = false ∧ s.dev.arrivalOk p bytes (decide (n ≤ 256)) n = true ∧ isMacControl bytes = false ∧ c = ceilDiv (bytes.take 9416).length 256 
      ∧ (s.dev.takeCells (arrAcct p) 1 c).2.placed = c ∧ n ≤ 256 ∧ (n < 64 ∨ fcs = true))
    ∧ (∃ (s : State) (p : Nat) (bytes : List Byte), s.live ∧ p < 256 ∧ (s.dev.portUp p = false ∨ isMacControl bytes = true))
    ∧ (∃ (s : State) (k : Nat) (p : Pkt) (g : Nat) (bytes : List Byte) (n : Nat) (fcs : Bool) (c : Nat), s.live ∧ s.dev.pkt k = some p ∧ p.whole = false 
      ∧ p.place = .ingress g ∧ p.fault = false ∧ p.final = false ∧ p.fate = none ∧ p.term = none ∧ p.copies = [] ∧ p.toHost = [] ∧ (s.dev.port (p.iport % 256)).macsec = false 
      ∧ c = ceilDiv (min 9416 (p.rxBytes + bytes.length)) 256 - p.cells ∧ (p.stop = true ∨ (s.dev.takeCells p.acct (s.dev.shareOf p) c).2.placed = c) ∧ 64 ≤ n ∧ n ≤ 9416 ∧ fcs = false)
    ∧ (∃ (s : State) (k : Nat) (p : Pkt) (g : Nat) (bytes : List Byte) (n : Nat) (fcs : Bool) (c : Nat), s.live ∧ s.dev.pkt k = some p ∧ p.whole = false 
      ∧ p.place = .ingress g ∧ p.fault = false ∧ p.final = false ∧ p.fate = none ∧ p.term = none ∧ p.copies = [] ∧ p.toHost = [] ∧ (s.dev.port (p.iport % 256)).macsec = false 
      ∧ c = ceilDiv (min 9416 (p.rxBytes + bytes.length)) 256 - p.cells ∧ (p.stop = true ∨ (s.dev.takeCells p.acct (s.dev.shareOf p) c).2.placed = c) ∧ (n < 64 ∨ 9416 < n ∨ fcs = true))
    ∧ (∃ (s : State) (k : Nat) (p : Pkt), s.live ∧ s.dev.pkt k = some p ∧ p.whole = true)
    ∧ (∃ (s : State) (k : Nat) (c : Nat) (p : Pkt) (x : Copy) (t : Nat), s.live ∧ s.dev.pkt k = some p ∧ s.dev.copy k c = some x ∧ x.pos = .transmit ∧ x.fate = none 
      ∧ x.mirror = false ∧ (s.dev.link x.port).lost = false ∧ s.dev.beginsAt k c x = some t ∧ p.whole = true ∧ s.dev.boot.gated = false ∧ (s.dev.port x.port).macsec = false)
    ∧ (∃ (s : State) (k : Nat) (c : Nat) (p : Pkt) (x : Copy) (t : Nat), s.live ∧ s.dev.pkt k = some p ∧ s.dev.copy k c = some x ∧ x.pos = .transmit ∧ x.fate = none 
      ∧ x.mirror = false ∧ (s.dev.link x.port).lost = false ∧ s.dev.beginsAt k c x = some t ∧ p.whole = false ∧ s.dev.boot.gated = false ∧ (s.dev.port x.port).macsec = false)
    ∧ (∃ (s : State) (k : Nat) (c : Nat) (p : Pkt) (x : Copy) (t : Nat), s.live ∧ s.dev.pkt k = some p ∧ s.dev.copy k c = some x ∧ x.pos = .transmit ∧ x.fate = none 
      ∧ x.mirror = false ∧ (s.dev.link x.port).lost = false ∧ s.dev.beginsAt k c x = some t ∧ s.dev.boot.gated = true)
    ∧ (∃ (s : State) (k : Nat) (c : Nat) (p : Pkt) (x : Copy), s.live ∧ s.dev.pkt k = some p ∧ s.dev.copy k c = some x ∧ s.dev.beginsAt k c x = none)
    ∧ (∃ (s : State) (p : Nat), s.live ∧ p < 256 ∧ s.dev.refilled = false)
    ∧ (∃ (s : State) (p : Nat), s.live ∧ p < 256 ∧ s.dev.refilled = true ∧ (∃ k < 8, s.dev.eligible (8 * p + k) = true) ∧ (∀ k < 8, 0 < (s.dev.queue (8 * p + k)).quantum))
    ∧ (∃ (s : State) (p : Nat) (k : Nat) (j : Nat) (c : Nat) (q : Pkt) (x : Copy) (def' : Int), s.live ∧ p < 256 ∧ s.dev.refilled = true 
      ∧ k = Map.getD s.dev.path.rrNext p 0 ∧ k < 8 ∧ s.dev.eligible (8 * p + k) = true ∧ s.dev.headCopy (8 * p + k) = some (j, c, q, x) ∧ x.port = p ∧ x.cls = k 
      ∧ def' = (s.dev.queue (8 * p + k)).deficit + (if (s.dev.queue (8 * p + k)).awarded then 0 else ((s.dev.queue (8 * p + k)).quantum : Int)) ∧ (q.charge : Int) ≤ def')
    ∧ (∃ (s : State) (p : Nat), s.live ∧ p < 256 ∧ s.dev.refilled = true ∧ (∀ k < 8, s.dev.eligible (8 * p + k) = false))
    ∧ (∃ (elig : Nat → Bool) (quantum : Nat → Nat) (next : Nat) (st : DrrState), (∀ k, 0 < quantum k) ∧ next < 8 ∧ st.length = 8 ∧ (∃ k < 8, elig k = true)) :=
  ⟨⟨live (fun d => { d with path := { ports := [(199, { enable := true, link := true })] } }), 199, List.replicate 64 7, 64, false, 1, rfl, by decide +kernel⟩,
  ⟨live (fun d => { d with path := { ports := [(199, { enable := true, link := true })] } }), 199, List.replicate 63 7, 63, true, 1, rfl, by decide +kernel⟩,
  ⟨live id, 199, List.replicate 64 7, rfl, by decide +kernel⟩,
  ⟨live (fun d => { d with path := { pkts := [(4, { iport := 8, place := .ingress 135, bytes := List.replicate 256 7, rxBytes := 256, cells := 1 })] } }), 4,
      { iport := 8, place := .ingress 135, bytes := List.replicate 256 7, rxBytes := 256, cells := 1 }, 135, List.replicate 64 7, 320, false, 1, rfl, by decide +kernel⟩,
  ⟨live (fun d => { d with path := { pkts := [(4, { iport := 8, place := .ingress 135, bytes := List.replicate 256 7, rxBytes := 256, cells := 1 })] } }), 4,
      { iport := 8, place := .ingress 135, bytes := List.replicate 256 7, rxBytes := 256, cells := 1 }, 135, List.replicate 64 7, 320, true, 1, rfl, by decide +kernel⟩,
  ⟨live (fun d => { d with path := { pkts := [(4, { iport := 8, whole := true })] } }), 4, { iport := 8, whole := true }, rfl, by decide +kernel⟩,
  ⟨live (fun d => { d with path := { pkts := [(4, { iport := 8, whole := true, bytes := List.replicate 68 7, cells := 1, copies := [(0, { port := 9, cls := 0, pos := .transmit })] })], ports := [(9, { enable := true, link := true })], lines := [(9, [{ pkt := 4, copy := 0, bytes := 64, ready := some 40 }])] } }),
      4, 0, { iport := 8, whole := true, bytes := List.replicate 68 7, cells := 1, copies := [(0, { port := 9, cls := 0, pos := .transmit })] },
      { port := 9, cls := 0, pos := .transmit }, 40, rfl, by decide +kernel⟩,
  ⟨live (fun d => { d with path := { pkts := [(4, { iport := 8, whole := false, bytes := List.replicate 256 7, cells := 1, copies := [(0, { port := 9, cls := 0, pos := .transmit })] })], ports := [(9, { enable := true, link := true })], lines := [(9, [{ pkt := 4, copy := 0, bytes := 64, ready := some 40 }])] } }),
      4, 0, { iport := 8, whole := false, bytes := List.replicate 256 7, cells := 1, copies := [(0, { port := 9, cls := 0, pos := .transmit })] },
      { port := 9, cls := 0, pos := .transmit }, 40, rfl, by decide +kernel⟩,
  ⟨live (fun d => { d with boot := { held := false }, path := { pkts := [(4, { iport := 8, whole := true, bytes := List.replicate 68 7, cells := 1, copies := [(0, { port := 9, cls := 0, pos := .transmit })] })], ports := [(9, { enable := true, link := true })], lines := [(9, [{ pkt := 4, copy := 0, bytes := 64, ready := some 40 }])] } }),
      4, 0, { iport := 8, whole := true, bytes := List.replicate 68 7, cells := 1, copies := [(0, { port := 9, cls := 0, pos := .transmit })] },
      { port := 9, cls := 0, pos := .transmit }, 40, rfl, by decide +kernel⟩,
  ⟨live (fun d => { d with path := { pkts := [(4, { iport := 8, whole := true, bytes := List.replicate 68 7, cells := 1, copies := [(0, { port := 9, cls := 0, pos := .transmit })] })], ports := [(9, { enable := true, link := true })] } }),
      4, 0, { iport := 8, whole := true, bytes := List.replicate 68 7, cells := 1, copies := [(0, { port := 9, cls := 0, pos := .transmit })] },
      { port := 9, cls := 0, pos := .transmit }, rfl, by decide +kernel⟩,
  ⟨live (fun d => { d with reel := { time := 24000 * 1024 * 9, served := 8 } }), 255, rfl, by decide +kernel⟩,
  ⟨live (fun d => { d with path := { pkts := [(4, { iport := 8, whole := true, bytes := List.replicate 68 7, cells := 1, copies := [(0, { port := 9, cls := 0 })] })], ports := [(9, { enable := true, link := true })], queues := [(72, { copies := [(4, 0)] })] } }),
      9, rfl, by decide +kernel⟩,
  ⟨live (fun d => { d with path := { pkts := [(4, { iport := 8, whole := true, bytes := List.replicate 68 7, cells := 1, copies := [(0, { port := 9, cls := 0 })] })], ports := [(9, { enable := true, link := true })], queues := [(72, { copies := [(4, 0)] })] } }),
      9, 0, 4, 0, { iport := 8, whole := true, bytes := List.replicate 68 7, cells := 1, copies := [(0, { port := 9, cls := 0 })] }, { port := 9, cls := 0 }, 9416, rfl, by decide +kernel⟩,
  ⟨live (fun d => { d with path := { pkts := [(4, { iport := 8, whole := true, bytes := List.replicate 68 7, cells := 1, copies := [(0, { port := 9, cls := 0 })] })], ports := [(9, { enable := true, link := true })], queues := [(72, { })] } }),
      9, rfl, by decide +kernel⟩,
  ⟨(fun k => k == 3), (fun _ => 1), 7, List.replicate 8 (0, false), (fun _ => Nat.one_pos), by decide +kernel⟩⟩

theorem test_hypotheses_FibreEvents :
    (∃ (s : State) (k : Nat) (f : Nat) (p : Pkt) (n : Nat) (e : Entry), s.live ∧ f < 4096 ∧ s.dev.pkt k = some p ∧ (p.place = .arrival ∨ p.place = .waiting) 
      ∧ p.fault = false ∧ p.transit = none ∧ fibreLay f = p.lay ∧ s.dev.freeFibre f = true ∧ (s.dev.due (p.due - 7)).shadeAt ((s.dev.due (p.due - 7)).dispatchAt f p.due) = n 
      ∧ s.dev.fastPath n f = true ∧ (s.dev.progSet n p.lay).ingress = some e)
    ∧ (∃ (s : State) (k : Nat) (c : Nat) (f : Nat) (p : Pkt) (x : Copy) (e : Entry), s.live ∧ f < 4096 ∧ s.dev.pkt k = some p ∧ s.dev.copy k c = some x ∧ x.pos = .picked 
      ∧ (s.dev.port x.port).removing = false ∧ (x.cut = true ∧ 256 ≤ p.out.length ∨ p.whole = true) ∧ fibreLay f = x.port / 8 ∧ s.dev.fastPath p.shade f = true 
      ∧ s.dev.freeFibre f = true ∧ (s.dev.progSet p.shade (x.port / 8)).egress = some e)
    ∧ (∃ (s : State) (k : Nat) (p : Pkt) (t : Nat), s.live ∧ s.dev.pkt k = some p ∧ p.place = .releaseLine t ∧ s.dev.keeper k none = none)
    ∧ (∃ (s : State) (k : Nat) (c : Nat) (x : Copy) (t : Nat), s.live ∧ s.dev.copy k c = some x ∧ x.pos = .egressLine t ∧ s.dev.keeper k (some c) = none)
    ∧ (∃ (s : State) (f : Nat) (r : Run), s.live ∧ f < 4096 ∧ (s.dev.fibre f).run = some r ∧ r.role = .ingress ∧ (s.dev.fibre f).trapped = none 
      ∧ (s.dev.fibre f).parked = false ∧ (s.dev.fibre f).ended = none)
    ∧ (∃ (s : State) (f : Nat) (r : Run), s.live ∧ f < 4096 ∧ (s.dev.fibre f).run = some r ∧ r.role = .slow ∧ (s.dev.fibre f).ended = none)
    ∧ (∃ (s : State) (f : Nat) (t : TrapAt) (r : Run) (e : Entry), s.live ∧ f < 4096 ∧ (s.dev.fibre f).trapped = some t ∧ (s.dev.fibre f).run = some r ∧ (s.dev.progSet r.shade (fibreLay f)).vector = some e)
    ∧ (∃ (s : State) (lay : Nat) (body : List Byte) (rest : List (List Byte)), s.live ∧ lay < 32 ∧ (s.dev.layOf lay).trapLine = body :: rest ∧ ((s.dev.subscribers 1 lay).filter s.dev.waitable).all (fun q => s.dev.hasRoom (eventBytes 2 body).length q) = true)
    ∧ (∃ (s : State) (f : Nat) (k : Nat) (rest : List Nat) (p : Pkt) (e : Entry), s.live ∧ f < 4096 ∧ (s.dev.layOf (fibreLay f)).slowLine = k :: rest 
      ∧ s.dev.pkt k = some p ∧ p.fault = false ∧ s.dev.slowEntry (fibreLay f) p.shade = some e ∧ s.dev.exception p.shade f = true ∧ s.dev.freeFibre f = true ∧ (p.whole = true ∨ 256 ≤ p.bytes.length))
    ∧ (∃ (s : State) (f : Nat) (j : Inject) (rest : List Inject) (e : Entry), s.live ∧ f < 4096 ∧ ((s.dev.retryInject 4096).layOf (fibreLay f)).inject = j :: rest 
      ∧ (s.dev.retryInject 4096).slowEntry (fibreLay f) (s.dev.retryInject 4096).current = some e ∧ (s.dev.retryInject 4096).exception (s.dev.retryInject 4096).current f = true ∧ (s.dev.retryInject 4096).freeFibre f = true) :=
  ⟨⟨live (fun d => { d with shd := [(0, { st := .current, sets := [(1, { x := 2, strands := 0xFFFF, ingress := some { pc := 2, e := 100 }, egress := some { pc := 3, e := 50 }, slowPath := some { pc := 4, e := 0 }, vector := some { pc := 5, e := 64 } })] })], path := { pkts := [(4, { iport := 8, lay := 1, whole := true, due := 90 })] }, lay := { lays := [(1, { x := 2, strands := 0xFFFF })] } }),
      4, 128, { iport := 8, lay := 1, whole := true, due := 90 }, 0, { pc := 2, e := 100 }, rfl, by decide +kernel⟩,
  ⟨live (fun d => { d with shd := [(0, { st := .current, sets := [(1, { x := 2, strands := 0xFFFF, ingress := some { pc := 2, e := 100 }, egress := some { pc := 3, e := 50 }, slowPath := some { pc := 4, e := 0 }, vector := some { pc := 5, e := 64 } })] })], path := { pkts := [(4, { iport := 8, lay := 1, whole := true, due := 90, copies := [(0, { port := 9, cls := 0, pos := .picked })] })] }, lay := { lays := [(1, { x := 2, strands := 0xFFFF })] } }),
      4, 0, 128, { iport := 8, lay := 1, whole := true, due := 90, copies := [(0, { port := 9, cls := 0, pos := .picked })] }, { port := 9, cls := 0, pos := .picked },
      { pc := 3, e := 50 }, rfl, by decide +kernel⟩,
  ⟨live (fun d => { d with path := { pkts := [(4, { iport := 8, lay := 1, whole := true, due := 90, place := .releaseLine 50, term := some .slow })] } }), 4,
      { iport := 8, lay := 1, whole := true, due := 90, place := .releaseLine 50, term := some .slow }, 50, rfl, by decide +kernel⟩,
  ⟨live (fun d => { d with path := { pkts := [(4, { iport := 8, lay := 1, whole := true, due := 90, copies := [(0, { port := 9, cls := 0, pos := .egressLine 50 })] })] } }),
      4, 0, { port := 9, cls := 0, pos := .egressLine 50 }, 50, rfl, by decide +kernel⟩,
  ⟨live (fun d => { d with lay := { lays := [(1, { x := 2, strands := 0xFFFF })], fibres := [(135, { run := some { role := .ingress, pkt := 4, e := 100, d := 5 } })] } }),
      135, { role := .ingress, pkt := 4, e := 100, d := 5 }, rfl, by decide +kernel⟩,
  ⟨live (fun d => { d with lay := { lays := [(1, { x := 2, strands := 0xFFFF })], fibres := [(135, { run := some { role := .slow, pkt := 4, e := 100, d := 5 } })] } }),
      135, { role := .slow, pkt := 4, e := 100, d := 5 }, rfl, by decide +kernel⟩,
  ⟨live (fun d => { d with shd := [(0, { st := .current, sets := [(1, { x := 2, strands := 0xFFFF, ingress := some { pc := 2, e := 100 }, egress := some { pc := 3, e := 50 }, slowPath := some { pc := 4, e := 0 }, vector := some { pc := 5, e := 64 } })] })], lay := { lays := [(1, { x := 2, strands := 0xFFFF })], fibres := [(135, { run := some { role := .ingress, pkt := 4, e := 100, d := 5 }, trapped := some ⟨4, 9⟩ })] } }),
      135, ⟨4, 9⟩, { role := .ingress, pkt := 4, e := 100, d := 5 }, { pc := 5, e := 64 }, rfl, by decide +kernel⟩,
  ⟨live (fun d => { d with lay := { lays := [(31, { trapLine := [[1, 2, 3]] })] } }), 31, [1, 2, 3], [], rfl, by decide +kernel⟩,
  ⟨live (fun d => { d with shd := [(0, { st := .current, sets := [(1, { x := 2, strands := 0xFFFF, ingress := some { pc := 2, e := 100 }, egress := some { pc := 3, e := 50 }, slowPath := some { pc := 4, e := 0 }, vector := some { pc := 5, e := 64 } })] })], path := { pkts := [(4, { iport := 8, lay := 1, whole := true, due := 90, place := .slowLine })] }, lay := { lays := [(1, { x := 2, strands := 0xFFFF, slowLine := [4] })] } }),
      135, 4, [], { iport := 8, lay := 1, whole := true, due := 90, place := .slowLine }, { pc := 4, e := 0 }, rfl, by decide +kernel⟩,
  ⟨live (fun d => { d with shd := [(0, { st := .current, sets := [(1, { x := 2, strands := 0xFFFF, ingress := some { pc := 2, e := 100 }, egress := some { pc := 3, e := 50 }, slowPath := some { pc := 4, e := 0 }, vector := some { pc := 5, e := 64 } })] })], lay := { lays := [(1, { x := 2, strands := 0xFFFF, inject := [⟨9, 4, 0, 0, 0, [1, 2]⟩] })] } }),
      135, ⟨9, 4, 0, 0, 0, [1, 2]⟩, [], { pc := 4, e := 0 }, rfl, by decide +kernel⟩⟩

theorem test_hypotheses_ArithmeticOperations :
    (∃ (s : State) (f : Nat) (t : Nat) (g : BitVec 4) (rd : BitVec 5) (ra : BitVec 5) (rb : BitVec 5), s.issuesOp f t (.aluAdd f g rd ra rb) g [ra.toNat, rb.toNat] [] false)
    ∧ (∃ (s : State) (f : Nat) (t : Nat) (g : BitVec 4) (rd : BitVec 5) (ra : BitVec 5) (rb : BitVec 5), s.issuesOp f t (.aluSub f g rd ra rb) g [ra.toNat, rb.toNat] [] false)
    ∧ (∃ (s : State) (f : Nat) (t : Nat) (g : BitVec 4) (rd : BitVec 5) (ra : BitVec 5) (rb : BitVec 5), s.issuesOp f t (.aluAnd f g rd ra rb) g [ra.toNat, rb.toNat] [] false)
    ∧ (∃ (s : State) (f : Nat) (t : Nat) (g : BitVec 4) (rd : BitVec 5) (ra : BitVec 5) (rb : BitVec 5), s.issuesOp f t (.aluOr f g rd ra rb) g [ra.toNat, rb.toNat] [] false)
    ∧ (∃ (s : State) (f : Nat) (t : Nat) (g : BitVec 4) (rd : BitVec 5) (ra : BitVec 5) (rb : BitVec 5), s.issuesOp f t (.aluXor f g rd ra rb) g [ra.toNat, rb.toNat] [] false)
    ∧ (∃ (s : State) (f : Nat) (t : Nat) (g : BitVec 4) (rd : BitVec 5) (ra : BitVec 5) (rb : BitVec 5), s.issuesOp f t (.aluAndn f g rd ra rb) g [ra.toNat, rb.toNat] [] false)
    ∧ (∃ (s : State) (f : Nat) (t : Nat) (g : BitVec 4) (rd : BitVec 5) (ra : BitVec 5) (rb : BitVec 5), s.issuesOp f t (.aluShl f g rd ra rb) g [ra.toNat, rb.toNat] [] false)
    ∧ (∃ (s : State) (f : Nat) (t : Nat) (g : BitVec 4) (rd : BitVec 5) (ra : BitVec 5) (rb : BitVec 5), s.issuesOp f t (.aluShr f g rd ra rb) g [ra.toNat, rb.toNat] [] false)
    ∧ (∃ (s : State) (f : Nat) (t : Nat) (g : BitVec 4) (rd : BitVec 5) (ra : BitVec 5) (rb : BitVec 5), s.issuesOp f t (.aluSar f g rd ra rb) g [ra.toNat, rb.toNat] [] false)
    ∧ (∃ (s : State) (f : Nat) (t : Nat) (g : BitVec 4) (rd : BitVec 5) (ra : BitVec 5) (rb : BitVec 5), s.issuesOp f t (.aluMinu f g rd ra rb) g [ra.toNat, rb.toNat] [] false)
    ∧ (∃ (s : State) (f : Nat) (t : Nat) (g : BitVec 4) (rd : BitVec 5) (ra : BitVec 5) (rb : BitVec 5), s.issuesOp f t (.aluMaxu f g rd ra rb) g [ra.toNat, rb.toNat] [] false)
    ∧ (∃ (s : State) (f : Nat) (t : Nat) (g : BitVec 4) (rd : BitVec 5) (ra : BitVec 5) (rb : BitVec 5), s.issuesOp f t (.aluMul f g rd ra rb) g [ra.toNat, rb.toNat] [] false)
    ∧ (∃ (s : State) (f : Nat) (t : Nat) (g : BitVec 4) (rd : BitVec 5) (ra : BitVec 5) (rb : BitVec 5), s.issuesOp f t (.aluMov f g rd ra rb) g [ra.toNat] [] false)
    ∧ (∃ (s : State) (f : Nat) (t : Nat) (g : BitVec 4) (rd : BitVec 5) (ra : BitVec 5) (rb : BitVec 5), s.issuesOp f t (.aluPopc f g rd ra rb) g [ra.toNat] [] false)
    ∧ (∃ (s : State) (f : Nat) (t : Nat) (g : BitVec 4) (rd : BitVec 5) (ra : BitVec 5) (rb : BitVec 5), s.issuesOp f t (.aluClz f g rd ra rb) g [ra.toNat] [] false)
    ∧ (∃ (s : State) (f : Nat) (t : Nat) (g : BitVec 4) (rd : BitVec 5) (ra : BitVec 5) (imm : BitVec 12), s.issuesOp f t (.addi f g rd ra imm) g [ra.toNat] [] false)
    ∧ (∃ (s : State) (f : Nat) (t : Nat) (g : BitVec 4) (rd : BitVec 5) (ra : BitVec 5) (imm : BitVec 12), s.issuesOp f t (.andi f g rd ra imm) g [ra.toNat] [] false)
    ∧ (∃ (s : State) (f : Nat) (t : Nat) (g : BitVec 4) (rd : BitVec 5) (ra : BitVec 5) (imm : BitVec 12), s.issuesOp f t (.ori f g rd ra imm) g [ra.toNat] [] false)
    ∧ (∃ (s : State) (f : Nat) (t : Nat) (g : BitVec 4) (rd : BitVec 5) (ra : BitVec 5) (imm : BitVec 12), s.issuesOp f t (.xori f g rd ra imm) g [ra.toNat] [] false)
    ∧ (∃ (s : State) (f : Nat) (t : Nat) (g : BitVec 4) (rd : BitVec 5) (ra : BitVec 5) (imm : BitVec 12), s.issuesOp f t (.shli f g rd ra imm) g [ra.toNat] [] false ∧ imm.toNat < 64)
    ∧ (∃ (s : State) (f : Nat) (t : Nat) (g : BitVec 4) (rd : BitVec 5) (ra : BitVec 5) (imm : BitVec 12), s.issuesOp f t (.shri f g rd ra imm) g [ra.toNat] [] false ∧ imm.toNat < 64)
    ∧ (∃ (s : State) (f : Nat) (t : Nat) (g : BitVec 4) (rd : BitVec 5) (ra : BitVec 5) (imm : BitVec 12), s.issuesOp f t (.sari f g rd ra imm) g [ra.toNat] [] false ∧ imm.toNat < 64)
    ∧ (∃ (s : State) (f : Nat) (t : Nat) (g : BitVec 4) (h : BitVec 2) (rd : BitVec 5) (imm : BitVec 16), s.issuesOp f t (.movz f g h rd imm) g [] [] false)
    ∧ (∃ (s : State) (f : Nat) (t : Nat) (g : BitVec 4) (h : BitVec 2) (rd : BitVec 5) (imm : BitVec 16), s.issuesOp f t (.movk f g h rd imm) g [rd.toNat] [] false)
    ∧ (∃ (s : State) (f : Nat) (t : Nat) (g : BitVec 4) (rd : BitVec 5) (ra : BitVec 5) (pos : BitVec 6) (len : BitVec 6),
      s.issuesOp f t (.ext f g rd ra pos len) g [ra.toNat] [] false ∧ pos.toNat + len.toNat < 64)
    ∧ (∃ (s : State) (f : Nat) (t : Nat) (g : BitVec 4) (rd : BitVec 5) (ra : BitVec 5) (pos : BitVec 6) (len : BitVec 6),
      s.issuesOp f t (.ins f g rd ra pos len) g [rd.toNat, ra.toNat] [] false ∧ pos.toNat + len.toNat < 64)
    ∧ (∃ (s : State) (f : Nat) (t : Nat) (g : BitVec 4) (pd : BitVec 3) (cond : BitVec 3) (ra : BitVec 5) (rb : BitVec 5) (low : BitVec 6),
      s.issuesOp f t (.cmp f g pd cond ra rb low) g [ra.toNat, rb.toNat] [] false ∧ cond ≠ 7)
    ∧ (∃ (s : State) (f : Nat) (t : Nat) (g : BitVec 4) (pd : BitVec 3) (cond : BitVec 3) (ra : BitVec 5) (imm : BitVec 11), s.issuesOp f t (.cmpi f g pd cond ra imm) g [ra.toNat] [] false ∧ cond ≠ 7)
    ∧ (∃ (s : State) (f : Nat) (t : Nat) (g : BitVec 4) (pd : BitVec 3) (pa : BitVec 3) (pb : BitVec 3) (low : BitVec 10),
      s.issuesOp f t (.plogAnd f g pd pa pb low) g [] [pa.toNat, pb.toNat] false ∧ low = 0)
    ∧ (∃ (s : State) (f : Nat) (t : Nat) (g : BitVec 4) (pd : BitVec 3) (pa : BitVec 3) (pb : BitVec 3) (low : BitVec 10),
      s.issuesOp f t (.plogOr f g pd pa pb low) g [] [pa.toNat, pb.toNat] false ∧ low = 0)
    ∧ (∃ (s : State) (f : Nat) (t : Nat) (g : BitVec 4) (pd : BitVec 3) (pa : BitVec 3) (pb : BitVec 3) (low : BitVec 10),
      s.issuesOp f t (.plogXor f g pd pa pb low) g [] [pa.toNat, pb.toNat] false ∧ low = 0)
    ∧ (∃ (s : State) (f : Nat) (t : Nat) (g : BitVec 4) (pd : BitVec 3) (pa : BitVec 3) (pb : BitVec 3) (low : BitVec 10),
      s.issuesOp f t (.plogAndn f g pd pa pb low) g [] [pa.toNat, pb.toNat] false ∧ low = 0)
    ∧ (∃ (s : State) (f : Nat) (t : Nat) (g : BitVec 4) (pd : BitVec 3) (pa : BitVec 3) (pb : BitVec 3) (low : BitVec 10), s.issuesOp f t (.plogNot f g pd pa pb low) g [] [pa.toNat] false ∧ low = 0)
    ∧ (∃ (s : State) (f : Nat) (t : Nat) (g : BitVec 4) (pd : BitVec 3) (pa : BitVec 3) (pb : BitVec 3) (low : BitVec 10), s.issuesOp f t (.plogSet f g pd pa pb low) g [] [] false ∧ low = 0)
    ∧ (∃ (s : State) (f : Nat) (t : Nat) (g : BitVec 4) (pd : BitVec 3) (pa : BitVec 3) (pb : BitVec 3) (low : BitVec 10), s.issuesOp f t (.plogClr f g pd pa pb low) g [] [] false ∧ low = 0)
    ∧ (∃ (s : State) (f : Nat) (t : Nat) (g : BitVec 4) (pd : BitVec 3) (ra : BitVec 5) (rb : BitVec 5) (low : BitVec 6), s.slotOp f t (.cmp f g pd 7 ra rb low) g [ra.toNat, rb.toNat] [] false)
    ∧ (∃ (s : State) (f : Nat) (t : Nat) (g : BitVec 4) (pd : BitVec 3) (ra : BitVec 5) (imm : BitVec 11), s.slotOp f t (.cmpi f g pd 7 ra imm) g [ra.toNat] [] false)
    ∧ (∃ (s : State) (f : Nat) (t : Nat) (g : BitVec 4) (rd : BitVec 5) (ra : BitVec 5) (pos : BitVec 6) (len : BitVec 6),
      s.slotOp f t (.ext f g rd ra pos len) g [ra.toNat] [] false ∧ 64 < pos.toNat + (len.toNat + 1))
    ∧ (∃ (s : State) (f : Nat) (t : Nat) (g : BitVec 4) (rd : BitVec 5) (ra : BitVec 5) (pos : BitVec 6) (len : BitVec 6),
      s.slotOp f t (.ins f g rd ra pos len) g [rd.toNat, ra.toNat] [] false ∧ 64 < pos.toNat + (len.toNat + 1)) :=
  ⟨⟨live (fun d => { d with lay := { fibres := [(8, { run := some { role := .ingress, pkt := 0 }, slot := 3, arch := { w := [(2, 0x8000000000000041), (31, 0xFFFFFFFFFFFFFFFF)], p := 0x83 }, iss := { w := [(2, 0x8000000000000041), (31, 0xFFFFFFFFFFFFFFFF)], p := 0x83 } })] } }),
      8, 0, 0, 31, 2, 31, issuesOp_of (by decide +kernel)⟩,
  ⟨live (fun d => { d with lay := { fibres := [(8, { run := some { role := .ingress, pkt := 0 }, slot := 3, arch := { w := [(2, 0x8000000000000041), (31, 0xFFFFFFFFFFFFFFFF)], p := 0x83 }, iss := { w := [(2, 0x8000000000000041), (31, 0xFFFFFFFFFFFFFFFF)], p := 0x83 } })] } }),
      8, 0, 0, 31, 2, 31, issuesOp_of (by decide +kernel)⟩,
  ⟨live (fun d => { d with lay := { fibres := [(8, { run := some { role := .ingress, pkt := 0 }, slot := 3, arch := { w := [(2, 0x8000000000000041), (31, 0xFFFFFFFFFFFFFFFF)], p := 0x83 }, iss := { w := [(2, 0x8000000000000041), (31, 0xFFFFFFFFFFFFFFFF)], p := 0x83 } })] } }),
      8, 0, 0, 31, 2, 31, issuesOp_of (by decide +kernel)⟩,
  ⟨live (fun d => { d with lay := { fibres := [(8, { run := some { role := .ingress, pkt := 0 }, slot := 3, arch := { w := [(2, 0x8000000000000041), (31, 0xFFFFFFFFFFFFFFFF)], p := 0x83 }, iss := { w := [(2, 0x8000000000000041), (31, 0xFFFFFFFFFFFFFFFF)], p := 0x83 } })] } }),
      8, 0, 0, 31, 2, 31, issuesOp_of (by decide +kernel)⟩,
  ⟨live (fun d => { d with lay := { fibres := [(8, { run := some { role := .ingress, pkt := 0 }, slot := 3, arch := { w := [(2, 0x8000000000000041), (31, 0xFFFFFFFFFFFFFFFF)], p := 0x83 }, iss := { w := [(2, 0x8000000000000041), (31, 0xFFFFFFFFFFFFFFFF)], p := 0x83 } })] } }),
      8, 0, 0, 31, 2, 31, issuesOp_of (by decide +kernel)⟩,
  ⟨live (fun d => { d with lay := { fibres := [(8, { run := some { role := .ingress, pkt := 0 }, slot := 3, arch := { w := [(2, 0x8000000000000041), (31, 0xFFFFFFFFFFFFFFFF)], p := 0x83 }, iss := { w := [(2, 0x8000000000000041), (31, 0xFFFFFFFFFFFFFFFF)], p := 0x83 } })] } }),
      8, 0, 0, 31, 2, 31, issuesOp_of (by decide +kernel)⟩,
  ⟨live (fun d => { d with lay := { fibres := [(8, { run := some { role := .ingress, pkt := 0 }, slot := 3, arch := { w := [(2, 0x8000000000000041), (31, 0xFFFFFFFFFFFFFFFF)], p := 0x83 }, iss := { w := [(2, 0x8000000000000041), (31, 0xFFFFFFFFFFFFFFFF)], p := 0x83 } })] } }),
      8, 0, 0, 31, 2, 31, issuesOp_of (by decide +kernel)⟩,
  ⟨live (fun d => { d with lay := { fibres := [(8, { run := some { role := .ingress, pkt := 0 }, slot := 3, arch := { w := [(2, 0x8000000000000041), (31, 0xFFFFFFFFFFFFFFFF)], p := 0x83 }, iss := { w := [(2, 0x8000000000000041), (31, 0xFFFFFFFFFFFFFFFF)], p := 0x83 } })] } }),
      8, 0, 0, 31, 2, 31, issuesOp_of (by decide +kernel)⟩,
  ⟨live (fun d => { d with lay := { fibres := [(8, { run := some { role := .ingress, pkt := 0 }, slot := 3, arch := { w := [(2, 0x8000000000000041), (31, 0xFFFFFFFFFFFFFFFF)], p := 0x83 }, iss := { w := [(2, 0x8000000000000041), (31, 0xFFFFFFFFFFFFFFFF)], p := 0x83 } })] } }),
      8, 0, 0, 31, 2, 31, issuesOp_of (by decide +kernel)⟩,
  ⟨live (fun d => { d with lay := { fibres := [(8, { run := some { role := .ingress, pkt := 0 }, slot := 3, arch := { w := [(2, 0x8000000000000041), (31, 0xFFFFFFFFFFFFFFFF)], p := 0x83 }, iss := { w := [(2, 0x8000000000000041), (31, 0xFFFFFFFFFFFFFFFF)], p := 0x83 } })] } }),
      8, 0, 0, 31, 2, 31, issuesOp_of (by decide +kernel)⟩,
  ⟨live (fun d => { d with lay := { fibres := [(8, { run := some { role := .ingress, pkt := 0 }, slot := 3, arch := { w := [(2, 0x8000000000000041), (31, 0xFFFFFFFFFFFFFFFF)], p := 0x83 }, iss := { w := [(2, 0x8000000000000041), (31, 0xFFFFFFFFFFFFFFFF)], p := 0x83 } })] } }),
      8, 0, 0, 31, 2, 31, issuesOp_of (by decide +kernel)⟩,
  ⟨live (fun d => { d with lay := { fibres := [(8, { run := some { role := .ingress, pkt := 0 }, slot := 3, arch := { w := [(2, 0x8000000000000041), (31, 0xFFFFFFFFFFFFFFFF)], p := 0x83 }, iss := { w := [(2, 0x8000000000000041), (31, 0xFFFFFFFFFFFFFFFF)], p := 0x83 } })] } }),
      8, 0, 0, 31, 2, 31, issuesOp_of (by decide +kernel)⟩,
  ⟨live (fun d => { d with lay := { fibres := [(8, { run := some { role := .ingress, pkt := 0 }, slot := 3, arch := { w := [(2, 0x8000000000000041), (31, 0xFFFFFFFFFFFFFFFF)], p := 0x83 }, iss := { w := [(2, 0x8000000000000041), (31, 0xFFFFFFFFFFFFFFFF)], p := 0x83 } })] } }),
      8, 0, 0, 31, 2, 31, issuesOp_of (by decide +kernel)⟩,
  ⟨live (fun d => { d with lay := { fibres := [(8, { run := some { role := .ingress, pkt := 0 }, slot := 3, arch := { w := [(2, 0x8000000000000041), (31, 0xFFFFFFFFFFFFFFFF)], p := 0x83 }, iss := { w := [(2, 0x8000000000000041), (31, 0xFFFFFFFFFFFFFFFF)], p := 0x83 } })] } }),
      8, 0, 0, 31, 2, 31, issuesOp_of (by decide +kernel)⟩,
  ⟨live (fun d => { d with lay := { fibres := [(8, { run := some { role := .ingress, pkt := 0 }, slot := 3, arch := { w := [(2, 0x8000000000000041), (31, 0xFFFFFFFFFFFFFFFF)], p := 0x83 }, iss := { w := [(2, 0x8000000000000041), (31, 0xFFFFFFFFFFFFFFFF)], p := 0x83 } })] } }),
      8, 0, 0, 31, 2, 31, issuesOp_of (by decide +kernel)⟩,
  ⟨live (fun d => { d with lay := { fibres := [(8, { run := some { role := .ingress, pkt := 0 }, slot := 3, arch := { w := [(2, 0x8000000000000041), (31, 0xFFFFFFFFFFFFFFFF)], p := 0x83 }, iss := { w := [(2, 0x8000000000000041), (31, 0xFFFFFFFFFFFFFFFF)], p := 0x83 } })] } }),
      8, 0, 0, 31, 2, 5, issuesOp_of (by decide +kernel)⟩,
  ⟨live (fun d => { d with lay := { fibres := [(8, { run := some { role := .ingress, pkt := 0 }, slot := 3, arch := { w := [(2, 0x8000000000000041), (31, 0xFFFFFFFFFFFFFFFF)], p := 0x83 }, iss := { w := [(2, 0x8000000000000041), (31, 0xFFFFFFFFFFFFFFFF)], p := 0x83 } })] } }),
      8, 0, 0, 31, 2, 5, issuesOp_of (by decide +kernel)⟩,
  ⟨live (fun d => { d with lay := { fibres := [(8, { run := some { role := .ingress, pkt := 0 }, slot := 3, arch := { w := [(2, 0x8000000000000041), (31, 0xFFFFFFFFFFFFFFFF)], p := 0x83 }, iss := { w := [(2, 0x8000000000000041), (31, 0xFFFFFFFFFFFFFFFF)], p := 0x83 } })] } }),
      8, 0, 0, 31, 2, 5, issuesOp_of (by decide +kernel)⟩,
  ⟨live (fun d => { d with lay := { fibres := [(8, { run := some { role := .ingress, pkt := 0 }, slot := 3, arch := { w := [(2, 0x8000000000000041), (31, 0xFFFFFFFFFFFFFFFF)], p := 0x83 }, iss := { w := [(2, 0x8000000000000041), (31, 0xFFFFFFFFFFFFFFFF)], p := 0x83 } })] } }),
      8, 0, 0, 31, 2, 5, issuesOp_of (by decide +kernel)⟩,
  ⟨live (fun d => { d with lay := { fibres := [(8, { run := some { role := .ingress, pkt := 0 }, slot := 3, arch := { w := [(2, 0x8000000000000041), (31, 0xFFFFFFFFFFFFFFFF)], p := 0x83 }, iss := { w := [(2, 0x8000000000000041), (31, 0xFFFFFFFFFFFFFFFF)], p := 0x83 } })] } }),
      8, 0, 0, 31, 2, 5, issuesOp_of (by decide +kernel), by decide +kernel⟩,
  ⟨live (fun d => { d with lay := { fibres := [(8, { run := some { role := .ingress, pkt := 0 }, slot := 3, arch := { w := [(2, 0x8000000000000041), (31, 0xFFFFFFFFFFFFFFFF)], p := 0x83 }, iss := { w := [(2, 0x8000000000000041), (31, 0xFFFFFFFFFFFFFFFF)], p := 0x83 } })] } }),
      8, 0, 0, 31, 2, 5, issuesOp_of (by decide +kernel), by decide +kernel⟩,
  ⟨live (fun d => { d with lay := { fibres := [(8, { run := some { role := .ingress, pkt := 0 }, slot := 3, arch := { w := [(2, 0x8000000000000041), (31, 0xFFFFFFFFFFFFFFFF)], p := 0x83 }, iss := { w := [(2, 0x8000000000000041), (31, 0xFFFFFFFFFFFFFFFF)], p := 0x83 } })] } }),
      8, 0, 0, 31, 2, 5, issuesOp_of (by decide +kernel), by decide +kernel⟩,
  ⟨live (fun d => { d with lay := { fibres := [(8, { run := some { role := .ingress, pkt := 0 }, slot := 3, arch := { w := [(2, 0x8000000000000041), (31, 0xFFFFFFFFFFFFFFFF)], p := 0x83 }, iss := { w := [(2, 0x8000000000000041), (31, 0xFFFFFFFFFFFFFFFF)], p := 0x83 } })] } }),
      8, 0, 0, 3, 31, 5, issuesOp_of (by decide +kernel)⟩,
  ⟨live (fun d => { d with lay := { fibres := [(8, { run := some { role := .ingress, pkt := 0 }, slot := 3, arch := { w := [(2, 0x8000000000000041), (31, 0xFFFFFFFFFFFFFFFF)], p := 0x83 }, iss := { w := [(2, 0x8000000000000041), (31, 0xFFFFFFFFFFFFFFFF)], p := 0x83 } })] } }),
      8, 0, 0, 3, 31, 5, issuesOp_of (by decide +kernel)⟩,
  ⟨live (fun d => { d with lay := { fibres := [(8, { run := some { role := .ingress, pkt := 0 }, slot := 3, arch := { w := [(2, 0x8000000000000041), (31, 0xFFFFFFFFFFFFFFFF)], p := 0x83 }, iss := { w := [(2, 0x8000000000000041), (31, 0xFFFFFFFFFFFFFFFF)], p := 0x83 } })] } }),
      8, 0, 0, 31, 2, 63, 0, issuesOp_of (by decide +kernel), by decide +kernel⟩,
  ⟨live (fun d => { d with lay := { fibres := [(8, { run := some { role := .ingress, pkt := 0 }, slot := 3, arch := { w := [(2, 0x8000000000000041), (31, 0xFFFFFFFFFFFFFFFF)], p := 0x83 }, iss := { w := [(2, 0x8000000000000041), (31, 0xFFFFFFFFFFFFFFFF)], p := 0x83 } })] } }),
      8, 0, 0, 31, 2, 63, 0, issuesOp_of (by decide +kernel), by decide +kernel⟩,
  ⟨live (fun d => { d with lay := { fibres := [(8, { run := some { role := .ingress, pkt := 0 }, slot := 3, arch := { w := [(2, 0x8000000000000041), (31, 0xFFFFFFFFFFFFFFFF)], p := 0x83 }, iss := { w := [(2, 0x8000000000000041), (31, 0xFFFFFFFFFFFFFFFF)], p := 0x83 } })] } }),
      8, 0, 0, 7, 6, 2, 31, 0, issuesOp_of (by decide +kernel), by decide +kernel⟩,
  ⟨live (fun d => { d with lay := { fibres := [(8, { run := some { role := .ingress, pkt := 0 }, slot := 3, arch := { w := [(2, 0x8000000000000041), (31, 0xFFFFFFFFFFFFFFFF)], p := 0x83 }, iss := { w := [(2, 0x8000000000000041), (31, 0xFFFFFFFFFFFFFFFF)], p := 0x83 } })] } }),
      8, 0, 0, 7, 6, 2, 5, issuesOp_of (by decide +kernel), by decide +kernel⟩,
  ⟨live (fun d => { d with lay := { fibres := [(8, { run := some { role := .ingress, pkt := 0 }, slot := 3, arch := { w := [(2, 0x8000000000000041), (31, 0xFFFFFFFFFFFFFFFF)], p := 0x83 }, iss := { w := [(2, 0x8000000000000041), (31, 0xFFFFFFFFFFFFFFFF)], p := 0x83 } })] } }),
      8, 0, 0, 7, 1, 7, 0, issuesOp_of (by decide +kernel), by decide +kernel⟩,
  ⟨live (fun d => { d with lay := { fibres := [(8, { run := some { role := .ingress, pkt := 0 }, slot := 3, arch := { w := [(2, 0x8000000000000041), (31, 0xFFFFFFFFFFFFFFFF)], p := 0x83 }, iss := { w := [(2, 0x8000000000000041), (31, 0xFFFFFFFFFFFFFFFF)], p := 0x83 } })] } }),
      8, 0, 0, 7, 1, 7, 0, issuesOp_of (by decide +kernel), by decide +kernel⟩,
  ⟨live (fun d => { d with lay := { fibres := [(8, { run := some { role := .ingress, pkt := 0 }, slot := 3, arch := { w := [(2, 0x8000000000000041), (31, 0xFFFFFFFFFFFFFFFF)], p := 0x83 }, iss := { w := [(2, 0x8000000000000041), (31, 0xFFFFFFFFFFFFFFFF)], p := 0x83 } })] } }),
      8, 0, 0, 7, 1, 7, 0, issuesOp_of (by decide +kernel), by decide +kernel⟩,
  ⟨live (fun d => { d with lay := { fibres := [(8, { run := some { role := .ingress, pkt := 0 }, slot := 3, arch := { w := [(2, 0x8000000000000041), (31, 0xFFFFFFFFFFFFFFFF)], p := 0x83 }, iss := { w := [(2, 0x8000000000000041), (31, 0xFFFFFFFFFFFFFFFF)], p := 0x83 } })] } }),
      8, 0, 0, 7, 1, 7, 0, issuesOp_of (by decide +kernel), by decide +kernel⟩,
  ⟨live (fun d => { d with lay := { fibres := [(8, { run := some { role := .ingress, pkt := 0 }, slot := 3, arch := { w := [(2, 0x8000000000000041), (31, 0xFFFFFFFFFFFFFFFF)], p := 0x83 }, iss := { w := [(2, 0x8000000000000041), (31, 0xFFFFFFFFFFFFFFFF)], p := 0x83 } })] } }),
      8, 0, 0, 7, 1, 7, 0, issuesOp_of (by decide +kernel), by decide +kernel⟩,
  ⟨live (fun d => { d with lay := { fibres := [(8, { run := some { role := .ingress, pkt := 0 }, slot := 3, arch := { w := [(2, 0x8000000000000041), (31, 0xFFFFFFFFFFFFFFFF)], p := 0x83 }, iss := { w := [(2, 0x8000000000000041), (31, 0xFFFFFFFFFFFFFFFF)], p := 0x83 } })] } }),
      8, 0, 0, 7, 1, 7, 0, issuesOp_of (by decide +kernel), by decide +kernel⟩,
  ⟨live (fun d => { d with lay := { fibres := [(8, { run := some { role := .ingress, pkt := 0 }, slot := 3, arch := { w := [(2, 0x8000000000000041), (31, 0xFFFFFFFFFFFFFFFF)], p := 0x83 }, iss := { w := [(2, 0x8000000000000041), (31, 0xFFFFFFFFFFFFFFFF)], p := 0x83 } })] } }),
      8, 0, 0, 7, 1, 7, 0, issuesOp_of (by decide +kernel), by decide +kernel⟩,
  ⟨live (fun d => { d with lay := { fibres := [(8, { run := some { role := .ingress, pkt := 0 }, slot := 3, arch := { w := [(2, 0x8000000000000041), (31, 0xFFFFFFFFFFFFFFFF)], p := 0x83 }, iss := { w := [(2, 0x8000000000000041), (31, 0xFFFFFFFFFFFFFFFF)], p := 0x83 } })] } }),
      8, 0, 0, 7, 2, 31, 0, slotOp_of (by decide +kernel)⟩,
  ⟨live (fun d => { d with lay := { fibres := [(8, { run := some { role := .ingress, pkt := 0 }, slot := 3, arch := { w := [(2, 0x8000000000000041), (31, 0xFFFFFFFFFFFFFFFF)], p := 0x83 }, iss := { w := [(2, 0x8000000000000041), (31, 0xFFFFFFFFFFFFFFFF)], p := 0x83 } })] } }),
      8, 0, 0, 7, 2, 5, slotOp_of (by decide +kernel)⟩,
  ⟨live (fun d => { d with lay := { fibres := [(8, { run := some { role := .ingress, pkt := 0 }, slot := 3, arch := { w := [(2, 0x8000000000000041), (31, 0xFFFFFFFFFFFFFFFF)], p := 0x83 }, iss := { w := [(2, 0x8000000000000041), (31, 0xFFFFFFFFFFFFFFFF)], p := 0x83 } })] } }),
      8, 0, 0, 31, 2, 63, 1, slotOp_of (by decide +kernel), by decide +kernel⟩,
  ⟨live (fun d => { d with lay := { fibres := [(8, { run := some { role := .ingress, pkt := 0 }, slot := 3, arch := { w := [(2, 0x8000000000000041), (31, 0xFFFFFFFFFFFFFFFF)], p := 0x83 }, iss := { w := [(2, 0x8000000000000041), (31, 0xFFFFFFFFFFFFFFFF)], p := 0x83 } })] } }),
      8, 0, 0, 31, 2, 1, 63, slotOp_of (by decide +kernel), by decide +kernel⟩⟩

theorem test_hypotheses_MemoryAndControlOperations :
    (∃ (s : State) (f : Nat) (t : Nat) (g : BitVec 4) (rd : BitVec 5) (n : BitVec 4), (s.issuesOp f t (.mrd f g rd n 0) g (if n = 15 then [64] else if n = 14 then [65] else []) [] (n == 14)))
    ∧ (∃ (s : State) (f : Nat) (t : Nat) (g : BitVec 4) (ra : BitVec 5) (n : BitVec 4), s.issuesOp f t (.mwr f g ra n 0) g [ra.toNat] [] false ∧ metaTraps (((s.dev.fibre f).run.map (·.out)).getD false) n.toNat ((s.begun f t).iss.getM n.toNat)
        ((s.begun f t).iss.getW ra.toNat) = false)
    ∧ (∃ (s : State) (f : Nat) (t : Nat) (g : BitVec 4) (n : BitVec 4) (imm : BitVec 12), s.issuesOp f t (.mwri f g n 0 imm) g [] [] false ∧ metaTraps (((s.dev.fibre f).run.map (·.out)).getD false) n.toNat ((s.begun f t).iss.getM n.toNat) (imm.zeroExtend 64) = false)
    ∧ (∃ (s : State) (f : Nat) (t : Nat) (g : BitVec 4) (rd : BitVec 5) (size : BitVec 2) (ix : BitVec 1) (ra : BitVec 5) (off : BitVec 9),
      s.issuesOp f t (.wld f g rd size ix ra off 0) g (windowRegs ix ra) [] false ∧ inWindow (windowAddr (s.begun f t).iss ix ra off) (2 ^ size.toNat) = true)
    ∧ (∃ (s : State) (f : Nat) (t : Nat) (g : BitVec 4) (rd : BitVec 5) (size : BitVec 2) (ix : BitVec 1) (ra : BitVec 5) (off : BitVec 9),
      s.issuesOp f t (.wst f g rd size ix ra off) g (rd.toNat :: windowRegs ix ra) [] false ∧ inWindow (windowAddr (s.begun f t).iss ix ra off) (2 ^ size.toNat) = true)
    ∧ (∃ (s : State) (f : Nat) (t : Nat) (g : BitVec 4) (rd : BitVec 5) (size : BitVec 2) (region : BitVec 2) (ra : BitVec 5) (imm : BitVec 8),
      s.issuesOp f t (.sld f g rd size region ra imm 0) g [ra.toNat] [] false ∧ region ≠ 3 ∧ storeAddr (s.begun f t).iss size ra imm + 2 ^ size.toNat ≤ regionSize region)
    ∧ (∃ (s : State) (f : Nat) (t : Nat) (g : BitVec 4) (rd : BitVec 5) (size : BitVec 2) (ra : BitVec 5) (imm : BitVec 8),
      s.issuesOp f t (.sst f g rd size 0 ra imm) g [rd.toNat, ra.toNat] [] false ∧ storeAddr (s.begun f t).iss size ra imm + 2 ^ size.toNat ≤ 704)
    ∧ (∃ (s : State) (f : Nat) (t : Nat) (g : BitVec 4) (rd : BitVec 5) (size : BitVec 2) (ra : BitVec 5) (imm : BitVec 8),
      s.issuesOp f t (.sst f g rd size 2 ra imm) g [rd.toNat, ra.toNat] [] false ∧ storeAddr (s.begun f t).iss size ra imm + 2 ^ size.toNat ≤ 24576)
    ∧ (∃ (s : State) (f : Nat) (t : Nat) (g : BitVec 4) (target : BitVec 14), s.issuesOp f t (.br f g target 0) g [] [] false ∧ (s.dev.fibre f).slot = 3)
    ∧ (∃ (s : State) (f : Nat) (t : Nat), s.issuesOp f t (.nop f 0 0) 0 [] [] false)
    ∧ (∃ (s : State) (f : Nat) (t : Nat), s.live ∧ f < 4096 ∧ s.dev.opens f [] [] false = some t ∧ (s.dev.fibre f).slot = 0)
    ∧ (∃ (s : State) (f : Nat) (t : Nat), s.live ∧ f < 4096 ∧ s.dev.opens f [] [] false = some t ∧ (s.dev.fibre f).slot = 0)
    ∧ (∃ (s : State) (f : Nat) (t : Nat) (g : BitVec 4) (code : BitVec 8), s.issuesOp f t (.fwd f g 0 code) g [] [] false ∧ (s.dev.fibre f).slot = 3 ∧ badLength (s.dev.fibre f) (s.dev.fibre f).arch = false)
    ∧ (∃ (s : State) (f : Nat) (t : Nat) (g : BitVec 4) (code : BitVec 8), s.issuesOp f t (.drop f g 0 code) g [] [] false ∧ (s.dev.fibre f).slot = 3 
      ∧ (code = 0x17 ∨ (0x40 ≤ code.toNat ∧ code.toNat ≤ 0xEF)))
    ∧ (∃ (s : State) (f : Nat) (t : Nat) (g : BitVec 4) (code : BitVec 8), s.issuesOp f t (.trap f g 0 code) g [] [] false ∧ (s.dev.fibre f).slot = 3)
    ∧ (∃ (s : State) (f : Nat) (t : Nat) (g : BitVec 4) (code : BitVec 8) (r : Run), s.issuesOp f t (.slow f g 0 code) g [] [] false ∧ (s.dev.fibre f).slot = 3 
      ∧ (s.dev.fibre f).run = some r ∧ r.role ≠ .egress ∧ badLength (s.dev.fibre f) (s.dev.fibre f).arch = false)
    ∧ (∃ (d : Dev) (f : Nat) (t : Term) (r : Run) (p : Pkt), (d.fibre f).run = some r ∧ r.role = .ingress ∧ d.pkt r.pkt = some p ∧ (d.fibre f).posts = [] 
      ∧ (d.fibre f).parked = false ∧ (((d.onFibre f fun x => { x with ended := some t }).stash f t).abandonSubs f).releaseLine (fibreLay f) < 256) :=
  ⟨⟨live (fun d => { d with lay := { fibres := [(8, { run := some { role := .ingress, pkt := 0 }, slot := 3, arch := { w := [(2, 0x8000000000000041), (31, 0xFFFFFFFFFFFFFFFF)], p := 0x83 }, iss := { w := [(2, 0x8000000000000041), (31, 0xFFFFFFFFFFFFFFFF)], p := 0x83 } })] } }),
      8, 0, 0, 31, 14, issuesOp_of (by decide +kernel)⟩,
  ⟨live (fun d => { d with lay := { fibres := [(8, { run := some { role := .ingress, pkt := 0 }, slot := 3, arch := { w := [(2, 0x8000000000000041), (31, 0xFFFFFFFFFFFFFFFF)], p := 0x83 }, iss := { w := [(2, 0x8000000000000041), (31, 0xFFFFFFFFFFFFFFFF)], p := 0x83 } })] } }),
      8, 0, 0, 2, 12, issuesOp_of (by decide +kernel), by decide +kernel⟩,
  ⟨live (fun d => { d with lay := { fibres := [(8, { run := some { role := .ingress, pkt := 0 }, slot := 3, arch := { w := [(2, 0x8000000000000041), (31, 0xFFFFFFFFFFFFFFFF)], p := 0x83 }, iss := { w := [(2, 0x8000000000000041), (31, 0xFFFFFFFFFFFFFFFF)], p := 0x83 } })] } }),
      8, 0, 0, 11, 5, issuesOp_of (by decide +kernel), by decide +kernel⟩,
  ⟨live (fun d => { d with lay := { fibres := [(8, { run := some { role := .ingress, pkt := 0 }, slot := 3, arch := { w := [(2, 0x8000000000000041), (31, 0xFFFFFFFFFFFFFFFF)], p := 0x83 }, iss := { w := [(2, 0x8000000000000041), (31, 0xFFFFFFFFFFFFFFFF)], p := 0x83 } })] } }),
      8, 0, 0, 31, 3, 0, 4, 248, issuesOp_of (by decide +kernel), by decide +kernel⟩,
  ⟨live (fun d => { d with lay := { fibres := [(8, { run := some { role := .ingress, pkt := 0 }, slot := 3, arch := { w := [(2, 0x8000000000000041), (31, 0xFFFFFFFFFFFFFFFF)], p := 0x83 }, iss := { w := [(2, 0x8000000000000041), (31, 0xFFFFFFFFFFFFFFFF)], p := 0x83 } })] } }),
      8, 0, 0, 31, 3, 0, 4, 248, issuesOp_of (by decide +kernel), by decide +kernel⟩,
  ⟨live (fun d => { d with lay := { fibres := [(8, { run := some { role := .ingress, pkt := 0 }, slot := 3, arch := { w := [(2, 0x8000000000000041), (31, 0xFFFFFFFFFFFFFFFF)], p := 0x83 }, iss := { w := [(2, 0x8000000000000041), (31, 0xFFFFFFFFFFFFFFFF)], p := 0x83 } })] } }),
      8, 0, 0, 31, 3, 1, 4, 255, issuesOp_of (by decide +kernel), by decide +kernel⟩,
  ⟨live (fun d => { d with lay := { fibres := [(8, { run := some { role := .ingress, pkt := 0 }, slot := 3, arch := { w := [(2, 0x8000000000000041), (31, 0xFFFFFFFFFFFFFFFF)], p := 0x83 }, iss := { w := [(2, 0x8000000000000041), (31, 0xFFFFFFFFFFFFFFFF)], p := 0x83 } })] } }),
      8, 0, 0, 31, 3, 4, 0x57, issuesOp_of (by decide +kernel), by decide +kernel⟩,
  ⟨live (fun d => { d with lay := { fibres := [(8, { run := some { role := .ingress, pkt := 0 }, slot := 3, arch := { w := [(2, 0x8000000000000041), (31, 0xFFFFFFFFFFFFFFFF)], p := 0x83 }, iss := { w := [(2, 0x8000000000000041), (31, 0xFFFFFFFFFFFFFFFF)], p := 0x83 } })] } }),
      8, 0, 0, 31, 3, 4, 255, issuesOp_of (by decide +kernel), by decide +kernel⟩,
  ⟨live (fun d => { d with lay := { fibres := [(8, { run := some { role := .ingress, pkt := 0 }, slot := 3, arch := { w := [(2, 0x8000000000000041), (31, 0xFFFFFFFFFFFFFFFF)], p := 0x83 }, iss := { w := [(2, 0x8000000000000041), (31, 0xFFFFFFFFFFFFFFFF)], p := 0x83 } })] } }),
      8, 0, 0, 0x3FFF, issuesOp_of (by decide +kernel), by decide +kernel⟩,
  ⟨live (fun d => { d with lay := { fibres := [(8, { run := some { role := .ingress, pkt := 0 }, slot := 3, arch := { w := [(2, 0x8000000000000041), (31, 0xFFFFFFFFFFFFFFFF)], p := 0x83 }, iss := { w := [(2, 0x8000000000000041), (31, 0xFFFFFFFFFFFFFFFF)], p := 0x83 } })] } }),
      8, 0, issuesOp_of (by decide +kernel)⟩,
  ⟨live (fun d => { d with lay := { fibres := [(8, { run := some { role := .ingress, pkt := 0 }, slot := 0, arch := { w := [(2, 0x8000000000000041), (31, 0xFFFFFFFFFFFFFFFF)], p := 0x83 }, iss := { w := [(2, 0x8000000000000041), (31, 0xFFFFFFFFFFFFFFFF)], p := 0x83 } })] } }),
      8, 0, rfl, by decide +kernel⟩,
  ⟨live (fun d => { d with lay := { fibres := [(8, { run := some { role := .ingress, pkt := 0 }, slot := 0, arch := { w := [(2, 0x8000000000000041), (31, 0xFFFFFFFFFFFFFFFF)], p := 0x83 }, iss := { w := [(2, 0x8000000000000041), (31, 0xFFFFFFFFFFFFFFFF)], p := 0x83 } })] } }),
      8, 0, rfl, by decide +kernel⟩,
  ⟨live (fun d => { d with lay := { fibres := [(8, { run := some { role := .ingress, pkt := 0 }, slot := 3, arch := { m := [(5, 9416)] }, iss := { m := [(5, 9416)] } })] }, path := { pkts := [(0, { iport := 8, whole := true, bytes := List.replicate 64 1 })] } }),
      8, 0, 0, 0x41, issuesOp_of (by decide +kernel), by decide +kernel⟩,
  ⟨live (fun d => { d with lay := { fibres := [(8, { run := some { role := .ingress, pkt := 0 }, slot := 3, arch := { w := [(2, 0x8000000000000041), (31, 0xFFFFFFFFFFFFFFFF)], p := 0x83 }, iss := { w := [(2, 0x8000000000000041), (31, 0xFFFFFFFFFFFFFFFF)], p := 0x83 } })] } }),
      8, 0, 0, 0xEF, issuesOp_of (by decide +kernel), by decide +kernel⟩,
  ⟨live (fun d => { d with lay := { fibres := [(8, { run := some { role := .ingress, pkt := 0 }, slot := 3, arch := { w := [(2, 0x8000000000000041), (31, 0xFFFFFFFFFFFFFFFF)], p := 0x83 }, iss := { w := [(2, 0x8000000000000041), (31, 0xFFFFFFFFFFFFFFFF)], p := 0x83 } })] } }),
      8, 0, 0, 0x41, issuesOp_of (by decide +kernel), by decide +kernel⟩,
  ⟨live (fun d => { d with lay := { fibres := [(8, { run := some { role := .slow, pkt := 0 }, slot := 3, arch := { m := [(5, 64)] }, iss := { m := [(5, 64)] } })] }, path := { pkts := [(0, { iport := 8, whole := true, bytes := List.replicate 64 1 })] } }),
      8, 0, 0, 0x41, { role := .slow, pkt := 0 }, issuesOp_of (by decide +kernel), by decide +kernel⟩,
  ⟨(work .ingress 3 (fun d => { d with path := { pkts := [(0, { iport := 8, whole := true, bytes := List.replicate 64 1 })] } })).dev, 8, .drop 0x41,
      { role := .ingress, pkt := 0 }, { iport := 8, whole := true, bytes := List.replicate 64 1 }, by decide +kernel⟩⟩

theorem test_hypotheses_LaneOperations :
    (∃ (s : State) (f : Nat) (t : Nat) (g : BitVec 4) (rd : BitVec 5) (ra : BitVec 5) (pd : BitVec 3), s.issuesOp f t (.lkx f g rd ra pd 0) g [ra.toNat,
      ra.toNat + 1] [] false ∧ s.laneOpen f 0 ∧ (s.dev.fibre f).slot = 3 ∧ ra.toNat < 31)
    ∧ (∃ (s : State) (f : Nat) (t : Nat) (g : BitVec 4) (rd : BitVec 5) (ra : BitVec 5) (pd : BitVec 3) (v : BitVec 9),
      s.issuesOp f t (.lkxMac f g rd ra pd v) g [ra.toNat] [] false ∧ s.laneOpen f 0 ∧ (s.dev.fibre f).slot = 3 ∧ v.getLsbD 8 = true ∧ bits v.toNat 2 6 = 0)
    ∧ (∃ (s : State) (f : Nat) (t : Nat) (g : BitVec 4) (rd : BitVec 5) (ra : BitVec 5) (pd : BitVec 3), s.issuesOp f t (.lkl f g rd ra pd 0) g [ra.toNat] [] false 
      ∧ s.laneOpen f 1 ∧ (s.dev.fibre f).slot = 3)
    ∧ (∃ (s : State) (f : Nat) (t : Nat) (g : BitVec 4) (rd : BitVec 5) (ra : BitVec 5) (pd : BitVec 3), s.issuesOp f t (.lkl f g rd ra pd 1) g [ra.toNat,
      ra.toNat + 1] [] false ∧ s.laneOpen f 1 ∧ (s.dev.fibre f).slot = 3 ∧ ra.toNat < 31)
    ∧ (∃ (s : State) (f : Nat) (t : Nat) (g : BitVec 4) (rd : BitVec 5) (ra : BitVec 5) (pd : BitVec 3) (v : BitVec 9),
      s.issuesOp f t (.lka f g rd ra pd v) g ((List.range 10).map (ra.toNat + ·)) [] false ∧ s.laneOpen f 2 ∧ (s.dev.fibre f).slot = 3 ∧ v.toNat < 16 ∧ ra.toNat ≤ 22)
    ∧ (∃ (s : State) (f : Nat) (t : Nat) (g : BitVec 4) (rd : BitVec 5) (ra : BitVec 5) (pd : BitVec 3), s.issuesOp f t (.count f g rd ra pd 0) g [ra.toNat] [] false 
      ∧ s.laneOpen f 3 ∧ (s.dev.fibre f).slot = 3)
    ∧ (∃ (s : State) (f : Nat) (t : Nat) (g : BitVec 4) (rd : BitVec 5) (ra : BitVec 5) (pd : BitVec 3), s.issuesOp f t (.count f g rd ra pd 0x100) g [ra.toNat,
      rd.toNat] [] false ∧ s.laneOpen f 3 ∧ (s.dev.fibre f).slot = 3)
    ∧ (∃ (s : State) (f : Nat) (t : Nat) (g : BitVec 4) (rd : BitVec 5) (ra : BitVec 5) (pd : BitVec 3) (r : Run),
      s.issuesOp f t (.police f g rd ra pd 0) g [ra.toNat] [] false ∧ s.laneOpen f 3 ∧ (s.dev.fibre f).slot = 3 ∧ (s.dev.fibre f).run = some r ∧ ((s.begun f t).iss.getM 5).toNat ≠ 0x3FFF)
    ∧ (∃ (s : State) (f : Nat) (t : Nat) (g : BitVec 4) (rd : BitVec 5) (ra : BitVec 5) (pd : BitVec 3), s.issuesOp f t (.mcrd f g rd ra pd 0) g [ra.toNat] [] false 
      ∧ s.laneOpen f 3 ∧ (s.dev.fibre f).slot = 3 ∧ rd.toNat ≤ 28)
    ∧ (∃ (s : State) (f : Nat) (t : Nat) (g : BitVec 4) (rd : BitVec 5) (ra : BitVec 5) (pd : BitVec 3) (v : BitVec 9),
      s.issuesOp f t (.autsub f g rd ra pd v) g [ra.toNat] [] false ∧ s.laneOpen f 3 ∧ (s.dev.fibre f).slot = 3 ∧ v.toNat < 256) :=
  ⟨⟨live (fun d => { d with lay := { fibres := [(8, { run := some { role := .ingress, pkt := 0 }, slot := 3, arch := { w := [(2, 0x8000000000000041), (31, 0xFFFFFFFFFFFFFFFF)], p := 0x83 }, iss := { w := [(2, 0x8000000000000041), (31, 0xFFFFFFFFFFFFFFFF)], p := 0x83 } })] } }),
      8, 0, 0, 31, 30, 7, issuesOp_of (by decide +kernel), (by unfold State.laneOpen; decide +kernel), by decide +kernel⟩,
  ⟨live (fun d => { d with lay := { fibres := [(8, { run := some { role := .ingress, pkt := 0 }, slot := 3, arch := { w := [(2, 0x8000000000000041), (31, 0xFFFFFFFFFFFFFFFF)], p := 0x83 }, iss := { w := [(2, 0x8000000000000041), (31, 0xFFFFFFFFFFFFFFFF)], p := 0x83 } })] } }),
      8, 0, 0, 31, 2, 7, 0x103, issuesOp_of (by decide +kernel), (by unfold State.laneOpen; decide +kernel), by decide +kernel⟩,
  ⟨live (fun d => { d with lay := { fibres := [(8, { run := some { role := .ingress, pkt := 0 }, slot := 3, arch := { w := [(2, 0x8000000000000041), (31, 0xFFFFFFFFFFFFFFFF)], p := 0x83 }, iss := { w := [(2, 0x8000000000000041), (31, 0xFFFFFFFFFFFFFFFF)], p := 0x83 } })] } }),
      8, 0, 0, 31, 2, 7, issuesOp_of (by decide +kernel), (by unfold State.laneOpen; decide +kernel), by decide +kernel⟩,
  ⟨live (fun d => { d with lay := { fibres := [(8, { run := some { role := .ingress, pkt := 0 }, slot := 3, arch := { w := [(2, 0x8000000000000041), (31, 0xFFFFFFFFFFFFFFFF)], p := 0x83 }, iss := { w := [(2, 0x8000000000000041), (31, 0xFFFFFFFFFFFFFFFF)], p := 0x83 } })] } }),
      8, 0, 0, 31, 30, 7, issuesOp_of (by decide +kernel), (by unfold State.laneOpen; decide +kernel), by decide +kernel⟩,
  ⟨live (fun d => { d with lay := { fibres := [(8, { run := some { role := .ingress, pkt := 0 }, slot := 3, arch := { w := [(2, 0x8000000000000041), (31, 0xFFFFFFFFFFFFFFFF)], p := 0x83 }, iss := { w := [(2, 0x8000000000000041), (31, 0xFFFFFFFFFFFFFFFF)], p := 0x83 } })] } }),
      8, 0, 0, 31, 22, 7, 15, issuesOp_of (by decide +kernel), (by unfold State.laneOpen; decide +kernel), by decide +kernel⟩,
  ⟨live (fun d => { d with lay := { fibres := [(8, { run := some { role := .ingress, pkt := 0 }, slot := 3, arch := { w := [(2, 0x8000000000000041), (31, 0xFFFFFFFFFFFFFFFF)], p := 0x83 }, iss := { w := [(2, 0x8000000000000041), (31, 0xFFFFFFFFFFFFFFFF)], p := 0x83 } })] } }),
      8, 0, 0, 31, 2, 7, issuesOp_of (by decide +kernel), (by unfold State.laneOpen; decide +kernel), by decide +kernel⟩,
  ⟨live (fun d => { d with lay := { fibres := [(8, { run := some { role := .ingress, pkt := 0 }, slot := 3, arch := { w := [(2, 0x8000000000000041), (31, 0xFFFFFFFFFFFFFFFF)], p := 0x83 }, iss := { w := [(2, 0x8000000000000041), (31, 0xFFFFFFFFFFFFFFFF)], p := 0x83 } })] } }),
      8, 0, 0, 31, 2, 7, issuesOp_of (by decide +kernel), (by unfold State.laneOpen; decide +kernel), by decide +kernel⟩,
  ⟨live (fun d => { d with lay := { fibres := [(8, { run := some { role := .ingress, pkt := 0 }, slot := 3, arch := { w := [(2, 0x8000000000000041), (31, 0xFFFFFFFFFFFFFFFF)], p := 0x83 }, iss := { w := [(2, 0x8000000000000041), (31, 0xFFFFFFFFFFFFFFFF)], p := 0x83 } })] } }),
      8, 0, 0, 31, 2, 7, { role := .ingress, pkt := 0 }, issuesOp_of (by decide +kernel), (by unfold State.laneOpen; decide +kernel), by decide +kernel⟩,
  ⟨live (fun d => { d with lay := { fibres := [(8, { run := some { role := .ingress, pkt := 0 }, slot := 3, arch := { w := [(2, 0x8000000000000041), (31, 0xFFFFFFFFFFFFFFFF)], p := 0x83 }, iss := { w := [(2, 0x8000000000000041), (31, 0xFFFFFFFFFFFFFFFF)], p := 0x83 } })] } }),
      8, 0, 0, 28, 2, 7, issuesOp_of (by decide +kernel), (by unfold State.laneOpen; decide +kernel), by decide +kernel⟩,
  ⟨live (fun d => { d with lay := { fibres := [(8, { run := some { role := .ingress, pkt := 0 }, slot := 3, arch := { w := [(2, 0x8000000000000041), (31, 0xFFFFFFFFFFFFFFFF)], p := 0x83 }, iss := { w := [(2, 0x8000000000000041), (31, 0xFFFFFFFFFFFFFFFF)], p := 0x83 } })] } }),
      8, 0, 0, 31, 2, 7, 255, issuesOp_of (by decide +kernel), (by unfold State.laneOpen; decide +kernel), by decide +kernel⟩⟩

theorem test_hypotheses_WaitCleatAndLanyardOperations :
    (∃ (s : State) (f : Nat) (t : Nat) (g : BitVec 4) (pd : BitVec 3) (b : BitVec 12), s.issuesOp f t (.autwait f g pd 0 b) g [] [] false ∧ (s.dev.fibre f).slot = 3 
      ∧ b ≠ 0 ∧ (s.dev.fibre f).subs = [])
    ∧ (∃ (s : State) (f : Nat) (t : Nat) (g : BitVec 4) (pd : BitVec 3) (r : Run), s.issuesOp f t (.autwaitu f g pd 0 0) g [] [] false ∧ (s.dev.fibre f).slot = 3 
      ∧ (s.dev.fibre f).run = some r ∧ r.role = .slow ∧ (s.dev.fibre f).subs = [])
    ∧ (∃ (s : State) (f : Nat) (pd : Nat) (t : Nat) (ws : List (Nat × Option Nat)), s.live ∧ f < 4096 ∧ (s.dev.fibre f).waits = (pd, some t) :: ws)
    ∧ (∃ (s : State) (f : Nat) (t : Nat) (g : BitVec 4) (rd : BitVec 5) (ra : BitVec 5) (pd : BitVec 3) (n : Nat),
      s.issuesOp f t (.cltry f g rd ra pd 0) g [ra.toNat] [] false ∧ (s.dev.fibre f).slot = 3 ∧ n = 2048 * (f / 128) + ((s.begun f t).iss.getW ra.toNat).toNat % 2048)
    ∧ (∃ (s : State) (f : Nat) (t : Nat) (g : BitVec 4) (rd : BitVec 5) (ra : BitVec 5) (pd : BitVec 3) (n : Nat),
      s.issuesOp f t (.clrel f g rd ra pd 0) g [ra.toNat] [] false ∧ (s.dev.fibre f).slot = 3 ∧ n = 2048 * (f / 128) + ((s.begun f t).iss.getW ra.toNat).toNat % 2048 ∧ ((s.dev.cleat n).holder = some (.fibre f) → (s.dev.cleat n).waiters = []))
    ∧ (∃ (s : State) (f : Nat) (t : Nat) (g : BitVec 4) (rd : BitVec 5) (ra : BitVec 5) (pd : BitVec 3) (n : Nat) (r : Run),
      s.issuesOp f t (.clwait f g rd ra pd 0) g [ra.toNat] [] false ∧ (s.dev.fibre f).slot = 3 ∧ (s.dev.fibre f).run = some r ∧ r.role = .slow ∧ n = 2048 * (f / 128) + ((s.begun f t).iss.getW ra.toNat).toNat % 2048)
    ∧ (∃ (s : State) (f : Nat) (t : Nat) (g : BitVec 4) (rd : BitVec 5) (ra : BitVec 5) (pd : BitVec 3) (n : Nat) (w : W),
      s.issuesOp f t (.lnput f g rd ra pd 0) g [rd.toNat, ra.toNat] [] false ∧ (s.dev.fibre f).slot = 3 ∧ n = ((s.begun f t).iss.getW ra.toNat).toNat % 1024 
      ∧ w = (s.begun f t).iss.getW rd.toNat ∧ (s.dev.lanyard n).gets = [] ∧ (s.dev.lanyard n).puts = [])
    ∧ (∃ (s : State) (f : Nat) (t : Nat) (g : BitVec 4) (rd : BitVec 5) (ra : BitVec 5) (pd : BitVec 3) (n : Nat) (w : W) (ws : List W),
      s.issuesOp f t (.lnget f g rd ra pd 0) g [ra.toNat] [] false ∧ (s.dev.fibre f).slot = 3 ∧ n = ((s.begun f t).iss.getW ra.toNat).toNat % 1024 
      ∧ (s.dev.lanyard n).words = w :: ws ∧ s.dev.freshWords (s.dev.lanyard n) ≤ ws.length ∧ (s.dev.lanyard n).puts = [] ∧ (s.dev.lanyard n).gets = [])
    ∧ (∃ (s : State) (f : Nat) (t : Nat) (g : BitVec 4) (rd : BitVec 5) (ra : BitVec 5) (pd : BitVec 3) (n : Nat) (r : Run) (w : W),
      s.issuesOp f t (.lnputw f g rd ra pd 0) g [rd.toNat, ra.toNat] [] false ∧ (s.dev.fibre f).slot = 3 ∧ (s.dev.fibre f).run = some r ∧ r.role = .slow 
      ∧ n = ((s.begun f t).iss.getW ra.toNat).toNat % 1024 ∧ w = (s.begun f t).iss.getW rd.toNat ∧ 8 ≤ (s.dev.lanyard n).words.length ∧ (s.dev.lanyard n).gets = [] ∧ (s.dev.lanyard n).puts = [])
    ∧ (∃ (s : State) (f : Nat) (t : Nat) (g : BitVec 4) (rd : BitVec 5) (ra : BitVec 5) (pd : BitVec 3) (n : Nat) (r : Run),
      s.issuesOp f t (.lngetw f g rd ra pd 0) g [ra.toNat] [] false ∧ (s.dev.fibre f).slot = 3 ∧ (s.dev.fibre f).run = some r ∧ r.role = .slow 
      ∧ n = ((s.begun f t).iss.getW ra.toNat).toNat % 1024 ∧ (s.dev.lanyard n).words = [] ∧ (s.dev.lanyard n).puts = []) :=
  ⟨⟨live (fun d => { d with lay := { fibres := [(8, { run := some { role := .ingress, pkt := 0 }, slot := 3, arch := { w := [(2, 0x8000000000000041), (31, 0xFFFFFFFFFFFFFFFF)], p := 0x83 }, iss := { w := [(2, 0x8000000000000041), (31, 0xFFFFFFFFFFFFFFFF)], p := 0x83 } })] } }),
      8, 0, 0, 7, 1, issuesOp_of (by decide +kernel), by decide +kernel⟩,
  ⟨live (fun d => { d with lay := { fibres := [(8, { run := some { role := .slow, pkt := 0 }, slot := 3, arch := { w := [(2, 0x8000000000000041), (31, 0xFFFFFFFFFFFFFFFF)], p := 0x83 }, iss := { w := [(2, 0x8000000000000041), (31, 0xFFFFFFFFFFFFFFFF)], p := 0x83 } })] } }),
      8, 0, 0, 7, { role := .slow, pkt := 0 }, issuesOp_of (by decide +kernel), by decide +kernel⟩,
  ⟨live (fun d => { d with lay := { fibres := [(8, { run := some { role := .ingress, pkt := 0 }, slot := 3, arch := { w := [(2, 0x8000000000000041), (31, 0xFFFFFFFFFFFFFFFF)], p := 0x83 }, iss := { w := [(2, 0x8000000000000041), (31, 0xFFFFFFFFFFFFFFFF)], p := 0x83 }, waits := [(7, some 90)] })] } }),
      8, 7, 90, [], rfl, by decide +kernel⟩,
  ⟨live (fun d => { d with lay := { fibres := [(8, { run := some { role := .ingress, pkt := 0 }, slot := 3, arch := { w := [(2, 0x8000000000000041), (31, 0xFFFFFFFFFFFFFFFF)], p := 0x83 }, iss := { w := [(2, 0x8000000000000041), (31, 0xFFFFFFFFFFFFFFFF)], p := 0x83 } })] } }),
      8, 0, 0, 31, 2, 7, 65, issuesOp_of (by decide +kernel), by decide +kernel⟩,
  ⟨live (fun d => { d with lay := { fibres := [(8, { run := some { role := .ingress, pkt := 0 }, slot := 3, arch := { w := [(2, 0x8000000000000041), (31, 0xFFFFFFFFFFFFFFFF)], p := 0x83 }, iss := { w := [(2, 0x8000000000000041), (31, 0xFFFFFFFFFFFFFFFF)], p := 0x83 } })] }, cap := { cleats := [(65, { holder := some (.fibre 8) })] } }),
      8, 0, 0, 31, 2, 7, 65, issuesOp_of (by decide +kernel), by decide +kernel⟩,
  ⟨live (fun d => { d with lay := { fibres := [(8, { run := some { role := .slow, pkt := 0 }, slot := 3, arch := { w := [(2, 0x8000000000000041), (31, 0xFFFFFFFFFFFFFFFF)], p := 0x83 }, iss := { w := [(2, 0x8000000000000041), (31, 0xFFFFFFFFFFFFFFFF)], p := 0x83 } })] } }),
      8, 0, 0, 31, 2, 7, 65, { role := .slow, pkt := 0 }, issuesOp_of (by decide +kernel), by decide +kernel⟩,
  ⟨live (fun d => { d with lay := { fibres := [(8, { run := some { role := .ingress, pkt := 0 }, slot := 3, arch := { w := [(2, 0x8000000000000041), (31, 0xFFFFFFFFFFFFFFFF)], p := 0x83 }, iss := { w := [(2, 0x8000000000000041), (31, 0xFFFFFFFFFFFFFFFF)], p := 0x83 } })] } }),
      8, 0, 0, 31, 2, 7, 65, 0xFFFFFFFFFFFFFFFF, issuesOp_of (by decide +kernel), by decide +kernel⟩,
  ⟨live (fun d => { d with lay := { fibres := [(8, { run := some { role := .ingress, pkt := 0 }, slot := 3, arch := { w := [(2, 0x8000000000000041), (31, 0xFFFFFFFFFFFFFFFF)], p := 0x83 }, iss := { w := [(2, 0x8000000000000041), (31, 0xFFFFFFFFFFFFFFFF)], p := 0x83 } })] }, cap := { lanyards := [(65, { words := [1, 2] })] } }),
      8, 0, 0, 31, 2, 7, 65, 1, [2], issuesOp_of (by decide +kernel), by decide +kernel⟩,
  ⟨live (fun d => { d with lay := { fibres := [(8, { run := some { role := .slow, pkt := 0 }, slot := 3, arch := { w := [(2, 0x8000000000000041), (31, 0xFFFFFFFFFFFFFFFF)], p := 0x83 }, iss := { w := [(2, 0x8000000000000041), (31, 0xFFFFFFFFFFFFFFFF)], p := 0x83 } })] }, cap := { lanyards := [(65, { words := List.replicate 8 1 })] } }),
      8, 0, 0, 31, 2, 7, 65, { role := .slow, pkt := 0 }, 0xFFFFFFFFFFFFFFFF, issuesOp_of (by decide +kernel), by decide +kernel⟩,
  ⟨live (fun d => { d with lay := { fibres := [(8, { run := some { role := .slow, pkt := 0 }, slot := 3, arch := { w := [(2, 0x8000000000000041), (31, 0xFFFFFFFFFFFFFFFF)], p := 0x83 }, iss := { w := [(2, 0x8000000000000041), (31, 0xFFFFFFFFFFFFFFFF)], p := 0x83 } })] } }),
      8, 0, 0, 31, 2, 7, 65, { role := .slow, pkt := 0 }, issuesOp_of (by decide +kernel), by decide +kernel⟩⟩

theorem test_hypotheses_LaneResultsAndTableEvents :
    (∃ (s : State) (f : Nat) (lane : Nat) (ecc : Nat) (way : Nat) (p : Post), s.live ∧ (∀ k, p.op ≠ .exact k) ∧ (∀ l t k, p.op ≠ .mac l t k) ∧ (∀ w k, p.op ≠ .lpm w k) 
      ∧ (∀ q k, p.op ≠ .acl q k) ∧ (∀ t w, p.op ≠ .automaton t w) ∧ f < 4096 ∧ lane < 4 ∧ ecc < 3 ∧ way < 8 ∧ (s.dev.fibre f).firstPost lane = some p 
      ∧ (s.dev.fibre f).ended = none ∧ s.dev.policeFirst f p = true ∧ p.refilled (s.dev.due p.due) = true)
    ∧ (∃ (s : State) (f : Nat) (lane : Nat) (ecc : Nat) (way : Nat) (p : Post), s.live ∧ f < 4096 ∧ lane < 4 ∧ ecc < 3 ∧ way < 8 ∧ (s.dev.fibre f).firstPost lane = some p ∧ (s.dev.policeFirst f p = false ∨ p.refilled (s.dev.due p.due) = false))
    ∧ (∃ (s : State) (f : Nat) (way : Nat) (p : Post) (key : Nat), s.live ∧ f < 4096 ∧ way < 8 ∧ (s.dev.fibre f).firstPost 0 = some p ∧ (s.dev.fibre f).ended = none 
      ∧ p.op = .exact key ∧ p.dead = false ∧ (s.dev.due p.due).cached (fibreLay f) 1 p.run.shade key = none ∧ s.dev.tbl.matching 1 p.run.shade key = [] ∧ s.dev.tbl.reload = [])
    ∧ (∃ (s : State) (f : Nat) (way : Nat) (p : Post) (key : Nat) (line : Nat) (v : W), s.live ∧ f < 4096 ∧ way < 8 ∧ (s.dev.fibre f).firstPost 0 = some p 
      ∧ (s.dev.fibre f).ended = none ∧ p.op = .exact key ∧ p.dead = false ∧ (s.dev.due p.due).cached (fibreLay f) 1 p.run.shade key = none 
      ∧ s.dev.tbl.matching 1 p.run.shade key = [(line, v)] ∧ s.dev.tbl.reload = [] ∧ s.dev.tbl.stale = [])
    ∧ (∃ (s : State) (f : Nat) (ecc : Nat) (way : Nat) (p : Post) (n : Nat) (m : Nat), s.live ∧ f < 4096 ∧ ecc < 3 ∧ way < 8 ∧ (s.dev.fibre f).firstPost 3 = some p 
      ∧ (s.dev.fibre f).ended = none ∧ p.op = .group n ∧ p.dead = false ∧ n < 65536 ∧ Map.find (s.dev.shade p.run.shade).groups n = some m)
    ∧ (∃ (s : State) (f : Nat) (ecc : Nat) (way : Nat) (p : Post) (i : Nat) (n : Nat), s.live ∧ f < 4096 ∧ ecc < 3 ∧ way < 8 ∧ (s.dev.fibre f).firstPost 3 = some p 
      ∧ (s.dev.fibre f).ended = none ∧ p.op = .count i n none ∧ p.dead = false ∧ i < 524288)
    ∧ (∃ (s : State) (tab : Nat) (line : Nat) (e : Nat × Nat × Nat), s.live ∧ tab < 4 ∧ (s.dev.tbl.reload.find? (fun e => e.1 == tab && e.2.1 == line) = some e))
    ∧ (∃ (s : State) (table : Nat) (line : Nat) (w : Stale), s.live ∧ table < 4 ∧ (s.dev.tbl.stale.find? (fun w => w.table == table && w.line == line) = some w))
    ∧ (∃ (s : State) (lay : Nat) (table : Nat) (shade : Nat), s.live ∧ lay < 32 ∧ table < 5 ∧ shade < 4) :=
  ⟨⟨live (fun d => { d with lay := { fibres := [(8, { run := some { role := .ingress, pkt := 0 }, slot := 3, posts := [{ lane := 3, op := .count 524287 64 none, rd := 28, pd := 7, due := 90, run := { role := .ingress, pkt := 0 } }] })] } }),
      8, 3, 2, 7, { lane := 3, op := .count 524287 64 none, rd := 28, pd := 7, due := 90, run := { role := .ingress, pkt := 0 } }, rfl, (by intro k h; cases h),
      (by intro l t k h; cases h), (by intro w k h; cases h), (by intro q k h; cases h), (by intro t w h; cases h), by decide +kernel⟩,
  ⟨live (fun d => { d with lay := { fibres := [(8, { posts := [{ lane := 3, op := .police 7 0 0 64 none, rd := 28, pd := 7, due := 90, run := { role := .ingress, pkt := 0 } }] }), (264, { posts := [{ lane := 3, op := .police 7 0 0 64 none, rd := 28, pd := 7, due := 80, run := { role := .ingress, pkt := 0 } }] })] } }),
      8, 3, 2, 7, { lane := 3, op := .police 7 0 0 64 none, rd := 28, pd := 7, due := 90, run := { role := .ingress, pkt := 0 } }, rfl, by decide +kernel⟩,
  ⟨live (fun d => { d with lay := { fibres := [(8, { run := some { role := .ingress, pkt := 0 }, slot := 3, posts := [{ lane := 0, op := .exact 77, rd := 28, pd := 7, due := 90, run := { role := .ingress, pkt := 0 } }] })] } }),
      8, 7, { lane := 0, op := .exact 77, rd := 28, pd := 7, due := 90, run := { role := .ingress, pkt := 0 } }, 77, rfl, by decide +kernel⟩,
  ⟨live (fun d => { d with lay := { fibres := [(8, { run := some { role := .ingress, pkt := 0 }, slot := 3, posts := [{ lane := 0, op := .exact 77, rd := 28, pd := 7, due := 90, run := { role := .ingress, pkt := 0 } }] })] }, tbl := oneExact }),
      8, 7, { lane := 0, op := .exact 77, rd := 28, pd := 7, due := 90, run := { role := .ingress, pkt := 0 } }, 77, ((oneExact.matching 1 0 77).headD (0, 0)).1, 3, rfl, by decide +kernel⟩,
  ⟨live (fun d => { d with lay := { fibres := [(8, { run := some { role := .ingress, pkt := 0 }, slot := 3, posts := [{ lane := 3, op := .group 65535, rd := 28, pd := 7, due := 90, run := { role := .ingress, pkt := 0 } }] })] }, shd := [(0, { st := .current, groups := [(65535, 6)] })] }),
      8, 2, 7, { lane := 3, op := .group 65535, rd := 28, pd := 7, due := 90, run := { role := .ingress, pkt := 0 } }, 65535, 6, rfl, by decide +kernel⟩,
  ⟨live (fun d => { d with lay := { fibres := [(8, { run := some { role := .ingress, pkt := 0 }, slot := 3, posts := [{ lane := 3, op := .count 524287 64 none, rd := 28, pd := 7, due := 90, run := { role := .ingress, pkt := 0 } }] })] } }),
      8, 2, 7, { lane := 3, op := .count 524287 64 none, rd := 28, pd := 7, due := 90, run := { role := .ingress, pkt := 0 } }, 524287, 64, rfl, by decide +kernel⟩,
  ⟨live (fun d => { d with tbl := { reload := [(3, 77, 90)] } }), 3, 77, (3, 77, 90), rfl, by decide +kernel⟩,
  ⟨live (fun d => { d with tbl := { stale := [⟨3, 77, 90⟩] } }), 3, 77, ⟨3, 77, 90⟩, rfl, by decide +kernel⟩,
  ⟨live (fun d => { d with lay := { lays := [(31, { cache := [⟨4, 3, 9, 1, 2, 3⟩] })] } }), 31, 4, 3, rfl, by decide +kernel⟩⟩

theorem test_hypotheses_OperationsThatTrap :
    (∃ (s : State) (f : Nat) (t : Nat) (g : BitVec 4) (rd : BitVec 5) (ra : BitVec 5) (imm : BitVec 12), s.slotOp f t (.shli f g rd ra imm) g [ra.toNat] [] false ∧ 64 ≤ imm.toNat)
    ∧ (∃ (s : State) (f : Nat) (t : Nat) (g : BitVec 4) (rd : BitVec 5) (ra : BitVec 5) (imm : BitVec 12), s.slotOp f t (.shri f g rd ra imm) g [ra.toNat] [] false ∧ 64 ≤ imm.toNat)
    ∧ (∃ (s : State) (f : Nat) (t : Nat) (g : BitVec 4) (rd : BitVec 5) (ra : BitVec 5) (imm : BitVec 12), s.slotOp f t (.sari f g rd ra imm) g [ra.toNat] [] false ∧ 64 ≤ imm.toNat)
    ∧ (∃ (s : State) (f : Nat) (t : Nat) (g : BitVec 4) (rd : BitVec 5) (ra : BitVec 5) (pos : BitVec 6) (len : BitVec 6),
      s.slotOp f t (.ext f g rd ra pos len) g [ra.toNat] [] false ∧ 64 ≤ pos.toNat + len.toNat)
    ∧ (∃ (s : State) (f : Nat) (t : Nat) (g : BitVec 4) (rd : BitVec 5) (ra : BitVec 5) (pos : BitVec 6) (len : BitVec 6),
      s.slotOp f t (.ins f g rd ra pos len) g [rd.toNat, ra.toNat] [] false ∧ 64 ≤ pos.toNat + len.toNat)
    ∧ (∃ (s : State) (f : Nat) (t : Nat) (g : BitVec 4) (pd : BitVec 3) (ra : BitVec 5) (rb : BitVec 5) (low : BitVec 6), s.slotOp f t (.cmp f g pd 7 ra rb low) g [ra.toNat, rb.toNat] [] false)
    ∧ (∃ (s : State) (f : Nat) (t : Nat) (g : BitVec 4) (pd : BitVec 3) (ra : BitVec 5) (imm : BitVec 11), s.slotOp f t (.cmpi f g pd 7 ra imm) g [ra.toNat] [] false)
    ∧ (∃ (s : State) (f : Nat) (t : Nat) (g : BitVec 4) (pd : BitVec 3) (pa : BitVec 3) (pb : BitVec 3) (low : BitVec 10),
      s.slotOp f t (.plogAnd f g pd pa pb low) g [] [pa.toNat, pb.toNat] false ∧ low ≠ 0)
    ∧ (∃ (s : State) (f : Nat) (t : Nat) (g : BitVec 4) (rd : BitVec 5) (n : BitVec 4) (low : BitVec 13),
      (s.slotOp f t (.mrd f g rd n low) g (if n = 15 then [64] else if n = 14 then [65] else []) [] (n == 14)) ∧ low ≠ 0)
    ∧ (∃ (s : State) (f : Nat) (t : Nat) (g : BitVec 4) (ra : BitVec 5) (n : BitVec 4) (low : BitVec 13), s.slotOp f t (.mwr f g ra n low) g [ra.toNat] [] false ∧ low ≠ 0)
    ∧ (∃ (s : State) (f : Nat) (t : Nat) (g : BitVec 4) (n : BitVec 4) (mid : BitVec 6) (imm : BitVec 12), s.slotOp f t (.mwri f g n mid imm) g [] [] false ∧ mid ≠ 0)
    ∧ (∃ (s : State) (f : Nat) (t : Nat) (g : BitVec 4) (rd : BitVec 5) (size : BitVec 2) (ra : BitVec 5) (imm : BitVec 8) (ecc : Nat),
      s.slotOp f t (.sld f g rd size 3 ra imm ecc) g [ra.toNat] [] false ∧ ecc < 3)
    ∧ (∃ (s : State) (f : Nat) (t : Nat) (g : BitVec 4) (rd : BitVec 5) (size : BitVec 2) (ra : BitVec 5) (imm : BitVec 8), s.slotOp f t (.sst f g rd size 3 ra imm) g [rd.toNat, ra.toNat] [] false)
    ∧ (∃ (s : State) (f : Nat) (t : Nat) (g : BitVec 4) (target : BitVec 14) (low : BitVec 8), s.slotOp f t (.br f g target low) g [] [] false ∧ (low ≠ 0 ∨ (s.dev.fibre f).slot ≠ 3))
    ∧ (∃ (s : State) (f : Nat) (t : Nat) (g : BitVec 4) (high : BitVec 14) (code : BitVec 8), s.slotOp f t (.fwd f g high code) g [] [] false ∧ (high ≠ 0 ∨ (s.dev.fibre f).slot ≠ 3))
    ∧ (∃ (s : State) (f : Nat) (t : Nat) (g : BitVec 4) (high : BitVec 14) (code : BitVec 8), s.slotOp f t (.drop f g high code) g [] [] false ∧ (high ≠ 0 ∨ (code ≠ 0x17 ∧ (code.toNat < 0x40 ∨ 0xEF < code.toNat))))
    ∧ (∃ (s : State) (f : Nat) (t : Nat) (g : BitVec 4) (code : BitVec 8) (r : Run), s.slotOp f t (.slow f g 0 code) g [] [] false ∧ (s.dev.fibre f).run = some r ∧ r.role = .egress)
    ∧ (∃ (s : State) (f : Nat) (t : Nat) (g : BitVec 4) (rd : BitVec 5) (ra : BitVec 5) (pd : BitVec 3) (v : BitVec 9), s.slotOp f t (.lkx f g rd ra pd v) g [ra.toNat,
      ra.toNat + 1] [] false ∧ v.getLsbD 8 = false ∧ (v ≠ 0 ∨ ra = 31))
    ∧ (∃ (s : State) (f : Nat) (t : Nat) (g : BitVec 4) (rd : BitVec 5) (ra : BitVec 5) (pd : BitVec 3) (v : BitVec 9),
      s.slotOp f t (.lka f g rd ra pd v) g ((List.range 10).map (ra.toNat + ·)) [] false ∧ (16 ≤ v.toNat ∨ 22 < ra.toNat))
    ∧ (∃ (s : State) (f : Nat) (t : Nat) (g : BitVec 4) (rd : BitVec 5) (ra : BitVec 5) (pd : BitVec 3) (v : BitVec 9),
      s.slotOp f t (.mcrd f g rd ra pd v) g [ra.toNat] [] false ∧ (v ≠ 0 ∨ 28 < rd.toNat))
    ∧ (∃ (s : State) (f : Nat) (t : Nat) (g : BitVec 4) (rd : BitVec 5) (ra : BitVec 5) (pd : BitVec 3) (v : BitVec 9), s.slotOp f t (.cltry f g rd ra pd v) g [ra.toNat] [] false ∧ v ≠ 0)
    ∧ (∃ (s : State) (f : Nat) (t : Nat) (g : BitVec 4) (rd : BitVec 5) (size : BitVec 2) (ix : BitVec 1) (ra : BitVec 5) (off : BitVec 9) (ecc : Nat),
      s.issuesOp f t (.wld f g rd size ix ra off ecc) g (windowRegs ix ra) [] false ∧ ecc < 3 ∧ inWindow (windowAddr (s.begun f t).iss ix ra off) (2 ^ size.toNat) = false)
    ∧ (∃ (s : State) (f : Nat) (t : Nat) (g : BitVec 4) (rd : BitVec 5) (size : BitVec 2) (ix : BitVec 1) (ra : BitVec 5) (off : BitVec 9),
      s.issuesOp f t (.wst f g rd size ix ra off) g (rd.toNat :: windowRegs ix ra) [] false ∧ inWindow (windowAddr (s.begun f t).iss ix ra off) (2 ^ size.toNat) = false)
    ∧ (∃ (s : State) (f : Nat) (t : Nat) (g : BitVec 4) (rd : BitVec 5) (size : BitVec 2) (region : BitVec 2) (ra : BitVec 5) (imm : BitVec 8) (ecc : Nat),
      s.issuesOp f t (.sld f g rd size region ra imm ecc) g [ra.toNat] [] false ∧ region ≠ 3 ∧ ecc < 3 ∧ regionSize region < storeAddr (s.begun f t).iss size ra imm + 2 ^ size.toNat)
    ∧ (∃ (s : State) (f : Nat) (t : Nat) (g : BitVec 4) (rd : BitVec 5) (size : BitVec 2) (ra : BitVec 5) (imm : BitVec 8), s.issuesOp f t (.sst f g rd size 1 ra imm) g [rd.toNat, ra.toNat] [] false)
    ∧ (∃ (s : State) (f : Nat) (t : Nat) (g : BitVec 4) (ra : BitVec 5) (n : BitVec 4), s.issuesOp f t (.mwr f g ra n 0) g [ra.toNat] [] false ∧ metaTraps (((s.dev.fibre f).run.map (·.out)).getD false) n.toNat ((s.begun f t).iss.getM n.toNat)
      ((s.begun f t).iss.getW ra.toNat) = true)
    ∧ (∃ (s : State) (f : Nat) (t : Nat) (g : BitVec 4) (code : BitVec 8), s.issuesOp f t (.fwd f g 0 code) g [] [] false ∧ (s.dev.fibre f).slot = 3 ∧ badLength (s.dev.fibre f) (s.dev.fibre f).arch = true)
    ∧ (∃ (s : State) (f : Nat) (t : Nat) (g : BitVec 4) (rd : BitVec 5) (ra : BitVec 5) (pd : BitVec 3) (r : Run),
      s.issuesOp f t (.clwait f g rd ra pd 0) g [ra.toNat] [] false ∧ (s.dev.fibre f).slot = 3 ∧ (s.dev.fibre f).run = some r ∧ r.role ≠ .slow ∧ (r.role = .vector → s.dev.exception r.shade f = false))
    ∧ (∃ (s : State) (f : Nat) (t : Nat) (g : BitVec 4) (rd : BitVec 5) (ra : BitVec 5) (pd : BitVec 3) (r : Run), s.issuesOp f t (.lnputw f g rd ra pd 0) g [rd.toNat,
      ra.toNat] [] false ∧ (s.dev.fibre f).slot = 3 ∧ (s.dev.fibre f).run = some r ∧ r.role ≠ .slow ∧ (r.role = .vector → s.dev.exception r.shade f = false))
    ∧ (∃ (s : State) (f : Nat) (t : Nat) (g : BitVec 4) (rd : BitVec 5) (ra : BitVec 5) (pd : BitVec 3) (r : Run),
      s.issuesOp f t (.lngetw f g rd ra pd 0) g [ra.toNat] [] false ∧ (s.dev.fibre f).slot = 3 ∧ (s.dev.fibre f).run = some r ∧ r.role ≠ .slow ∧ (r.role = .vector → s.dev.exception r.shade f = false))
    ∧ (∃ (s : State) (f : Nat) (t : Nat) (g : BitVec 4) (pd : BitVec 3) (r : Run), s.issuesOp f t (.autwaitu f g pd 0 0) g [] [] false ∧ (s.dev.fibre f).slot = 3 
      ∧ (s.dev.fibre f).run = some r ∧ r.role ≠ .slow ∧ (r.role = .vector → s.dev.exception r.shade f = false)) :=
  ⟨⟨live (fun d => { d with lay := { fibres := [(8, { run := some { role := .ingress, pkt := 0 }, slot := 3, arch := { w := [(2, 0x8000000000000041), (31, 0xFFFFFFFFFFFFFFFF)], p := 0x83 }, iss := { w := [(2, 0x8000000000000041), (31, 0xFFFFFFFFFFFFFFFF)], p := 0x83 } })] } }),
      8, 0, 0, 31, 2, 64, slotOp_of (by decide +kernel), by decide +kernel⟩,
  ⟨live (fun d => { d with lay := { fibres := [(8, { run := some { role := .ingress, pkt := 0 }, slot := 3, arch := { w := [(2, 0x8000000000000041), (31, 0xFFFFFFFFFFFFFFFF)], p := 0x83 }, iss := { w := [(2, 0x8000000000000041), (31, 0xFFFFFFFFFFFFFFFF)], p := 0x83 } })] } }),
      8, 0, 0, 31, 2, 64, slotOp_of (by decide +kernel), by decide +kernel⟩,
  ⟨live (fun d => { d with lay := { fibres := [(8, { run := some { role := .ingress, pkt := 0 }, slot := 3, arch := { w := [(2, 0x8000000000000041), (31, 0xFFFFFFFFFFFFFFFF)], p := 0x83 }, iss := { w := [(2, 0x8000000000000041), (31, 0xFFFFFFFFFFFFFFFF)], p := 0x83 } })] } }),
      8, 0, 0, 31, 2, 64, slotOp_of (by decide +kernel), by decide +kernel⟩,
  ⟨live (fun d => { d with lay := { fibres := [(8, { run := some { role := .ingress, pkt := 0 }, slot := 3, arch := { w := [(2, 0x8000000000000041), (31, 0xFFFFFFFFFFFFFFFF)], p := 0x83 }, iss := { w := [(2, 0x8000000000000041), (31, 0xFFFFFFFFFFFFFFFF)], p := 0x83 } })] } }),
      8, 0, 0, 31, 2, 1, 63, slotOp_of (by decide +kernel), by decide +kernel⟩,
  ⟨live (fun d => { d with lay := { fibres := [(8, { run := some { role := .ingress, pkt := 0 }, slot := 3, arch := { w := [(2, 0x8000000000000041), (31, 0xFFFFFFFFFFFFFFFF)], p := 0x83 }, iss := { w := [(2, 0x8000000000000041), (31, 0xFFFFFFFFFFFFFFFF)], p := 0x83 } })] } }),
      8, 0, 0, 31, 2, 63, 1, slotOp_of (by decide +kernel), by decide +kernel⟩,
  ⟨live (fun d => { d with lay := { fibres := [(8, { run := some { role := .ingress, pkt := 0 }, slot := 3, arch := { w := [(2, 0x8000000000000041), (31, 0xFFFFFFFFFFFFFFFF)], p := 0x83 }, iss := { w := [(2, 0x8000000000000041), (31, 0xFFFFFFFFFFFFFFFF)], p := 0x83 } })] } }),
      8, 0, 0, 7, 2, 31, 0, slotOp_of (by decide +kernel)⟩,
  ⟨live (fun d => { d with lay := { fibres := [(8, { run := some { role := .ingress, pkt := 0 }, slot := 3, arch := { w := [(2, 0x8000000000000041), (31, 0xFFFFFFFFFFFFFFFF)], p := 0x83 }, iss := { w := [(2, 0x8000000000000041), (31, 0xFFFFFFFFFFFFFFFF)], p := 0x83 } })] } }),
      8, 0, 0, 7, 2, 64, slotOp_of (by decide +kernel)⟩,
  ⟨live (fun d => { d with lay := { fibres := [(8, { run := some { role := .ingress, pkt := 0 }, slot := 3, arch := { w := [(2, 0x8000000000000041), (31, 0xFFFFFFFFFFFFFFFF)], p := 0x83 }, iss := { w := [(2, 0x8000000000000041), (31, 0xFFFFFFFFFFFFFFFF)], p := 0x83 } })] } }),
      8, 0, 0, 7, 1, 7, 1, slotOp_of (by decide +kernel), by decide +kernel⟩,
  ⟨live (fun d => { d with lay := { fibres := [(8, { run := some { role := .ingress, pkt := 0 }, slot := 3, arch := { w := [(2, 0x8000000000000041), (31, 0xFFFFFFFFFFFFFFFF)], p := 0x83 }, iss := { w := [(2, 0x8000000000000041), (31, 0xFFFFFFFFFFFFFFFF)], p := 0x83 } })] } }),
      8, 0, 0, 31, 3, 1, slotOp_of (by decide +kernel), by decide +kernel⟩,
  ⟨live (fun d => { d with lay := { fibres := [(8, { run := some { role := .ingress, pkt := 0 }, slot := 3, arch := { w := [(2, 0x8000000000000041), (31, 0xFFFFFFFFFFFFFFFF)], p := 0x83 }, iss := { w := [(2, 0x8000000000000041), (31, 0xFFFFFFFFFFFFFFFF)], p := 0x83 } })] } }),
      8, 0, 0, 2, 3, 1, slotOp_of (by decide +kernel), by decide +kernel⟩,
  ⟨live (fun d => { d with lay := { fibres := [(8, { run := some { role := .ingress, pkt := 0 }, slot := 3, arch := { w := [(2, 0x8000000000000041), (31, 0xFFFFFFFFFFFFFFFF)], p := 0x83 }, iss := { w := [(2, 0x8000000000000041), (31, 0xFFFFFFFFFFFFFFFF)], p := 0x83 } })] } }),
      8, 0, 0, 3, 1, 64, slotOp_of (by decide +kernel), by decide +kernel⟩,
  ⟨live (fun d => { d with lay := { fibres := [(8, { run := some { role := .ingress, pkt := 0 }, slot := 3, arch := { w := [(2, 0x8000000000000041), (31, 0xFFFFFFFFFFFFFFFF)], p := 0x83 }, iss := { w := [(2, 0x8000000000000041), (31, 0xFFFFFFFFFFFFFFFF)], p := 0x83 } })] } }),
      8, 0, 0, 31, 3, 2, 64, 2, slotOp_of (by decide +kernel), by decide +kernel⟩,
  ⟨live (fun d => { d with lay := { fibres := [(8, { run := some { role := .ingress, pkt := 0 }, slot := 3, arch := { w := [(2, 0x8000000000000041), (31, 0xFFFFFFFFFFFFFFFF)], p := 0x83 }, iss := { w := [(2, 0x8000000000000041), (31, 0xFFFFFFFFFFFFFFFF)], p := 0x83 } })] } }),
      8, 0, 0, 31, 3, 2, 64, slotOp_of (by decide +kernel)⟩,
  ⟨live (fun d => { d with lay := { fibres := [(8, { run := some { role := .ingress, pkt := 0 }, slot := 2, arch := { w := [(2, 0x8000000000000041), (31, 0xFFFFFFFFFFFFFFFF)], p := 0x83 }, iss := { w := [(2, 0x8000000000000041), (31, 0xFFFFFFFFFFFFFFFF)], p := 0x83 } })] } }),
      8, 0, 0, 0x3FFF, 0, slotOp_of (by decide +kernel), by decide +kernel⟩,
  ⟨live (fun d => { d with lay := { fibres := [(8, { run := some { role := .ingress, pkt := 0 }, slot := 2, arch := { w := [(2, 0x8000000000000041), (31, 0xFFFFFFFFFFFFFFFF)], p := 0x83 }, iss := { w := [(2, 0x8000000000000041), (31, 0xFFFFFFFFFFFFFFFF)], p := 0x83 } })] } }),
      8, 0, 0, 0, 0x41, slotOp_of (by decide +kernel), by decide +kernel⟩,
  ⟨live (fun d => { d with lay := { fibres := [(8, { run := some { role := .ingress, pkt := 0 }, slot := 3, arch := { w := [(2, 0x8000000000000041), (31, 0xFFFFFFFFFFFFFFFF)], p := 0x83 }, iss := { w := [(2, 0x8000000000000041), (31, 0xFFFFFFFFFFFFFFFF)], p := 0x83 } })] } }),
      8, 0, 0, 0, 0xF0, slotOp_of (by decide +kernel), by decide +kernel⟩,
  ⟨live (fun d => { d with lay := { fibres := [(8, { run := some { role := .egress, pkt := 0 }, slot := 3, arch := { w := [(2, 0x8000000000000041), (31, 0xFFFFFFFFFFFFFFFF)], p := 0x83 }, iss := { w := [(2, 0x8000000000000041), (31, 0xFFFFFFFFFFFFFFFF)], p := 0x83 } })] } }),
      8, 0, 0, 0x41, { role := .egress, pkt := 0 }, slotOp_of (by decide +kernel), by decide +kernel⟩,
  ⟨live (fun d => { d with lay := { fibres := [(8, { run := some { role := .ingress, pkt := 0 }, slot := 3, arch := { w := [(2, 0x8000000000000041), (31, 0xFFFFFFFFFFFFFFFF)], p := 0x83 }, iss := { w := [(2, 0x8000000000000041), (31, 0xFFFFFFFFFFFFFFFF)], p := 0x83 } })] } }),
      8, 0, 0, 31, 31, 7, 0, slotOp_of (by decide +kernel), by decide +kernel⟩,
  ⟨live (fun d => { d with lay := { fibres := [(8, { run := some { role := .ingress, pkt := 0 }, slot := 3, arch := { w := [(2, 0x8000000000000041), (31, 0xFFFFFFFFFFFFFFFF)], p := 0x83 }, iss := { w := [(2, 0x8000000000000041), (31, 0xFFFFFFFFFFFFFFFF)], p := 0x83 } })] } }),
      8, 0, 0, 31, 23, 7, 0, slotOp_of (by decide +kernel), by decide +kernel⟩,
  ⟨live (fun d => { d with lay := { fibres := [(8, { run := some { role := .ingress, pkt := 0 }, slot := 3, arch := { w := [(2, 0x8000000000000041), (31, 0xFFFFFFFFFFFFFFFF)], p := 0x83 }, iss := { w := [(2, 0x8000000000000041), (31, 0xFFFFFFFFFFFFFFFF)], p := 0x83 } })] } }),
      8, 0, 0, 29, 2, 7, 0, slotOp_of (by decide +kernel), by decide +kernel⟩,
  ⟨live (fun d => { d with lay := { fibres := [(8, { run := some { role := .ingress, pkt := 0 }, slot := 3, arch := { w := [(2, 0x8000000000000041), (31, 0xFFFFFFFFFFFFFFFF)], p := 0x83 }, iss := { w := [(2, 0x8000000000000041), (31, 0xFFFFFFFFFFFFFFFF)], p := 0x83 } })] } }),
      8, 0, 0, 31, 2, 7, 1, slotOp_of (by decide +kernel), by decide +kernel⟩,
  ⟨live (fun d => { d with lay := { fibres := [(8, { run := some { role := .ingress, pkt := 0 }, slot := 3, arch := { w := [(2, 0x8000000000000041), (31, 0xFFFFFFFFFFFFFFFF)], p := 0x83 }, iss := { w := [(2, 0x8000000000000041), (31, 0xFFFFFFFFFFFFFFFF)], p := 0x83 } })] } }),
      8, 0, 0, 31, 3, 0, 4, 249, 2, issuesOp_of (by decide +kernel), by decide +kernel⟩,
  ⟨live (fun d => { d with lay := { fibres := [(8, { run := some { role := .ingress, pkt := 0 }, slot := 3, arch := { w := [(2, 0x8000000000000041), (31, 0xFFFFFFFFFFFFFFFF)], p := 0x83 }, iss := { w := [(2, 0x8000000000000041), (31, 0xFFFFFFFFFFFFFFFF)], p := 0x83 } })] } }),
      8, 0, 0, 31, 3, 0, 4, 249, issuesOp_of (by decide +kernel), by decide +kernel⟩,
  ⟨live (fun d => { d with lay := { fibres := [(8, { run := some { role := .ingress, pkt := 0 }, slot := 3, arch := { w := [(2, 0x8000000000000041), (31, 0xFFFFFFFFFFFFFFFF)], p := 0x83 }, iss := { w := [(2, 0x8000000000000041), (31, 0xFFFFFFFFFFFFFFFF)], p := 0x83 } })] } }),
      8, 0, 0, 31, 3, 2, 2, 255, 0, issuesOp_of (by decide +kernel), by decide +kernel⟩,
  ⟨live (fun d => { d with lay := { fibres := [(8, { run := some { role := .ingress, pkt := 0 }, slot := 3, arch := { w := [(2, 0x8000000000000041), (31, 0xFFFFFFFFFFFFFFFF)], p := 0x83 }, iss := { w := [(2, 0x8000000000000041), (31, 0xFFFFFFFFFFFFFFFF)], p := 0x83 } })] } }),
      8, 0, 0, 31, 3, 2, 64, issuesOp_of (by decide +kernel)⟩,
  ⟨live (fun d => { d with lay := { fibres := [(8, { run := some { role := .ingress, pkt := 0 }, slot := 3, arch := { w := [(2, 0x8000000000000041), (31, 0xFFFFFFFFFFFFFFFF)], p := 0x83 }, iss := { w := [(2, 0x8000000000000041), (31, 0xFFFFFFFFFFFFFFFF)], p := 0x83 } })] } }),
      8, 0, 0, 2, 0, issuesOp_of (by decide +kernel), by decide +kernel⟩,
  ⟨live (fun d => { d with lay := { fibres := [(8, { run := some { role := .ingress, pkt := 0 }, slot := 3, arch := { m := [(5, 63)] }, iss := { m := [(5, 63)] } })] }, path := { pkts := [(0, { iport := 8, whole := true, bytes := List.replicate 64 1 })] } }),
      8, 0, 0, 0x41, issuesOp_of (by decide +kernel), by decide +kernel⟩,
  ⟨live (fun d => { d with lay := { fibres := [(8, { run := some { role := .ingress, pkt := 0 }, slot := 3, arch := { w := [(2, 0x8000000000000041), (31, 0xFFFFFFFFFFFFFFFF)], p := 0x83 }, iss := { w := [(2, 0x8000000000000041), (31, 0xFFFFFFFFFFFFFFFF)], p := 0x83 } })] } }),
      8, 0, 0, 31, 2, 7, { role := .ingress, pkt := 0 }, issuesOp_of (by decide +kernel), by decide +kernel⟩,
  ⟨live (fun d => { d with lay := { fibres := [(8, { run := some { role := .ingress, pkt := 0 }, slot := 3, arch := { w := [(2, 0x8000000000000041), (31, 0xFFFFFFFFFFFFFFFF)], p := 0x83 }, iss := { w := [(2, 0x8000000000000041), (31, 0xFFFFFFFFFFFFFFFF)], p := 0x83 } })] } }),
      8, 0, 0, 31, 2, 7, { role := .ingress, pkt := 0 }, issuesOp_of (by decide +kernel), by decide +kernel⟩,
  ⟨live (fun d => { d with lay := { fibres := [(8, { run := some { role := .ingress, pkt := 0 }, slot := 3, arch := { w := [(2, 0x8000000000000041), (31, 0xFFFFFFFFFFFFFFFF)], p := 0x83 }, iss := { w := [(2, 0x8000000000000041), (31, 0xFFFFFFFFFFFFFFFF)], p := 0x83 } })] } }),
      8, 0, 0, 31, 2, 7, { role := .ingress, pkt := 0 }, issuesOp_of (by decide +kernel), by decide +kernel⟩,
  ⟨live (fun d => { d with lay := { fibres := [(8, { run := some { role := .egress, pkt := 0 }, slot := 3, arch := { w := [(2, 0x8000000000000041), (31, 0xFFFFFFFFFFFFFFFF)], p := 0x83 }, iss := { w := [(2, 0x8000000000000041), (31, 0xFFFFFFFFFFFFFFFF)], p := 0x83 } })] } }),
      8, 0, 0, 7, { role := .egress, pkt := 0 }, issuesOp_of (by decide +kernel), by decide +kernel⟩⟩

theorem test_hypotheses_GuardedOffOperations :
    (∃ (c : Instr) (s : State) (w : BitVec 32), (∀ f v e, c ≠ .nop f v e) ∧ s.live ∧ operationWord c = some w ∧ c.wf = true ∧ guardHolds (wordGuard w) ((s.dev.fibre (opFibre c)).begin 0).iss = false)
    ∧ (∃ (s : State) (f : Nat) (t : Nat) (g : BitVec 4) (rd : BitVec 5) (ra : BitVec 5) (rb : BitVec 5), s.slotOp f t (.aluAdd f g rd ra rb) g [ra.toNat,
      rb.toNat] [] false ∧ guardHolds g (s.begun f t).iss = false)
    ∧ (∃ (s : State) (f : Nat) (t : Nat) (g : BitVec 4) (rd : BitVec 5) (ra : BitVec 5) (rb : BitVec 5), s.slotOp f t (.aluSub f g rd ra rb) g [ra.toNat,
      rb.toNat] [] false ∧ guardHolds g (s.begun f t).iss = false)
    ∧ (∃ (s : State) (f : Nat) (t : Nat) (g : BitVec 4) (rd : BitVec 5) (ra : BitVec 5) (rb : BitVec 5), s.slotOp f t (.aluAnd f g rd ra rb) g [ra.toNat,
      rb.toNat] [] false ∧ guardHolds g (s.begun f t).iss = false)
    ∧ (∃ (s : State) (f : Nat) (t : Nat) (g : BitVec 4) (rd : BitVec 5) (ra : BitVec 5) (rb : BitVec 5), s.slotOp f t (.aluOr f g rd ra rb) g [ra.toNat,
      rb.toNat] [] false ∧ guardHolds g (s.begun f t).iss = false)
    ∧ (∃ (s : State) (f : Nat) (t : Nat) (g : BitVec 4) (rd : BitVec 5) (ra : BitVec 5) (rb : BitVec 5), s.slotOp f t (.aluXor f g rd ra rb) g [ra.toNat,
      rb.toNat] [] false ∧ guardHolds g (s.begun f t).iss = false)
    ∧ (∃ (s : State) (f : Nat) (t : Nat) (g : BitVec 4) (rd : BitVec 5) (ra : BitVec 5) (rb : BitVec 5), s.slotOp f t (.aluAndn f g rd ra rb) g [ra.toNat,
      rb.toNat] [] false ∧ guardHolds g (s.begun f t).iss = false)
    ∧ (∃ (s : State) (f : Nat) (t : Nat) (g : BitVec 4) (rd : BitVec 5) (ra : BitVec 5) (rb : BitVec 5), s.slotOp f t (.aluShl f g rd ra rb) g [ra.toNat,
      rb.toNat] [] false ∧ guardHolds g (s.begun f t).iss = false)
    ∧ (∃ (s : State) (f : Nat) (t : Nat) (g : BitVec 4) (rd : BitVec 5) (ra : BitVec 5) (rb : BitVec 5), s.slotOp f t (.aluShr f g rd ra rb) g [ra.toNat,
      rb.toNat] [] false ∧ guardHolds g (s.begun f t).iss = false)
    ∧ (∃ (s : State) (f : Nat) (t : Nat) (g : BitVec 4) (rd : BitVec 5) (ra : BitVec 5) (rb : BitVec 5), s.slotOp f t (.aluSar f g rd ra rb) g [ra.toNat,
      rb.toNat] [] false ∧ guardHolds g (s.begun f t).iss = false)
    ∧ (∃ (s : State) (f : Nat) (t : Nat) (g : BitVec 4) (rd : BitVec 5) (ra : BitVec 5) (rb : BitVec 5), s.slotOp f t (.aluMinu f g rd ra rb) g [ra.toNat,
      rb.toNat] [] false ∧ guardHolds g (s.begun f t).iss = false)
    ∧ (∃ (s : State) (f : Nat) (t : Nat) (g : BitVec 4) (rd : BitVec 5) (ra : BitVec 5) (rb : BitVec 5), s.slotOp f t (.aluMaxu f g rd ra rb) g [ra.toNat,
      rb.toNat] [] false ∧ guardHolds g (s.begun f t).iss = false)
    ∧ (∃ (s : State) (f : Nat) (t : Nat) (g : BitVec 4) (rd : BitVec 5) (ra : BitVec 5) (rb : BitVec 5), s.slotOp f t (.aluMul f g rd ra rb) g [ra.toNat,
      rb.toNat] [] false ∧ guardHolds g (s.begun f t).iss = false)
    ∧ (∃ (s : State) (f : Nat) (t : Nat) (g : BitVec 4) (rd : BitVec 5) (ra : BitVec 5) (rb : BitVec 5), s.slotOp f t (.aluMov f g rd ra rb) g [ra.toNat] [] false ∧ guardHolds g (s.begun f t).iss = false)
    ∧ (∃ (s : State) (f : Nat) (t : Nat) (g : BitVec 4) (rd : BitVec 5) (ra : BitVec 5) (rb : BitVec 5), s.slotOp f t (.aluPopc f g rd ra rb) g [ra.toNat] [] false ∧ guardHolds g (s.begun f t).iss = false)
    ∧ (∃ (s : State) (f : Nat) (t : Nat) (g : BitVec 4) (rd : BitVec 5) (ra : BitVec 5) (rb : BitVec 5), s.slotOp f t (.aluClz f g rd ra rb) g [ra.toNat] [] false ∧ guardHolds g (s.begun f t).iss = false)
    ∧ (∃ (s : State) (f : Nat) (t : Nat) (g : BitVec 4) (rd : BitVec 5) (ra : BitVec 5) (imm : BitVec 12), s.slotOp f t (.addi f g rd ra imm) g [ra.toNat] [] false ∧ guardHolds g (s.begun f t).iss = false)
    ∧ (∃ (s : State) (f : Nat) (t : Nat) (g : BitVec 4) (rd : BitVec 5) (ra : BitVec 5) (imm : BitVec 12), s.slotOp f t (.andi f g rd ra imm) g [ra.toNat] [] false ∧ guardHolds g (s.begun f t).iss = false)
    ∧ (∃ (s : State) (f : Nat) (t : Nat) (g : BitVec 4) (rd : BitVec 5) (ra : BitVec 5) (imm : BitVec 12), s.slotOp f t (.ori f g rd ra imm) g [ra.toNat] [] false ∧ guardHolds g (s.begun f t).iss = false)
    ∧ (∃ (s : State) (f : Nat) (t : Nat) (g : BitVec 4) (rd : BitVec 5) (ra : BitVec 5) (imm : BitVec 12), s.slotOp f t (.xori f g rd ra imm) g [ra.toNat] [] false ∧ guardHolds g (s.begun f t).iss = false)
    ∧ (∃ (s : State) (f : Nat) (t : Nat) (g : BitVec 4) (h : BitVec 2) (rd : BitVec 5) (imm : BitVec 16), s.slotOp f t (.movz f g h rd imm) g [] [] false ∧ guardHolds g (s.begun f t).iss = false)
    ∧ (∃ (s : State) (f : Nat) (t : Nat) (g : BitVec 4) (h : BitVec 2) (rd : BitVec 5) (imm : BitVec 16), s.slotOp f t (.movk f g h rd imm) g [rd.toNat] [] false ∧ guardHolds g (s.begun f t).iss = false)
    ∧ (∃ (s : State) (f : Nat) (t : Nat) (g : BitVec 4) (rd : BitVec 5) (size : BitVec 2) (ix : BitVec 1) (ra : BitVec 5) (off : BitVec 9),
      s.slotOp f t (.wst f g rd size ix ra off) g (rd.toNat :: windowRegs ix ra) [] false ∧ guardHolds g (s.begun f t).iss = false)
    ∧ (∃ (s : State) (f : Nat) (t : Nat) (g : BitVec 4) (ra : BitVec 5) (n : BitVec 4) (low : BitVec 13), s.slotOp f t (.mwr f g ra n low) g [ra.toNat] [] false 
      ∧ guardHolds g (s.begun f t).iss = false ∧ low = 0)
    ∧ (∃ (s : State) (f : Nat) (t : Nat) (g : BitVec 4) (target : BitVec 14) (low : BitVec 8), s.slotOp f t (.br f g target low) g [] [] false 
      ∧ guardHolds g (s.begun f t).iss = false ∧ low = 0 ∧ (s.dev.fibre f).slot = 3)
    ∧ (∃ (s : State) (f : Nat) (t : Nat) (g : BitVec 4) (high : BitVec 14) (code : BitVec 8), s.slotOp f t (.fwd f g high code) g [] [] false 
      ∧ guardHolds g (s.begun f t).iss = false ∧ high = 0 ∧ (s.dev.fibre f).slot = 3)
    ∧ (∃ (s : State) (f : Nat) (t : Nat) (g : BitVec 4) (high : BitVec 14) (code : BitVec 8), s.slotOp f t (.trap f g high code) g [] [] false 
      ∧ guardHolds g (s.begun f t).iss = false ∧ high = 0 ∧ (s.dev.fibre f).slot = 3)
    ∧ (∃ (s : State) (f : Nat) (t : Nat) (g : BitVec 4) (rd : BitVec 5) (ra : BitVec 5) (pd : BitVec 3) (v : BitVec 9),
      s.slotOp f t (.cltry f g rd ra pd v) g [ra.toNat] [] false ∧ guardHolds g (s.begun f t).iss = false ∧ v = 0 ∧ (s.dev.fibre f).slot = 3)
    ∧ (∃ (s : State) (f : Nat) (t : Nat) (g : BitVec 4) (rd : BitVec 5) (ra : BitVec 5) (pd : BitVec 3) (v : BitVec 9), s.slotOp f t (.lnput f g rd ra pd v) g [rd.toNat,
      ra.toNat] [] false ∧ guardHolds g (s.begun f t).iss = false ∧ v = 0 ∧ (s.dev.fibre f).slot = 3) :=
  ⟨⟨.aluAdd 8 8 31 2 31,
      live (fun d => { d with lay := { fibres := [(8, { run := some { role := .ingress, pkt := 0 }, slot := 3, arch := { w := [(2, 0x8000000000000041), (31, 0xFFFFFFFFFFFFFFFF)], p := 0x83 }, iss := { w := [(2, 0x8000000000000041), (31, 0xFFFFFFFFFFFFFFFF)], p := 0x83 } })] } }),
      opWord 8 0x01 (formR 31 2 31 0x00), (by intro f v e h; cases h), rfl, by decide +kernel⟩,
  ⟨live (fun d => { d with lay := { fibres := [(8, { run := some { role := .ingress, pkt := 0 }, slot := 3, arch := { w := [(2, 0x8000000000000041), (31, 0xFFFFFFFFFFFFFFFF)], p := 0x83 }, iss := { w := [(2, 0x8000000000000041), (31, 0xFFFFFFFFFFFFFFFF)], p := 0x83 } })] } }),
      8, 0, 8, 31, 2, 31, slotOp_of (by decide +kernel), by decide +kernel⟩,
  ⟨live (fun d => { d with lay := { fibres := [(8, { run := some { role := .ingress, pkt := 0 }, slot := 3, arch := { w := [(2, 0x8000000000000041), (31, 0xFFFFFFFFFFFFFFFF)], p := 0x83 }, iss := { w := [(2, 0x8000000000000041), (31, 0xFFFFFFFFFFFFFFFF)], p := 0x83 } })] } }),
      8, 0, 8, 31, 2, 31, slotOp_of (by decide +kernel), by decide +kernel⟩,
  ⟨live (fun d => { d with lay := { fibres := [(8, { run := some { role := .ingress, pkt := 0 }, slot := 3, arch := { w := [(2, 0x8000000000000041), (31, 0xFFFFFFFFFFFFFFFF)], p := 0x83 }, iss := { w := [(2, 0x8000000000000041), (31, 0xFFFFFFFFFFFFFFFF)], p := 0x83 } })] } }),
      8, 0, 8, 31, 2, 31, slotOp_of (by decide +kernel), by decide +kernel⟩,
  ⟨live (fun d => { d with lay := { fibres := [(8, { run := some { role := .ingress, pkt := 0 }, slot := 3, arch := { w := [(2, 0x8000000000000041), (31, 0xFFFFFFFFFFFFFFFF)], p := 0x83 }, iss := { w := [(2, 0x8000000000000041), (31, 0xFFFFFFFFFFFFFFFF)], p := 0x83 } })] } }),
      8, 0, 8, 31, 2, 31, slotOp_of (by decide +kernel), by decide +kernel⟩,
  ⟨live (fun d => { d with lay := { fibres := [(8, { run := some { role := .ingress, pkt := 0 }, slot := 3, arch := { w := [(2, 0x8000000000000041), (31, 0xFFFFFFFFFFFFFFFF)], p := 0x83 }, iss := { w := [(2, 0x8000000000000041), (31, 0xFFFFFFFFFFFFFFFF)], p := 0x83 } })] } }),
      8, 0, 8, 31, 2, 31, slotOp_of (by decide +kernel), by decide +kernel⟩,
  ⟨live (fun d => { d with lay := { fibres := [(8, { run := some { role := .ingress, pkt := 0 }, slot := 3, arch := { w := [(2, 0x8000000000000041), (31, 0xFFFFFFFFFFFFFFFF)], p := 0x83 }, iss := { w := [(2, 0x8000000000000041), (31, 0xFFFFFFFFFFFFFFFF)], p := 0x83 } })] } }),
      8, 0, 8, 31, 2, 31, slotOp_of (by decide +kernel), by decide +kernel⟩,
  ⟨live (fun d => { d with lay := { fibres := [(8, { run := some { role := .ingress, pkt := 0 }, slot := 3, arch := { w := [(2, 0x8000000000000041), (31, 0xFFFFFFFFFFFFFFFF)], p := 0x83 }, iss := { w := [(2, 0x8000000000000041), (31, 0xFFFFFFFFFFFFFFFF)], p := 0x83 } })] } }),
      8, 0, 8, 31, 2, 31, slotOp_of (by decide +kernel), by decide +kernel⟩,
  ⟨live (fun d => { d with lay := { fibres := [(8, { run := some { role := .ingress, pkt := 0 }, slot := 3, arch := { w := [(2, 0x8000000000000041), (31, 0xFFFFFFFFFFFFFFFF)], p := 0x83 }, iss := { w := [(2, 0x8000000000000041), (31, 0xFFFFFFFFFFFFFFFF)], p := 0x83 } })] } }),
      8, 0, 8, 31, 2, 31, slotOp_of (by decide +kernel), by decide +kernel⟩,
  ⟨live (fun d => { d with lay := { fibres := [(8, { run := some { role := .ingress, pkt := 0 }, slot := 3, arch := { w := [(2, 0x8000000000000041), (31, 0xFFFFFFFFFFFFFFFF)], p := 0x83 }, iss := { w := [(2, 0x8000000000000041), (31, 0xFFFFFFFFFFFFFFFF)], p := 0x83 } })] } }),
      8, 0, 8, 31, 2, 31, slotOp_of (by decide +kernel), by decide +kernel⟩,
  ⟨live (fun d => { d with lay := { fibres := [(8, { run := some { role := .ingress, pkt := 0 }, slot := 3, arch := { w := [(2, 0x8000000000000041), (31, 0xFFFFFFFFFFFFFFFF)], p := 0x83 }, iss := { w := [(2, 0x8000000000000041), (31, 0xFFFFFFFFFFFFFFFF)], p := 0x83 } })] } }),
      8, 0, 8, 31, 2, 31, slotOp_of (by decide +kernel), by decide +kernel⟩,
  ⟨live (fun d => { d with lay := { fibres := [(8, { run := some { role := .ingress, pkt := 0 }, slot := 3, arch := { w := [(2, 0x8000000000000041), (31, 0xFFFFFFFFFFFFFFFF)], p := 0x83 }, iss := { w := [(2, 0x8000000000000041), (31, 0xFFFFFFFFFFFFFFFF)], p := 0x83 } })] } }),
      8, 0, 8, 31, 2, 31, slotOp_of (by decide +kernel), by decide +kernel⟩,
  ⟨live (fun d => { d with lay := { fibres := [(8, { run := some { role := .ingress, pkt := 0 }, slot := 3, arch := { w := [(2, 0x8000000000000041), (31, 0xFFFFFFFFFFFFFFFF)], p := 0x83 }, iss := { w := [(2, 0x8000000000000041), (31, 0xFFFFFFFFFFFFFFFF)], p := 0x83 } })] } }),
      8, 0, 8, 31, 2, 31, slotOp_of (by decide +kernel), by decide +kernel⟩,
  ⟨live (fun d => { d with lay := { fibres := [(8, { run := some { role := .ingress, pkt := 0 }, slot := 3, arch := { w := [(2, 0x8000000000000041), (31, 0xFFFFFFFFFFFFFFFF)], p := 0x83 }, iss := { w := [(2, 0x8000000000000041), (31, 0xFFFFFFFFFFFFFFFF)], p := 0x83 } })] } }),
      8, 0, 8, 31, 2, 31, slotOp_of (by decide +kernel), by decide +kernel⟩,
  ⟨live (fun d => { d with lay := { fibres := [(8, { run := some { role := .ingress, pkt := 0 }, slot := 3, arch := { w := [(2, 0x8000000000000041), (31, 0xFFFFFFFFFFFFFFFF)], p := 0x83 }, iss := { w := [(2, 0x8000000000000041), (31, 0xFFFFFFFFFFFFFFFF)], p := 0x83 } })] } }),
      8, 0, 8, 31, 2, 31, slotOp_of (by decide +kernel), by decide +kernel⟩,
  ⟨live (fun d => { d with lay := { fibres := [(8, { run := some { role := .ingress, pkt := 0 }, slot := 3, arch := { w := [(2, 0x8000000000000041), (31, 0xFFFFFFFFFFFFFFFF)], p := 0x83 }, iss := { w := [(2, 0x8000000000000041), (31, 0xFFFFFFFFFFFFFFFF)], p := 0x83 } })] } }),
      8, 0, 8, 31, 2, 31, slotOp_of (by decide +kernel), by decide +kernel⟩,
  ⟨live (fun d => { d with lay := { fibres := [(8, { run := some { role := .ingress, pkt := 0 }, slot := 3, arch := { w := [(2, 0x8000000000000041), (31, 0xFFFFFFFFFFFFFFFF)], p := 0x83 }, iss := { w := [(2, 0x8000000000000041), (31, 0xFFFFFFFFFFFFFFFF)], p := 0x83 } })] } }),
      8, 0, 8, 31, 2, 5, slotOp_of (by decide +kernel), by decide +kernel⟩,
  ⟨live (fun d => { d with lay := { fibres := [(8, { run := some { role := .ingress, pkt := 0 }, slot := 3, arch := { w := [(2, 0x8000000000000041), (31, 0xFFFFFFFFFFFFFFFF)], p := 0x83 }, iss := { w := [(2, 0x8000000000000041), (31, 0xFFFFFFFFFFFFFFFF)], p := 0x83 } })] } }),
      8, 0, 8, 31, 2, 5, slotOp_of (by decide +kernel), by decide +kernel⟩,
  ⟨live (fun d => { d with lay := { fibres := [(8, { run := some { role := .ingress, pkt := 0 }, slot := 3, arch := { w := [(2, 0x8000000000000041), (31, 0xFFFFFFFFFFFFFFFF)], p := 0x83 }, iss := { w := [(2, 0x8000000000000041), (31, 0xFFFFFFFFFFFFFFFF)], p := 0x83 } })] } }),
      8, 0, 8, 31, 2, 5, slotOp_of (by decide +kernel), by decide +kernel⟩,
  ⟨live (fun d => { d with lay := { fibres := [(8, { run := some { role := .ingress, pkt := 0 }, slot := 3, arch := { w := [(2, 0x8000000000000041), (31, 0xFFFFFFFFFFFFFFFF)], p := 0x83 }, iss := { w := [(2, 0x8000000000000041), (31, 0xFFFFFFFFFFFFFFFF)], p := 0x83 } })] } }),
      8, 0, 8, 31, 2, 5, slotOp_of (by decide +kernel), by decide +kernel⟩,
  ⟨live (fun d => { d with lay := { fibres := [(8, { run := some { role := .ingress, pkt := 0 }, slot := 3, arch := { w := [(2, 0x8000000000000041), (31, 0xFFFFFFFFFFFFFFFF)], p := 0x83 }, iss := { w := [(2, 0x8000000000000041), (31, 0xFFFFFFFFFFFFFFFF)], p := 0x83 } })] } }),
      8, 0, 8, 3, 31, 5, slotOp_of (by decide +kernel), by decide +kernel⟩,
  ⟨live (fun d => { d with lay := { fibres := [(8, { run := some { role := .ingress, pkt := 0 }, slot := 3, arch := { w := [(2, 0x8000000000000041), (31, 0xFFFFFFFFFFFFFFFF)], p := 0x83 }, iss := { w := [(2, 0x8000000000000041), (31, 0xFFFFFFFFFFFFFFFF)], p := 0x83 } })] } }),
      8, 0, 8, 3, 31, 5, slotOp_of (by decide +kernel), by decide +kernel⟩,
  ⟨live (fun d => { d with lay := { fibres := [(8, { run := some { role := .ingress, pkt := 0 }, slot := 3, arch := { w := [(2, 0x8000000000000041), (31, 0xFFFFFFFFFFFFFFFF)], p := 0x83 }, iss := { w := [(2, 0x8000000000000041), (31, 0xFFFFFFFFFFFFFFFF)], p := 0x83 } })] } }),
      8, 0, 8, 31, 3, 0, 2, 248, slotOp_of (by decide +kernel), by decide +kernel⟩,
  ⟨live (fun d => { d with lay := { fibres := [(8, { run := some { role := .ingress, pkt := 0 }, slot := 3, arch := { w := [(2, 0x8000000000000041), (31, 0xFFFFFFFFFFFFFFFF)], p := 0x83 }, iss := { w := [(2, 0x8000000000000041), (31, 0xFFFFFFFFFFFFFFFF)], p := 0x83 } })] } }),
      8, 0, 8, 2, 3, 0, slotOp_of (by decide +kernel), by decide +kernel⟩,
  ⟨live (fun d => { d with lay := { fibres := [(8, { run := some { role := .ingress, pkt := 0 }, slot := 3, arch := { w := [(2, 0x8000000000000041), (31, 0xFFFFFFFFFFFFFFFF)], p := 0x83 }, iss := { w := [(2, 0x8000000000000041), (31, 0xFFFFFFFFFFFFFFFF)], p := 0x83 } })] } }),
      8, 0, 8, 0x3FFF, 0, slotOp_of (by decide +kernel), by decide +kernel⟩,
  ⟨live (fun d => { d with lay := { fibres := [(8, { run := some { role := .ingress, pkt := 0 }, slot := 3, arch := { w := [(2, 0x8000000000000041), (31, 0xFFFFFFFFFFFFFFFF)], p := 0x83 }, iss := { w := [(2, 0x8000000000000041), (31, 0xFFFFFFFFFFFFFFFF)], p := 0x83 } })] } }),
      8, 0, 8, 0, 0x41, slotOp_of (by decide +kernel), by decide +kernel⟩,
  ⟨live (fun d => { d with lay := { fibres := [(8, { run := some { role := .ingress, pkt := 0 }, slot := 3, arch := { w := [(2, 0x8000000000000041), (31, 0xFFFFFFFFFFFFFFFF)], p := 0x83 }, iss := { w := [(2, 0x8000000000000041), (31, 0xFFFFFFFFFFFFFFFF)], p := 0x83 } })] } }),
      8, 0, 8, 0, 0x41, slotOp_of (by decide +kernel), by decide +kernel⟩,
  ⟨live (fun d => { d with lay := { fibres := [(8, { run := some { role := .ingress, pkt := 0 }, slot := 3, arch := { w := [(2, 0x8000000000000041), (31, 0xFFFFFFFFFFFFFFFF)], p := 0x83 }, iss := { w := [(2, 0x8000000000000041), (31, 0xFFFFFFFFFFFFFFFF)], p := 0x83 } })] } }),
      8, 0, 8, 31, 2, 7, 0, slotOp_of (by decide +kernel), by decide +kernel⟩,
  ⟨live (fun d => { d with lay := { fibres := [(8, { run := some { role := .ingress, pkt := 0 }, slot := 3, arch := { w := [(2, 0x8000000000000041), (31, 0xFFFFFFFFFFFFFFFF)], p := 0x83 }, iss := { w := [(2, 0x8000000000000041), (31, 0xFFFFFFFFFFFFFFFF)], p := 0x83 } })] } }),
      8, 0, 8, 31, 2, 7, 0, slotOp_of (by decide +kernel), by decide +kernel⟩⟩

theorem test_hypotheses_AutomatonEvents :
    (∃ (s : State) (u : Nat) (scan : Scan) (g : Seg) (rest : List Seg), s.live ∧ u < 64 ∧ (s.dev.unit u).segs = g :: rest ∧ g.tag = none ∧ scan.hard = none)
    ∧ (∃ (s : State) (u : Nat) (scan : Scan) (g : Seg) (rest : List Seg) (c : Nat) (k : Nat) (v : Option W), s.live ∧ u < 64 ∧ (s.dev.unit u).segs = g :: rest 
      ∧ g.tag = none ∧ scan.hard = none ∧ g.owner = .query c k ∧ g.noSet = false ∧ scan.reports = [] ∧ Map.find (s.dev.core c).slots k = some v)
    ∧ (∃ (s : State) (u : Nat) (scan : Scan) (g : Seg) (rest : List Seg) (line : Nat), s.live ∧ u < 64 ∧ (s.dev.unit u).segs = g :: rest ∧ scan.hard = some line 
      ∧ line < 4096 ∧ (∀ e ∈ (s.dev.unit u).fix, e.1 ≠ line))
    ∧ (∃ (s : State) (u : Nat) (line : Nat) (age : Nat) (rest : List (Nat × Nat)), s.live ∧ u < 64 ∧ (s.dev.unit u).fix = (line, age) :: rest)
    ∧ (∃ (s : State), s.live)
    ∧ (∃ (s : State), s.live)
    ∧ (∃ (s : State), s.live)
    ∧ (∃ (s : State), s.live)
    ∧ (∃ (s : State), s.live ∧ s.dev.chainNow = none)
    ∧ (∃ (s : State) (c : Chain), s.live ∧ s.dev.chainNow = some c ∧ s.dev.aut.inUp = true)
    ∧ (∃ (s : State) (w : W) (c : Chain), s.live ∧ s.dev.chainNow = some c ∧ s.dev.aut.inUp = true ∧ wordTag w ∉ s.dev.aut.gone ∧ (∀ t ∈ s.dev.aut.tags,
      t.tag ≠ wordTag w) ∧ s.dev.aut.tags.length < 4096)
    ∧ (∃ (s : State) (w : W) (tag : Nat) (f : Nat) (id : Nat) (slot : Nat) (trunc : Bool), s.live ∧ (s.dev.aut.mine.find? (fun e => e.1 == wordTag w) = some (tag, .fibre f, id, slot, trunc)))
    ∧ (∃ (s : State) (tag : Nat) (t : ChainTag) (w : W), s.live ∧ tag < 2 ^ 24 ∧ (s.dev.aut.tags.find? (fun t => t.tag == tag) = some t) ∧ t.mine = some w ∧ t.chain.pos + 1 < t.chain.n)
    ∧ (∃ (s : State) (p : Nat) (gen : Nat), s.live ∧ p < 256 ∧ (∀ n ∈ s.dev.live, ((s.dev.chainOf n (p / 8)).map (·.gen)) ≠ some gen) ∧ s.dev.chainNow = none)
    ∧ (∃ (s : State) (p : Nat) (gen : Nat) (set : Nat) (tag : Nat) (bytes : List Byte) (n : Nat) (c : Chain) (d' : Dev), s.live ∧ p < 256 ∧ (s.dev.port p).braid = false 
      ∧ (s.dev.live.filter (fun n => ((s.dev.chainOf n (p / 8)).map (·.gen)) == some gen) = [n]) ∧ s.dev.chainOf n (p / 8) = some c ∧ s.dev.admitSeg (p / 8) { id := s.dev.aut.nextSeg, owner := .chain tag, shade := n, set, bytes, noSet := !(s.dev.progSet n (p / 8)).autSets.contains set, tag := some tag } = some d') :=
  ⟨⟨live (fun d => { d with aut := { units := [(63, { segs := [{ id := 5, owner := .fibre 135, tag := none }] })] } }), 63,
      { winner := some (9, 3), count := 1, reports := [], suspect := false }, { id := 5, owner := .fibre 135, tag := none }, [], rfl, by decide +kernel⟩,
  ⟨live (fun d => { d with aut := { units := [(63, { segs := [{ id := 5, owner := .query 31 7, tag := none }] })] }, cap := { cores := [(31, { slots := [(7, none)] })] } }),
      63, { winner := some (9, 3), count := 1, reports := [], suspect := false }, { id := 5, owner := .query 31 7, tag := none }, [], 31, 7, none, rfl, by decide +kernel⟩,
  ⟨live (fun d => { d with aut := { units := [(63, { segs := [{ id := 5, owner := .fibre 135, tag := none }] })] } }), 63,
      { winner := none, count := 0, reports := [], suspect := false, hard := some 4095 }, { id := 5, owner := .fibre 135, tag := none }, [], 4095, rfl, by decide +kernel⟩,
  ⟨live (fun d => { d with aut := { units := [(63, { fix := [(77, 90)] })] } }), 63, 77, 90, [], rfl, by decide +kernel⟩,
  ⟨live id, rfl⟩,
  ⟨live id, rfl⟩,
  ⟨live id, rfl⟩,
  ⟨live id, rfl⟩,
  ⟨live id, rfl, by decide +kernel⟩,
  ⟨live (fun d => { d with shd := [(0, { st := .current, sets := [(1, { chain := some ⟨7, 3, 1, [1, 2, 3], [4]⟩, strands := 0xFFFF, autSets := [4] })] })], aut := { inUp := true } }),
      ⟨7, 3, 1, [1, 2, 3], [4]⟩, rfl, by decide +kernel⟩,
  ⟨live (fun d => { d with shd := [(0, { st := .current, sets := [(1, { chain := some ⟨7, 3, 1, [1, 2, 3], [4]⟩, strands := 0xFFFF, autSets := [4] })] })], aut := { inUp := true, gone := [6], tags := [{ tag := 7, chain := ⟨7, 3, 1, [1, 2, 3], [4]⟩ }] } }),
      5 * 2 ^ 40, ⟨7, 3, 1, [1, 2, 3], [4]⟩, rfl, by decide +kernel⟩,
  ⟨live (fun d => { d with aut := { mine := [(5, .fibre 135, 9, 2, false)] }, lay := { fibres := [(135, { subs := [{ id := 9, unit := 3 }] })] } }), 5 * 2 ^ 40 + 3, 5,
      135, 9, 2, false, rfl, by decide +kernel⟩,
  ⟨live (fun d => { d with aut := { tags := [{ tag := 0xFFFFFF, mine := some 3, since := 9, chain := ⟨7, 3, 1, [1, 2, 3], [4]⟩ }] } }), 0xFFFFFF,
      { tag := 0xFFFFFF, mine := some 3, since := 9, chain := ⟨7, 3, 1, [1, 2, 3], [4]⟩ }, 3, rfl, by decide +kernel⟩,
  ⟨live id, 255, 7, rfl, by decide +kernel⟩,
  ⟨live (fun d => { d with shd := [(0, { st := .current, sets := [(1, { chain := some ⟨7, 3, 1, [1, 2, 3], [4]⟩, strands := 0xFFFF, autSets := [4] })] })], lay := { lays := [(1, { strands := 0xFFFF })] } }),
      8, 7, 4, 5, [1, 2], 0, ⟨7, 3, 1, [1, 2, 3], [4]⟩,
      ((live (fun d => { d with shd := [(0, { st := .current, sets := [(1, { chain := some ⟨7, 3, 1, [1, 2, 3], [4]⟩, strands := 0xFFFF, autSets := [4] })] })], lay := { lays := [(1, { strands := 0xFFFF })] } })).dev.admitSeg 1 { id := 0, owner := .chain 5, shade := 0, set := 4, bytes := [1, 2], noSet := false, tag := some 5 }).getD {},
      rfl, by decide +kernel⟩⟩

theorem test_hypotheses_BraidEvents :
    (∃ (s : State), s.live)
    ∧ (∃ (s : State) (p : Nat) (h : BraidHdr), s.live ∧ p < 256 ∧ (s.dev.port p).braid = true ∧ (s.dev.link p).st ≠ .down ∧ (s.dev.link p).lost = false ∧ p < s.dev.lanes ∧ h.kind ≠ 0)
    ∧ (∃ (s : State) (p : Nat) (h : BraidHdr), s.live ∧ p < 256 ∧ (s.dev.port p).braid = true ∧ (s.dev.link p).st ≠ .down ∧ (s.dev.link p).lost = false ∧ p < s.dev.lanes ∧ h.kind = 0)
    ∧ (∃ (s : State) (p : Nat) (h : BraidHdr), s.live ∧ p < 256 ∧ (s.dev.port p).braid = true ∧ (s.dev.link p).st ≠ .down ∧ (s.dev.link p).lost = false ∧ p < s.dev.lanes ∧ h.kind = 0)
    ∧ (∃ (s : State) (p : Nat) (h : Hello), s.live ∧ p < 256 ∧ (s.dev.port p).braid = true ∧ (s.dev.link p).st ≠ .down ∧ (s.dev.link p).lost = false ∧ (s.dev.link p).changed h = false)
    ∧ (∃ (s : State) (p : Nat) (gs : List Nat), s.live ∧ p < 256 ∧ gs.length = 8 ∧ (s.dev.port p).braid = true ∧ (s.dev.link p).st ≠ .down ∧ (s.dev.link p).lost = false)
    ∧ (∃ (s : State) (p : Nat) (src : Nat) (op : Nat) (seq : Nat), s.live ∧ p < 256 ∧ 1 ≤ op ∧ op ≤ 3 ∧ (s.dev.port p).braid = true ∧ (s.dev.link p).st ≠ .down 
      ∧ (s.dev.link p).lost = false ∧ (src, seq) ∈ s.dev.brd.seen)
    ∧ (∃ (s : State) (p : Nat) (src : Nat) (target : Nat) (seq : Nat) (turn : Nat), s.live ∧ p < 256 ∧ (s.dev.port p).braid = true ∧ (s.dev.link p).st ≠ .down 
      ∧ (s.dev.link p).lost = false ∧ (src, seq) ∉ s.dev.brd.seen ∧ s.dev.inTarget target = true ∧ s.dev.turn < turn ∧ s.dev.spl.snaps.length < 4)
    ∧ (∃ (s : State) (p : Nat), s.live ∧ p < 256 ∧ (s.dev.port p).braid = true ∧ (s.dev.link p).st ≠ .down ∧ (s.dev.link p).lost = false)
    ∧ (∃ (s : State) (p : Nat), s.live ∧ p < 256 ∧ (s.dev.port p).braid = true ∧ (s.dev.link p).st ≠ .down ∧ (s.dev.link p).lost = false)
    ∧ (∃ (s : State) (p : Nat), s.live ∧ p < 256 ∧ (s.dev.port p).braid = true ∧ (s.dev.link p).st ≠ .down ∧ (s.dev.link p).lost = false)
    ∧ (∃ (s : State) (p : Nat) (x : Nat), s.live ∧ p < 256 ∧ (s.dev.link p).lease = some x ∧ (s.dev.link p).leaseTurn + 1024 ≤ s.dev.turn)
    ∧ (∃ (s : State) (p : Nat), s.live ∧ p < 256 ∧ (s.dev.port p).braid = true ∧ (s.dev.link p).st ≠ .down ∧ (s.dev.link p).lost = false)
    ∧ (∃ (s : State) (p : Nat), s.live ∧ p < 256 ∧ (s.dev.link p).lost = true ∧ s.dev.copiesOf p = []) :=
  ⟨⟨live (fun d => { d with path := { ports := [(8, { enable := true, link := true, braid := true })] }, brd := { node := 3, links := [(8, { st := .up })] } }), rfl⟩,
  ⟨live (fun d => { d with path := { ports := [(8, { enable := true, link := true, braid := true })] }, brd := { node := 3, links := [(8, { st := .up })] } }), 8, ⟨1, 3,
      false, 3, 4, 0, 63, 77, 4⟩, rfl, by decide +kernel⟩,
  ⟨live (fun d => { d with path := { ports := [(8, { enable := true, link := true, braid := true })] }, brd := { node := 3, links := [(8, { st := .up })] } }), 8, ⟨0, 3,
      false, 3, 4, 0, 63, 77, 4⟩, rfl, by decide +kernel⟩,
  ⟨live (fun d => { d with path := { ports := [(8, { enable := true, link := true, braid := true })] }, brd := { node := 3, links := [(8, { st := .up })] } }), 8, ⟨0, 3,
      false, 3, 4, 0, 63, 77, 4⟩, rfl, by decide +kernel⟩,
  ⟨live (fun d => { d with path := { ports := [(8, { enable := true, link := true, braid := true })] }, brd := { node := 3, links := [(8, { st := .up })] } }), 8, ⟨9,
      false, false, false, 4, 12, 0, 0, false⟩, rfl, by decide +kernel⟩,
  ⟨live (fun d => { d with path := { ports := [(8, { enable := true, link := true, braid := true })] }, brd := { node := 3, links := [(8, { st := .up })] } }), 8, [1, 2,
      3, 4, 5, 6, 7, 8], rfl, by decide +kernel⟩,
  ⟨live (fun d => { d with path := { ports := [(8, { enable := true, link := true, braid := true })] }, brd := { node := 3, seen := [(9, 4)], links := [(8, { st := .up })] } }),
      8, 9, 3, 4, rfl, by decide +kernel⟩,
  ⟨live (fun d => { d with path := { ports := [(8, { enable := true, link := true, braid := true })] }, brd := { node := 3, links := [(8, { st := .up })] } }), 8, 9, 3, 4, 5, rfl, by decide +kernel⟩,
  ⟨live (fun d => { d with path := { ports := [(8, { enable := true, link := true, braid := true })] }, brd := { node := 3, links := [(8, { st := .up, mark := some 9 })] } }),
      8, rfl, by decide +kernel⟩,
  ⟨live (fun d => { d with path := { ports := [(8, { enable := true, link := true, braid := true })] }, brd := { node := 3, links := [(8, { st := .up })] } }), 8, rfl, by decide +kernel⟩,
  ⟨live (fun d => { d with path := { ports := [(8, { enable := true, link := true, braid := true })] }, brd := { node := 3, links := [(8, { st := .up })] } }), 8, rfl, by decide +kernel⟩,
  ⟨live (fun d => { d with path := { ports := [(8, { enable := true, link := true, braid := true })] }, brd := { node := 3, links := [(8, { st := .up, lease := some 0x8003, leaseTurn := 5 })] }, reel := { time := 24000 * 1024 * 1029, served := 1029 } }),
      8, 0x8003, rfl, by decide +kernel⟩,
  ⟨live (fun d => { d with path := { ports := [(8, { enable := true, link := true, braid := true })] }, brd := { node := 3, links := [(8, { st := .up })] } }), 8, rfl, by decide +kernel⟩,
  ⟨live (fun d => { d with path := { ports := [(8, { enable := true, link := true, braid := true })] }, brd := { node := 3, links := [(8, { st := .up, lost := true })] } }),
      8, rfl, by decide +kernel⟩⟩

theorem test_hypotheses_MaintenanceEvents :
    (∃ (s : State) (t : Nat), s.live ∧ s.dev.reel.served = t ∧ s.dev.slotOver t = false ∧ s.dev.reached t = true ∧ s.dev.waitsOver t = true)
    ∧ (∃ (s : State) (t : Nat) (p : Nat) (code : Nat) (res : Nat) (q : Req) (r : Req), s.live ∧ r = s.dev.actReq (.prog p) code res ∧ s.dev.reel.served = t 
      ∧ s.dev.slotOver t = false ∧ s.dev.reached t = true ∧ s.dev.waitsOver t = true ∧ s.dev.path.ports = [] ∧ s.dev.dmc.ready = false ∧ s.dev.cal.asked = [q] ∧ q.turn < t 
      ∧ q.who = .prog p ∧ q.code = code ∧ q.res = res ∧ s.dev.grantable s.dev.cal.waiting r = true)
    ∧ (∃ (s : State) (code : Nat) (res : Nat) (r : Req), s.live ∧ (s.dev.cal.waiting.find? (fun r => r.who == .device && r.code == code && r.res == res) = some r) ∧ (s.dev.grantable (s.dev.cal.waiting.takeWhile fun x => !(x.who == .device && x.code == code && x.res == res)) r = true))
    ∧ (∃ (s : State) (p : Nat) (res : Nat) (r : Req) (x : Prog), s.live ∧ (s.dev.cal.waiting.find? (fun r => r.who == .prog p && r.code == 0 && r.res == res) = some r) 
      ∧ (s.dev.grantable (s.dev.cal.waiting.takeWhile fun x => !(x.who == .prog p && x.code == 0 && x.res == res)) r = true) ∧ s.dev.prog p = some x ∧ s.dev.cal.placeQ = [])
    ∧ (∃ (s : State) (lane : Nat) (h : Hold) (bin : Nat), s.activity 0x01 lane h ∧ lane < 256 ∧ bin < 4)
    ∧ (∃ (s : State) (port : Nat) (h : Hold) (bin : Nat), s.activity 0x02 port h ∧ port < 256 ∧ bin < 4)
    ∧ (∃ (s : State) (ch : Nat) (dir : Int) (h : Hold) (bin : Nat), s.activity 0x10 ch h ∧ ch < 12 ∧ bin < 4 ∧ dir.natAbs ≤ 1)
    ∧ (∃ (s : State) (ch : Nat) (h : Hold) (bin : Nat), s.activity 0x11 ch h ∧ ch < 12 ∧ bin < 4)
    ∧ (∃ (s : State) (ch : Nat) (h : Hold), s.activity 0x12 ch h ∧ ch < 12)
    ∧ (∃ (s : State) (ch : Nat) (h : Hold), s.activity 0x12 ch h ∧ ch < 12)
    ∧ (∃ (s : State) (ch : Nat) (h : Hold), s.activity 0x13 ch h ∧ ch < 12)
    ∧ (∃ (s : State) (p : Nat) (h : Hold) (bin : Nat) (x : Nat) (xs : List Nat), s.activity 0x20 p h ∧ p < 256 ∧ bin < 4 ∧ Map.find s.dev.path.delays p = some (x :: xs))
    ∧ (∃ (s : State) (h : Hold) (tab : Nat) (first : Nat), s.activity 0x30 0 h ∧ (tab, first) = regionLine h.req.code h.req.res h.req.region)
    ∧ (∃ (s : State) (h : Hold) (tab : Nat) (first : Nat) (l : Nat), s.activity 0x30 0 h ∧ (tab, first) = regionLine h.req.code h.req.res h.req.region ∧ l < 256)
    ∧ (∃ (s : State) (h : Hold) (tab : Nat) (first : Nat), s.activity 0x31 0 h ∧ (tab, first) = regionLine h.req.code h.req.res h.req.region)
    ∧ (∃ (s : State) (h : Hold) (tab : Nat) (first : Nat) (l : Nat), s.activity 0x31 0 h ∧ (tab, first) = regionLine h.req.code h.req.res h.req.region ∧ l < 1024)
    ∧ (∃ (s : State) (lay : Nat) (h : Hold), s.activity 0x32 lay h ∧ lay < 32)
    ∧ (∃ (s : State) (lay : Nat) (h : Hold) (u : Nat) (l : Nat), s.activity 0x32 lay h ∧ lay < 32 ∧ (∀ e ∈ (s.dev.unit u).fix, e.1 ≠ l))
    ∧ (∃ (s : State) (code : Nat) (res : Nat) (h : Hold), s.live ∧ (s.dev.cal.holds.find? (fun h => h.req.code == code && h.req.res == res && h.ran) = some h) 
      ∧ h.req.who = .device ∧ s.dev.cal.placeQ = [])
    ∧ (∃ (s : State) (res : Nat) (r : Result), s.live ∧ Map.find s.dev.cal.serdes res = some r ∧ r.prov = true ∧ r.retake = false)
    ∧ (∃ (s : State) (res : Nat) (r : Result) (temp : Int), s.live ∧ Map.find s.dev.cal.dram res = some r ∧ r.retake = false ∧ 24 ≤ (temp - r.temp).natAbs) :=
  ⟨⟨live (fun d => { d with cal := { due := true }, reel := { time := 24000 * 1024 * 4096, served := 4096 } }), 4096, rfl, by decide +kernel⟩,
  ⟨live (fun d => { d with cal := { asked := [{ who := .prog 1, code := 0x10, res := 11, claims := [], turn := 5 }] }, reel := { time := 24000 * 1024 * 4096, served := 4096 } }),
      4096, 1, 0x10, 11, { who := .prog 1, code := 0x10, res := 11, claims := [], turn := 5 },
      (live (fun d => { d with cal := { asked := [{ who := .prog 1, code := 0x10, res := 11, claims := [], turn := 5 }] }, reel := { time := 24000 * 1024 * 4096, served := 4096 } })).dev.actReq (.prog 1) 0x10 11,
      rfl, (rfl), by decide +kernel⟩,
  ⟨live (fun d => { d with cal := { waiting := [⟨.device, 0x10, 11, [(.chan 11, true)], 0, 0⟩], holds := [{ req := ⟨.prog 4, 0, 0, [(.chan 3, false)], 0, 0⟩ }] } }), 0x10,
      11, ⟨.device, 0x10, 11, [(.chan 11, true)], 0, 0⟩, rfl, by decide +kernel⟩,
  ⟨splice [head 0x01 3 0 0, 77, 3] (.waiting (.activity 0 0) none) (fun d => { d with cal := { waiting := [⟨.prog 1, 0, 0, [(.chan 3, false)], 0, 0⟩] } }), 1, 0, ⟨.prog 1,
      0, 0, [(.chan 3, false)], 0, 0⟩, prog [head 0x01 3 0 0, 77, 3] (.waiting (.activity 0 0) none), rfl, by decide +kernel⟩,
  ⟨live (fun d => { d with cal := { holds := [{ req := ⟨.device, 0x01, 255, [], 0, 0⟩ }] } }), 255, { req := ⟨.device, 0x01, 255, [], 0, 0⟩ }, 3, activity_of (by decide +kernel), by decide +kernel⟩,
  ⟨live (fun d => { d with cal := { holds := [{ req := ⟨.device, 0x02, 199, [], 0, 0⟩ }] } }), 199, { req := ⟨.device, 0x02, 199, [], 0, 0⟩ }, 3, activity_of (by decide +kernel), by decide +kernel⟩,
  ⟨live (fun d => { d with cal := { holds := [{ req := ⟨.device, 0x10, 11, [], 0, 0⟩ }] } }), 11, -1, { req := ⟨.device, 0x10, 11, [], 0, 0⟩ }, 3, activity_of (by decide +kernel), by decide +kernel⟩,
  ⟨live (fun d => { d with cal := { holds := [{ req := ⟨.device, 0x11, 11, [], 0, 0⟩ }] }, dmc := { ready := true, chans := [(11, { st := 2 })] } }), 11,
      { req := ⟨.device, 0x11, 11, [], 0, 0⟩ }, 3, activity_of (by decide +kernel), by decide +kernel⟩,
  ⟨live (fun d => { d with cal := { holds := [{ req := ⟨.device, 0x12, 11, [], 0, 0⟩ }] } }), 11, { req := ⟨.device, 0x12, 11, [], 0, 0⟩ }, activity_of (by decide +kernel), by decide +kernel⟩,
  ⟨live (fun d => { d with cal := { holds := [{ req := ⟨.device, 0x12, 11, [], 0, 0⟩ }] } }), 11, { req := ⟨.device, 0x12, 11, [], 0, 0⟩ }, activity_of (by decide +kernel), by decide +kernel⟩,
  ⟨live (fun d => { d with cal := { holds := [{ req := ⟨.device, 0x13, 11, [], 0, 0⟩ }] }, dmc := { chans := [(11, { rows := [(3, ⟨4, 5, true⟩)] })] } }), 11,
      { req := ⟨.device, 0x13, 11, [], 0, 0⟩ }, activity_of (by decide +kernel), by decide +kernel⟩,
  ⟨live (fun d => { d with cal := { holds := [{ req := ⟨.device, 0x20, 199, [], 0, 0⟩ }] }, path := { delays := [(199, [500, 510])], ports := [(199, { enable := true, link := true })] } }),
      199, { req := ⟨.device, 0x20, 199, [], 0, 0⟩ }, 3, 500, [510], activity_of (by decide +kernel), by decide +kernel⟩,
  ⟨live (fun d => { d with cal := { holds := [{ req := ⟨.device, 0x30, 0, [], 0, 0⟩ }] } }), { req := ⟨.device, 0x30, 0, [], 0, 0⟩ }, 2, 0, activity_of (by decide +kernel), by decide +kernel⟩,
  ⟨live (fun d => { d with cal := { holds := [{ req := ⟨.device, 0x30, 0, [], 0, 0⟩ }] } }), { req := ⟨.device, 0x30, 0, [], 0, 0⟩ }, 2, 0, 255, activity_of (by decide +kernel), by decide +kernel⟩,
  ⟨live (fun d => { d with cal := { holds := [{ req := ⟨.device, 0x31, 0, [], 0, 0⟩ }] } }), { req := ⟨.device, 0x31, 0, [], 0, 0⟩ }, 0, 0, activity_of (by decide +kernel), by decide +kernel⟩,
  ⟨live (fun d => { d with cal := { holds := [{ req := ⟨.device, 0x31, 0, [], 0, 0⟩ }] } }), { req := ⟨.device, 0x31, 0, [], 0, 0⟩ }, 0, 0, 1023, activity_of (by decide +kernel), by decide +kernel⟩,
  ⟨live (fun d => { d with cal := { holds := [{ req := ⟨.device, 0x32, 31, [], 0, 0⟩ }] } }), 31, { req := ⟨.device, 0x32, 31, [], 0, 0⟩ }, activity_of (by decide +kernel), by decide +kernel⟩,
  ⟨live (fun d => { d with cal := { holds := [{ req := ⟨.device, 0x32, 31, [], 0, 0⟩ }] } }), 31, { req := ⟨.device, 0x32, 31, [], 0, 0⟩ }, 63, 4095,
      activity_of (by decide +kernel), by decide +kernel⟩,
  ⟨live (fun d => { d with cal := { holds := [{ req := ⟨.device, 0x10, 11, [], 0, 0⟩, ran := true, temp := 500 }] } }), 0x10, 11,
      { req := ⟨.device, 0x10, 11, [], 0, 0⟩, ran := true, temp := 500 }, rfl, by decide +kernel⟩,
  ⟨live (fun d => { d with cal := { serdes := [(199, ⟨500, 2, true, false, 9⟩)] } }), 199, ⟨500, 2, true, false, 9⟩, rfl, by decide +kernel⟩,
  ⟨live (fun d => { d with cal := { dram := [(11, ⟨500, 2, true, false, 9⟩)] } }), 11, ⟨500, 2, true, false, 9⟩, 476, rfl, by decide +kernel⟩⟩

theorem test_hypotheses_StoreCommands :
    (∃ (s : State) (q : Nat) (id : Nat) (sc : List (Nat × Nat)) (e : Desc) (c : Cmd), s.storeIs 0x40 q id sc e c ∧ s.dev.cmdStatus c (c.partsOf s.dev.sto) = stDone)
    ∧ (∃ (s : State) (q : Nat) (id : Nat) (sc : List (Nat × Nat)) (e : Desc) (c : Cmd), s.storeIs 0x40 q id sc e c ∧ s.allLocal c ∧ s.dev.cmdStatus c (c.partsOf s.dev.sto) = stDone)
    ∧ (∃ (s : State) (q : Nat) (id : Nat) (sc : List (Nat × Nat)) (e : Desc) (c : Cmd) (st : Nat), s.storeIs 0x40 q id sc e c 
      ∧ s.dev.cmdStatus c (c.partsOf s.dev.sto) = st ∧ st ≠ stDone ∧ e.done = false)
    ∧ (∃ (s : State) (q : Nat) (id : Nat) (sc : List (Nat × Nat)) (e : Desc) (c : Cmd), s.storeIs 0x41 q id sc e c ∧ s.dev.cmdStatus c (c.partsOf s.dev.sto) = stDone)
    ∧ (∃ (s : State) (q : Nat) (id : Nat) (sc : List (Nat × Nat)) (e : Desc) (c : Cmd), s.storeIs 0x41 q id sc e c ∧ s.allLocal c ∧ s.dev.cmdStatus c (c.partsOf s.dev.sto) = stDone)
    ∧ (∃ (s : State) (q : Nat) (id : Nat) (sc : List (Nat × Nat)) (e : Desc) (c : Cmd) (st : Nat), s.storeIs 0x41 q id sc e c 
      ∧ s.dev.cmdStatus c (c.partsOf s.dev.sto) = st ∧ st ≠ stDone ∧ e.done = false)
    ∧ (∃ (s : State) (q : Nat) (id : Nat) (e : Desc) (c : Cmd), s.storeIs 0x42 q id [] e c ∧ s.dev.cmdStatus c (c.partsOf s.dev.sto) = stDone)
    ∧ (∃ (s : State) (q : Nat) (id : Nat) (e : Desc) (c : Cmd), s.storeIs 0x42 q id [] e c ∧ s.allLocal c ∧ s.dev.cmdStatus c (c.partsOf s.dev.sto) = stDone)
    ∧ (∃ (s : State) (q : Nat) (id : Nat) (e : Desc) (c : Cmd) (st : Nat), s.storeIs 0x42 q id [] e c ∧ s.dev.cmdStatus c (c.partsOf s.dev.sto) = st ∧ st ≠ stDone ∧ e.done = false)
    ∧ (∃ (s : State) (q : Nat) (id : Nat) (e : Desc) (c : Cmd), s.storeIs 0x43 q id [] e c ∧ s.dev.cmdStatus c (c.partsOf s.dev.sto) = stDone)
    ∧ (∃ (s : State) (q : Nat) (id : Nat) (e : Desc) (c : Cmd), s.storeIs 0x43 q id [] e c ∧ s.allLocal c ∧ s.dev.cmdStatus c (c.partsOf s.dev.sto) = stDone)
    ∧ (∃ (s : State) (q : Nat) (id : Nat) (e : Desc) (c : Cmd) (st : Nat), s.storeIs 0x43 q id [] e c ∧ s.dev.cmdStatus c (c.partsOf s.dev.sto) = st ∧ st ≠ stDone ∧ e.done = false)
    ∧ (∃ (s : State) (q : Nat) (id : Nat) (e : Desc), s.live ∧ q < 65536 ∧ s.dev.desc q id = some e ∧ e.started = false ∧ e.done = false ∧ e.op = 0x44 
      ∧ (s.dev.qp q).kind = 2 ∧ storeDescOk e.bytes = true ∧ (∀ x ∈ (s.dev.qp q).descs, x.op ≠ 0x44 → x.done = false → bits (dw x.bytes 0) 16 16 ≠ dw e.bytes 4 % 65536))
    ∧ (∃ (s : State) (part : Nat) (code : Nat) (type : Nat) (c : Cmd) (p : Part) (t : Nat), s.live ∧ code < 256 ∧ type < 8 ∧ s.dev.partOf part = some (c, p) ∧ p.st = .issued t)
    ∧ (∃ (s : State) (part : Nat) (c : Cmd) (p : Part) (t : Nat) (q : Nat) (e : Desc), s.live ∧ s.dev.partOf part = some (c, p) ∧ p.st = .issued t ∧ c.parts = [p] 
      ∧ p.id = part ∧ (s.dev.sto.cmds.filter fun x => x.id == c.id) = [c] ∧ c.started = true ∧ c.fin = false ∧ c.aborted = false ∧ c.q = some q ∧ s.dev.desc q c.desc = some e ∧ e.done = false)
    ∧ (∃ (s : State) (part : Nat) (c : Cmd) (p : Part) (t : Nat) (g : Tgt), s.live ∧ s.dev.partOf part = some (c, p) ∧ p.st = .issued t 
      ∧ Map.find s.dev.sto.tgts p.target = some g ∧ t + g.timeout ≤ s.dev.turn)
    ∧ (∃ (s : State) (part : Nat), s.live ∧ s.dev.partOf part = none)
    ∧ (∃ (s : State) (part : Nat) (off : Nat) (data : List Byte) (c : Cmd) (p : Part) (q : Nat), s.live ∧ s.dev.partOf part = some (c, p) ∧ p.open' = true ∧ c.op = 0x40 
      ∧ off + data.length ≤ p.len * 4096 ∧ c.xts = none ∧ c.q = some q)
    ∧ (∃ (s : State) (part : Nat) (c : Cmd) (p : Part) (k : Nat), s.live ∧ s.dev.partOf part = some (c, p) ∧ c.xts = some k ∧ Map.find s.dev.she.slots k = none)
    ∧ (∃ (s : State) (part : Nat) (off : Nat) (data : List Byte) (c : Cmd) (p : Part) (q : Nat), s.live ∧ s.dev.partOf part = some (c, p) ∧ p.open' = true ∧ c.op = 0x41 
      ∧ off + data.length ≤ p.len * 4096 ∧ c.xts = none ∧ c.q = some q) :=
  ⟨⟨live (fun d => { d with hif := { qps := [(9, { st := .active, kind := 2, sqDepth := 64, cqDepth := 64, descs := [{ id := 4, bytes := dsc [5046336, 7, 9, 0, 1, 0, 4096], gen := 1 }] })] }, dmc := { ready := true }, sto := { vols := [(7, ⟨false, none, 100⟩)], exts := [(3, ⟨7, 0, 100, 5, 0⟩)], tgts := [(5, ⟨true, false, false, 0, 8, 1, 1, 0, 0, 1⟩)] } }),
      9, 4, [], { id := 4, bytes := dsc [5046336, 7, 9, 0, 1, 0, 4096], gen := 1 }, cmdOf 9 4 1 (dsc [5046336, 7, 9, 0, 1, 0, 4096]) [], storeIs_of (by decide +kernel), by decide +kernel⟩,
  ⟨live (fun d => { d with hif := { qps := [(9, { st := .active, kind := 2, sqDepth := 64, cqDepth := 64, descs := [{ id := 4, bytes := dsc [5046336, 7, 9, 0, 1, 0, 4096], gen := 1 }] })] }, dmc := { ready := true }, sto := { vols := [(7, ⟨false, none, 100⟩)], exts := [(3, ⟨7, 0, 100, 5, 0⟩)], tgts := [(5, ⟨true, false, false, 0, 8, 1, 1, 0, 0, 1⟩)] } }),
      9, 4, [], { id := 4, bytes := dsc [5046336, 7, 9, 0, 1, 0, 4096], gen := 1 }, cmdOf 9 4 1 (dsc [5046336, 7, 9, 0, 1, 0, 4096]) [], storeIs_of (by decide +kernel),
      (by unfold State.allLocal; decide +kernel), by decide +kernel⟩,
  ⟨live (fun d => { d with hif := { qps := [(9, { st := .active, kind := 2, sqDepth := 64, cqDepth := 64, descs := [{ id := 4, bytes := dsc [5046336, 7, 9, 0, 91, 0, 4096, 0], gen := 1 }] })] }, dmc := { ready := true }, sto := { vols := [(7, ⟨false, none, 100⟩)], exts := [(3, ⟨7, 0, 100, 5, 0⟩)], tgts := [(5, ⟨true, false, false, 0, 8, 1, 1, 0, 0, 1⟩)] } }),
      9, 4, [], { id := 4, bytes := dsc [5046336, 7, 9, 0, 91, 0, 4096, 0], gen := 1 }, cmdOf 9 4 1 (dsc [5046336, 7, 9, 0, 91, 0, 4096, 0]) [], stNotFound,
      storeIs_of (by decide +kernel), by decide +kernel⟩,
  ⟨live (fun d => { d with hif := { qps := [(9, { st := .active, kind := 2, sqDepth := 64, cqDepth := 64, descs := [{ id := 4, bytes := dsc [5046337, 7, 9, 0, 1, 0, 4096], gen := 1 }] })] }, dmc := { ready := true }, sto := { vols := [(7, ⟨false, none, 100⟩)], exts := [(3, ⟨7, 0, 100, 5, 0⟩)], tgts := [(5, ⟨true, false, false, 0, 8, 1, 1, 0, 0, 1⟩)] } }),
      9, 4, [], { id := 4, bytes := dsc [5046337, 7, 9, 0, 1, 0, 4096], gen := 1 }, cmdOf 9 4 1 (dsc [5046337, 7, 9, 0, 1, 0, 4096]) [], storeIs_of (by decide +kernel), by decide +kernel⟩,
  ⟨live (fun d => { d with hif := { qps := [(9, { st := .active, kind := 2, sqDepth := 64, cqDepth := 64, descs := [{ id := 4, bytes := dsc [5046337, 7, 9, 0, 1, 0, 4096], gen := 1 }] })] }, dmc := { ready := true }, sto := { vols := [(7, ⟨false, none, 100⟩)], exts := [(3, ⟨7, 0, 100, 5, 0⟩)], tgts := [(5, ⟨true, false, false, 0, 8, 1, 1, 0, 0, 1⟩)] } }),
      9, 4, [], { id := 4, bytes := dsc [5046337, 7, 9, 0, 1, 0, 4096], gen := 1 }, cmdOf 9 4 1 (dsc [5046337, 7, 9, 0, 1, 0, 4096]) [], storeIs_of (by decide +kernel),
      (by unfold State.allLocal; decide +kernel), by decide +kernel⟩,
  ⟨live (fun d => { d with hif := { qps := [(9, { st := .active, kind := 2, sqDepth := 64, cqDepth := 64, descs := [{ id := 4, bytes := dsc [5046337, 7, 9, 0, 1, 0, 4096], gen := 1 }] })] }, dmc := { ready := true }, sto := { vols := [(7, ⟨true, none, 100⟩)], exts := [(3, ⟨7, 0, 100, 5, 0⟩)], tgts := [(5, ⟨true, false, false, 0, 8, 1, 1, 0, 0, 1⟩)] } }),
      9, 4, [], { id := 4, bytes := dsc [5046337, 7, 9, 0, 1, 0, 4096], gen := 1 }, cmdOf 9 4 1 (dsc [5046337, 7, 9, 0, 1, 0, 4096]) [], stAccessErr,
      storeIs_of (by decide +kernel), by decide +kernel⟩,
  ⟨live (fun d => { d with hif := { qps := [(9, { st := .active, kind := 2, sqDepth := 64, cqDepth := 64, descs := [{ id := 4, bytes := dsc [66, 7], gen := 1 }] })] }, dmc := { ready := true }, sto := { vols := [(7, ⟨false, none, 100⟩)], exts := [(3, ⟨7, 0, 100, 5, 0⟩)], tgts := [(5, ⟨true, false, false, 0, 8, 1, 1, 0, 0, 1⟩)] } }),
      9, 4, { id := 4, bytes := dsc [66, 7], gen := 1 }, cmdOf 9 4 1 (dsc [66, 7]) [], storeIs_of (by decide +kernel), by decide +kernel⟩,
  ⟨live (fun d => { d with hif := { qps := [(9, { st := .active, kind := 2, sqDepth := 64, cqDepth := 64, descs := [{ id := 4, bytes := dsc [66, 7], gen := 1 }] })] }, dmc := { ready := true }, sto := { vols := [(7, ⟨false, none, 100⟩)], exts := [(3, ⟨7, 0, 100, 5, 0⟩)], tgts := [(5, ⟨true, false, false, 0, 8, 1, 1, 0, 0, 1⟩)] } }),
      9, 4, { id := 4, bytes := dsc [66, 7], gen := 1 }, cmdOf 9 4 1 (dsc [66, 7]) [], storeIs_of (by decide +kernel), (by unfold State.allLocal; decide +kernel), by decide +kernel⟩,
  ⟨live (fun d => { d with hif := { qps := [(9, { st := .active, kind := 2, sqDepth := 64, cqDepth := 64, descs := [{ id := 4, bytes := dsc [66, 8], gen := 1 }] })] }, dmc := { ready := true }, sto := { vols := [(7, ⟨false, none, 100⟩)], exts := [(3, ⟨7, 0, 100, 5, 0⟩)], tgts := [(5, ⟨true, false, false, 0, 8, 1, 1, 0, 0, 1⟩)] } }),
      9, 4, { id := 4, bytes := dsc [66, 8], gen := 1 }, cmdOf 9 4 1 (dsc [66, 8]) [], stNotFound, storeIs_of (by decide +kernel), by decide +kernel⟩,
  ⟨live (fun d => { d with hif := { qps := [(9, { st := .active, kind := 2, sqDepth := 64, cqDepth := 64, descs := [{ id := 4, bytes := dsc [67, 7, 9, 0, 90], gen := 1 }] })] }, dmc := { ready := true }, sto := { vols := [(7, ⟨false, none, 100⟩)], exts := [(3, ⟨7, 0, 100, 5, 0⟩)], tgts := [(5, ⟨true, false, false, 0, 8, 1, 1, 0, 0, 1⟩)] } }),
      9, 4, { id := 4, bytes := dsc [67, 7, 9, 0, 90], gen := 1 }, cmdOf 9 4 1 (dsc [67, 7, 9, 0, 90]) [], storeIs_of (by decide +kernel), by decide +kernel⟩,
  ⟨live (fun d => { d with hif := { qps := [(9, { st := .active, kind := 2, sqDepth := 64, cqDepth := 64, descs := [{ id := 4, bytes := dsc [67, 7, 9, 0, 90], gen := 1 }] })] }, dmc := { ready := true }, sto := { vols := [(7, ⟨false, none, 100⟩)], exts := [(3, ⟨7, 0, 100, 5, 0⟩)], tgts := [(5, ⟨true, false, false, 0, 8, 1, 1, 0, 0, 1⟩)] } }),
      9, 4, { id := 4, bytes := dsc [67, 7, 9, 0, 90], gen := 1 }, cmdOf 9 4 1 (dsc [67, 7, 9, 0, 90]) [], storeIs_of (by decide +kernel),
      (by unfold State.allLocal; decide +kernel), by decide +kernel⟩,
  ⟨live (fun d => { d with hif := { qps := [(9, { st := .active, kind := 2, sqDepth := 64, cqDepth := 64, descs := [{ id := 4, bytes := dsc [67, 7, 9, 0, 90], gen := 1 }] })] }, dmc := { ready := true }, sto := { vols := [(7, ⟨true, none, 100⟩)], exts := [(3, ⟨7, 0, 100, 5, 0⟩)], tgts := [(5, ⟨true, false, false, 0, 8, 1, 1, 0, 0, 1⟩)] } }),
      9, 4, { id := 4, bytes := dsc [67, 7, 9, 0, 90], gen := 1 }, cmdOf 9 4 1 (dsc [67, 7, 9, 0, 90]) [], stAccessErr, storeIs_of (by decide +kernel), by decide +kernel⟩,
  ⟨live (fun d => { d with hif := { qps := [(9, { st := .active, kind := 2, sqDepth := 64, cqDepth := 64, descs := [{ id := 4, bytes := dsc [68, 0, 0, 0, 77], gen := 1 }] })] }, dmc := { ready := true }, sto := { vols := [(7, ⟨false, none, 100⟩)], exts := [(3, ⟨7, 0, 100, 5, 0⟩)], tgts := [(5, ⟨true, false, false, 0, 8, 1, 1, 0, 0, 1⟩)] } }),
      9, 4, { id := 4, bytes := dsc [68, 0, 0, 0, 77], gen := 1 }, rfl, by decide +kernel⟩,
  ⟨live (fun d => { d with hif := { qps := [(9, { st := .active, kind := 2, sqDepth := 64, cqDepth := 64, descs := [{ id := 4, bytes := dsc [5046336, 7, 9, 0, 1, 0, 4096], gen := 1 }] })] }, sto := { vols := [(7, ⟨false, none, 100⟩)], exts := [(3, ⟨7, 0, 100, 5, 0⟩)], tgts := [(5, ⟨true, false, false, 0, 8, 1, 1, 0, 0, 1⟩)], cmds := [{ id := 1, q := some 9, desc := 4, op := 0x40, vol := 7, first := 9, blocks := 2, buf := 0x1000, started := true, parts := [{ id := 6, target := 5, first := 0, len := 2, at' := 9, st := .issued 3 }] }] }, reel := { time := 24000 * 1024 * 9, served := 9 } }),
      6, 0, 0,
      { id := 1, q := some 9, desc := 4, op := 0x40, vol := 7, first := 9, blocks := 2, buf := 0x1000, started := true, parts := [{ id := 6, target := 5, first := 0, len := 2, at' := 9, st := .issued 3 }] },
      { id := 6, target := 5, first := 0, len := 2, at' := 9, st := .issued 3 }, 3, rfl, by decide +kernel⟩,
  ⟨live (fun d => { d with hif := { qps := [(9, { st := .active, kind := 2, sqDepth := 64, cqDepth := 64, descs := [{ id := 4, bytes := dsc [5046336, 7, 9, 0, 1, 0, 4096], gen := 1 }] })] }, sto := { vols := [(7, ⟨false, none, 100⟩)], exts := [(3, ⟨7, 0, 100, 5, 0⟩)], tgts := [(5, ⟨true, false, false, 0, 8, 1, 1, 0, 0, 1⟩)], cmds := [{ id := 1, q := some 9, desc := 4, op := 0x40, vol := 7, first := 9, blocks := 2, buf := 0x1000, started := true, parts := [{ id := 6, target := 5, first := 0, len := 2, at' := 9, st := .issued 3 }] }] }, reel := { time := 24000 * 1024 * 9, served := 9 } }),
      6,
      { id := 1, q := some 9, desc := 4, op := 0x40, vol := 7, first := 9, blocks := 2, buf := 0x1000, started := true, parts := [{ id := 6, target := 5, first := 0, len := 2, at' := 9, st := .issued 3 }] },
      { id := 6, target := 5, first := 0, len := 2, at' := 9, st := .issued 3 }, 3, 9, { id := 4, bytes := dsc [5046336, 7, 9, 0, 1, 0, 4096], gen := 1 }, rfl, by decide +kernel⟩,
  ⟨live (fun d => { d with hif := { qps := [(9, { st := .active, kind := 2, sqDepth := 64, cqDepth := 64, descs := [{ id := 4, bytes := dsc [5046336, 7, 9, 0, 1, 0, 4096], gen := 1 }] })] }, sto := { vols := [(7, ⟨false, none, 100⟩)], exts := [(3, ⟨7, 0, 100, 5, 0⟩)], tgts := [(5, ⟨true, false, false, 0, 8, 1, 1, 0, 0, 1⟩)], cmds := [{ id := 1, q := some 9, desc := 4, op := 0x40, vol := 7, first := 9, blocks := 2, buf := 0x1000, started := true, parts := [{ id := 6, target := 5, first := 0, len := 2, at' := 9, st := .issued 3 }] }] }, reel := { time := 24000 * 1024 * 9, served := 9 } }),
      6,
      { id := 1, q := some 9, desc := 4, op := 0x40, vol := 7, first := 9, blocks := 2, buf := 0x1000, started := true, parts := [{ id := 6, target := 5, first := 0, len := 2, at' := 9, st := .issued 3 }] },
      { id := 6, target := 5, first := 0, len := 2, at' := 9, st := .issued 3 }, 3, ⟨true, false, false, 0, 8, 1, 1, 0, 0, 1⟩, rfl, by decide +kernel⟩,
  ⟨live id, 6, rfl, by decide +kernel⟩,
  ⟨live (fun d => { d with hif := { qps := [(9, { st := .active, kind := 2, sqDepth := 64, cqDepth := 64, descs := [{ id := 4, bytes := dsc [5046336, 7, 9, 0, 1, 0, 4096], gen := 1 }] })] }, sto := { vols := [(7, ⟨false, none, 100⟩)], exts := [(3, ⟨7, 0, 100, 5, 0⟩)], tgts := [(5, ⟨true, false, false, 0, 8, 1, 1, 0, 0, 1⟩)], cmds := [{ id := 1, q := some 9, desc := 4, op := 0x40, vol := 7, first := 9, blocks := 2, buf := 0x1000, started := true, parts := [{ id := 6, target := 5, first := 0, len := 2, at' := 9, st := .issued 3, open' := true }] }] }, reel := { time := 24000 * 1024 * 9, served := 9 } }),
      6, 8190, [1, 2],
      { id := 1, q := some 9, desc := 4, op := 0x40, vol := 7, first := 9, blocks := 2, buf := 0x1000, started := true, parts := [{ id := 6, target := 5, first := 0, len := 2, at' := 9, st := .issued 3, open' := true }] },
      { id := 6, target := 5, first := 0, len := 2, at' := 9, st := .issued 3, open' := true }, 9, rfl, by decide +kernel⟩,
  ⟨live (fun d => { d with sto := { vols := [(7, ⟨false, none, 100⟩)], exts := [(3, ⟨7, 0, 100, 5, 0⟩)], tgts := [(5, ⟨true, false, false, 0, 8, 1, 1, 0, 0, 1⟩)], cmds := [{ id := 1, q := some 9, desc := 4, op := 0x40, vol := 7, first := 9, blocks := 2, buf := 0x1000, started := true, xts := some 7, parts := [{ id := 6, target := 5, first := 0, len := 2, at' := 9, st := .issued 3 }] }] } }),
      6,
      { id := 1, q := some 9, desc := 4, op := 0x40, vol := 7, first := 9, blocks := 2, buf := 0x1000, started := true, xts := some 7, parts := [{ id := 6, target := 5, first := 0, len := 2, at' := 9, st := .issued 3 }] },
      { id := 6, target := 5, first := 0, len := 2, at' := 9, st := .issued 3 }, 7, rfl, by decide +kernel⟩,
  ⟨live (fun d => { d with hif := { qps := [(9, { st := .active, kind := 2, sqDepth := 64, cqDepth := 64, descs := [{ id := 4, bytes := dsc [5046337, 7, 9, 0, 1, 0, 4096], gen := 1 }] })] }, sto := { vols := [(7, ⟨false, none, 100⟩)], exts := [(3, ⟨7, 0, 100, 5, 0⟩)], tgts := [(5, ⟨true, false, false, 0, 8, 1, 1, 0, 0, 1⟩)], cmds := [{ id := 1, q := some 9, desc := 4, op := 0x41, vol := 7, first := 9, blocks := 2, buf := 0x1000, started := true, parts := [{ id := 6, target := 5, first := 0, len := 2, at' := 9, st := .issued 3, open' := true }] }] }, reel := { time := 24000 * 1024 * 9, served := 9 } }),
      6, 8190, [1, 2],
      { id := 1, q := some 9, desc := 4, op := 0x41, vol := 7, first := 9, blocks := 2, buf := 0x1000, started := true, parts := [{ id := 6, target := 5, first := 0, len := 2, at' := 9, st := .issued 3, open' := true }] },
      { id := 6, target := 5, first := 0, len := 2, at' := 9, st := .issued 3, open' := true }, 9, rfl, by decide +kernel⟩⟩

theorem test_hypotheses_ArchiveEvents :
    (∃ (s : State) (p : Page), s.live ∧ s.dev.nextPage = some p ∧ p.closed = true ∧ p.writing = false ∧ p.retry = none)
    ∧ (∃ (s : State), s.live ∧ s.dev.log.archVol = none)
    ∧ (∃ (s : State) (p : Page) (a : Nat) (v : Nat) (st : Nat), s.live ∧ (∀ c : Cmd, c = { id := 0, q := none, desc := p.seq, op := 0x41, vol := v, first := p.seq % ((((Map.find s.dev.sto.vols v).map (·.size)).getD 0) / 16) * 16, blocks := 16 } →
      s.dev.cmdStatus c (c.partsOf s.dev.sto) = st) ∧ s.dev.nextPage = some p ∧ p.closed = true ∧ p.writing = false ∧ p.retry = none ∧ s.dev.log.archVol = some a 
      ∧ v = p.vol.getD a ∧ 16 ≤ ((Map.find s.dev.sto.vols v).map (·.size)).getD 0 ∧ st ≠ stNotReady ∧ st ≠ stDone)
    ∧ (∃ (s : State) (seq : Nat) (p : Page), s.live ∧ (s.dev.log.pages.find? (fun p => p.seq == seq) = some p) ∧ p.done = some stDone)
    ∧ (∃ (s : State) (seq : Nat) (p : Page), s.live ∧ (s.dev.log.pages.find? (fun p => p.seq == seq) = some p) ∧ p.done = some stNotReady)
    ∧ (∃ (s : State) (seq : Nat) (p : Page) (st : Nat), s.live ∧ (s.dev.log.pages.find? (fun p => p.seq == seq) = some p) ∧ p.done = some st ∧ st ≠ stDone ∧ st ≠ stNotReady ∧ p.tries < 3)
    ∧ (∃ (s : State) (seq : Nat) (p : Page) (st : Nat), s.live ∧ (s.dev.log.pages.find? (fun p => p.seq == seq) = some p) ∧ p.done = some st ∧ st ≠ stDone ∧ st ≠ stNotReady ∧ 3 ≤ p.tries)
    ∧ (∃ (s : State) (seq : Nat) (p : Page) (t : Nat), s.live ∧ (s.dev.log.pages.find? (fun p => p.seq == seq) = some p) ∧ p.retry = some t ∧ t ≤ s.dev.turn) :=
  ⟨⟨live (fun d => { d with log := { pages := [{ seq := 8, closed := true, vol := some 7 }], archVol := some 7 }, dmc := { ready := true }, sto := { vols := [(7, ⟨false, none, 100⟩)], exts := [(3, ⟨7, 0, 100, 5, 0⟩)], tgts := [(5, ⟨true, false, false, 0, 8, 1, 1, 0, 0, 1⟩)] }, reel := { time := 24000 * 1024 * 9, served := 9 } }),
      { seq := 8, closed := true, vol := some 7 }, rfl, by decide +kernel⟩,
  ⟨live id, rfl, by decide +kernel⟩,
  ⟨live (fun d => { d with log := { pages := [{ seq := 8, closed := true, vol := some 7 }], archVol := some 7 }, dmc := { ready := true }, sto := { vols := [(7, ⟨true, none, 100⟩)], exts := [(3, ⟨7, 0, 100, 5, 0⟩)], tgts := [(5, ⟨true, false, false, 0, 8, 1, 1, 0, 0, 1⟩)] }, reel := { time := 24000 * 1024 * 9, served := 9 } }),
      { seq := 8, closed := true, vol := some 7 }, 7, 7, stAccessErr, rfl, (by intro c h; subst h; decide +kernel), by decide +kernel⟩,
  ⟨live (fun d => { d with log := { pages := [{ seq := 8, closed := true, vol := some 7, done := some stDone }] }, dmc := { ready := true }, sto := { vols := [(7, ⟨false, none, 100⟩)], exts := [(3, ⟨7, 0, 100, 5, 0⟩)], tgts := [(5, ⟨true, false, false, 0, 8, 1, 1, 0, 0, 1⟩)] }, reel := { time := 24000 * 1024 * 9, served := 9 } }),
      8, { seq := 8, closed := true, vol := some 7, done := some stDone }, rfl, by decide +kernel⟩,
  ⟨live (fun d => { d with log := { pages := [{ seq := 8, closed := true, vol := some 7, done := some stNotReady }], archVol := some 7 }, dmc := { ready := true }, sto := { vols := [(7, ⟨false, none, 100⟩)], exts := [(3, ⟨7, 0, 100, 5, 0⟩)], tgts := [(5, ⟨true, false, false, 0, 8, 1, 1, 0, 0, 1⟩)] }, reel := { time := 24000 * 1024 * 9, served := 9 } }),
      8, { seq := 8, closed := true, vol := some 7, done := some stNotReady }, rfl, by decide +kernel⟩,
  ⟨live (fun d => { d with log := { pages := [{ seq := 8, closed := true, vol := some 7, done := some stTimeout, tries := 2 }], archVol := some 7 }, dmc := { ready := true }, sto := { vols := [(7, ⟨false, none, 100⟩)], exts := [(3, ⟨7, 0, 100, 5, 0⟩)], tgts := [(5, ⟨true, false, false, 0, 8, 1, 1, 0, 0, 1⟩)] }, reel := { time := 24000 * 1024 * 9, served := 9 } }),
      8, { seq := 8, closed := true, vol := some 7, done := some stTimeout, tries := 2 }, stTimeout, rfl, by decide +kernel⟩,
  ⟨live (fun d => { d with log := { pages := [{ seq := 8, closed := true, vol := some 7, done := some stTimeout, tries := 3 }], archVol := some 7 }, dmc := { ready := true }, sto := { vols := [(7, ⟨false, none, 100⟩)], exts := [(3, ⟨7, 0, 100, 5, 0⟩)], tgts := [(5, ⟨true, false, false, 0, 8, 1, 1, 0, 0, 1⟩)] }, reel := { time := 24000 * 1024 * 9, served := 9 } }),
      8, { seq := 8, closed := true, vol := some 7, done := some stTimeout, tries := 3 }, stTimeout, rfl, by decide +kernel⟩,
  ⟨live (fun d => { d with log := { pages := [{ seq := 8, closed := true, vol := some 7, retry := some 9 }] }, dmc := { ready := true }, sto := { vols := [(7, ⟨false, none, 100⟩)], exts := [(3, ⟨7, 0, 100, 5, 0⟩)], tgts := [(5, ⟨true, false, false, 0, 8, 1, 1, 0, 0, 1⟩)] }, reel := { time := 24000 * 1024 * 9, served := 9 } }),
      8, { seq := 8, closed := true, vol := some 7, retry := some 9 }, 9, rfl, by decide +kernel⟩⟩

theorem test_hypotheses_DoorbellAndFetchEvents :
    (∃ (s : State) (q : Nat) (v : Nat), s.live ∧ q < 65536 ∧ v < 2 ^ 64 ∧ bits v 32 16 = s.dev.sliceGen (s.dev.qp q).slice ∧ (s.dev.qp q).st = .active ∧ (s.dev.qp q).prod + ahead 32 (v % 2 ^ 32) (s.dev.qp q).prod ≤ (s.dev.qp q).fetched + (s.dev.qp q).sqDepth)
    ∧ (∃ (s : State) (q : Nat) (v : Nat), s.live ∧ q < 65536 ∧ v < 2 ^ 64 ∧ bits v 32 16 = s.dev.sliceGen (s.dev.qp q).slice ∧ (s.dev.qp q).st = .active ∧ (s.dev.qp q).cqHead + ahead 32 (v % 2 ^ 32) (s.dev.qp q).cqHead ≤ (s.dev.qp q).cqWr)
    ∧ (∃ (s : State) (q : Nat) (v : Nat), s.live ∧ q < 65536 ∧ v < 2 ^ 64 ∧ bits v 32 16 ≠ s.dev.sliceGen (s.dev.qp q).slice)
    ∧ (∃ (s : State) (q : Nat) (v : Nat), s.live ∧ q < 65536 ∧ v < 2 ^ 64 ∧ bits v 32 16 = s.dev.sliceGen (s.dev.qp q).slice ∧ (s.dev.qp q).st ≠ .active)
    ∧ (∃ (s : State) (q : Nat) (v : Nat), s.live ∧ q < 65536 ∧ v < 2 ^ 64 ∧ bits v 32 16 = s.dev.sliceGen (s.dev.qp q).slice ∧ (s.dev.qp q).st = .active ∧ (s.dev.qp q).fetched + (s.dev.qp q).sqDepth < (s.dev.qp q).prod + ahead 32 (v % 2 ^ 32) (s.dev.qp q).prod)
    ∧ (∃ (s : State) (q : Nat) (v : Nat), s.live ∧ q < 65536 ∧ v < 2 ^ 64 ∧ bits v 32 16 = s.dev.sliceGen (s.dev.qp q).slice ∧ (s.dev.qp q).st = .active ∧ (s.dev.qp q).cqWr < (s.dev.qp q).cqHead + ahead 32 (v % 2 ^ 32) (s.dev.qp q).cqHead)
    ∧ (∃ (s : State) (e : Nat) (q : Nat), s.live ∧ e < 5 ∧ s.dev.engineQps e = [q] ∧ s.dev.readyBase q = true ∧ (s.dev.qp q).credit ≠ 0 
      ∧ s.dev.tagsFor q (tagService (s.dev.qp q).kind) ≠ 0 ∧ s.dev.withinLimits q = true)
    ∧ (∃ (s : State) (e : Nat) (q : Nat), s.live ∧ e < 5 ∧ s.dev.engineQps e = [q] ∧ s.dev.readyBase q = true ∧ (s.dev.qp q).credit ≠ 0 
      ∧ s.dev.tagsFor q (tagService (s.dev.qp q).kind) = 0 ∧ q ∉ s.dev.hif.tagWait)
    ∧ (∃ (s : State) (e : Nat), s.live ∧ e < 5 ∧ (∀ q ∈ s.dev.engineQps e, s.dev.readyBase q = false)) :=
  ⟨⟨live (fun d => { d with hif := { ports := [(0, { manager := true, link := .l0 }), (1, {}), (2, {}), (3, {})], qps := [(9, { st := .active, sqDepth := 64, cqDepth := 64, weight := 5, burst := 32, prod := 0xFFFFFFFF, fetched := 0xFFFFFFF0 })] } }),
      9, 2 ^ 32 + 48, rfl, by decide +kernel⟩,
  ⟨live (fun d => { d with hif := { ports := [(0, { manager := true, link := .l0 }), (1, {}), (2, {}), (3, {})], qps := [(9, { st := .active, sqDepth := 64, cqDepth := 64, weight := 5, burst := 32, cqHead := 3, cqWr := 9 })] } }),
      9, 2 ^ 32 + 9, rfl, by decide +kernel⟩,
  ⟨live (fun d => { d with hif := { ports := [(0, { manager := true, link := .l0 }), (1, {}), (2, {}), (3, {})], qps := [(9, { st := .active, sqDepth := 64, cqDepth := 64, weight := 5, burst := 32 })] } }),
      9, 2 ^ 33, rfl, by decide +kernel⟩,
  ⟨live (fun d => { d with hif := { ports := [(0, { manager := true, link := .l0 }), (1, {}), (2, {}), (3, {})], qps := [(9, { st := .idle, sqDepth := 64, cqDepth := 64, weight := 5, burst := 32 })] } }),
      9, 2 ^ 32 + 1, rfl, by decide +kernel⟩,
  ⟨live (fun d => { d with hif := { ports := [(0, { manager := true, link := .l0 }), (1, {}), (2, {}), (3, {})], qps := [(9, { st := .active, sqDepth := 64, cqDepth := 64, weight := 5, burst := 32, prod := 3, fetched := 3 })] } }),
      9, 2 ^ 32 + 68, rfl, by decide +kernel⟩,
  ⟨live (fun d => { d with hif := { ports := [(0, { manager := true, link := .l0 }), (1, {}), (2, {}), (3, {})], qps := [(9, { st := .active, sqDepth := 64, cqDepth := 64, weight := 5, burst := 32, cqHead := 3, cqWr := 9 })] } }),
      9, 2 ^ 32 + 10, rfl, by decide +kernel⟩,
  ⟨live (fun d => { d with hif := { ports := [(0, { manager := true, link := .l0 }), (1, {}), (2, {}), (3, {})], qps := [(9, { st := .active, sqDepth := 64, cqDepth := 64, weight := 5, burst := 32, prod := 3, credit := 2 })], sliceCredit := [(0, 5)] } }),
      0, 9, rfl, by decide +kernel⟩,
  ⟨live (fun d => { d with hif := { ports := [(0, { manager := true, link := .l0 }), (1, {}), (2, {}), (3, {})], qps := [(9, { st := .active, sqDepth := 64, cqDepth := 64, weight := 5, burst := 32, prod := 3, credit := 2 })], sliceCredit := [(0, 5)], tags := [(3, 4096 + 49152)] } }),
      0, 9, rfl, by decide +kernel⟩,
  ⟨live (fun d => { d with hif := { ports := [(0, { manager := true, link := .l0 }), (1, {}), (2, {}), (3, {})], qps := [(9, { st := .active, sqDepth := 64, cqDepth := 64, weight := 5, burst := 32 })] } }),
      0, rfl, by decide +kernel⟩⟩

theorem test_hypotheses_HostDescriptorEvents :
    (∃ (s : State) (q : Nat) (e : Desc), s.nextIs 0 0x10 q e ∧ plainDesc e.bytes [] = true ∧ bits (dw e.bytes 5) 3 13 = 0 ∧ 64 ≤ dw e.bytes 4 ∧ dw e.bytes 4 ≤ 9416)
    ∧ (∃ (s : State) (q : Nat) (e : Desc), s.nextIs 0 0x10 q e ∧ (plainDesc e.bytes [] = false ∨ dw e.bytes 4 < 64 ∨ 9416 < dw e.bytes 4))
    ∧ (∃ (s : State) (q : Nat) (e : Desc), s.nextIs 1 0x20 q e ∧ plainDesc e.bytes [5, 6, 7] = true ∧ 256 ≤ dw e.bytes 4 ∧ dw e.bytes 4 ≤ 65535)
    ∧ (∃ (s : State) (q : Nat) (e : Desc), s.nextIs 1 0x20 q e ∧ (plainDesc e.bytes [5, 6, 7] = false ∨ dw e.bytes 4 < 256 ∨ 65535 < dw e.bytes 4))
    ∧ (∃ (s : State) (q : Nat) (e : Desc), s.nextIs 4 0x01 q e ∧ plainDesc e.bytes [5, 6, 7] = true ∧ dq e.bytes 2 % 8 = 0 ∧ dw e.bytes 4 < 2 ^ 17)
    ∧ (∃ (s : State) (q : Nat) (e : Desc), s.nextIs 4 0x01 q e ∧ (plainDesc e.bytes [5, 6, 7] = false ∨ dq e.bytes 2 % 8 ≠ 0 ∨ 2 ^ 17 ≤ dw e.bytes 4))
    ∧ (∃ (s : State) (q : Nat) (e : Desc), s.nextIs 5 0x30 q e ∧ plainDesc e.bytes [5, 6, 7] = true ∧ dq e.bytes 2 % 8 = 0 ∧ dw e.bytes 4 % 8 = 0 ∧ 4096 ≤ dw e.bytes 4 ∧ dw e.bytes 4 ≤ 2 ^ 20)
    ∧ (∃ (s : State) (q : Nat) (e : Desc), s.nextIs 5 0x30 q e ∧ (dw e.bytes 4 < 4096 ∨ 2 ^ 20 < dw e.bytes 4))
    ∧ (∃ (s : State) (q : Nat) (c : Cpl) (rest : List Cpl), s.live ∧ q < 65536 ∧ (s.dev.qp q).nextHeld = some (c, rest) ∧ c.gen = s.dev.sliceGen (s.dev.qp q).slice 
      ∧ (s.dev.qp q).st ≠ .disabled ∧ (s.dev.qp q).st ≠ .idle ∧ (s.dev.qp q).reset = false ∧ s.dev.reachable (s.dev.qp q) = true ∧ (s.dev.qp q).cqWr - (s.dev.qp q).cqHead < (s.dev.qp q).cqDepth)
    ∧ (∃ (s : State) (q : Nat) (c : Cpl) (rest : List Cpl), s.live ∧ q < 65536 ∧ (s.dev.qp q).nextHeld = some (c, rest) ∧ c.gen ≠ s.dev.sliceGen (s.dev.qp q).slice)
    ∧ (∃ (s : State) (q : Nat) (c : Cpl) (rest : List Cpl), s.live ∧ q < 65536 ∧ (s.dev.qp q).nextHeld = some (c, rest) ∧ c.gen = s.dev.sliceGen (s.dev.qp q).slice 
      ∧ (s.dev.qp q).st = .active ∧ (s.dev.qp q).reset = false ∧ s.dev.reachable (s.dev.qp q) = true ∧ (s.dev.qp q).cqDepth ≤ (s.dev.qp q).cqWr - (s.dev.qp q).cqHead ∧ (s.dev.qp q).waited = false) :=
  ⟨⟨live (fun d => { d with hif := { qps := [(9, { st := .active, kind := 0, sqDepth := 64, cqDepth := 64, descs := [{ id := 4, bytes := dsc [16, 0, 4096, 0, 9416, 7], gen := 1 }] })] } }),
      9, { id := 4, bytes := dsc [16, 0, 4096, 0, 9416, 7], gen := 1 }, nextIs_of (by decide +kernel), by decide +kernel⟩,
  ⟨live (fun d => { d with hif := { qps := [(9, { st := .active, kind := 0, sqDepth := 64, cqDepth := 64, descs := [{ id := 4, bytes := dsc [16, 0, 4096, 0, 63, 7], gen := 1 }] })] } }),
      9, { id := 4, bytes := dsc [16, 0, 4096, 0, 63, 7], gen := 1 }, nextIs_of (by decide +kernel), by decide +kernel⟩,
  ⟨live (fun d => { d with hif := { qps := [(9, { st := .active, kind := 1, sqDepth := 64, cqDepth := 64, descs := [{ id := 4, bytes := dsc [32, 0, 4096, 0, 65535], gen := 1 }] })] } }),
      9, { id := 4, bytes := dsc [32, 0, 4096, 0, 65535], gen := 1 }, nextIs_of (by decide +kernel), by decide +kernel⟩,
  ⟨live (fun d => { d with hif := { qps := [(9, { st := .active, kind := 1, sqDepth := 64, cqDepth := 64, descs := [{ id := 4, bytes := dsc [32, 0, 4096, 0, 255], gen := 1 }] })] } }),
      9, { id := 4, bytes := dsc [32, 0, 4096, 0, 255], gen := 1 }, nextIs_of (by decide +kernel), by decide +kernel⟩,
  ⟨live (fun d => { d with hif := { qps := [(9, { st := .active, kind := 4, sqDepth := 64, cqDepth := 64, descs := [{ id := 4, bytes := dsc [1, 0, 4096, 0, 131071], gen := 1 }] })] } }),
      9, { id := 4, bytes := dsc [1, 0, 4096, 0, 131071], gen := 1 }, nextIs_of (by decide +kernel), by decide +kernel⟩,
  ⟨live (fun d => { d with hif := { qps := [(9, { st := .active, kind := 4, sqDepth := 64, cqDepth := 64, descs := [{ id := 4, bytes := dsc [1, 0, 4100, 0, 8], gen := 1 }] })] } }),
      9, { id := 4, bytes := dsc [1, 0, 4100, 0, 8], gen := 1 }, nextIs_of (by decide +kernel), by decide +kernel⟩,
  ⟨live (fun d => { d with hif := { qps := [(9, { st := .active, kind := 5, sqDepth := 64, cqDepth := 64, descs := [{ id := 4, bytes := dsc [48, 0, 4096, 0, 4096], gen := 1 }] })] } }),
      9, { id := 4, bytes := dsc [48, 0, 4096, 0, 4096], gen := 1 }, nextIs_of (by decide +kernel), by decide +kernel⟩,
  ⟨live (fun d => { d with hif := { qps := [(9, { st := .active, kind := 5, sqDepth := 64, cqDepth := 64, descs := [{ id := 4, bytes := dsc [48, 0, 4096, 0, 4088], gen := 1 }] })] } }),
      9, { id := 4, bytes := dsc [48, 0, 4096, 0, 4088], gen := 1 }, nextIs_of (by decide +kernel), by decide +kernel⟩,
  ⟨live (fun d => { d with hif := { ports := [(0, { manager := true, link := .l0 }), (1, {}), (2, {}), (3, { link := .l1 })], qps := [(9, { st := .active, sqDepth := 64, cqDepth := 64, held := [{ tag := 4, status := 0, gen := 1 }] })] } }),
      9, { tag := 4, status := 0, gen := 1 }, [], rfl, by decide +kernel⟩,
  ⟨live (fun d => { d with hif := { ports := [(0, { manager := true, link := .l0 }), (1, {}), (2, {}), (3, { link := .l1 })], qps := [(9, { st := .active, sqDepth := 64, cqDepth := 64, held := [{ tag := 4, status := 0, gen := 2 }] })] } }),
      9, { tag := 4, status := 0, gen := 2 }, [], rfl, by decide +kernel⟩,
  ⟨live (fun d => { d with hif := { ports := [(0, { manager := true, link := .l0 }), (1, {}), (2, {}), (3, { link := .l1 })], qps := [(9, { st := .active, sqDepth := 64, cqDepth := 64, held := [{ tag := 4, status := 0, gen := 1 }], cqWr := 64 })] } }),
      9, { tag := 4, status := 0, gen := 1 }, [], rfl, by decide +kernel⟩⟩

theorem test_hypotheses_HostLinkEvents :
    (∃ (s : State) (n : Nat), s.live ∧ n < 4 ∧ (s.dev.hp n).perst = false)
    ∧ (∃ (s : State) (n : Nat), s.dev.boot.held = true ∧ n < 4 ∧ (s.dev.hp n).perst = false)
    ∧ (∃ (n : Nat), n < 4)
    ∧ (∃ (s : State) (n : Nat), s.live ∧ n < 4 ∧ (s.dev.hp n).link ≠ .down)
    ∧ (∃ (s : State) (n : Nat), s.live ∧ n < 4 ∧ (s.dev.hp n).perst = false ∧ (s.dev.hp n).link ≠ .l0 ∧ bit s.dev.pwr.hpLost n = false)
    ∧ (∃ (s : State) (n : Nat), s.live ∧ n < 4 ∧ (s.dev.hp n).perst = true)
    ∧ (∃ (s : State) (k : Nat), s.live ∧ k < 32)
    ∧ (∃ (s : State) (k : Nat), s.live ∧ k < 32 ∧ (s.dev.fn k).d3 = true ∧ s.dev.fnQps k = [] ∧ (s.dev.fn k).pend = [])
    ∧ (∃ (s : State) (k : Nat) (q : Nat), s.live ∧ k < 32 ∧ (s.dev.fn k).d3 = true ∧ s.dev.fnQps k = [q] ∧ (s.dev.qp q).st ≠ .disabled ∧ (s.dev.qp q).capstan = false 
      ∧ (s.dev.qp q).fnKey = k ∧ (s.dev.qp q).held = [] ∧ (s.dev.qp q).due = true ∧ (s.dev.fn k).pend = [(s.dev.qp q).lidx] ∧ (s.dev.qp q).lidx ∉ (s.dev.fn k).masked 
      ∧ s.dev.boot.gated = false ∧ (s.dev.hp (s.dev.qp q).port).link ≠ .down)
    ∧ (∃ (s : State) (k : Nat) (v : Nat), s.live ∧ k < 32 ∧ v < 2048 ∧ v ∉ (s.dev.fn k).pend)
    ∧ (∃ (s : State) (k : Nat) (v : Nat), s.live ∧ k < 32 ∧ v < 2048 ∧ v ∈ (s.dev.fn k).pend) :=
  ⟨⟨live id, 3, rfl, by decide +kernel⟩,
  ⟨State.reset, 3, by decide +kernel⟩,
  ⟨3, by decide +kernel⟩,
  ⟨live (fun d => { d with hif := { ports := [(0, { manager := true, link := .l0 }), (1, {}), (2, {}), (3, { link := .l1 })] } }), 3, rfl, by decide +kernel⟩,
  ⟨live (fun d => { d with hif := { ports := [(0, { manager := true, link := .l0 }), (1, {}), (2, {}), (3, { link := .l1 })] } }), 3, rfl, by decide +kernel⟩,
  ⟨live (fun d => { d with hif := { ports := [(3, { perst := true })] } }), 3, rfl, by decide +kernel⟩,
  ⟨live id, 31, rfl, by decide +kernel⟩,
  ⟨live (fun d => { d with hif := { fns := [(31, { d3 := true, masked := [3] })] } }), 31, rfl, by decide +kernel⟩,
  ⟨live (fun d => { d with hif := { ports := [(0, { manager := true, link := .l0 }), (1, {}), (2, {}), (3, { link := .l1 })], fns := [(24, { d3 := true, pend := [5] })], qps := [(9, { st := .active, port := 3, lidx := 5, due := true })] } }),
      24, 9, rfl, by decide +kernel⟩,
  ⟨live (fun d => { d with hif := { fns := [(31, { masked := [2047] })] } }), 31, 2047, rfl, by decide +kernel⟩,
  ⟨live (fun d => { d with hif := { fns := [(31, { masked := [2047], pend := [2047] })] } }), 31, 2047, rfl, by decide +kernel⟩⟩

theorem test_hypotheses_RdmaEvents :
    (∃ (s : State) (c : Nat) (t : Nat), s.live ∧ c < 131072 ∧ (s.dev.conn c).st = .active ∧ (s.dev.conn c).since = some t ∧ t + (s.dev.conn c).timeout ≤ s.dev.turn ∧ (s.dev.conn c).limit ≤ (s.dev.conn c).retries)
    ∧ (∃ (s : State) (c : Nat) (t : Nat), s.live ∧ c < 131072 ∧ (s.dev.conn c).st = .active ∧ (s.dev.conn c).since = some t ∧ t + (s.dev.conn c).timeout ≤ s.dev.turn 
      ∧ (s.dev.conn c).retries < (s.dev.conn c).limit ∧ (s.dev.conn c).epoch < 0xFFFFFFFF)
    ∧ (∃ (s : State) (c : Nat) (t : Nat), s.live ∧ c < 131072 ∧ (s.dev.conn c).st = .active ∧ (s.dev.conn c).since = some t ∧ t + (s.dev.conn c).timeout ≤ s.dev.turn 
      ∧ (s.dev.conn c).limit ≤ (s.dev.conn c).retries ∧ s.dev.sto.cmds = [])
    ∧ (∃ (s : State) (c : Nat) (t : Nat), s.live ∧ c < 131072 ∧ (s.dev.conn c).since = some t ∧ s.dev.turn < t + (s.dev.conn c).timeout)
    ∧ (∃ (s : State) (p : RPkt) (enc : Bool) (fr : Nat) (rest : List (Bool × Nat)), s.live ∧ p.conn < 131072 ∧ s.dev.rdm.rx = (enc, fr) :: rest ∧ p.op ≠ .readReq ∧ ((s.dev.conn p.conn).st ≠ .active ∨ enc ≠ (s.dev.conn p.conn).encrypt))
    ∧ (∃ (s : State) (p : RPkt) (enc : Bool) (fr : Nat) (rest : List (Bool × Nat)), s.live ∧ p.conn < 131072 ∧ s.dev.rdm.rx = (enc, fr) :: rest ∧ p.op ≠ .readReq 
      ∧ (s.dev.conn p.conn).st = .active ∧ enc = (s.dev.conn p.conn).encrypt ∧ p.icrcOk = false)
    ∧ (∃ (s : State) (p : RPkt) (fr : Nat) (rest : List (Bool × Nat)), s.live ∧ p.conn < 131072 ∧ s.dev.rdm.rx = (true, fr) :: rest ∧ p.op ≠ .readReq 
      ∧ (s.dev.conn p.conn).st = .active ∧ (s.dev.conn p.conn).encrypt = true ∧ p.icrcOk = true ∧ (s.dev.conn p.conn).epochBad p = true)
    ∧ (∃ (s : State) (p : RPkt) (fr : Nat) (rest : List (Bool × Nat)), s.live ∧ p.conn < 131072 ∧ s.dev.rdm.rx = (true, fr) :: rest ∧ p.op ≠ .readReq ∧ p.op ≠ .write 
      ∧ (s.dev.conn p.conn).st = .active ∧ (s.dev.conn p.conn).encrypt = true ∧ p.icrcOk = true ∧ (s.dev.conn p.conn).epochBad p = false ∧ p.tagOk = false)
    ∧ (∃ (s : State) (p : RPkt) (fr : Nat) (rest : List (Bool × Nat)), s.live ∧ p.conn < 131072 ∧ s.dev.rdm.rx = (false, fr) :: rest ∧ p.op = .send 
      ∧ (s.dev.conn p.conn).st = .active ∧ (s.dev.conn p.conn).encrypt = false ∧ p.icrcOk = true ∧ p.ce = false ∧ psnAhead p.psn (s.dev.conn p.conn).rxPsn = 0)
    ∧ (∃ (s : State) (p : RPkt) (fr : Nat) (rest : List (Bool × Nat)), s.live ∧ p.conn < 131072 ∧ s.dev.rdm.rx = (false, fr) :: rest ∧ p.op = .send 
      ∧ (s.dev.conn p.conn).st = .active ∧ (s.dev.conn p.conn).encrypt = false ∧ p.icrcOk = true ∧ p.ce = false ∧ 0 < psnAhead p.psn (s.dev.conn p.conn).rxPsn ∧ psnAhead p.psn (s.dev.conn p.conn).rxPsn < 2 ^ 23)
    ∧ (∃ (s : State) (p : RPkt), s.live ∧ p.conn < 131072 ∧ s.dev.rdm.rx ≠ [] ∧ p.op = .readReq ∧ s.dev.tagsFor rdmaWaits 1 = 0 ∧ rdmaWaits ∉ s.dev.hif.tagWait)
    ∧ (∃ (s : State) (p : RPkt) (fr : Nat) (rest : List (Bool × Nat)) (r : RReq), s.live ∧ p.conn < 131072 ∧ s.dev.rdm.rx = (false, fr) :: rest ∧ p.op = .ack 
      ∧ p.ce = false ∧ (s.dev.conn p.conn).st = .active ∧ (s.dev.conn p.conn).encrypt = false ∧ p.icrcOk = true ∧ s.dev.sto.cmds = [] ∧ (s.dev.conn p.conn).reqs = [r] 
      ∧ (s.dev.conn p.conn).unack = r.psn ∧ r.psn < 2 ^ 24 ∧ 1 ≤ r.n ∧ r.n < 2 ^ 23 ∧ (s.dev.conn p.conn).psn = (r.psn + r.n) % 2 ^ 24 ∧ p.psn = (r.psn + r.n - 1) % 2 ^ 24)
    ∧ (∃ (s : State) (p : RPkt) (fr : Nat) (rest : List (Bool × Nat)), s.live ∧ p.conn < 131072 ∧ s.dev.rdm.rx = (false, fr) :: rest ∧ p.op = .ack ∧ p.ce = false 
      ∧ (s.dev.conn p.conn).st = .active ∧ (s.dev.conn p.conn).encrypt = false ∧ p.icrcOk = true) :=
  ⟨⟨live (fun d => { d with rdm := { set := true, count := 131072, conns := [(131071, { st := .active, since := some 5, timeout := 4, retries := 7, limit := 7 })], rx := [] }, reel := { time := 24000 * 1024 * 9, served := 9 } }),
      131071, 5, rfl, by decide +kernel⟩,
  ⟨live (fun d => { d with rdm := { set := true, count := 131072, conns := [(131071, { st := .active, since := some 5, timeout := 4, retries := 6, limit := 7, epoch := 0xFFFFFFFE, window := 5000, reqs := [{ psn := 3, n := 1, len := 9, part := 2 }] })], rx := [] }, reel := { time := 24000 * 1024 * 9, served := 9 } }),
      131071, 5, rfl, by decide +kernel⟩,
  ⟨live (fun d => { d with rdm := { set := true, count := 131072, conns := [(131071, { st := .active, since := some 5, timeout := 4, retries := 7, limit := 7 })], rx := [] }, reel := { time := 24000 * 1024 * 9, served := 9 } }),
      131071, 5, rfl, by decide +kernel⟩,
  ⟨live (fun d => { d with rdm := { set := true, count := 131072, conns := [(131071, { st := .active, since := some 6, timeout := 4 })], rx := [] }, reel := { time := 24000 * 1024 * 9, served := 9 } }),
      131071, 6, rfl, by decide +kernel⟩,
  ⟨live (fun d => { d with rdm := { set := true, count := 131072, conns := [(131071, { st := .active, encrypt := true })], rx := [(false, 9)] } }), ⟨131071, .send, 3, 4,
      true, true, false, 0, 0, 0, [1, 2]⟩, false, 9, [], rfl, by decide +kernel⟩,
  ⟨live (fun d => { d with rdm := { set := true, count := 131072, conns := [(131071, { st := .active, encrypt := true })], rx := [(true, 9)] } }), ⟨131071, .send, 3, 4,
      false, true, false, 0, 0, 0, [1, 2]⟩, true, 9, [], rfl, by decide +kernel⟩,
  ⟨live (fun d => { d with rdm := { set := true, count := 131072, conns := [(131071, { st := .active, encrypt := true, peerEpoch := 5 })], rx := [(true, 9)] } }), ⟨131071,
      .send, 3, 4, true, true, false, 0, 0, 0, [1, 2]⟩, 9, [], rfl, by decide +kernel⟩,
  ⟨live (fun d => { d with rdm := { set := true, count := 131072, conns := [(131071, { st := .active, encrypt := true, peerEpoch := 5 })], rx := [(true, 9)] } }), ⟨131071,
      .send, 3, 5, true, false, false, 0, 0, 0, [1, 2]⟩, 9, [], rfl, by decide +kernel⟩,
  ⟨live (fun d => { d with rdm := { set := true, count := 131072, conns := [(131071, { st := .active, rxPsn := 0xFFFFFF })], rx := [(false, 9)] } }), ⟨131071, .send,
      0xFFFFFF, 0, true, true, false, 0, 0, 0, [1, 2]⟩, 9, [], rfl, by decide +kernel⟩,
  ⟨live (fun d => { d with rdm := { set := true, count := 131072, conns := [(131071, { st := .active, rxPsn := 0xFFFFFF })], rx := [(false, 9)] } }), ⟨131071, .send, 3, 0,
      true, true, false, 0, 0, 0, [1, 2]⟩, 9, [], rfl, by decide +kernel⟩,
  ⟨live (fun d => { d with rdm := { set := true, count := 131072, conns := [(131071, { st := .active })], rx := [(false, 9)] }, hif := { tags := [(1, 4096 + 49152)] } }),
      ⟨131071, .readReq, 3, 0, true, true, false, 0, 0, 0, [1, 2]⟩, rfl, by decide +kernel⟩,
  ⟨live (fun d => { d with rdm := { set := true, count := 131072, conns := [(131071, { st := .active, psn := 5, unack := 3, reqs := [{ psn := 3, n := 2, len := 9, part := 2 }] })], rx := [(false, 9)] }, reel := { time := 24000 * 1024 * 9, served := 9 } }),
      ⟨131071, .ack, 4, 0, true, true, false, 0, 0, 0, [1, 2]⟩, 9, [], { psn := 3, n := 2, len := 9, part := 2 }, rfl, by decide +kernel⟩,
  ⟨live (fun d => { d with rdm := { set := true, count := 131072, conns := [(131071, { st := .active, psn := 5, unack := 3, reqs := [{ psn := 3, n := 2, len := 9, part := 2 }] })], rx := [(false, 9)] }, reel := { time := 24000 * 1024 * 9, served := 9 } }),
      ⟨131071, .ack, 4, 0, true, true, false, 0, 0, 0, [1, 2]⟩, 9, [], rfl, by decide +kernel⟩⟩

theorem test_hypotheses_CapstanCoprocessorInstructions :
    (∃ (s : State) (c : Nat) (f7 : BitVec 7), s.coreRuns c ∧ f7.toNat ≤ 2)
    ∧ (∃ (s : State) (c : Nat) (f7 : BitVec 7), s.coreRuns c ∧ 2 < f7.toNat)
    ∧ (∃ (s : State) (c : Nat) (f7 : BitVec 7), s.coreRuns c ∧ f7.toNat ≤ 1)
    ∧ (∃ (s : State) (c : Nat) (f7 : BitVec 7), s.coreRuns c ∧ 2 ≤ f7.toNat ∧ f7.toNat ≤ 3)
    ∧ (∃ (s : State) (c : Nat) (f7 : BitVec 7), s.coreRuns c ∧ 3 < f7.toNat)
    ∧ (∃ (s : State) (c : Nat) (rs2 : BitVec 5) (rs1 : BitVec 5), s.coreRuns c ∧ (4096 < (s.dev.core c).num rs1 % 4096 + bits ((s.dev.core c).num rs2) 0 8 + 1 ∨ s.dev.blocks ≤ bits ((s.dev.core c).num rs2) 18 5
      ∨ bits ((s.dev.core c).num rs2) 25 39 ≠ 0))
    ∧ (∃ (s : State) (c : Nat) (rs2 : BitVec 5) (rs1 : BitVec 5), s.coreRuns c ∧ (s.dev.core c).num rs1 % 4096 + bits ((s.dev.core c).num rs2) 0 8 + 1 ≤ 4096 
      ∧ bits ((s.dev.core c).num rs2) 18 5 < s.dev.blocks ∧ bits ((s.dev.core c).num rs2) 25 39 = 0)
    ∧ (∃ (s : State) (c : Nat) (rs2 : BitVec 5) (rs1 : BitVec 5), s.coreRuns c ∧ (s.dev.core c).num rs1 % 4096 + bits ((s.dev.core c).num rs2) 0 8 + 1 ≤ 4096 
      ∧ bits ((s.dev.core c).num rs2) 18 5 < s.dev.blocks ∧ bits ((s.dev.core c).num rs2) 25 39 = 0 ∧ (s.dev.core c).freeSlot = none)
    ∧ (∃ (s : State) (c : Nat) (rs2 : BitVec 5) (rs1 : BitVec 5) (bs : List Byte) (k : Nat) (g : Seg) (e : Dev), s.coreRuns c 
      ∧ (s.dev.core c).num rs1 % 4096 + bits ((s.dev.core c).num rs2) 0 8 + 1 ≤ 4096 ∧ bits ((s.dev.core c).num rs2) 18 5 < s.dev.blocks 
      ∧ bits ((s.dev.core c).num rs2) 25 39 = 0 ∧ (s.dev.core c).freeSlot = some k ∧ g.id = s.dev.aut.nextSeg ∧ g.owner = .query c k 
      ∧ g.shade = bits ((s.dev.core c).num rs2) 23 2 ∧ g.set = bits ((s.dev.core c).num rs2) 8 10 ∧ g.bytes = padTo (bits ((s.dev.core c).num rs2) 0 8 + 1) bs 
      ∧ g = { id := g.id, owner := g.owner, shade := g.shade, set := g.set, bytes := g.bytes, noSet := !s.dev.live.contains g.shade || !(s.dev.progSet g.shade (bits ((s.dev.core c).num rs2) 18 5)).autSets.contains g.set } ∧ (((s.dev.entered c).bump (Reg.capCRetired c)).bump (Reg.capCAquRetired c)).admitSeg (bits ((s.dev.core c).num rs2) 18 5) g = some e)
    ∧ (∃ (s : State) (c : Nat) (f7 : BitVec 7), s.coreRuns c ∧ f7 ≠ 0)
    ∧ (∃ (s : State) (c : Nat) (f7 : BitVec 7), s.coreRuns c ∧ f7 ≠ 0)
    ∧ (∃ (s : State) (c : Nat) (rs1 : BitVec 5) (w : W), s.coreRuns c ∧ Map.find (s.dev.core c).slots ((s.dev.core c).num rs1 % 8) = some (some w))
    ∧ (∃ (s : State) (c : Nat) (rs1 : BitVec 5), s.coreRuns c ∧ (∀ w, Map.find (s.dev.core c).slots ((s.dev.core c).num rs1 % 8) ≠ some (some w)))
    ∧ (∃ (s : State) (c : Nat), s.coreRuns c ∧ s.dev.she.rng = .ready)
    ∧ (∃ (s : State) (c : Nat), s.coreRuns c ∧ s.dev.she.rng ≠ .ready) :=
  ⟨⟨live (fun d => { d with cap := { cores := [(31, { running := true, x := [(1, 0x8000000000000FF0), (2, 77)] })] } }), 31, 2, coreRuns_of (by decide +kernel), by decide +kernel⟩,
  ⟨live (fun d => { d with cap := { cores := [(31, { running := true, x := [(1, 0x8000000000000FF0), (2, 77)] })] } }), 31, 3, coreRuns_of (by decide +kernel), by decide +kernel⟩,
  ⟨live (fun d => { d with cap := { cores := [(31, { running := true, x := [(1, 0x8000000000000FF0), (2, 77)] })] } }), 31, 1, coreRuns_of (by decide +kernel), by decide +kernel⟩,
  ⟨live (fun d => { d with cap := { cores := [(31, { running := true, x := [(1, 0x8000000000000FF0), (2, 77)] })] } }), 31, 3, coreRuns_of (by decide +kernel), by decide +kernel⟩,
  ⟨live (fun d => { d with cap := { cores := [(31, { running := true, x := [(1, 0x8000000000000FF0), (2, 77)] })] } }), 31, 4, coreRuns_of (by decide +kernel), by decide +kernel⟩,
  ⟨live (fun d => { d with cap := { cores := [(31, { running := true, x := [(1, 0x8000000000000FF0), (2, (16 + 2 ^ 8 * 4))] })] } }), 31, 2, 1, coreRuns_of (by decide +kernel), by decide +kernel⟩,
  ⟨live (fun d => { d with cap := { cores := [(31, { running := true, x := [(1, 0x8000000000000FF0), (2, (15 + 2 ^ 8 * 4 + 2 ^ 18 * 1))] })] } }), 31, 2, 1,
      coreRuns_of (by decide +kernel), by decide +kernel⟩,
  ⟨live (fun d => { d with cap := { cores := [(31, { running := true, x := [(1, 0x8000000000000FF0), (2, (15 + 2 ^ 8 * 4 + 2 ^ 18 * 1))], slots := (List.range 8).map fun k => (k, none) })] } }),
      31, 2, 1, coreRuns_of (by decide +kernel), by decide +kernel⟩,
  ⟨live (fun d => { d with cap := { cores := [(31, { running := true, x := [(1, 0x8000000000000FF0), (2, (15 + 2 ^ 8 * 4 + 2 ^ 18 * 1))], slots := [(0, none)] })] }, shd := [(0, { st := .current, sets := [(1, { strands := 0xFFFF, autSets := [4] })] })], lay := { lays := [(1, { strands := 0xFFFF })] } }),
      31, 2, 1, [1, 2, 3], 1, { id := 0, owner := .query 31 1, shade := 0, set := 4, bytes := padTo 16 [1, 2, 3], noSet := false },
      (((live (fun d => { d with cap := { cores := [(31, { running := true, x := [(1, 0x8000000000000FF0), (2, (15 + 2 ^ 8 * 4 + 2 ^ 18 * 1))], slots := [(0, none)] })] }, shd := [(0, { st := .current, sets := [(1, { strands := 0xFFFF, autSets := [4] })] })], lay := { lays := [(1, { strands := 0xFFFF })] } })).dev.entered 31 |>.bump (Reg.capCRetired 31) |>.bump (Reg.capCAquRetired 31)).admitSeg 1 { id := 0, owner := .query 31 1, shade := 0, set := 4, bytes := padTo 16 [1, 2, 3], noSet := false }).getD {},
      coreRuns_of (by decide +kernel), by decide +kernel⟩,
  ⟨live (fun d => { d with cap := { cores := [(31, { running := true, x := [(1, 0x8000000000000FF0), (2, (15 + 2 ^ 8 * 4 + 2 ^ 18 * 1))] })] } }), 31, 1,
      coreRuns_of (by decide +kernel), by decide +kernel⟩,
  ⟨live (fun d => { d with cap := { cores := [(31, { running := true, x := [(1, 0x8000000000000FF0), (2, 77)] })] } }), 31, 1, coreRuns_of (by decide +kernel), by decide +kernel⟩,
  ⟨live (fun d => { d with cap := { cores := [(31, { running := true, x := [(1, 0x8000000000000FF0), (2, 7)], slots := [(7, some 99)] })] } }), 31, 2, 99,
      coreRuns_of (by decide +kernel), by decide +kernel⟩,
  ⟨live (fun d => { d with cap := { cores := [(31, { running := true, x := [(1, 0x8000000000000FF0), (2, 7)] })] } }), 31, 2, coreRuns_of (by decide +kernel), (by intro w h; cases (show (none : Option (Option W)) = some (some w) from h))⟩,
  ⟨live (fun d => { d with cap := { cores := [(31, { running := true, x := [(1, 0x8000000000000FF0), (2, 7)] })] }, she := { rng := .ready } }), 31,
      coreRuns_of (by decide +kernel), by decide +kernel⟩,
  ⟨live (fun d => { d with cap := { cores := [(31, { running := true, x := [(1, 0x8000000000000FF0), (2, 7)] })] } }), 31, coreRuns_of (by decide +kernel), by decide +kernel⟩⟩

theorem test_hypotheses_CleatInstructions :
    (∃ (s : State) (c : Nat) (rs1 : BitVec 5), s.coreRuns c ∧ (s.dev.cleat ((s.dev.core c).cleatOf rs1)).holder = none)
    ∧ (∃ (s : State) (c : Nat) (rs1 : BitVec 5) (h : Holder), s.coreRuns c ∧ (s.dev.cleat ((s.dev.core c).cleatOf rs1)).holder = some h)
    ∧ (∃ (s : State) (c : Nat) (rs1 : BitVec 5), s.coreRuns c ∧ (s.dev.cleat ((s.dev.core c).cleatOf rs1)).holder = none)
    ∧ (∃ (s : State) (c : Nat) (rs1 : BitVec 5) (h : Holder), s.coreRuns c ∧ (s.dev.cleat ((s.dev.core c).cleatOf rs1)).holder = some h)
    ∧ (∃ (s : State) (c : Nat) (rs1 : BitVec 5), s.coreRuns c ∧ (s.dev.cleat ((s.dev.core c).cleatOf rs1)).holder = some (.core c) ∧ (s.dev.cleat ((s.dev.core c).cleatOf rs1)).waiters = [])
    ∧ (∃ (s : State) (c : Nat) (rs1 : BitVec 5) (h : Holder) (t : List Holder), s.coreRuns c ∧ (s.dev.cleat ((s.dev.core c).cleatOf rs1)).holder = some (.core c) ∧ (s.dev.cleat ((s.dev.core c).cleatOf rs1)).waiters = h :: t)
    ∧ (∃ (s : State) (c : Nat) (rs1 : BitVec 5), s.coreRuns c ∧ (s.dev.cleat ((s.dev.core c).cleatOf rs1)).holder ≠ some (.core c))
    ∧ (∃ (s : State) (c : Nat), s.coreRuns c)
    ∧ (∃ (s : State) (c : Nat) (n : Nat) (rd : Nat) (t : Nat), s.live ∧ c < 32 ∧ (s.dev.core c).wait = some (.cleat n rd (some t)))
    ∧ (∃ (s : State) (c : Nat), s.live ∧ c < 32 ∧ (s.dev.core c).running = true)
    ∧ (∃ (s : State) (c : Nat), s.live ∧ c < 32) :=
  ⟨⟨live (fun d => { d with cap := { cores := [(31, { running := true, x := [(1, 0x8000000000000FF0), (2, 77)] })] } }), 31, 1, coreRuns_of (by decide +kernel), by decide +kernel⟩,
  ⟨live (fun d => { d with cap := { cores := [(31, { running := true, x := [(1, 0x8000000000000FF0), (2, 9)] })], cleats := [(0x0FF0, { holder := some (.fibre 4095) })] } }),
      31, 1, .fibre 4095, coreRuns_of (by decide +kernel), by decide +kernel⟩,
  ⟨live (fun d => { d with cap := { cores := [(31, { running := true, x := [(1, 0x8000000000000FF0), (2, 0)] })] } }), 31, 1, coreRuns_of (by decide +kernel), by decide +kernel⟩,
  ⟨live (fun d => { d with cap := { cores := [(31, { running := true, x := [(1, 0x8000000000000FF0), (2, 9)] })], cleats := [(0x0FF0, { holder := some (.core 0) })] } }),
      31, 1, .core 0, coreRuns_of (by decide +kernel), by decide +kernel⟩,
  ⟨live (fun d => { d with cap := { cores := [(31, { running := true, x := [(1, 0x8000000000000FF0), (2, 9)] })], cleats := [(0x0FF0, { holder := some (.core 31) })] } }),
      31, 1, coreRuns_of (by decide +kernel), by decide +kernel⟩,
  ⟨live (fun d => { d with cap := { cores := [(31, { running := true, x := [(1, 0x8000000000000FF0), (2, 9)] })], cleats := [(0x0FF0, { holder := some (.core 31), waiters := [.fibre 135, .core 3] })] } }),
      31, 1, .fibre 135, [.core 3], coreRuns_of (by decide +kernel), by decide +kernel⟩,
  ⟨live (fun d => { d with cap := { cores := [(31, { running := true, x := [(1, 0x8000000000000FF0), (2, 9)] })], cleats := [(0x0FF0, { holder := some (.core 30) })] } }),
      31, 1, coreRuns_of (by decide +kernel), by decide +kernel⟩,
  ⟨live (fun d => { d with cap := { cores := [(31, { running := true, x := [(1, 0x8000000000000FF0), (2, 9)] })], cleats := [(0x0FF0, { holder := some (.core 30) })] } }),
      31, coreRuns_of (by decide +kernel)⟩,
  ⟨live (fun d => { d with cap := { cores := [(31, { running := true, wait := some (.cleat 9 3 (some 12)) })], cleats := [(9, { holder := some (.core 3), waiters := [.core 31] })] } }),
      31, 9, 3, 12, rfl, by decide +kernel⟩,
  ⟨live (fun d => { d with cap := { cores := [(31, { running := true, wait := some (.cleat 9 3 (some 12)) })], cleats := [(9, { holder := some (.core 3), waiters := [.core 31] })] } }),
      31, rfl, by decide +kernel⟩,
  ⟨live (fun d => { d with cap := { cores := [(31, { running := true, wait := some (.cleat 9 3 (some 12)) })], cleats := [(9, { holder := some (.core 31), waiters := [.core 4] })] } }),
      31, rfl, by decide +kernel⟩⟩

theorem test_hypotheses_LanyardInstructions :
    (∃ (s : State) (c : Nat) (rs1 : BitVec 5) (w : W) (ws : List W), s.coreRuns c ∧ (s.dev.lanyard ((s.dev.core c).lanyardOf rs1)).words = w :: ws ∧ ws.length < 7 
      ∧ (s.dev.lanyard ((s.dev.core c).lanyardOf rs1)).gets = [] ∧ (s.dev.lanyard ((s.dev.core c).lanyardOf rs1)).puts = [])
    ∧ (∃ (s : State) (c : Nat) (rs1 : BitVec 5), s.coreRuns c ∧ (s.dev.lanyard ((s.dev.core c).lanyardOf rs1)).words = [] 
      ∧ (s.dev.lanyard ((s.dev.core c).lanyardOf rs1)).gets = [] ∧ (s.dev.lanyard ((s.dev.core c).lanyardOf rs1)).puts = [] ∧ bit (Map.getD s.dev.cap.notify ((s.dev.core c).lanyardOf rs1) 0) 5 = true)
    ∧ (∃ (s : State) (c : Nat) (rs1 : BitVec 5), s.coreRuns c ∧ 8 ≤ (s.dev.lanyard ((s.dev.core c).lanyardOf rs1)).words.length)
    ∧ (∃ (s : State) (c : Nat) (rs1 : BitVec 5) (w : W) (ws : List W), s.coreRuns c ∧ (s.dev.lanyard ((s.dev.core c).lanyardOf rs1)).words = w :: ws 
      ∧ s.dev.freshWords (s.dev.lanyard ((s.dev.core c).lanyardOf rs1)) ≤ ws.length ∧ (s.dev.lanyard ((s.dev.core c).lanyardOf rs1)).gets = [] ∧ (s.dev.lanyard ((s.dev.core c).lanyardOf rs1)).puts = [])
    ∧ (∃ (s : State) (c : Nat) (rs1 : BitVec 5), s.coreRuns c ∧ (s.dev.lanyard ((s.dev.core c).lanyardOf rs1)).words = [])
    ∧ (∃ (s : State) (c : Nat) (rs1 : BitVec 5) (w : W) (ws : List W), s.coreRuns c ∧ (s.dev.lanyard ((s.dev.core c).lanyardOf rs1)).words = w :: ws ∧ ws.length < s.dev.freshWords (s.dev.lanyard ((s.dev.core c).lanyardOf rs1)))
    ∧ (∃ (s : State) (c : Nat) (rs1 : BitVec 5), s.coreRuns c ∧ 8 ≤ (s.dev.lanyard ((s.dev.core c).lanyardOf rs1)).words.length ∧ (s.dev.lanyard ((s.dev.core c).lanyardOf rs1)).gets = [])
    ∧ (∃ (s : State) (c : Nat) (rs1 : BitVec 5) (w : W) (ws : List W), s.coreRuns c ∧ (s.dev.lanyard ((s.dev.core c).lanyardOf rs1)).words = w :: ws ∧ ws.length < 7 
      ∧ (s.dev.lanyard ((s.dev.core c).lanyardOf rs1)).gets = [] ∧ (s.dev.lanyard ((s.dev.core c).lanyardOf rs1)).puts = [])
    ∧ (∃ (s : State) (c : Nat) (rs1 : BitVec 5), s.coreRuns c ∧ (s.dev.lanyard ((s.dev.core c).lanyardOf rs1)).words = [] ∧ (s.dev.lanyard ((s.dev.core c).lanyardOf rs1)).puts = [])
    ∧ (∃ (s : State) (c : Nat) (rs1 : BitVec 5) (w : W) (ws : List W), s.coreRuns c ∧ (s.dev.lanyard ((s.dev.core c).lanyardOf rs1)).words = w :: ws 
      ∧ (s.dev.lanyard ((s.dev.core c).lanyardOf rs1)).gets = [] ∧ (s.dev.lanyard ((s.dev.core c).lanyardOf rs1)).puts = [])
    ∧ (∃ (s : State) (c : Nat) (l : Nat), s.coreRuns c ∧ l < 1024) :=
  ⟨⟨live (fun d => { d with cap := { cores := [(31, { running := true, x := [(1, 0x8000000000000FF0), (2, 9)] })], lanyards := [(1008, { words := [1, 2, 3, 4, 5, 6, 7] })] } }),
      31, 1, 1, [2, 3, 4, 5, 6, 7], coreRuns_of (by decide +kernel), by decide +kernel⟩,
  ⟨live (fun d => { d with cap := { cores := [(31, { running := true, x := [(1, 0x8000000000000FF0), (2, 9)] })], notify := [(1008, 37)] } }), 31, 1,
      coreRuns_of (by decide +kernel), by decide +kernel⟩,
  ⟨live (fun d => { d with cap := { cores := [(31, { running := true, x := [(1, 0x8000000000000FF0), (2, 9)] })], lanyards := [(1008, { words := [1, 2, 3, 4, 5, 6, 7, 8] })] } }),
      31, 1, coreRuns_of (by decide +kernel), by decide +kernel⟩,
  ⟨live (fun d => { d with cap := { cores := [(31, { running := true, x := [(1, 0x8000000000000FF0), (2, 9)] })], lanyards := [(1008, { words := [1, 2, 3, 4, 5, 6, 7, 8] })] } }),
      31, 1, 1, [2, 3, 4, 5, 6, 7, 8], coreRuns_of (by decide +kernel), by decide +kernel⟩,
  ⟨live (fun d => { d with cap := { cores := [(31, { running := true, x := [(1, 0x8000000000000FF0), (2, 77)] })] } }), 31, 1, coreRuns_of (by decide +kernel), by decide +kernel⟩,
  ⟨live (fun d => { d with cap := { cores := [(31, { running := true, x := [(1, 0x8000000000000FF0), (2, 9)] })], lanyards := [(1008, { words := [1], fresh := (0, 1) })] } }),
      31, 1, 1, [], coreRuns_of (by decide +kernel), by decide +kernel⟩,
  ⟨live (fun d => { d with cap := { cores := [(31, { running := true, x := [(1, 0x8000000000000FF0), (2, 9)] })], lanyards := [(1008, { words := [1, 2, 3, 4, 5, 6, 7, 8] })] } }),
      31, 1, coreRuns_of (by decide +kernel), by decide +kernel⟩,
  ⟨live (fun d => { d with cap := { cores := [(31, { running := true, x := [(1, 0x8000000000000FF0), (2, 9)] })], lanyards := [(1008, { words := [1, 2, 3, 4, 5, 6, 7] })] } }),
      31, 1, 1, [2, 3, 4, 5, 6, 7], coreRuns_of (by decide +kernel), by decide +kernel⟩,
  ⟨live (fun d => { d with cap := { cores := [(31, { running := true, x := [(1, 0x8000000000000FF0), (2, 77)] })] } }), 31, 1, coreRuns_of (by decide +kernel), by decide +kernel⟩,
  ⟨live (fun d => { d with cap := { cores := [(31, { running := true, x := [(1, 0x8000000000000FF0), (2, 9)] })], lanyards := [(1008, { words := [1, 2] })] } }), 31, 1, 1,
      [2], coreRuns_of (by decide +kernel), by decide +kernel⟩,
  ⟨live (fun d => { d with cap := { cores := [(31, { running := true, x := [(1, 0x8000000000000FF0), (2, 77)] })] } }), 31, 1023, coreRuns_of (by decide +kernel), by decide +kernel⟩⟩

theorem test_hypotheses_PhysicalMemory :
    (∃ (s : State) (c : Nat), s.coreRuns c ∧ s.dev.dmc.ready = true ∧ s.dev.cap.mode = .flat)
    ∧ (∃ (s : State) (c : Nat), s.coreRuns c ∧ s.dev.dmc.ready = false)
    ∧ (∃ (s : State) (c : Nat), s.coreRuns c ∧ s.dev.dmc.ready = true ∧ s.dev.cap.mode ≠ .flat)
    ∧ (∃ (s : State), s.live ∧ s.memWf = true ∧ s.dev.cap.mode = .switching ∧ (∀ e ∈ s.dev.mem.flat, e.1 < flatSize))
    ∧ (∃ (s : State), s.live ∧ s.dev.cap.mode ≠ .switching)
    ∧ (∃ (d : Dev) (a : Nat) (bs : List Byte) (b : Nat), (∀ i < bs.length, d.physOff (a + i) ≠ d.physOff b))
    ∧ (∃ (d : Dev) (a : Nat), Memory.wf d.mem.flat = true ∧ flatBase ≤ a ∧ a < flatBase + flatSize ∧ d.cap.mode ≠ .cache) :=
  ⟨⟨live (fun d => { d with cap := { cores := [(31, { running := true, x := [(1, 0x8000000000000FF0), (2, 9)] })] }, dmc := { ready := true } }), 31,
      coreRuns_of (by decide +kernel), by decide +kernel⟩,
  ⟨live (fun d => { d with cap := { cores := [(31, { running := true, x := [(1, 0x8000000000000FF0), (2, 77)] })] } }), 31, coreRuns_of (by decide +kernel), by decide +kernel⟩,
  ⟨live (fun d => { d with cap := { cores := [(31, { running := true })], mode := .cache }, dmc := { ready := true } }), 31, coreRuns_of (by decide +kernel), by decide +kernel⟩,
  ⟨live (fun d => { d with cap := { mode := .switching }, mem := { flat := [(5, 7), (0x1FFFFFF, 9)], dram := [(5, 3)] } }), rfl, by decide +kernel⟩,
  ⟨live id, rfl, by decide +kernel⟩,
  ⟨(live id).dev, 0x10000000, [1, 2], 0x10000002, by decide +kernel⟩,
  ⟨(live id).dev, 0x11FFFFFF, by decide +kernel⟩⟩

theorem test_hypotheses_DirectoryRequests :
    (∃ (s : State) (c : Nat) (ln : Nat), s.live ∧ c < 32 ∧ s.dev.canMiss c ln = true ∧ s.dev.l2Full c = false ∧ s.dev.cap.dir.length < 1048576 
      ∧ Map.find s.dev.cap.txns ln = none ∧ s.dev.dirEnt ln = {})
    ∧ (∃ (s : State) (c : Nat) (ln : Nat), s.live ∧ c < 32 ∧ s.dev.canMiss c ln = true ∧ s.dev.l2Full c = false ∧ s.dev.cap.dir.length < 1048576 
      ∧ Map.find s.dev.cap.txns ln = none ∧ (s.dev.dirEnt ln).owner = none ∧ (s.dev.dirEnt ln).sharers ≠ [])
    ∧ (∃ (s : State) (c : Nat) (ln : Nat) (o : Nat), s.live ∧ c < 32 ∧ s.dev.canMiss c ln = true ∧ s.dev.l2Full c = false ∧ s.dev.cap.dir.length < 1048576 
      ∧ Map.find s.dev.cap.txns ln = none ∧ (s.dev.dirEnt ln).owner = some o ∧ o ≠ c)
    ∧ (∃ (s : State) (c : Nat) (ln : Nat), s.live ∧ c < 32 ∧ s.dev.canMiss c ln = true ∧ s.dev.l2Full c = false ∧ s.dev.cap.dir.length < 1048576 
      ∧ Map.find s.dev.cap.txns ln = none ∧ (s.dev.dirEnt ln).holders.filter (· != c) = [])
    ∧ (∃ (s : State) (c : Nat) (ln : Nat), s.live ∧ c < 32 ∧ s.dev.canMiss c ln = true ∧ s.dev.l2Full c = false ∧ s.dev.cap.dir.length < 1048576 
      ∧ Map.find s.dev.cap.txns ln = none ∧ (s.dev.dirEnt ln).holders.filter (· != c) ≠ [])
    ∧ (∃ (s : State) (c : Nat), s.live ∧ c < 32 ∧ s.dev.l2Full c = true)
    ∧ (∃ (s : State) (c : Nat) (ln : Nat) (v : Nat) (x : L2Line), s.live ∧ c < 32 ∧ s.dev.canMiss c ln = true ∧ s.dev.cap.dir.length < 1048576 
      ∧ Map.find (s.dev.core c).l2 v = some x ∧ s.dev.asked v c = false ∧ (s.dev.core c).evb.length < 16 ∧ Map.find s.dev.cap.txns ln = none ∧ s.dev.dirEnt ln = {})
    ∧ (∃ (s : State) (c : Nat) (ln : Nat) (v : Nat) (x : L2Line), s.live ∧ c < 32 ∧ s.dev.canMiss c ln = true ∧ s.dev.cap.dir.length < 1048576 
      ∧ Map.find (s.dev.core c).l2 v = some x ∧ s.dev.asked v c = false ∧ 16 ≤ (s.dev.core c).evb.length)
    ∧ (∃ (s : State) (c : Nat) (ln : Nat) (b : Nat), s.live ∧ c < 32 ∧ s.dev.canMiss c ln = true ∧ s.dev.l2Full c = false ∧ Map.find s.dev.cap.txns ln = none 
      ∧ s.dev.dirEnt ln = {} ∧ b ≠ ln ∧ (Map.find s.dev.cap.dir b).isSome = true ∧ Map.find s.dev.cap.txns b = none ∧ (s.dev.dirEnt b).holders ≠ [])
    ∧ (∃ (s : State) (c : Nat) (ln : Nat) (x : L2Line), s.live ∧ c < 32 ∧ s.dev.lineOk ln = true ∧ Map.find (s.dev.core c).l2 ln = some x ∧ x.st = .s 
      ∧ s.dev.asked ln c = false ∧ Map.find s.dev.cap.txns ln = none ∧ s.dev.dirEnt ln = { owner := none, sharers := [c] })
    ∧ (∃ (s : State) (c : Nat) (ln : Nat) (x : L2Line), s.live ∧ c < 32 ∧ s.dev.lineOk ln = true ∧ Map.find (s.dev.core c).l2 ln = some x ∧ x.st = .s 
      ∧ s.dev.asked ln c = false ∧ Map.find s.dev.cap.txns ln = none ∧ (s.dev.dirEnt ln).holders.filter (· != c) ≠ [])
    ∧ (∃ (s : State) (a : Nat) (ln : Nat), s.live ∧ a < 4 ∧ s.dev.lineOk ln = true ∧ Map.find s.dev.cap.txns ln = none ∧ (s.dev.dirEnt ln).owner = none)
    ∧ (∃ (s : State) (a : Nat) (ln : Nat) (o : Nat), s.live ∧ a < 4 ∧ s.dev.lineOk ln = true ∧ Map.find s.dev.cap.txns ln = none ∧ (s.dev.dirEnt ln).owner = some o)
    ∧ (∃ (s : State) (a : Nat) (ln : Nat) (t : Txn), s.live ∧ a < 4 ∧ s.dev.lineOk ln = true ∧ Map.find s.dev.cap.txns ln = some t)
    ∧ (∃ (s : State) (a : Nat) (ln : Nat) (mask : Nat), s.live ∧ s.memWf = true ∧ a < 4 ∧ mask < 2 ^ 64 ∧ s.dev.lineOk ln = true ∧ Map.find s.dev.cap.txns ln = none 
      ∧ s.dev.dirEnt ln = {} ∧ (mask = fullMask ∨ s.dev.poisoned ln = false))
    ∧ (∃ (s : State) (a : Nat) (ln : Nat) (mask : Nat), s.live ∧ a < 4 ∧ mask < fullMask ∧ s.dev.lineOk ln = true ∧ Map.find s.dev.cap.txns ln = none ∧ s.dev.dirEnt ln = {} ∧ s.dev.poisoned ln = true)
    ∧ (∃ (s : State) (a : Nat) (ln : Nat) (mask : Nat), s.live ∧ a < 4 ∧ mask < 2 ^ 64 ∧ s.dev.lineOk ln = true ∧ Map.find s.dev.cap.txns ln = none ∧ (s.dev.dirEnt ln).holders ≠ []) :=
  ⟨⟨live (fun d => { d with cap := { mode := .cache }, dmc := { ready := true, capacity := 2 ^ 30 } }), 31, 2 ^ 24 - 1, rfl, by decide +kernel⟩,
  ⟨live (fun d => { d with cap := { mode := .cache, dir := [(9, { sharers := [3] })] }, dmc := { ready := true, capacity := 2 ^ 30 } }), 31, 9, rfl, by decide +kernel⟩,
  ⟨live (fun d => { d with cap := { mode := .cache, dir := [(9, { owner := some 3 })] }, dmc := { ready := true, capacity := 2 ^ 30 } }), 31, 9, 3, rfl, by decide +kernel⟩,
  ⟨live (fun d => { d with cap := { mode := .cache, dir := [(9, { sharers := [31] })] }, dmc := { ready := true, capacity := 2 ^ 30 } }), 31, 9, rfl, by decide +kernel⟩,
  ⟨live (fun d => { d with cap := { mode := .cache, dir := [(9, { sharers := [3, 5] })] }, dmc := { ready := true, capacity := 2 ^ 30 } }), 31, 9, rfl, by decide +kernel⟩,
  ⟨live (fun d => { d with cap := { mode := .cache, cores := [(31, { l2 := (List.range 16384).map fun k => (k + 100, ⟨.s, []⟩) })] }, dmc := { ready := true, capacity := 2 ^ 30 } }),
      31, rfl, by decide +kernel⟩,
  ⟨live (fun d => { d with cap := { mode := .cache, cores := [(31, { l2 := [(8, ⟨.m, List.replicate 64 7⟩)] })] }, dmc := { ready := true, capacity := 2 ^ 30 } }), 31, 9,
      8, ⟨.m, List.replicate 64 7⟩, rfl, by decide +kernel⟩,
  ⟨live (fun d => { d with cap := { mode := .cache, cores := [(31, { l2 := [(8, ⟨.m, List.replicate 64 7⟩)], evb := List.replicate 16 { line := 99, dirty := none } })] }, dmc := { ready := true, capacity := 2 ^ 30 } }),
      31, 9, 8, ⟨.m, List.replicate 64 7⟩, rfl, by decide +kernel⟩,
  ⟨live (fun d => { d with cap := { mode := .cache, dir := [(8, { sharers := [3, 5] })] }, dmc := { ready := true, capacity := 2 ^ 30 } }), 31, 9, 8, rfl, by decide +kernel⟩,
  ⟨live (fun d => { d with cap := { mode := .cache, cores := [(31, { l2 := [(9, ⟨.s, List.replicate 64 7⟩)] })], dir := [(9, { sharers := [31] })] }, dmc := { ready := true, capacity := 2 ^ 30 } }),
      31, 9, ⟨.s, List.replicate 64 7⟩, rfl, by decide +kernel⟩,
  ⟨live (fun d => { d with cap := { mode := .cache, cores := [(31, { l2 := [(9, ⟨.s, List.replicate 64 7⟩)] })], dir := [(9, { sharers := [31, 4] })] }, dmc := { ready := true, capacity := 2 ^ 30 } }),
      31, 9, ⟨.s, List.replicate 64 7⟩, rfl, by decide +kernel⟩,
  ⟨live (fun d => { d with cap := { mode := .cache, dir := [(9, { sharers := [3] })] }, dmc := { ready := true, capacity := 2 ^ 30 } }), 3, 9, rfl, by decide +kernel⟩,
  ⟨live (fun d => { d with cap := { mode := .cache, dir := [(9, { owner := some 4 })] }, dmc := { ready := true, capacity := 2 ^ 30 } }), 3, 9, 4, rfl, by decide +kernel⟩,
  ⟨live (fun d => { d with cap := { mode := .cache, txns := [(9, { req := .shared 4, wait := [3] })] }, dmc := { ready := true, capacity := 2 ^ 30 } }), 3, 9,
      { req := .shared 4, wait := [3] }, rfl, by decide +kernel⟩,
  ⟨live (fun d => { d with cap := { mode := .cache }, dmc := { ready := true, capacity := 2 ^ 30 }, mem := { dram := [(576, 9), (577, 9)] } }), 3, 9, 2 ^ 63 + 1, rfl, by decide +kernel⟩,
  ⟨live (fun d => { d with cap := { mode := .cache }, dmc := { ready := true, capacity := 2 ^ 30, poison := [(live (fun d => { d with cap := { mode := .cache }, dmc := { ready := true, capacity := 2 ^ 30 } })).dev.lineKey' 9] } }),
      3, 9, 2 ^ 63 + 1, rfl, by decide +kernel⟩,
  ⟨live (fun d => { d with cap := { mode := .cache, dir := [(9, { sharers := [3, 5] })] }, dmc := { ready := true, capacity := 2 ^ 30 } }), 3, 9, 2 ^ 63 + 1, rfl, by decide +kernel⟩⟩

theorem test_hypotheses_CoherenceMessages :
    (∃ (s : State) (c : Nat) (ln : Nat) (r : CMsg × List CMsg) (x : L2Line), s.live ∧ c < 32 
      ∧ (s.dev.cap.msgs.any (fun m => m.core == c && m.line == ln && (match m.kind with | .data _ => true | _ => false)) = false) 
      ∧ (takeMsg (fun m => m.kind == .snpShared && m.core == c && m.line == ln) s.dev.cap.msgs = some r) ∧ Map.find (s.dev.core c).l2 ln = some x)
    ∧ (∃ (s : State) (c : Nat) (ln : Nat) (r : CMsg × List CMsg) (x : L2Line), s.live ∧ c < 32 
      ∧ (s.dev.cap.msgs.any (fun m => m.core == c && m.line == ln && (match m.kind with | .data _ => true | _ => false)) = false) 
      ∧ (takeMsg (fun m => m.kind == .snpInv && m.core == c && m.line == ln) s.dev.cap.msgs = some r) ∧ Map.find (s.dev.core c).l2 ln = some x)
    ∧ (∃ (s : State) (c : Nat) (ln : Nat) (r : CMsg × List CMsg) (e : Evb), s.live ∧ c < 32 
      ∧ (s.dev.cap.msgs.any (fun m => m.core == c && m.line == ln && (match m.kind with | .data _ => true | _ => false)) = false) 
      ∧ (takeMsg (fun m => m.kind == .snpInv && m.core == c && m.line == ln) s.dev.cap.msgs = some r) ∧ Map.find (s.dev.core c).l2 ln = none ∧ (s.dev.core c).evb.find? (fun e => e.line == ln && e.dirty.isSome && !e.taken) = some e)
    ∧ (∃ (s : State) (c : Nat) (ln : Nat) (r : CMsg × List CMsg), s.live ∧ c < 32 
      ∧ (s.dev.cap.msgs.any (fun m => m.core == c && m.line == ln && (match m.kind with | .data _ => true | _ => false)) = false) 
      ∧ (takeMsg (fun m => m.kind == .snpShared && m.core == c && m.line == ln) s.dev.cap.msgs = some r) ∧ Map.find (s.dev.core c).l2 ln = none ∧ (s.dev.core c).evb = [])
    ∧ (∃ (s : State) (c : Nat) (ln : Nat) (k : Nat) (bs : List Byte) (r : CMsg × List CMsg) (t : Txn), s.live ∧ s.memWf = true ∧ c < 32 
      ∧ (takeMsg (fun m => m.kind == .ack && m.core == c && m.line == ln) s.dev.cap.msgs = some r) ∧ r.1.data = some bs ∧ bs.length = 64 ∧ Map.find s.dev.cap.txns ln = some t 
      ∧ t.req = .shared k ∧ t.wait = [c] ∧ t.queue = [] ∧ t.held = none ∧ s.dev.dirEnt ln = { owner := some c, sharers := [] })
    ∧ (∃ (s : State) (c : Nat) (ln : Nat) (k : Nat) (r : CMsg × List CMsg) (t : Txn), s.live ∧ c < 32 
      ∧ (takeMsg (fun m => m.kind == .ack && m.core == c && m.line == ln) s.dev.cap.msgs = some r) ∧ Map.find s.dev.cap.txns ln = some t ∧ t.wait = [c] ∧ t.queue = [] 
      ∧ t.data = none ∧ t.held = none ∧ t.req = .unique k)
    ∧ (∃ (s : State) (c : Nat) (ln : Nat) (k : Nat) (r : CMsg × List CMsg) (t : Txn), s.live ∧ c < 32 
      ∧ (takeMsg (fun m => m.kind == .ack && m.core == c && m.line == ln) s.dev.cap.msgs = some r) ∧ Map.find s.dev.cap.txns ln = some t ∧ t.wait = [c] ∧ t.queue = [] 
      ∧ t.data = none ∧ t.held = none ∧ t.req = .upgrade k ∧ k ∉ (s.dev.dirEnt ln).sharers)
    ∧ (∃ (s : State) (c : Nat) (ln : Nat) (r : CMsg × List CMsg) (t : Txn), s.live ∧ c < 32 
      ∧ (takeMsg (fun m => m.kind == .ack && m.core == c && m.line == ln) s.dev.cap.msgs = some r) ∧ Map.find s.dev.cap.txns ln = some t ∧ t.wait.filter (· != c) ≠ [])
    ∧ (∃ (s : State) (c : Nat) (ln : Nat) (k : Nat) (r : CMsg × List CMsg) (t : Txn), s.live ∧ c < 32 
      ∧ (takeMsg (fun m => m.kind == .miss && m.core == c && m.line == ln) s.dev.cap.msgs = some r) ∧ Map.find s.dev.cap.txns ln = some t ∧ t.wait = [c] ∧ t.queue = [] 
      ∧ t.data = none ∧ t.held = none ∧ t.fromBuf = false ∧ t.req = .shared k ∧ s.dev.dirEnt ln = { owner := some c, sharers := [] })
    ∧ (∃ (s : State) (c : Nat) (ln : Nat) (r : CMsg × List CMsg) (t : Txn), s.live ∧ c < 32 
      ∧ (takeMsg (fun m => m.kind == .miss && m.core == c && m.line == ln) s.dev.cap.msgs = some r) ∧ Map.find s.dev.cap.txns ln = some t ∧ t.wait.filter (· != c) ≠ [])
    ∧ (∃ (s : State) (c : Nat) (ln : Nat) (k : Nat) (bs : List Byte) (r : CMsg × List CMsg) (t : Txn), s.live ∧ c < 32 
      ∧ (takeMsg (fun m => m.kind == .evicting && m.core == c && m.line == ln) s.dev.cap.msgs = some r) ∧ Map.find s.dev.cap.txns ln = some t ∧ t.wait = [c] ∧ t.queue = [] 
      ∧ r.1.data = some bs ∧ t.req = .unique k)
    ∧ (∃ (s : State) (c : Nat) (ln : Nat) (k : Nat) (bs : List Byte) (r : CMsg × List CMsg) (t : Txn), s.live ∧ s.memWf = true ∧ c < 32 
      ∧ (takeMsg (fun m => m.kind == .evicting && m.core == c && m.line == ln) s.dev.cap.msgs = some r) ∧ Map.find s.dev.cap.txns ln = some t ∧ t.wait = [c] ∧ t.queue = [] 
      ∧ r.1.data = some bs ∧ bs.length = 64 ∧ t.req = .shared k ∧ s.dev.dirEnt ln = { owner := some c, sharers := [] })
    ∧ (∃ (s : State) (c : Nat) (ln : Nat) (a : Nat) (mask : Nat) (new : List Byte) (bs : List Byte) (r : CMsg × List CMsg) (t : Txn), s.live ∧ s.memWf = true ∧ c < 32 
      ∧ (takeMsg (fun m => m.kind == .evicting && m.core == c && m.line == ln) s.dev.cap.msgs = some r) ∧ Map.find s.dev.cap.txns ln = some t ∧ t.wait = [c] ∧ t.queue = [] 
      ∧ r.1.data = some bs ∧ t.req = .ioWrite a mask new)
    ∧ (∃ (s : State) (c : Nat) (ln : Nat) (r : CMsg × List CMsg) (t : Txn), s.live ∧ c < 32 
      ∧ (takeMsg (fun m => m.kind == .evicting && m.core == c && m.line == ln) s.dev.cap.msgs = some r) ∧ Map.find s.dev.cap.txns ln = some t ∧ t.wait.filter (· != c) ≠ [])
    ∧ (∃ (s : State) (c : Nat) (ln : Nat) (r : CMsg × List CMsg) (st : LSt), s.live ∧ c < 32 
      ∧ (takeMsg (fun m => (match m.kind with | .data _ => true | _ => false) && m.core == c && m.line == ln) s.dev.cap.msgs = some r) ∧ r.1.kind = .data st)
    ∧ (∃ (s : State) (c : Nat) (ln : Nat) (r : CMsg × List CMsg), s.live ∧ c < 32 ∧ (takeMsg (fun m => (match m.kind with | .evictAck _ => true | _ => false) && m.core == c && m.line == ln) s.dev.cap.msgs = some r))
    ∧ (∃ (s : State) (c : Nat) (ln : Nat) (e : Evb) (bs : List Byte), s.live ∧ s.memWf = true ∧ c < 32 ∧ s.dev.evicted c ln true = some e ∧ e.dirty = some bs 
      ∧ bs.length = 64 ∧ e.taken = false ∧ Map.find s.dev.cap.txns ln = none)
    ∧ (∃ (s : State) (c : Nat) (ln : Nat) (e : Evb), s.live ∧ c < 32 ∧ s.dev.evicted c ln true = some e ∧ e.taken = true ∧ Map.find s.dev.cap.txns ln = none)
    ∧ (∃ (s : State) (c : Nat) (ln : Nat) (e : Evb) (t : Txn), s.live ∧ c < 32 ∧ s.dev.evicted c ln true = some e ∧ Map.find s.dev.cap.txns ln = some t ∧ c ∈ t.wait)
    ∧ (∃ (s : State) (c : Nat) (ln : Nat) (e : Evb), s.live ∧ c < 32 ∧ s.dev.evicted c ln false = some e ∧ Map.find s.dev.cap.txns ln = none ∧ c ∈ (s.dev.dirEnt ln).holders)
    ∧ (∃ (s : State) (c : Nat) (ln : Nat) (e : Evb), s.live ∧ c < 32 ∧ s.dev.evicted c ln false = some e ∧ c ∉ (s.dev.dirEnt ln).holders) :=
  ⟨⟨live (fun d => { d with cap := { mode := .cache, msgs := [{ kind := .ack, core := 4, line := 9, data := none }, { kind := .snpShared, core := 31, line := 9, data := none }], cores := [(31, { l2 := [(9, ⟨.e, List.replicate 64 7⟩)] })] }, dmc := { ready := true, capacity := 2 ^ 30 } }),
      31, 9, ({ kind := .snpShared, core := 31, line := 9, data := none }, [{ kind := .ack, core := 4, line := 9, data := none }]), ⟨.e, List.replicate 64 7⟩, rfl, by decide +kernel⟩,
  ⟨live (fun d => { d with cap := { mode := .cache, msgs := [{ kind := .ack, core := 4, line := 9, data := none }, { kind := .snpInv, core := 31, line := 9, data := none }], cores := [(31, { l2 := [(9, ⟨.m, List.replicate 64 7⟩)] })] }, dmc := { ready := true, capacity := 2 ^ 30 } }),
      31, 9, ({ kind := .snpInv, core := 31, line := 9, data := none }, [{ kind := .ack, core := 4, line := 9, data := none }]), ⟨.m, List.replicate 64 7⟩, rfl, by decide +kernel⟩,
  ⟨live (fun d => { d with cap := { mode := .cache, msgs := [{ kind := .ack, core := 4, line := 9, data := none }, { kind := .snpInv, core := 31, line := 9, data := none }], cores := [(31, { evb := [{ line := 9, dirty := some (List.replicate 64 7) }] })] }, dmc := { ready := true, capacity := 2 ^ 30 } }),
      31, 9, ({ kind := .snpInv, core := 31, line := 9, data := none }, [{ kind := .ack, core := 4, line := 9, data := none }]),
      { line := 9, dirty := some (List.replicate 64 7) }, rfl, by decide +kernel⟩,
  ⟨live (fun d => { d with cap := { mode := .cache, msgs := [{ kind := .ack, core := 4, line := 9, data := none }, { kind := .snpShared, core := 31, line := 9, data := none }] }, dmc := { ready := true, capacity := 2 ^ 30 } }),
      31, 9, ({ kind := .snpShared, core := 31, line := 9, data := none }, [{ kind := .ack, core := 4, line := 9, data := none }]), rfl, by decide +kernel⟩,
  ⟨live (fun d => { d with cap := { mode := .cache, msgs := [{ kind := .ack, core := 4, line := 9, data := none }, { kind := .ack, core := 31, line := 9, data := some (List.replicate 64 7) }], txns := [(9, { req := .shared 4, wait := [31] })], dir := [(9, { owner := some 31 })] }, dmc := { ready := true, capacity := 2 ^ 30 } }),
      31, 9, 4, List.replicate 64 7, ({ kind := .ack, core := 31, line := 9, data := some (List.replicate 64 7) }, [{ kind := .ack, core := 4, line := 9, data := none }]),
      { req := .shared 4, wait := [31] }, rfl, by decide +kernel⟩,
  ⟨live (fun d => { d with cap := { mode := .cache, msgs := [{ kind := .ack, core := 4, line := 9, data := none }, { kind := .ack, core := 31, line := 9, data := none }], txns := [(9, { req := .unique 4, wait := [31] })] }, dmc := { ready := true, capacity := 2 ^ 30 } }),
      31, 9, 4, ({ kind := .ack, core := 31, line := 9, data := none }, [{ kind := .ack, core := 4, line := 9, data := none }]), { req := .unique 4, wait := [31] }, rfl, by decide +kernel⟩,
  ⟨live (fun d => { d with cap := { mode := .cache, msgs := [{ kind := .ack, core := 4, line := 9, data := none }, { kind := .ack, core := 31, line := 9, data := none }], txns := [(9, { req := .upgrade 4, wait := [31] })] }, dmc := { ready := true, capacity := 2 ^ 30 } }),
      31, 9, 4, ({ kind := .ack, core := 31, line := 9, data := none }, [{ kind := .ack, core := 4, line := 9, data := none }]), { req := .upgrade 4, wait := [31] }, rfl, by decide +kernel⟩,
  ⟨live (fun d => { d with cap := { mode := .cache, msgs := [{ kind := .ack, core := 4, line := 9, data := none }, { kind := .ack, core := 31, line := 9, data := none }], txns := [(9, { req := .unique 4, wait := [31, 5] })] }, dmc := { ready := true, capacity := 2 ^ 30 } }),
      31, 9, ({ kind := .ack, core := 31, line := 9, data := none }, [{ kind := .ack, core := 4, line := 9, data := none }]), { req := .unique 4, wait := [31, 5] }, rfl, by decide +kernel⟩,
  ⟨live (fun d => { d with cap := { mode := .cache, msgs := [{ kind := .ack, core := 4, line := 9, data := none }, { kind := .miss, core := 31, line := 9, data := none }], txns := [(9, { req := .shared 4, wait := [31] })], dir := [(9, { owner := some 31 })] }, dmc := { ready := true, capacity := 2 ^ 30 } }),
      31, 9, 4, ({ kind := .miss, core := 31, line := 9, data := none }, [{ kind := .ack, core := 4, line := 9, data := none }]), { req := .shared 4, wait := [31] }, rfl, by decide +kernel⟩,
  ⟨live (fun d => { d with cap := { mode := .cache, msgs := [{ kind := .ack, core := 4, line := 9, data := none }, { kind := .miss, core := 31, line := 9, data := none }], txns := [(9, { req := .unique 4, wait := [31, 5] })] }, dmc := { ready := true, capacity := 2 ^ 30 } }),
      31, 9, ({ kind := .miss, core := 31, line := 9, data := none }, [{ kind := .ack, core := 4, line := 9, data := none }]), { req := .unique 4, wait := [31, 5] }, rfl, by decide +kernel⟩,
  ⟨live (fun d => { d with cap := { mode := .cache, msgs := [{ kind := .ack, core := 4, line := 9, data := none }, { kind := .evicting, core := 31, line := 9, data := some (List.replicate 64 7) }], txns := [(9, { req := .unique 4, wait := [31] })] }, dmc := { ready := true, capacity := 2 ^ 30 } }),
      31, 9, 4, List.replicate 64 7, ({ kind := .evicting, core := 31, line := 9, data := some (List.replicate 64 7) }, [{ kind := .ack, core := 4, line := 9, data := none }]),
      { req := .unique 4, wait := [31] }, rfl, by decide +kernel⟩,
  ⟨live (fun d => { d with cap := { mode := .cache, msgs := [{ kind := .ack, core := 4, line := 9, data := none }, { kind := .evicting, core := 31, line := 9, data := some (List.replicate 64 7) }], txns := [(9, { req := .shared 4, wait := [31] })], dir := [(9, { owner := some 31 })] }, dmc := { ready := true, capacity := 2 ^ 30 } }),
      31, 9, 4, List.replicate 64 7, ({ kind := .evicting, core := 31, line := 9, data := some (List.replicate 64 7) }, [{ kind := .ack, core := 4, line := 9, data := none }]),
      { req := .shared 4, wait := [31] }, rfl, by decide +kernel⟩,
  ⟨live (fun d => { d with cap := { mode := .cache, msgs := [{ kind := .ack, core := 4, line := 9, data := none }, { kind := .evicting, core := 31, line := 9, data := some (List.replicate 64 7) }], txns := [(9, { req := .ioWrite 3 (2 ^ 63 + 1) (List.replicate 64 9), wait := [31] })] }, dmc := { ready := true, capacity := 2 ^ 30 } }),
      31, 9, 3, 2 ^ 63 + 1, List.replicate 64 9, List.replicate 64 7, ({ kind := .evicting, core := 31, line := 9, data := some (List.replicate 64 7) },
      [{ kind := .ack, core := 4, line := 9, data := none }]), { req := .ioWrite 3 (2 ^ 63 + 1) (List.replicate 64 9), wait := [31] }, rfl, by decide +kernel⟩,
  ⟨live (fun d => { d with cap := { mode := .cache, msgs := [{ kind := .ack, core := 4, line := 9, data := none }, { kind := .evicting, core := 31, line := 9, data := none }], txns := [(9, { req := .unique 4, wait := [31, 5] })] }, dmc := { ready := true, capacity := 2 ^ 30 } }),
      31, 9, ({ kind := .evicting, core := 31, line := 9, data := none }, [{ kind := .ack, core := 4, line := 9, data := none }]), { req := .unique 4, wait := [31, 5] }, rfl, by decide +kernel⟩,
  ⟨live (fun d => { d with cap := { mode := .cache, msgs := [{ kind := .ack, core := 4, line := 9, data := none }, { kind := (.data .s), core := 31, line := 9, data := some (List.replicate 64 7) }] }, dmc := { ready := true, capacity := 2 ^ 30 } }),
      31, 9, ({ kind := (.data .s), core := 31, line := 9, data := some (List.replicate 64 7) }, [{ kind := .ack, core := 4, line := 9, data := none }]), .s, rfl, by decide +kernel⟩,
  ⟨live (fun d => { d with cap := { mode := .cache, msgs := [{ kind := .ack, core := 4, line := 9, data := none }, { kind := (.evictAck 0), core := 31, line := 9, data := none }], cores := [(31, { evb := [{ line := 9, dirty := none, sent := false }] })] }, dmc := { ready := true, capacity := 2 ^ 30 } }),
      31, 9, ({ kind := (.evictAck 0), core := 31, line := 9, data := none }, [{ kind := .ack, core := 4, line := 9, data := none }]), rfl, by decide +kernel⟩,
  ⟨live (fun d => { d with cap := { mode := .cache, cores := [(31, { evb := [{ line := 9, dirty := some (List.replicate 64 7) }] })] }, dmc := { ready := true, capacity := 2 ^ 30 }, mem := { dram := [(576, 9), (640, 9)] } }),
      31, 9, { line := 9, dirty := some (List.replicate 64 7) }, List.replicate 64 7, rfl, by decide +kernel⟩,
  ⟨live (fun d => { d with cap := { mode := .cache, cores := [(31, { evb := [{ line := 9, dirty := some (List.replicate 64 7), taken := true }] })] }, dmc := { ready := true, capacity := 2 ^ 30 } }),
      31, 9, { line := 9, dirty := some (List.replicate 64 7), taken := true }, rfl, by decide +kernel⟩,
  ⟨live (fun d => { d with cap := { mode := .cache, cores := [(31, { evb := [{ line := 9, dirty := some (List.replicate 64 7) }] })], txns := [(9, { req := .shared 4, wait := [31] })] }, dmc := { ready := true, capacity := 2 ^ 30 } }),
      31, 9, { line := 9, dirty := some (List.replicate 64 7) }, { req := .shared 4, wait := [31] }, rfl, by decide +kernel⟩,
  ⟨live (fun d => { d with cap := { mode := .cache, cores := [(31, { evb := [{ line := 9, dirty := none }] })], dir := [(9, { sharers := [31, 3] })] }, dmc := { ready := true, capacity := 2 ^ 30 } }),
      31, 9, { line := 9, dirty := none }, rfl, by decide +kernel⟩,
  ⟨live (fun d => { d with cap := { mode := .cache, cores := [(31, { evb := [{ line := 9, dirty := none }] })], dir := [(9, { sharers := [3] })] }, dmc := { ready := true, capacity := 2 ^ 30 } }),
      31, 9, { line := 9, dirty := none }, rfl, by decide +kernel⟩⟩

theorem test_hypotheses_DramRequestEvents :
    (∃ (s : State) (port : Nat) (a : Nat) (mask : Nat) (line : List Byte), s.live ∧ port < 5 ∧ mask < 2 ^ 64 ∧ line.length ≤ 64 ∧ (s.dev.dmc.ready = false ∨ s.dev.dmc.capacity ≤ a / 64 * 64))
    ∧ (∃ (s : State) (port : Nat) (a : Nat) (mask : Nat) (line : List Byte), s.live ∧ port < 5 ∧ mask < 2 ^ 64 ∧ line.length ≤ 64 ∧ s.dev.dmc.ready = true 
      ∧ a / 64 * 64 < s.dev.dmc.capacity ∧ (s.dev.chan (dramChannel s.dev.dmc.k (a / 64 * 64))).reads.length < 64 ∧ ((s.dev.chan (dramChannel s.dev.dmc.k (a / 64 * 64))).reads ≠ [] ∨ (s.dev.chan (dramChannel s.dev.dmc.k (a / 64 * 64))).writes = []))
    ∧ (∃ (s : State) (port : Nat) (a : Nat) (mask : Nat) (line : List Byte), s.live ∧ port < 5 ∧ mask < 2 ^ 64 ∧ line.length ≤ 64 ∧ s.dev.dmc.ready = true 
      ∧ a / 64 * 64 < s.dev.dmc.capacity ∧ (s.dev.chan (dramChannel s.dev.dmc.k (a / 64 * 64))).reads = [] ∧ s.dev.dmc.waiting = [])
    ∧ (∃ (s : State) (port : Nat) (a : Nat) (mask : Nat) (line : List Byte), s.live ∧ port < 5 ∧ mask < 2 ^ 64 ∧ line.length ≤ 64 ∧ s.dev.dmc.ready = true 
      ∧ a / 64 * 64 < s.dev.dmc.capacity ∧ 64 ≤ (s.dev.chan (dramChannel s.dev.dmc.k (a / 64 * 64))).reads.length)
    ∧ (∃ (s : State) (port : Nat) (a : Nat) (mask : Nat) (line : List Byte) (w : DReq), s.live ∧ port < 5 ∧ mask < 2 ^ 64 ∧ line.length ≤ 64 ∧ s.dev.dmc.ready = true 
      ∧ a / 64 * 64 < s.dev.dmc.capacity ∧ (s.dev.chan (dramChannel s.dev.dmc.k (a / 64 * 64))).st ≠ 3 ∧ (s.dev.chan (dramChannel s.dev.dmc.k (a / 64 * 64))).reads ≠ [] 
      ∧ (s.dev.chan (dramChannel s.dev.dmc.k (a / 64 * 64))).writes = [w] ∧ w.a = a / 64 * 64)
    ∧ (∃ (s : State) (port : Nat) (a : Nat) (mask : Nat) (line : List Byte), s.live ∧ port < 5 ∧ mask < 2 ^ 64 ∧ line.length ≤ 64 ∧ s.dev.dmc.ready = true 
      ∧ a / 64 * 64 < s.dev.dmc.capacity ∧ (s.dev.chan (dramChannel s.dev.dmc.k (a / 64 * 64))).st = 3)
    ∧ (∃ (ch : Nat), ch < 12)
    ∧ (∃ (s : State) (ch : Nat) (dev : Nat) (r : DReq), s.live ∧ ch < 12 ∧ dev < 32 ∧ s.dev.chanHeld ch = false ∧ (s.dev.chan ch).st = 2 ∧ (s.dev.chan ch).reads = [r] 
      ∧ r.write = false ∧ (s.dev.chan ch).writes = [] ∧ (s.dev.chan ch).order = [] ∧ (s.dev.chan ch).drain = false ∧ s.dev.dmc.waiting = [] ∧ poisonKey ch r.c ∉ s.dev.dmc.poison)
    ∧ (∃ (s : State) (ch : Nat) (dev : Nat) (r : DReq), s.live ∧ ch < 12 ∧ dev < 32 ∧ s.dev.chanHeld ch = false ∧ (s.dev.chan ch).st = 2 ∧ (s.dev.chan ch).reads = [r] 
      ∧ r.write = false ∧ (s.dev.chan ch).writes = [] ∧ (s.dev.chan ch).order = [] ∧ (s.dev.chan ch).drain = false ∧ s.dev.dmc.waiting = [] ∧ poisonKey ch r.c ∉ s.dev.dmc.poison)
    ∧ (∃ (s : State) (ch : Nat) (dev : Nat) (r : DReq), s.live ∧ ch < 12 ∧ dev < 32 ∧ s.dev.chanHeld ch = false ∧ (s.dev.chan ch).st = 2 ∧ (s.dev.chan ch).reads = [r] 
      ∧ r.write = false ∧ (s.dev.chan ch).writes = [] ∧ (s.dev.chan ch).order = [] ∧ (s.dev.chan ch).drain = false ∧ s.dev.dmc.waiting = [] ∧ r.port = 0)
    ∧ (∃ (s : State) (ch : Nat) (dev : Nat) (r : DReq), s.live ∧ ch < 12 ∧ dev < 32 ∧ s.dev.chanHeld ch = false ∧ (s.dev.chan ch).st = 2 ∧ (s.dev.chan ch).reads = [r] 
      ∧ r.write = false ∧ (s.dev.chan ch).writes = [] ∧ (s.dev.chan ch).order = [] ∧ (s.dev.chan ch).drain = false ∧ s.dev.dmc.waiting = [] ∧ r.port = 1)
    ∧ (∃ (s : State) (ch : Nat) (dev : Nat) (r : DReq), s.live ∧ ch < 12 ∧ dev < 32 ∧ s.dev.chanHeld ch = false ∧ (s.dev.chan ch).st = 2 ∧ (s.dev.chan ch).reads = [r] 
      ∧ r.write = false ∧ (s.dev.chan ch).writes = [] ∧ (s.dev.chan ch).order = [] ∧ (s.dev.chan ch).drain = false ∧ s.dev.dmc.waiting = [] ∧ r.port = 2 ∧ (s.dev.conn r.user).st = .active)
    ∧ (∃ (s : State) (ch : Nat) (dev : Nat) (r : DReq), s.live ∧ ch < 12 ∧ dev < 32 ∧ s.dev.chanHeld ch = false ∧ (s.dev.chan ch).st = 2 ∧ (s.dev.chan ch).reads = [r] 
      ∧ r.write = false ∧ (s.dev.chan ch).writes = [] ∧ (s.dev.chan ch).order = [] ∧ (s.dev.chan ch).drain = false ∧ s.dev.dmc.waiting = [] ∧ r.port = 4)
    ∧ (∃ (s : State) (ch : Nat) (w : DReq), s.live ∧ s.memWf = true ∧ ch < 12 ∧ s.dev.chanHeld ch = false ∧ (s.dev.chan ch).st = 2 ∧ (s.dev.chan ch).writes = [w] 
      ∧ w.write = true ∧ (s.dev.chan ch).order = [] ∧ s.dev.dmc.waiting = [])
    ∧ (∃ (s : State) (ch : Nat) (rank : Nat), s.live ∧ ch < 12 ∧ rank < 4 ∧ s.dev.chanHeld ch = true)
    ∧ (∃ (s : State) (ch : Nat) (rank : Nat), s.live ∧ ch < 12 ∧ rank < 4 ∧ (s.dev.chan ch).st = 2 ∧ s.dev.chanHeld ch = false ∧ ((∀ r ∈ (s.dev.chan ch).reads, bankRank (s.dev.dmc.bank r.c) ≠ rank) ∨ 4 ≤ Map.getD (s.dev.chan ch).late rank 0))
    ∧ (∃ (s : State) (ch : Nat) (rank : Nat) (r : DReq), s.live ∧ ch < 12 ∧ rank < 4 ∧ (s.dev.chan ch).st = 2 ∧ s.dev.chanHeld ch = false ∧ r ∈ (s.dev.chan ch).reads 
      ∧ bankRank (s.dev.dmc.bank r.c) = rank ∧ Map.getD (s.dev.chan ch).late rank 0 < 4)
    ∧ (∃ (s : State) (ch : Nat), s.live ∧ ch < 12 ∧ (s.dev.chan ch).st = 2 ∧ ((s.dev.chan ch).replays.1 ≠ s.dev.turn ∨ (s.dev.chan ch).replays.2 < 7))
    ∧ (∃ (s : State) (ch : Nat), s.live ∧ ch < 12 ∧ (s.dev.chan ch).st = 2 ∧ (s.dev.chan ch).replays.1 = s.dev.turn ∧ 7 ≤ (s.dev.chan ch).replays.2)
    ∧ (∃ (s : State) (ch : Nat) (bank : Nat) (w : DRow), s.live ∧ ch < 12 ∧ Map.find (s.dev.chan ch).rows bank = some w ∧ w.keep = true) :=
  ⟨⟨live (fun d => { d with dmc := { ready := true, capacity := 2 ^ 30 } }), 4, 2 ^ 30, 2 ^ 64 - 1, [1, 2, 3], rfl, by decide +kernel⟩,
  ⟨live (fun d => { d with dmc := { ready := true, capacity := 2 ^ 30 } }), 4, 70, 2 ^ 64 - 1, [1, 2, 3], rfl, by decide +kernel⟩,
  ⟨live (fun d => { d with dmc := { ready := true, capacity := 2 ^ 30, chans := [(0, { st := 3 })] } }), 3, 63, 5, [1, 2, 3], rfl, by decide +kernel⟩,
  ⟨live (fun d => { d with dmc := { ready := true, capacity := 2 ^ 30, chans := [(0, { st := 2, reads := (List.range 64).map fun k => { id := k, port := 2, write := false, a := 0, c := 0, mask := 0, keep := false, at' := 0 } })] } }),
      4, 63, 5, [1, 2, 3], rfl, by decide +kernel⟩,
  ⟨live (fun d => { d with dmc := { ready := true, capacity := 2 ^ 30, chans := [(0, { st := 2, reads := [{ id := 1, port := 3, write := false, a := 0, c := 0, mask := 0, data := [], keep := false, at' := 9 }], writes := [{ id := 1, port := 2, write := true, a := 0, c := 0, mask := 6, data := [9, 8], keep := false, at' := 9 }] })] } }),
      4, 63, 5, [1, 2, 3], { id := 1, port := 2, write := true, a := 0, c := 0, mask := 6, data := [9, 8], keep := false, at' := 9 }, rfl, by decide +kernel⟩,
  ⟨live (fun d => { d with dmc := { ready := true, capacity := 2 ^ 30, chans := [(0, { st := 3 })] } }), 4, 63, 5, [1, 2, 3], rfl, by decide +kernel⟩,
  ⟨11, by decide +kernel⟩,
  ⟨live (fun d => { d with dmc := { ready := true, capacity := 2 ^ 30, chans := [(11, { st := 2, reads := [{ id := 1, port := 2, write := false, a := 0, c := 0, mask := 0, data := [], keep := false, at' := 9 }] })] } }),
      11, 31, { id := 1, port := 2, write := false, a := 0, c := 0, mask := 0, data := [], keep := false, at' := 9 }, rfl, by decide +kernel⟩,
  ⟨live (fun d => { d with dmc := { ready := true, capacity := 2 ^ 30, chans := [(11, { st := 2, reads := [{ id := 1, port := 3, write := false, a := 0, c := 0, mask := 0, data := [], keep := false, at' := 9 }] })] } }),
      11, 31, { id := 1, port := 3, write := false, a := 0, c := 0, mask := 0, data := [], keep := false, at' := 9 }, rfl, by decide +kernel⟩,
  ⟨live (fun d => { d with dmc := { ready := true, capacity := 2 ^ 30, chans := [(11, { st := 2, reads := [{ id := 1, port := 0, write := false, a := 0, c := 0, mask := 0, data := [], keep := false, at' := 9 }] })] }, rdm := { conns := [(0, { st := .active })] } }),
      11, 31, { id := 1, port := 0, write := false, a := 0, c := 0, mask := 0, data := [], keep := false, at' := 9 }, rfl, by decide +kernel⟩,
  ⟨live (fun d => { d with dmc := { ready := true, capacity := 2 ^ 30, chans := [(11, { st := 2, reads := [{ id := 1, port := 1, write := false, a := 0, c := 0, mask := 0, data := [], keep := false, at' := 9 }] })] }, rdm := { conns := [(0, { st := .active })] } }),
      11, 31, { id := 1, port := 1, write := false, a := 0, c := 0, mask := 0, data := [], keep := false, at' := 9 }, rfl, by decide +kernel⟩,
  ⟨live (fun d => { d with dmc := { ready := true, capacity := 2 ^ 30, chans := [(11, { st := 2, reads := [{ id := 1, port := 2, write := false, a := 0, c := 0, mask := 0, data := [], keep := false, at' := 9 }] })] }, rdm := { conns := [(0, { st := .active })] } }),
      11, 31, { id := 1, port := 2, write := false, a := 0, c := 0, mask := 0, data := [], keep := false, at' := 9 }, rfl, by decide +kernel⟩,
  ⟨live (fun d => { d with dmc := { ready := true, capacity := 2 ^ 30, chans := [(11, { st := 2, reads := [{ id := 1, port := 4, write := false, a := 0, c := 0, mask := 0, data := [], keep := false, at' := 9 }] })] }, rdm := { conns := [(0, { st := .active })] } }),
      11, 31, { id := 1, port := 4, write := false, a := 0, c := 0, mask := 0, data := [], keep := false, at' := 9 }, rfl, by decide +kernel⟩,
  ⟨live (fun d => { d with dmc := { ready := true, capacity := 2 ^ 30, chans := [(11, { st := 2, writes := [{ id := 1, port := 2, write := true, a := 64, c := 0, mask := 5, data := [1, 2, 3], keep := false, at' := 9 }] })] }, mem := { dram := [(65, 7), (128, 9)] } }),
      11, { id := 1, port := 2, write := true, a := 64, c := 0, mask := 5, data := [1, 2, 3], keep := false, at' := 9 }, rfl, by decide +kernel⟩,
  ⟨live (fun d => { d with dmc := { ready := true, capacity := 2 ^ 30, chans := [(11, { st := 2 })] }, cal := { holds := [{ req := ⟨.device, 0x13, 11, [(.chan 11, true)], 0, 0⟩ }] } }),
      11, 3, rfl, by decide +kernel⟩,
  ⟨live (fun d => { d with dmc := { ready := true, capacity := 2 ^ 30, chans := [(11, { st := 2, rows := [(0, ⟨1, 2, false⟩), (200, ⟨1, 2, false⟩)] })] } }), 11, 3, rfl, by decide +kernel⟩,
  ⟨live (fun d => { d with dmc := { ready := true, capacity := 2 ^ 30, chans := [(11, { st := 2, late := [(0, 3)], reads := [{ id := 1, port := 2, write := false, a := 0, c := 0, mask := 0, data := [], keep := false, at' := 9 }] })] } }),
      11, 0, { id := 1, port := 2, write := false, a := 0, c := 0, mask := 0, data := [], keep := false, at' := 9 }, rfl, by decide +kernel⟩,
  ⟨live (fun d => { d with dmc := { ready := true, capacity := 2 ^ 30, chans := [(11, { st := 2, replays := (0, 6), retry := [(0, false, 0)] })] } }), 11, rfl, by decide +kernel⟩,
  ⟨live (fun d => { d with dmc := { ready := true, capacity := 2 ^ 30, chans := [(11, { st := 2, replays := (0, 7), writes := [{ id := 1, port := 2, write := true, a := 64, c := 0, mask := 5, data := [1, 2, 3], keep := false, at' := 9 }] })] } }),
      11, rfl, by decide +kernel⟩,
  ⟨live (fun d => { d with dmc := { ready := true, capacity := 2 ^ 30, chans := [(11, { st := 2, rows := [(5, ⟨1, 2, true⟩)] })] } }), 11, 5, ⟨1, 2, true⟩, rfl, by decide +kernel⟩⟩

theorem test_hypotheses_DramTrainingEvents :
    (∃ (s : State) (ch : Nat), s.live ∧ ch < 12 ∧ s.dev.dmc.training = true ∧ (s.dev.chan ch).st = 1 ∧ 2 ≤ (s.dev.chan ch).step ∧ (s.dev.chan ch).step < 8)
    ∧ (∃ (s : State) (ch : Nat), s.live ∧ ch < 12 ∧ s.dev.dmc.training = true ∧ (s.dev.chan ch).st = 1 ∧ 8 ≤ (s.dev.chan ch).step)
    ∧ (∃ (s : State) (ch : Nat), s.live ∧ ch < 12 ∧ s.dev.dmc.training = true ∧ (s.dev.chan ch).st = 1 ∧ (s.dev.chan ch).tries < 3)
    ∧ (∃ (s : State) (ch : Nat), s.live ∧ ch < 12 ∧ s.dev.dmc.training = true ∧ (s.dev.chan ch).st = 1 ∧ 3 ≤ (s.dev.chan ch).tries)
    ∧ (∃ (s : State) (ch : Nat) (p : Spd), s.live ∧ ch < 12 ∧ s.dev.dmc.training = true ∧ (s.dev.chan ch).st = 1 ∧ (s.dev.chan ch).step = 1 ∧ s.dev.dmc.dimms = 0 
      ∧ s.dev.dmc.rate = 0 ∧ spdOk p = true ∧ (List.range 5).all (fun i => maskOk (if 2 ^ Nat.log2 (p.gib * 2 ^ 30) = p.gib * 2 ^ 30 then Nat.log2 (p.gib * 2 ^ 30)
      else Nat.log2 (p.gib * 2 ^ 30) + 1) i (s.dev.dmc.masks.getD i 0)) = true)
    ∧ (∃ (s : State) (ch : Nat) (p : Spd), s.live ∧ ch < 12 ∧ s.dev.dmc.training = true ∧ (s.dev.chan ch).st = 1 ∧ (s.dev.chan ch).step = 1 ∧ s.dev.dmc.dimms ≠ 0 ∧ p.dimms ≠ s.dev.dmc.dimms)
    ∧ (∃ (s : State) (ch : Nat) (p : Spd), s.live ∧ ch < 12 ∧ s.dev.dmc.training = true ∧ (s.dev.chan ch).st = 1 ∧ (s.dev.chan ch).step = 1 ∧ s.dev.dmc.dimms = 0 
      ∧ spdOk p = true ∧ s.dev.dmc.rate ≠ 0 ∧ spdTop p < s.dev.dmc.rate)
    ∧ (∃ (s : State) (ch : Nat) (p : Spd) (i : Nat), s.live ∧ ch < 12 ∧ s.dev.dmc.training = true ∧ (s.dev.chan ch).st = 1 ∧ (s.dev.chan ch).step = 1 
      ∧ s.dev.dmc.dimms = 0 ∧ spdOk p = true ∧ i < 5 ∧ bit (s.dev.dmc.masks.getD i 0) (14 + i) = false)
    ∧ (∃ (s : State), s.live ∧ s.dev.dmc.training = true ∧ (∀ c < 12, (s.dev.chan c).st = 2))
    ∧ (∃ (s : State) (c : Nat), s.live ∧ c < 12 ∧ (s.dev.chan c).st ≠ 2) :=
  ⟨⟨live (fun d => { d with dmc := { training := true, chans := [(11, { st := 1, step := 7 })] } }), 11, rfl, by decide +kernel⟩,
  ⟨live (fun d => { d with dmc := { training := true, chans := [(11, { st := 1, step := 8 })] } }), 11, rfl, by decide +kernel⟩,
  ⟨live (fun d => { d with dmc := { training := true, chans := [(11, { st := 1, step := 5, tries := 2 })] } }), 11, rfl, by decide +kernel⟩,
  ⟨live (fun d => { d with dmc := { training := true, chans := [(11, { st := 1, step := 5, tries := 3 })] } }), 11, rfl, by decide +kernel⟩,
  ⟨live (fun d => { d with dmc := { training := true, chans := [(11, { st := 1, step := 1 })], masks := defaultMasks } }), 11, ⟨5, 1, 2, false, 1, 96⟩, rfl, by decide +kernel⟩,
  ⟨live (fun d => { d with dmc := { training := true, chans := [(11, { st := 1, step := 1 })], dimms := 1 } }), 11, ⟨5, 2, 2, false, 1, 96⟩, rfl, by decide +kernel⟩,
  ⟨live (fun d => { d with dmc := { training := true, chans := [(11, { st := 1, step := 1 })], rate := 5, masks := defaultMasks } }), 11, ⟨4, 1, 2, false, 1, 96⟩, rfl, by decide +kernel⟩,
  ⟨live (fun d => { d with dmc := { training := true, chans := [(11, { st := 1, step := 1 })], masks := [0x1, 0x1, 0x1, 0x1, 0x1] } }), 11, ⟨5, 1, 2, false, 1, 96⟩, 4, rfl, by decide +kernel⟩,
  ⟨live (fun d => { d with dmc := { training := true, chans := (List.range 12).map fun c => (c, { st := 2 }) } }), rfl, by decide +kernel⟩,
  ⟨live (fun d => { d with dmc := { training := true, chans := (List.range 12).map fun c => (c, { st := if c = 11 then 3 else 2 }) } }), 11, rfl, by decide +kernel⟩⟩

theorem test_hypotheses_SettingsAndFlash :
    (∃ (s : State) (c : Nat) (addr : Nat), s.coreRuns c ∧ addr < 2 ^ 64 ∧ s.dev.boot.setBusy = false ∧ s.dev.boot.gated = true)
    ∧ (∃ (s : State) (c : Nat) (addr : Nat), s.coreRuns c ∧ addr < 2 ^ 64 ∧ s.dev.boot.setBusy = true)
    ∧ (∃ (s : State) (c : Nat) (addr : Nat), s.coreRuns c ∧ addr < 2 ^ 64 ∧ s.dev.boot.setBusy = false ∧ s.dev.boot.gated = false ∧ addr % 8 = 0 ∧ s.dev.boot.jnl.fits capType s.dev.boot.cap = true)
    ∧ (∃ (s : State) (c : Nat) (addr : Nat), s.coreRuns c ∧ addr < 2 ^ 64 ∧ s.dev.boot.setBusy = false ∧ s.dev.boot.gated = false ∧ addr % 8 = 0 
      ∧ s.dev.boot.jnl.fits capType s.dev.boot.cap = false ∧ s.dev.boot.capTrial = false)
    ∧ (∃ (s : State) (c : Nat) (addr : Nat), s.coreRuns c ∧ addr < 2 ^ 64 ∧ s.dev.boot.setBusy = false ∧ s.dev.boot.gated = false ∧ addr % 8 = 0 
      ∧ s.dev.boot.jnl.fits capType s.dev.boot.cap = false ∧ s.dev.boot.capTrial = true)
    ∧ (∃ (s : State) (c : Nat) (addr : Nat), s.coreRuns c ∧ addr < 2 ^ 64 ∧ s.dev.boot.setBusy = false ∧ s.dev.boot.gated = false ∧ s.dev.boot.capTrial = false 
      ∧ s.dev.boot.shTrial = false ∧ (sheathType (recOf (s.dev.physRead addr (16 + field (s.dev.physRead addr 16) 4 2))).kind = true
      ∨ capType (recOf (s.dev.physRead addr (16 + field (s.dev.physRead addr 16) 4 2))).kind = true) ∧ field (s.dev.physRead addr 16) 4 2 ≤ 4080 ∧ s.dev.boot.jnl.room (recOf (s.dev.physRead addr (16 + field (s.dev.physRead addr 16) 4 2))).size = true)
    ∧ (∃ (s : State) (c : Nat) (addr : Nat), s.coreRuns c ∧ addr < 2 ^ 64 ∧ s.dev.boot.setBusy = false ∧ s.dev.boot.gated = false ∧ (s.dev.boot.capTrial = true ∨ s.dev.boot.shTrial = true))
    ∧ (∃ (s : State) (c : Nat) (addr : Nat), s.coreRuns c ∧ s.dev.boot.jnl.room (recOf (s.dev.physRead addr (16 + field (s.dev.physRead addr 16) 4 2))).size = false 
      ∧ addr < 2 ^ 64 ∧ s.dev.boot.setBusy = false ∧ s.dev.boot.gated = false ∧ s.dev.boot.capTrial = false ∧ s.dev.boot.shTrial = false ∧ (sheathType (recOf (s.dev.physRead addr (16 + field (s.dev.physRead addr 16) 4 2))).kind = true
      ∨ capType (recOf (s.dev.physRead addr (16 + field (s.dev.physRead addr 16) 4 2))).kind = true) ∧ field (s.dev.physRead addr 16) 4 2 ≤ 4080)
    ∧ (∃ (s : State) (h : Hold), s.activity 0x41 0 h ∧ s.dev.boot.capTrial = false ∧ s.dev.boot.shTrial = false ∧ s.dev.boot.jnlHold = none)
    ∧ (∃ (s : State) (h : Hold) (bs : List Byte), s.activity 0x41 0 h ∧ s.dev.boot.capTrial = false ∧ s.dev.boot.shTrial = false ∧ s.dev.boot.jnlHold = some bs ∧ s.dev.boot.jnl.compact.room (recOf bs).size = true)
    ∧ (∃ (s : State) (c : Nat), s.coreRuns c ∧ s.dev.boot.gated = false ∧ s.dev.boot.capTrial = true ∧ s.dev.boot.setDone = true)
    ∧ (∃ (s : State) (c : Nat), s.coreRuns c ∧ s.dev.boot.gated = false ∧ s.dev.boot.capTrial = false)
    ∧ (∃ (s : State) (c : Nat), s.coreRuns c ∧ s.dev.boot.gated = false ∧ s.dev.boot.capTrial = true ∧ s.dev.boot.setDone = false)
    ∧ (∃ (s : State) (c : Nat) (v : Nat), s.coreRuns c ∧ v < 2 ^ 64 ∧ s.dev.boot.gated = true)
    ∧ (∃ (s : State) (c : Nat) (v : Nat), s.coreRuns c ∧ s.dev.boot.gated = false ∧ s.dev.boot.capTrial = false ∧ s.dev.boot.shTrial = false ∧ v < 2 ∧ (Map.getD s.dev.boot.dir.slots v {}).count < 3)
    ∧ (∃ (s : State) (c : Nat) (v : Nat), s.coreRuns c ∧ v < 2 ^ 64 ∧ s.dev.boot.gated = false ∧ (s.dev.boot.capTrial = true ∨ s.dev.boot.shTrial = true ∨ 2 ≤ v ∨ 3 ≤ (Map.getD s.dev.boot.dir.slots v {}).count))
    ∧ (∃ (s : State) (area : Nat) (h : Hold), s.activity 0x40 area h ∧ s.memWf = true ∧ area < 16 ∧ s.dev.boot.areaOk area = true) :=
  ⟨⟨live (fun d => { d with cap := { cores := [(31, { running := true })] }, boot := { held := false, gated := true, st := .waitPush } }), 31, 0, coreRuns_of (by decide +kernel), by decide +kernel⟩,
  ⟨live (fun d => { d with cap := { cores := [(31, { running := true })] }, boot := { held := false, gated := false, st := .opened, setBusy := true } }), 31, 0x10000040,
      coreRuns_of (by decide +kernel), by decide +kernel⟩,
  ⟨live (fun d => { d with cap := { cores := [(31, { running := true })] }, boot := { held := false, gated := false, st := .opened, jnl := { recs := [{ kind := 1, schema := 2, inst := 0, seq := 3, body := [1, 2, 3, 4] }], next := 4 }, cap := { lo := 1, hi := 2 } } }),
      31, 0x10000040, coreRuns_of (by decide +kernel), by decide +kernel⟩,
  ⟨live (fun d => { d with cap := { cores := [(31, { running := true })] }, boot := { held := false, gated := false, st := .opened, jnl := { recs := [{ kind := 1, schema := 3, inst := 0, seq := 3, body := [1, 2, 3, 4] }], next := 4 }, cap := { lo := 1, hi := 2 } } }),
      31, 0x10000040, coreRuns_of (by decide +kernel), by decide +kernel⟩,
  ⟨live (fun d => { d with cap := { cores := [(31, { running := true })] }, boot := { held := false, gated := false, st := .opened, jnl := { recs := [{ kind := 1, schema := 3, inst := 0, seq := 3, body := [1, 2, 3, 4] }], next := 4 }, cap := { lo := 1, hi := 2 }, capTrial := true } }),
      31, 0x10000040, coreRuns_of (by decide +kernel), by decide +kernel⟩,
  ⟨live (fun d => { d with cap := { cores := [(31, { running := true })] }, boot := { held := false, gated := false, st := .opened, jnl := { recs := [{ kind := 1, schema := 2, inst := 0, seq := 3, body := [1, 2, 3, 4] }], next := 4 } }, mem := { flat := [(64, 1), (66, 1), (68, 4), (80, 7)] } }),
      31, 0x10000040, coreRuns_of (by decide +kernel), by decide +kernel⟩,
  ⟨live (fun d => { d with cap := { cores := [(31, { running := true })] }, boot := { held := false, gated := false, st := .opened, shTrial := true } }), 31, 0x10000040,
      coreRuns_of (by decide +kernel), by decide +kernel⟩,
  ⟨live (fun d => { d with cap := { cores := [(31, { running := true })] }, boot := { held := false, gated := false, st := .opened, jnl := fullJournal }, mem := { flat := [(64, 1), (66, 1), (68, 4), (80, 7)] } }),
      31, 0x10000040, coreRuns_of (by decide +kernel), (fullJournal_room _), by decide +kernel⟩,
  ⟨live (fun d => { d with cal := { holds := [{ req := ⟨.device, 0x41, 0, [], 0, 0⟩ }] }, boot := { held := false, gated := false, st := .opened, jnl := { recs := [{ kind := 1, schema := 2, inst := 0, seq := 3, body := [1, 2, 3, 4] }], next := 4 }, setBusy := true } }),
      { req := ⟨.device, 0x41, 0, [], 0, 0⟩ }, activity_of (by decide +kernel), by decide +kernel⟩,
  ⟨live (fun d => { d with cal := { holds := [{ req := ⟨.device, 0x41, 0, [], 0, 0⟩ }] }, boot := { held := false, gated := false, st := .opened, jnl := { recs := [{ kind := 1, schema := 2, inst := 0, seq := 3, body := [1, 2, 3, 4] }], next := 4 }, setBusy := true, jnlHold := some [1, 0, 1, 0, 4, 0, 0, 0, 0, 0, 0, 0, 0, 0, 0, 0, 7, 8, 9, 10] } }),
      { req := ⟨.device, 0x41, 0, [], 0, 0⟩ }, [1, 0, 1, 0, 4, 0, 0, 0, 0, 0, 0, 0, 0, 0, 0, 0, 7, 8, 9, 10], activity_of (by decide +kernel), by decide +kernel⟩,
  ⟨live (fun d => { d with cap := { cores := [(31, { running := true })] }, boot := { held := false, gated := false, st := .opened, capTrial := true, setDone := true, digest := 77, dir := { trial := some (.capstan 77) } } }),
      31, coreRuns_of (by decide +kernel), by decide +kernel⟩,
  ⟨live (fun d => { d with cap := { cores := [(31, { running := true })] }, boot := { held := false, gated := false, st := .opened } }), 31, coreRuns_of (by decide +kernel), by decide +kernel⟩,
  ⟨live (fun d => { d with cap := { cores := [(31, { running := true })] }, boot := { held := false, gated := false, st := .opened, capTrial := true } }), 31,
      coreRuns_of (by decide +kernel), by decide +kernel⟩,
  ⟨live (fun d => { d with cap := { cores := [(31, { running := true })] }, boot := { held := false, gated := true, st := .waitPush } }), 31, 9, coreRuns_of (by decide +kernel), by decide +kernel⟩,
  ⟨live (fun d => { d with cap := { cores := [(31, { running := true })] }, boot := { held := false, gated := false, st := .opened, dir := { slots := [(1, { count := 2 })] } } }),
      31, 1, coreRuns_of (by decide +kernel), by decide +kernel⟩,
  ⟨live (fun d => { d with cap := { cores := [(31, { running := true })] }, boot := { held := false, gated := false, st := .opened, dir := { slots := [(1, { count := 3 })] } } }),
      31, 1, coreRuns_of (by decide +kernel), by decide +kernel⟩,
  ⟨live (fun d => { d with cal := { holds := [{ req := ⟨.device, 0x40, 4, [], 0, 0⟩ }] }, boot := { held := false, gated := false, st := .opened, flSrc := 0x10000040, flLen := 3, flash := [(0x240000, 5), (0x240005, 6), (0x280000, 7)] }, mem := { flat := [(64, 1), (66, 3)] } }),
      4, { req := ⟨.device, 0x40, 4, [], 0, 0⟩ }, activity_of (by decide +kernel), by decide +kernel⟩⟩

theorem test_hypotheses_LookasideDescriptors :
    (∃ (d : Dev) (named : List (Nat × Nat)) (n : Nat) (u : Nat) (k : KeySlot), (n, u) ∈ named ∧ Map.find d.she.slots n = some k ∧ u ≠ 0 ∧ k.usage ≠ u)
    ∧ (∃ (d : Dev) (slice : Nat) (named : List (Nat × Nat)) (target : Option Nat), d.usagesOk named ∧ ((∃ e ∈ named, ¬ d.ownsSlot slice e.1) ∨ ∃ n, target = some n ∧ ¬ d.ownsSlot slice n))
    ∧ (∃ (d : Dev) (slice : Nat) (named : List (Nat × Nat)) (target : Option Nat), d.usagesOk named ∧ d.slotsMine slice named target ∧ (∃ e ∈ named, Map.find d.she.slots e.1 = none))
    ∧ (∃ (d : Dev) (slice : Nat) (named : List (Nat × Nat)) (n : Nat), d.usagesOk named ∧ d.slotsMine slice named (some n) ∧ (∀ e ∈ named,
      Map.find d.she.slots e.1 ≠ none) ∧ (Map.find d.she.slots n ≠ none ∨ d.she.installing n = true))
    ∧ (∃ (d : Dev) (slice : Nat) (named : List (Nat × Nat)) (target : Option Nat), d.usagesOk named ∧ d.slotsMine slice named target ∧ (∀ n,
      target = some n → Map.find d.she.slots n = none ∧ d.she.installing n = false) ∧ (∀ e ∈ named, Map.find d.she.slots e.1 ≠ none))
    ∧ (∃ (s : State) (q : Nat) (e : Desc) (k : KeySlot), s.cryIs 0x50 q e ∧ gcmOk e.bytes = true ∧ cryFlagsOk e.bytes = true ∧ bits (dw e.bytes 1) 8 24 = 0 
      ∧ 1 ≤ dw e.bytes 6 ∧ dw e.bytes 6 < 2 ^ 24 ∧ Map.find s.dev.she.slots (bits (dw e.bytes 1) 0 8) = some k ∧ k.usage = 2 
      ∧ ((s.dev.qp q).slice = 0 ∨ k.owner = (s.dev.qp q).slice) ∧ (s.dev.hardened e.bytes = true → s.dev.she.rng = .ready))
    ∧ (∃ (s : State) (q : Nat) (e : Desc) (k : KeySlot), s.cryIs 0x51 q e ∧ gcmOk e.bytes = true ∧ cryFlagsOk e.bytes = true ∧ bits (dw e.bytes 1) 8 24 = 0 
      ∧ 1 ≤ dw e.bytes 6 ∧ dw e.bytes 6 < 2 ^ 24 ∧ Map.find s.dev.she.slots (bits (dw e.bytes 1) 0 8) = some k ∧ k.usage = 2 
      ∧ ((s.dev.qp q).slice = 0 ∨ k.owner = (s.dev.qp q).slice) ∧ (s.dev.hardened e.bytes = true → s.dev.she.rng = .ready))
    ∧ (∃ (s : State) (q : Nat) (e : Desc) (k : KeySlot), s.cryIs 0x52 q e ∧ dw e.bytes 6 % 16 = 0 ∧ bits (dw e.bytes 7) 0 16 = 0 ∧ bits (dw e.bytes 7) 18 14 = 0 
      ∧ zeros e.bytes [8, 9, 14, 15] = true ∧ cryFlagsOk e.bytes = true ∧ bits (dw e.bytes 1) 8 24 = 0 ∧ 1 ≤ dw e.bytes 6 ∧ dw e.bytes 6 < 2 ^ 24 
      ∧ Map.find s.dev.she.slots (bits (dw e.bytes 1) 0 8) = some k ∧ k.usage = 3 ∧ ((s.dev.qp q).slice = 0 ∨ k.owner = (s.dev.qp q).slice) ∧ (s.dev.hardened e.bytes = true → s.dev.she.rng = .ready))
    ∧ (∃ (s : State) (q : Nat) (e : Desc) (k : KeySlot), s.cryIs 0x53 q e ∧ dw e.bytes 6 % 16 = 0 ∧ bits (dw e.bytes 7) 0 16 = 0 ∧ bits (dw e.bytes 7) 18 14 = 0 
      ∧ zeros e.bytes [8, 9, 14, 15] = true ∧ cryFlagsOk e.bytes = true ∧ bits (dw e.bytes 1) 8 24 = 0 ∧ 1 ≤ dw e.bytes 6 ∧ dw e.bytes 6 < 2 ^ 24 
      ∧ Map.find s.dev.she.slots (bits (dw e.bytes 1) 0 8) = some k ∧ k.usage = 3 ∧ ((s.dev.qp q).slice = 0 ∨ k.owner = (s.dev.qp q).slice) ∧ (s.dev.hardened e.bytes = true → s.dev.she.rng = .ready))
    ∧ (∃ (s : State) (q : Nat) (e : Desc) (k : KeySlot), s.cryIs 0x54 q e ∧ zeros e.bytes [7, 8, 9, 14, 15] = true ∧ cryFlagsOk e.bytes = true 
      ∧ bits (dw e.bytes 1) 8 24 = 0 ∧ 1 ≤ dw e.bytes 6 ∧ dw e.bytes 6 < 2 ^ 24 ∧ Map.find s.dev.she.slots (bits (dw e.bytes 1) 0 8) = some k ∧ k.usage = 4 
      ∧ ((s.dev.qp q).slice = 0 ∨ k.owner = (s.dev.qp q).slice) ∧ (s.dev.hardened e.bytes = true → s.dev.she.rng = .ready))
    ∧ (∃ (s : State) (q : Nat) (e : Desc), s.cryIs 0x50 q e ∧ cryFlagsOk e.bytes = false)
    ∧ (∃ (s : State) (q : Nat) (e : Desc), s.cryIs 0x51 q e ∧ gcmOk e.bytes = false)
    ∧ (∃ (s : State) (q : Nat) (e : Desc), s.cryIs 0x52 q e ∧ dw e.bytes 6 % 16 ≠ 0)
    ∧ (∃ (s : State) (q : Nat) (e : Desc), s.cryIs 0x53 q e ∧ dw e.bytes 6 = 0)
    ∧ (∃ (s : State) (q : Nat) (id : Nat) (o : CryOp) (a : Nat) (bs : List Byte), s.live ∧ s.memWf = true ∧ q < 65536 
      ∧ (s.dev.she.ops.find? (fun o => o.q == q && o.desc == id) = some o) ∧ o.gen = s.dev.sliceGen (s.dev.qp q).slice ∧ o.core = false ∧ o.outs = [(a, bs)] ∧ o.install = none 
      ∧ o.zero = none ∧ (s.dev.qp q).capstan = true ∧ s.dev.cap.mode ≠ .cache ∧ flatBase ≤ a ∧ a + bs.length ≤ flatBase + flatSize)
    ∧ (∃ (s : State) (q : Nat) (e : Desc), s.cryIs 0x54 q e ∧ 2 ^ 24 ≤ dw e.bytes 6) :=
  ⟨⟨(live (fun d => { d with she := { slots := [(255, { usage := 2, expo := false, origin := 0, owner := 0, refs := 0, key := List.replicate 32 7 })] } })).dev, [(255,
      4)], 255, 4, { usage := 2, expo := false, origin := 0, owner := 0, refs := 0, key := List.replicate 32 7 }, by decide +kernel⟩,
  ⟨(live (fun d => { d with she := { slots := [(255, { usage := 2, expo := false, origin := 0, owner := 4, refs := 0, key := List.replicate 32 7 })] } })).dev, 3, [(255,
      2)], none, (by intro e h k q; cases List.mem_singleton.1 h; exact .inr (by have r := Option.some.inj q; subst r; rfl)), (.inl ⟨(255, 2), by decide, fun h => absurd (h _ rfl) (by decide)⟩)⟩,
  ⟨(live (fun d => { d with she := { slots := [] } })).dev, 3, [(254, 2)], some 7, (by intro e h k q; cases List.mem_singleton.1 h; cases q),
      (⟨(by intro e h k q; cases List.mem_singleton.1 h; cases q), (by intro n h k q; cases h; cases q)⟩), by decide +kernel⟩,
  ⟨(live (fun d => { d with she := { slots := [(255, { usage := 2, expo := false, origin := 0, owner := 4, refs := 0, key := List.replicate 32 7 })] } })).dev, 0, [(255,
      2)], 255, (by intro e h k q; cases List.mem_singleton.1 h; exact .inr (by have r := Option.some.inj q; subst r; rfl)), (⟨fun _ _ _ _ => .inl rfl,
      fun _ _ _ _ => .inl rfl⟩), by decide +kernel⟩,
  ⟨(live (fun d => { d with she := { slots := [(255, { usage := 2, expo := false, origin := 0, owner := 4, refs := 0, key := List.replicate 32 7 })] } })).dev, 4, [(255,
      2)], some 7, (by intro e h k q; cases List.mem_singleton.1 h; exact .inr (by have r := Option.some.inj q; subst r; rfl)),
      (⟨(by intro e h k q; cases List.mem_singleton.1 h; exact .inr (by have r := Option.some.inj q; subst r; rfl)), (by intro n h k q; cases h; cases q)⟩),
      (by intro n h; cases h; decide +kernel), by decide +kernel⟩,
  ⟨live (fun d => { d with hif := { qps := [(9, { st := .active, kind := 3, sqDepth := 64, cqDepth := 64, descs := [{ id := 4, bytes := dsc [80, 255, 4096, 0, 8192, 0, 33, 20, 12288, 0, 1, 2, 3, 0, 0, 0], gen := 1 }] })] }, she := { rng := .ready, slots := [(255, { usage := 2, expo := false, origin := 0, owner := 0, refs := 0, key := List.replicate 32 7 })] } }),
      9, { id := 4, bytes := dsc [80, 255, 4096, 0, 8192, 0, 33, 20, 12288, 0, 1, 2, 3, 0, 0, 0], gen := 1 },
      { usage := 2, expo := false, origin := 0, owner := 0, refs := 0, key := List.replicate 32 7 }, cryIs_of (by decide +kernel), by decide +kernel⟩,
  ⟨live (fun d => { d with hif := { qps := [(9, { st := .active, kind := 3, sqDepth := 64, cqDepth := 64, descs := [{ id := 4, bytes := dsc [81, 255, 4096, 0, 8192, 0, 33, 20, 12288, 0, 1, 2, 3, 0, 0, 0], gen := 1 }] })] }, she := { rng := .ready, slots := [(255, { usage := 2, expo := false, origin := 0, owner := 0, refs := 0, key := List.replicate 32 7 })] } }),
      9, { id := 4, bytes := dsc [81, 255, 4096, 0, 8192, 0, 33, 20, 12288, 0, 1, 2, 3, 0, 0, 0], gen := 1 },
      { usage := 2, expo := false, origin := 0, owner := 0, refs := 0, key := List.replicate 32 7 }, cryIs_of (by decide +kernel), by decide +kernel⟩,
  ⟨live (fun d => { d with hif := { qps := [(9, { st := .active, kind := 3, sqDepth := 64, cqDepth := 64, descs := [{ id := 4, bytes := dsc [82, 255, 4096, 0, 8192, 0, 48, 65536, 0, 0, 5, 6, 7, 8, 0, 0], gen := 1 }] })] }, she := { rng := .ready, slots := [(255, { usage := 3, expo := false, origin := 0, owner := 0, refs := 0, key := List.replicate 32 7 })] } }),
      9, { id := 4, bytes := dsc [82, 255, 4096, 0, 8192, 0, 48, 65536, 0, 0, 5, 6, 7, 8, 0, 0], gen := 1 },
      { usage := 3, expo := false, origin := 0, owner := 0, refs := 0, key := List.replicate 32 7 }, cryIs_of (by decide +kernel), by decide +kernel⟩,
  ⟨live (fun d => { d with hif := { qps := [(9, { st := .active, kind := 3, sqDepth := 64, cqDepth := 64, descs := [{ id := 4, bytes := dsc [83, 255, 4096, 0, 8192, 0, 48, 131072, 0, 0, 5, 6, 7, 8, 0, 0], gen := 1 }] })] }, she := { rng := .ready, slots := [(255, { usage := 3, expo := false, origin := 0, owner := 0, refs := 0, key := List.replicate 32 7 })] } }),
      9, { id := 4, bytes := dsc [83, 255, 4096, 0, 8192, 0, 48, 131072, 0, 0, 5, 6, 7, 8, 0, 0], gen := 1 },
      { usage := 3, expo := false, origin := 0, owner := 0, refs := 0, key := List.replicate 32 7 }, cryIs_of (by decide +kernel), by decide +kernel⟩,
  ⟨live (fun d => { d with hif := { qps := [(9, { st := .active, kind := 3, sqDepth := 64, cqDepth := 64, descs := [{ id := 4, bytes := dsc [84, 255, 4096, 0, 8192, 0, 33, 0, 0, 0, 5, 6, 7, 8, 0, 0], gen := 1 }] })] }, she := { rng := .ready, slots := [(255, { usage := 4, expo := false, origin := 0, owner := 0, refs := 0, key := List.replicate 32 7 })] } }),
      9, { id := 4, bytes := dsc [84, 255, 4096, 0, 8192, 0, 33, 0, 0, 0, 5, 6, 7, 8, 0, 0], gen := 1 },
      { usage := 4, expo := false, origin := 0, owner := 0, refs := 0, key := List.replicate 32 7 }, cryIs_of (by decide +kernel), by decide +kernel⟩,
  ⟨live (fun d => { d with hif := { qps := [(9, { st := .active, kind := 3, sqDepth := 64, cqDepth := 64, descs := [{ id := 4, bytes := dsc [592, 255, 4096, 0, 8192, 0, 33, 20, 12288, 0, 1, 2, 3, 0, 0, 0], gen := 1 }] })] }, she := { rng := .ready, slots := [(255, { usage := 2, expo := false, origin := 0, owner := 0, refs := 0, key := List.replicate 32 7 })] } }),
      9, { id := 4, bytes := dsc [592, 255, 4096, 0, 8192, 0, 33, 20, 12288, 0, 1, 2, 3, 0, 0, 0], gen := 1 }, cryIs_of (by decide +kernel), by decide +kernel⟩,
  ⟨live (fun d => { d with hif := { qps := [(9, { st := .active, kind := 3, sqDepth := 64, cqDepth := 64, descs := [{ id := 4, bytes := dsc [81, 255, 4096, 0, 8192, 0, 33, 65536, 12288, 0, 1, 2, 3, 0, 0, 0], gen := 1 }] })] }, she := { rng := .ready, slots := [(255, { usage := 2, expo := false, origin := 0, owner := 0, refs := 0, key := List.replicate 32 7 })] } }),
      9, { id := 4, bytes := dsc [81, 255, 4096, 0, 8192, 0, 33, 65536, 12288, 0, 1, 2, 3, 0, 0, 0], gen := 1 }, cryIs_of (by decide +kernel), by decide +kernel⟩,
  ⟨live (fun d => { d with hif := { qps := [(9, { st := .active, kind := 3, sqDepth := 64, cqDepth := 64, descs := [{ id := 4, bytes := dsc [82, 255, 4096, 0, 8192, 0, 40, 0, 0, 0, 5, 6, 7, 8, 0, 0], gen := 1 }] })] }, she := { rng := .ready, slots := [(255, { usage := 3, expo := false, origin := 0, owner := 0, refs := 0, key := List.replicate 32 7 })] } }),
      9, { id := 4, bytes := dsc [82, 255, 4096, 0, 8192, 0, 40, 0, 0, 0, 5, 6, 7, 8, 0, 0], gen := 1 }, cryIs_of (by decide +kernel), by decide +kernel⟩,
  ⟨live (fun d => { d with hif := { qps := [(9, { st := .active, kind := 3, sqDepth := 64, cqDepth := 64, descs := [{ id := 4, bytes := dsc [83, 255, 4096, 0, 8192, 0, 0, 0, 0, 0, 5, 6, 7, 8, 0, 0], gen := 1 }] })] }, she := { rng := .ready, slots := [(255, { usage := 3, expo := false, origin := 0, owner := 0, refs := 0, key := List.replicate 32 7 })] } }),
      9, { id := 4, bytes := dsc [83, 255, 4096, 0, 8192, 0, 0, 0, 0, 0, 5, 6, 7, 8, 0, 0], gen := 1 }, cryIs_of (by decide +kernel), by decide +kernel⟩,
  ⟨live (fun d => { d with hif := { qps := [(9, { st := .active, kind := 3, sqDepth := 64, cqDepth := 64, descs := [{ id := 4, bytes := dsc [80], gen := 1 }], capstan := true })] }, she := { rng := .ready, ops := [{ q := 9, desc := 4, gen := 1, core := false, hard := false, engine := 0, len := 16, status := 0, written := 16, outs := [(0x10000040, [1, 2])] }] } }),
      9, 4, { q := 9, desc := 4, gen := 1, core := false, hard := false, engine := 0, len := 16, status := 0, written := 16, outs := [(0x10000040, [1, 2])] }, 0x10000040, [1,
      2], rfl, by decide +kernel⟩,
  ⟨live (fun d => { d with hif := { qps := [(9, { st := .active, kind := 3, sqDepth := 64, cqDepth := 64, descs := [{ id := 4, bytes := dsc [84, 255, 4096, 0, 8192, 0, 16777216, 0, 0, 0, 5, 6, 7, 8, 0, 0], gen := 1 }] })] }, she := { rng := .ready, slots := [(255, { usage := 4, expo := false, origin := 0, owner := 0, refs := 0, key := List.replicate 32 7 })] } }),
      9, { id := 4, bytes := dsc [84, 255, 4096, 0, 8192, 0, 16777216, 0, 0, 0, 5, 6, 7, 8, 0, 0], gen := 1 }, cryIs_of (by decide +kernel), by decide +kernel⟩⟩

theorem test_hypotheses_KeyDescriptors :
    (∃ (s : State) (q : Nat) (e : Desc) (k : KeySlot), s.cryIs 0x60 q e ∧ cryFlagsOk e.bytes = true ∧ dw e.bytes 1 < 2 ^ 21 ∧ 1 ≤ bits (dw e.bytes 1) 16 4 
      ∧ bits (dw e.bytes 1) 16 4 ≤ 5 ∧ dw e.bytes 6 = slotKeyBytes (bits (dw e.bytes 1) 16 4) + 8 ∧ zeros e.bytes [4, 5, 7, 8, 9, 10, 11, 12, 13, 14, 15] = true 
      ∧ Map.find s.dev.she.slots (bits (dw e.bytes 1) 8 8) = some k ∧ k.usage = 1 ∧ ((s.dev.qp q).slice = 0 ∨ k.owner = (s.dev.qp q).slice) 
      ∧ Map.find s.dev.she.slots (bits (dw e.bytes 1) 0 8) = none ∧ s.dev.she.installing (bits (dw e.bytes 1) 0 8) = false ∧ s.dev.she.rng = .ready)
    ∧ (∃ (s : State) (q : Nat) (e : Desc), s.cryIs 0x61 q e ∧ cryFlagsOk e.bytes = true ∧ dw e.bytes 1 < 2 ^ 21 ∧ bits (dw e.bytes 1) 8 8 = 0 
      ∧ 1 ≤ bits (dw e.bytes 1) 16 4 ∧ bits (dw e.bytes 1) 16 4 ≤ 5 ∧ zeros e.bytes [2, 3, 4, 5, 6, 7, 8, 9, 10, 11, 12, 13, 14, 15] = true 
      ∧ Map.find s.dev.she.slots (bits (dw e.bytes 1) 0 8) = none ∧ s.dev.she.installing (bits (dw e.bytes 1) 0 8) = false ∧ s.dev.she.rng = .ready)
    ∧ (∃ (s : State) (q : Nat) (e : Desc) (k : KeySlot) (m : KeySlot), s.cryIs 0x62 q e ∧ cryFlagsOk e.bytes = true ∧ dw e.bytes 1 < 65536 
      ∧ Map.find s.dev.she.slots (bits (dw e.bytes 1) 0 8) = some k ∧ k.expo = true ∧ zeros e.bytes [2, 3, 6, 7, 8, 9, 10, 11, 12, 13, 14, 15] = true 
      ∧ Map.find s.dev.she.slots (bits (dw e.bytes 1) 8 8) = some m ∧ m.usage = 1 ∧ s.dev.she.rng = .ready ∧ ((s.dev.qp q).slice = 0 ∨ k.owner = (s.dev.qp q).slice ∧ m.owner = (s.dev.qp q).slice))
    ∧ (∃ (s : State) (q : Nat) (e : Desc) (k : KeySlot), s.cryIs 0x62 q e ∧ Map.find s.dev.she.slots (bits (dw e.bytes 1) 0 8) = some k ∧ k.expo = false)
    ∧ (∃ (s : State) (q : Nat) (e : Desc) (k : KeySlot), s.cryIs 0x63 q e ∧ cryFlagsOk e.bytes = true ∧ dw e.bytes 1 < 256 
      ∧ Map.find s.dev.she.slots (bits (dw e.bytes 1) 0 8) = some k ∧ k.refs = 0 ∧ s.dev.slotBusy (bits (dw e.bytes 1) 0 8) = false ∧ zeros e.bytes [2, 3, 4, 5, 6, 7, 8, 9, 10,
      11, 12, 13, 14, 15] = true ∧ ((s.dev.qp q).slice = 0 ∨ k.owner = (s.dev.qp q).slice) ∧ s.dev.she.rng = .ready)
    ∧ (∃ (s : State) (q : Nat) (e : Desc) (k : KeySlot), s.cryIs 0x63 q e ∧ Map.find s.dev.she.slots (bits (dw e.bytes 1) 0 8) = some k ∧ (k.refs ≠ 0 ∨ s.dev.slotBusy (bits (dw e.bytes 1) 0 8) = true))
    ∧ (∃ (s : State) (q : Nat) (e : Desc) (k : KeySlot), s.cryIs 0x64 q e ∧ cryFlagsOk e.bytes = true ∧ (s.dev.qp q).slice = 0 ∧ bits (dw e.bytes 1) 0 8 < s.dev.lanes 
      ∧ bits (dw e.bytes 1) 18 6 = 0 ∧ dw e.bytes 10 < 2 ^ 30 ∧ zeros e.bytes [11, 12, 13, 14, 15] = true ∧ bit (dw e.bytes 1) 16 = true 
      ∧ Map.find s.dev.she.slots (bits (dw e.bytes 1) 24 8) = some k ∧ k.usage = 5 ∧ Map.find s.dev.she.sas (32 * bits (dw e.bytes 1) 0 8 + bits (dw e.bytes 1) 8 5) = none)
    ∧ (∃ (s : State) (q : Nat) (e : Desc) (a : Sa) (k : KeySlot), s.cryIs 0x64 q e ∧ cryFlagsOk e.bytes = true ∧ (s.dev.qp q).slice = 0 
      ∧ bits (dw e.bytes 1) 0 8 < s.dev.lanes ∧ bits (dw e.bytes 1) 18 6 = 0 ∧ dw e.bytes 10 < 2 ^ 30 ∧ zeros e.bytes [11, 12, 13, 14, 15] = true 
      ∧ bit (dw e.bytes 1) 16 = false ∧ Map.find s.dev.she.sas (32 * bits (dw e.bytes 1) 0 8 + bits (dw e.bytes 1) 8 5) = some a ∧ a.keyed = true ∧ Map.find s.dev.she.slots a.slot = some k)
    ∧ (∃ (s : State) (q : Nat) (e : Desc), s.cryIs 0x64 q e ∧ (s.dev.qp q).slice ≠ 0)
    ∧ (∃ (s : State) (q : Nat) (id : Nat) (o : CryOp), s.live ∧ q < 65536 ∧ (s.dev.she.ops.find? (fun o => o.q == q && o.desc == id) = some o) ∧ o.gen ≠ s.dev.sliceGen (s.dev.qp q).slice)
    ∧ (∃ (s : State) (q : Nat) (id : Nat) (o : CryOp), s.live ∧ q < 65536 ∧ (s.dev.she.ops.find? (fun o => o.q == q && o.desc == id) = some o) 
      ∧ o.gen = s.dev.sliceGen (s.dev.qp q).slice ∧ o.core = true)
    ∧ (∃ (s : State) (q : Nat) (id : Nat) (o : CryOp) (a : Nat) (bs : List Byte), s.live ∧ q < 65536 ∧ (s.dev.she.ops.find? (fun o => o.q == q && o.desc == id) = some o) 
      ∧ o.gen = s.dev.sliceGen (s.dev.qp q).slice ∧ o.core = false ∧ o.outs = [(a, bs)] ∧ o.install = none ∧ o.zero = none)
    ∧ (∃ (s : State) (q : Nat) (id : Nat) (o : CryOp), s.live ∧ q < 65536 ∧ (s.dev.she.ops.find? (fun o => o.q == q && o.desc == id) = some o) ∧ o.hard = true 
      ∧ s.dev.she.faults = 2 ∧ s.dev.she.life ≠ 0)
    ∧ (∃ (s : State) (q : Nat) (id : Nat) (o : CryOp), s.live ∧ q < 65536 ∧ (s.dev.she.ops.find? (fun o => o.q == q && o.desc == id) = some o) ∧ o.hard = true ∧ s.dev.she.faults < 2) :=
  ⟨⟨live (fun d => { d with hif := { qps := [(9, { st := .active, kind := 3, sqDepth := 64, cqDepth := 64, descs := [{ id := 4, bytes := dsc [96, 1441790, 4096, 0, 0, 0, 40], gen := 1 }] })] }, she := { rng := .ready, slots := [(255, { usage := 1, expo := false, origin := 0, owner := 0, refs := 0, key := List.replicate 32 7 })] } }),
      9, { id := 4, bytes := dsc [96, 1441790, 4096, 0, 0, 0, 40], gen := 1 }, { usage := 1, expo := false, origin := 0, owner := 0, refs := 0, key := List.replicate 32 7 },
      cryIs_of (by decide +kernel), by decide +kernel⟩,
  ⟨live (fun d => { d with hif := { qps := [(9, { st := .active, kind := 3, sqDepth := 64, cqDepth := 64, descs := [{ id := 4, bytes := dsc [97, 196862], gen := 1 }] })] }, she := { rng := .ready } }),
      9, { id := 4, bytes := dsc [97, 196862], gen := 1 }, cryIs_of (by decide +kernel), by decide +kernel⟩,
  ⟨live (fun d => { d with hif := { qps := [(9, { st := .active, kind := 3, sqDepth := 64, cqDepth := 64, descs := [{ id := 4, bytes := dsc [98, 65534, 0, 0, 8192, 0], gen := 1 }] })] }, she := { rng := .ready, slots := [(254, { usage := 2, expo := true, origin := 0, owner := 0, refs := 0, key := List.replicate 32 7 }), (255, { usage := 1, expo := false, origin := 0, owner := 0, refs := 0, key := List.replicate 32 7 })] } }),
      9, { id := 4, bytes := dsc [98, 65534, 0, 0, 8192, 0], gen := 1 }, { usage := 2, expo := true, origin := 0, owner := 0, refs := 0, key := List.replicate 32 7 },
      { usage := 1, expo := false, origin := 0, owner := 0, refs := 0, key := List.replicate 32 7 }, cryIs_of (by decide +kernel), by decide +kernel⟩,
  ⟨live (fun d => { d with hif := { qps := [(9, { st := .active, kind := 3, sqDepth := 64, cqDepth := 64, descs := [{ id := 4, bytes := dsc [98, 65534, 0, 0, 8192, 0], gen := 1 }] })] }, she := { rng := .ready, slots := [(254, { usage := 2, expo := false, origin := 0, owner := 0, refs := 0, key := List.replicate 32 7 }), (255, { usage := 1, expo := false, origin := 0, owner := 0, refs := 0, key := List.replicate 32 7 })] } }),
      9, { id := 4, bytes := dsc [98, 65534, 0, 0, 8192, 0], gen := 1 }, { usage := 2, expo := false, origin := 0, owner := 0, refs := 0, key := List.replicate 32 7 },
      cryIs_of (by decide +kernel), by decide +kernel⟩,
  ⟨live (fun d => { d with hif := { qps := [(9, { st := .active, kind := 3, sqDepth := 64, cqDepth := 64, descs := [{ id := 4, bytes := dsc [99, 254], gen := 1 }] })] }, she := { rng := .ready, slots := [(254, { usage := 2, expo := false, origin := 0, owner := 0, refs := 0, key := List.replicate 32 7 })] } }),
      9, { id := 4, bytes := dsc [99, 254], gen := 1 }, { usage := 2, expo := false, origin := 0, owner := 0, refs := 0, key := List.replicate 32 7 },
      cryIs_of (by decide +kernel), by decide +kernel⟩,
  ⟨live (fun d => { d with hif := { qps := [(9, { st := .active, kind := 3, sqDepth := 64, cqDepth := 64, descs := [{ id := 4, bytes := dsc [99, 254], gen := 1 }] })] }, she := { rng := .ready, slots := [(254, { usage := 2, expo := false, origin := 0, owner := 0, refs := 1, key := List.replicate 32 7 })] } }),
      9, { id := 4, bytes := dsc [99, 254], gen := 1 }, { usage := 2, expo := false, origin := 0, owner := 0, refs := 1, key := List.replicate 32 7 },
      cryIs_of (by decide +kernel), by decide +kernel⟩,
  ⟨live (fun d => { d with hif := { qps := [(9, { st := .active, kind := 3, sqDepth := 64, cqDepth := 64, descs := [{ id := 4, bytes := dsc [100, 4261543683, 5, 6, 7, 8, 9, 10, 11, 0, 13], gen := 1 }] })] }, she := { rng := .ready, slots := [(254, { usage := 5, expo := false, origin := 0, owner := 0, refs := 2, key := List.replicate 32 7 })] } }),
      9, { id := 4, bytes := dsc [100, 4261543683, 5, 6, 7, 8, 9, 10, 11, 0, 13], gen := 1 },
      { usage := 5, expo := false, origin := 0, owner := 0, refs := 2, key := List.replicate 32 7 }, cryIs_of (by decide +kernel), by decide +kernel⟩,
  ⟨live (fun d => { d with hif := { qps := [(9, { st := .active, kind := 3, sqDepth := 64, cqDepth := 64, descs := [{ id := 4, bytes := dsc [100, 65283, 5, 6, 7, 8, 9, 10, 11, 0, 13], gen := 1 }] })] }, she := { rng := .ready, slots := [(254, { usage := 5, expo := false, origin := 0, owner := 0, refs := 2, key := List.replicate 32 7 })], sas := [(32 * 3 + 31, { rx := true, an := 3, slot := 254, sci := 5, ssci := 6, salt := [], pn := 9, window := 3 })] } }),
      9, { id := 4, bytes := dsc [100, 65283, 5, 6, 7, 8, 9, 10, 11, 0, 13], gen := 1 },
      { rx := true, an := 3, slot := 254, sci := 5, ssci := 6, salt := [], pn := 9, window := 3 },
      { usage := 5, expo := false, origin := 0, owner := 0, refs := 2, key := List.replicate 32 7 }, cryIs_of (by decide +kernel), by decide +kernel⟩,
  ⟨live (fun d => { d with hif := { qps := [(9, { st := .active, kind := 3, sqDepth := 64, cqDepth := 64, descs := [{ id := 4, bytes := dsc [100, 4261543683, 5, 6, 7, 8, 9, 10, 11, 0, 13], gen := 1 }], slice := 3 })] }, she := { rng := .ready } }),
      9, { id := 4, bytes := dsc [100, 4261543683, 5, 6, 7, 8, 9, 10, 11, 0, 13], gen := 1 }, cryIs_of (by decide +kernel), by decide +kernel⟩,
  ⟨live (fun d => { d with hif := { qps := [(9, { st := .active, kind := 3, sqDepth := 64, cqDepth := 64, descs := [{ id := 4, bytes := dsc [80], gen := 1 }] })] }, she := { rng := .ready, ops := [{ q := 9, desc := 4, gen := 7, core := false, hard := false, engine := 0, len := 16, status := 0, written := 16, outs := [] }] } }),
      9, 4, { q := 9, desc := 4, gen := 7, core := false, hard := false, engine := 0, len := 16, status := 0, written := 16, outs := [] }, rfl, by decide +kernel⟩,
  ⟨live (fun d => { d with hif := { qps := [(9, { st := .active, kind := 3, sqDepth := 64, cqDepth := 64, descs := [{ id := 4, bytes := dsc [80], gen := 1 }] })] }, she := { rng := .ready, ops := [{ q := 9, desc := 4, gen := 1, core := true, hard := false, engine := 0, len := 16, status := 0, written := 16, outs := [], install := some (7, { usage := 2, expo := false, origin := 0, owner := 0, refs := 0, key := List.replicate 32 7 }) }] } }),
      9, 4,
      { q := 9, desc := 4, gen := 1, core := true, hard := false, engine := 0, len := 16, status := 0, written := 16, outs := [], install := some (7, { usage := 2, expo := false, origin := 0, owner := 0, refs := 0, key := List.replicate 32 7 }) },
      rfl, by decide +kernel⟩,
  ⟨live (fun d => { d with hif := { qps := [(9, { st := .active, kind := 3, sqDepth := 64, cqDepth := 64, descs := [{ id := 4, bytes := dsc [80], gen := 1 }] })] }, she := { rng := .ready, ops := [{ q := 9, desc := 4, gen := 1, core := false, hard := false, engine := 0, len := 16, status := 0, written := 16, outs := [(0x2000, [1, 2])] }] } }),
      9, 4, { q := 9, desc := 4, gen := 1, core := false, hard := false, engine := 0, len := 16, status := 0, written := 16, outs := [(0x2000, [1, 2])] }, 0x2000, [1, 2], rfl, by decide +kernel⟩,
  ⟨live (fun d => { d with hif := { qps := [(9, { st := .active, kind := 3, sqDepth := 64, cqDepth := 64, descs := [{ id := 4, bytes := dsc [80], gen := 1 }] })] }, she := { rng := .ready, ops := [{ q := 9, desc := 4, gen := 1, core := false, hard := true, engine := 0, len := 16, status := 0, written := 16, outs := [] }], faults := 2, life := 1 } }),
      9, 4, { q := 9, desc := 4, gen := 1, core := false, hard := true, engine := 0, len := 16, status := 0, written := 16, outs := [] }, rfl, by decide +kernel⟩,
  ⟨live (fun d => { d with hif := { qps := [(9, { st := .active, kind := 3, sqDepth := 64, cqDepth := 64, descs := [{ id := 4, bytes := dsc [80], gen := 1 }] })] }, she := { rng := .ready, ops := [{ q := 9, desc := 4, gen := 1, core := false, hard := true, engine := 0, len := 16, status := 0, written := 16, outs := [] }], faults := 1 } }),
      9, 4, { q := 9, desc := 4, gen := 1, core := false, hard := true, engine := 0, len := 16, status := 0, written := 16, outs := [] }, rfl, by decide +kernel⟩⟩

theorem test_hypotheses_TamperAndLifecycle :
    (∃ (s : State) (src : Nat), s.live ∧ src < 256 ∧ s.dev.she.life ≠ 0 ∧ s.dev.boot.st = .opened ∧ bit s.dev.she.policy 1 = false 
      ∧ tamperSources 0xFF (bits s.dev.she.policy 8 4) src ≠ 0 ∧ s.dev.she.ops = [])
    ∧ (∃ (s : State) (src : Nat), s.live ∧ src < 256 ∧ s.dev.she.life = 1 ∧ s.dev.boot.st ≠ .opened ∧ tamperSources 0xFF (bits s.dev.she.policy 8 4) src ≠ 0 ∧ s.dev.she.ops = [])
    ∧ (∃ (s : State) (src : Nat), s.live ∧ src < 256 ∧ s.dev.she.life = 0 ∧ tamperSources 0xFF (bits s.dev.she.policy 8 4) src ≠ 0)
    ∧ (∃ (s : State) (src : Nat) (life : Nat) (en : Nat), src < 256 ∧ s.dev.boot.held = true ∧ s.dev.she.armed = some (life, en) ∧ life ≠ 0 ∧ tamperSources 0x6F en src ≠ 0 ∧ s.dev.she.ops = [])
    ∧ (∃ (s : State) (src : Nat), s.live ∧ src < 256 ∧ tamperSources 0xFF (bits s.dev.she.policy 8 4) src = 0)
    ∧ (∃ (s : State), s.live ∧ s.dev.she.fuseDue = true)
    ∧ (∃ (s : State), s.live ∧ s.dev.she.rng = .notReady)
    ∧ (∃ (s : State), s.live ∧ (s.dev.she.rng = .notReady ∨ s.dev.she.rng = .ready))
    ∧ (∃ (s : State), s.live ∧ s.dev.she.rng = .ready ∧ 2 ^ 20 ≤ s.dev.she.draws)
    ∧ (∃ (s : State) (t : LcToken), s.live ∧ s.dev.tokenOk t = false)
    ∧ (∃ (s : State) (t : LcToken), s.live ∧ s.dev.tokenOk t = true ∧ t.kind = .provision ∧ s.dev.she.life = 0 ∧ s.dev.she.rng = .ready)
    ∧ (∃ (s : State) (t : LcToken), s.live ∧ t.kind = .lockdown ∧ s.dev.she.life = 1)
    ∧ (∃ (s : State) (t : LcToken), s.live ∧ s.dev.tokenOk t = true ∧ t.kind = .recover ∧ s.dev.she.life = 2 ∧ s.dev.she.fuses.recovery < 32)
    ∧ (∃ (s : State) (t : LcToken), s.live ∧ s.dev.tokenOk t = true ∧ t.kind = .retire ∧ s.dev.she.life ≠ 3)
    ∧ (∃ (s : State) (t : LcToken), s.live ∧ s.dev.tokenOk t = true ∧ t.kind = .debug ∧ s.dev.she.life = 1 ∧ bit s.dev.she.policy 2 = true)
    ∧ (∃ (f : Fuses), f.lockdown < 32)
    ∧ (∃ (f : Fuses), f.secured = true ∧ f.retired = false ∧ f.recovery ≤ f.lockdown ∧ f.lockdown < 32) :=
  ⟨⟨live (fun d => { d with she := { life := 1, rng := .ready, policy := 0xF0, slots := [(254, { usage := 2, expo := false, origin := 0, owner := 0, refs := 0, key := List.replicate 32 7 })] } }),
      255, rfl, by decide +kernel⟩,
  ⟨live (fun d => { d with she := { life := 1, rng := .ready, policy := 0xF0, slots := [(254, { usage := 2, expo := false, origin := 0, owner := 0, refs := 0, key := List.replicate 32 7 })] }, boot := { held := false, gated := true, st := .verify } }),
      255, rfl, by decide +kernel⟩,
  ⟨live (fun d => { d with she := { life := 0, rng := .ready, policy := 0xF0, slots := [(254, { usage := 2, expo := false, origin := 0, owner := 0, refs := 0, key := List.replicate 32 7 })] } }),
      255, rfl, by decide +kernel⟩,
  ⟨(State.mk { boot := { held := true }, she := { armed := some (1, 15), rng := .ready, slots := [(254, { usage := 2, expo := false, origin := 0, owner := 0, refs := 0, key := List.replicate 32 7 })] } } [] none []),
      255, 1, 15, by decide +kernel⟩,
  ⟨live (fun d => { d with she := { life := 1, policy := 0 } }), 7, rfl, by decide +kernel⟩,
  ⟨live (fun d => { d with she := { fuseDue := true, fuses := { lockdown := 31 } } }), rfl, by decide +kernel⟩,
  ⟨live (fun d => { d with she := { rng := .notReady, nonced := true, nonce := 4 } }), rfl, by decide +kernel⟩,
  ⟨live (fun d => { d with she := { rng := .ready, health := 2 } }), rfl, by decide +kernel⟩,
  ⟨live (fun d => { d with she := { rng := .ready, draws := 2 ^ 20 } }), rfl, by decide +kernel⟩,
  ⟨live (fun d => { d with she := { nonce := 9, fuses := { deviceId := 5, owner0 := 3 } } }),
      { kind := .provision, signer := 0, sigOk := false, deviceId := 5, nonce := 9, owner0 := 6, policy := 4 }, rfl, by decide +kernel⟩,
  ⟨live (fun d => { d with she := { nonce := 9, fuses := { deviceId := 5, owner0 := 3 }, rng := .ready } }),
      { kind := .provision, signer := 0, sigOk := true, deviceId := 5, nonce := 9, owner0 := 6, policy := 4 }, rfl, by decide +kernel⟩,
  ⟨live (fun d => { d with she := { life := 1 } }), { kind := .lockdown, signer := 1, sigOk := false, deviceId := 5, nonce := 9, owner0 := 6, policy := 4 }, rfl, by decide +kernel⟩,
  ⟨live (fun d => { d with she := { life := 2, nonce := 9, fuses := { deviceId := 5, owner0 := 3, recovery := 31, lockdown := 32 } } }),
      { kind := .recover, signer := 1, sigOk := true, deviceId := 5, nonce := 9, owner0 := 6, policy := 4 }, rfl, by decide +kernel⟩,
  ⟨live (fun d => { d with she := { life := 2, nonce := 9, fuses := { deviceId := 5, owner0 := 3 } } }),
      { kind := .retire, signer := 0, sigOk := true, deviceId := 5, nonce := 9, owner0 := 6, policy := 4 }, rfl, by decide +kernel⟩,
  ⟨live (fun d => { d with she := { life := 1, policy := 4, nonce := 9, fuses := { deviceId := 5, owner0 := 3 } } }),
      { kind := .debug, signer := 1, sigOk := true, deviceId := 5, nonce := 9, owner0 := 6, policy := 4 }, rfl, by decide +kernel⟩,
  ⟨{ lockdown := 31 }, by decide +kernel⟩,
  ⟨{ lockdown := 31, secured := true, recovery := 31 }, by decide +kernel⟩⟩

theorem test_hypotheses_RegisterAccesses :
    (∃ (s : State) (who : Nat) (off : Nat) (size : Nat) (v : Nat), s.live ∧ who < 64 ∧ ioOk who off size = true ∧ s.dev.coreMiss who off size = false ∧ v < 2 ^ 64 
      ∧ off < 0x2000000 ∧ (s.dev.hasGlobal who = false ∨ (0x1900000 ≤ off ∧ off < 0x1C00000)))
    ∧ (∃ (s : State) (who : Nat) (off : Nat) (size : Nat) (v : Nat), s.live ∧ 32 ≤ who ∧ who < 64 ∧ ioOk who off size = true ∧ s.dev.coreMiss who off size = true ∧ v < 2 ^ 64)
    ∧ (∃ (s : State) (who : Nat) (off : Nat) (v : Nat), s.live ∧ who < 64 ∧ v < 2 ^ 64 ∧ 0x2000000 ≤ off ∧ off < 0x3F00000 ∧ (who < 32 ∨ off % 8 = 0))
    ∧ (∃ (s : State) (who : Nat) (k : Nat) (v : Nat), s.live ∧ who < 32 ∧ k < 2048 ∧ v < 2 ^ 64 ∧ bit v 0 = true ∧ k ∉ (s.dev.fn who).masked)
    ∧ (∃ (s : State) (who : Nat) (v : Nat), s.live ∧ 32 ≤ who ∧ who < 64 ∧ v < 2 ^ 64)
    ∧ (∃ (s : State) (who : Nat) (off : Nat) (k : Nat) (v : Nat), s.live ∧ who < 64 ∧ off % 4 = 0 ∧ ioOk who off 4 = true ∧ s.counterAt who off = some (k, v, 0))
    ∧ (∃ (s : State) (who : Nat) (off : Nat) (k : Nat) (v : Nat) (x : Nat) (h : W), s.live ∧ who < 64 ∧ off % 4 = 0 ∧ ioOk who off 4 = true 
      ∧ s.counterAt who off = some (k, v, x + 1) ∧ Map.find s.dev.hif.latches who = some (k, h))
    ∧ (∃ (s : State) (who : Nat) (off : Nat) (k : Nat) (v : Nat) (x : Nat), s.live ∧ (∀ h, Map.find s.dev.hif.latches who ≠ some (k, h)) ∧ who < 64 ∧ off % 4 = 0 
      ∧ ioOk who off 4 = true ∧ s.counterAt who off = some (k, v, x + 1))
    ∧ (∃ (s : State) (who : Nat), s.live ∧ who < 64 ∧ s.dev.hasGlobal who = true)
    ∧ (∃ (s : State) (who : Nat), s.live ∧ who < 64 ∧ s.dev.hasGlobal who = true)
    ∧ (∃ (s : State) (who : Nat), s.live ∧ 32 ≤ who ∧ who < 64)
    ∧ (∃ (s : State) (who : Nat) (off : Nat) (size : Nat), s.live ∧ who < 64 ∧ size ≤ 8 ∧ ioOk who off size = true ∧ off + size ≤ 0x3F00000 ∧ s.dev.hasGlobal who = false)
    ∧ (∃ (s : State) (who : Nat), s.live ∧ who < 64 ∧ s.dev.hasGlobal who = true)
    ∧ (∃ (s : State) (who : Nat) (q : Nat), s.live ∧ who < 64 ∧ q < 2048 ∧ s.rcAt who (Reg.coilEqPeak q) = true ∧ s.counterAt who (Reg.coilEqPeak q) = none)
    ∧ (∃ (s : State) (who : Nat) (off : Nat), s.live ∧ who < 64 ∧ off < 2 ^ 26 ∧ off % 4 = 0 ∧ s.rcAt who off = false)
    ∧ (∃ (s : State) (who : Nat) (v : Nat), s.live ∧ who < 64 ∧ v < 2 ^ 32 ∧ s.dev.hasGlobal who = true)
    ∧ (∃ (s : State) (who : Nat) (v : Nat) (be : Nat), s.live ∧ who < 64 ∧ v < 2 ^ 32 ∧ be < 16 ∧ s.dev.hasGlobal who = false)
    ∧ (∃ (s : State) (who : Nat) (v : Nat), s.live ∧ who < 64 ∧ v < 2 ^ 32 ∧ s.dev.hasGlobal who = true)
    ∧ (∃ (s : State) (who : Nat) (off : Nat) (v : Nat) (t : Nat) (l : Nat) (w : Nat), s.live ∧ who < 64 ∧ off < 2 ^ 22 ∧ off % 8 = 0 ∧ v < 2 ^ 64 
      ∧ s.dev.hasGlobal who = true ∧ rawAt (Map.getD s.dev.hif.rawSel who 0) off = some (t, l, w) ∧ w ≠ statusIdx t)
    ∧ (∃ (s : State) (who : Nat) (off : Nat) (v : Nat) (t : Nat) (l : Nat) (w : Nat), s.live ∧ who < 64 ∧ off < 2 ^ 22 ∧ off % 8 = 0 ∧ v < 2 ^ 64 
      ∧ s.dev.hasGlobal who = true ∧ rawAt (Map.getD s.dev.hif.rawSel who 0) off = some (t, l, w) ∧ w = statusIdx t ∧ s.dev.tbl.stale = [])
    ∧ (∃ (s : State) (who : Nat) (off : Nat) (v : Nat) (t : Nat) (l : Nat) (w : Nat), s.live ∧ who < 64 ∧ off < 2 ^ 22 ∧ off % 8 = 0 ∧ v < 2 ^ 64 
      ∧ s.dev.hasGlobal who = true ∧ rawAt (Map.getD s.dev.hif.rawSel who 0) off = some (t, l, w) ∧ w = statusIdx t ∧ (256 ≤ (s.dev.tbl.stale.filter fun x => s.dev.pclk < x.close).length))
    ∧ (∃ (s : State) (who : Nat) (off : Nat) (l : Nat) (x : Line), s.live ∧ who < 64 ∧ off < 2 ^ 22 ∧ off % 8 = 0 ∧ s.dev.hasGlobal who = true 
      ∧ rawAt (Map.getD s.dev.hif.rawSel who 0) off = some (0, l, 3) ∧ Map.find s.dev.tbl.mac l = some x ∧ x.mask < 16)
    ∧ (∃ (s : State) (who : Nat) (size : Nat) (v : Nat), s.live ∧ who < 64 ∧ 4 ≤ size ∧ size ≤ 8 ∧ ioOk who 0 size = true ∧ v < 2 ^ 32 ∧ s.dev.hasGlobal who = true ∧ s.dev.coreMiss who Reg.sheTamperLatch size = false)
    ∧ (∃ (s : State) (who : Nat) (size : Nat) (v : Nat), s.live ∧ who < 64 ∧ 4 ≤ size ∧ size ≤ 8 ∧ ioOk who 0 size = true ∧ v < 2 ^ 32 ∧ s.dev.hasGlobal who = true 
      ∧ s.dev.coreMiss who Reg.pwrTrip size = false ∧ bit v 0 = true)
    ∧ (∃ (s : State) (who : Nat) (size : Nat) (v : Nat), s.live ∧ who < 64 ∧ 4 ≤ size ∧ size ≤ 8 ∧ ioOk who 0 size = true ∧ v < 2 ^ 32 ∧ s.dev.hasGlobal who = true 
      ∧ s.dev.coreMiss who Reg.pwrTrip size = false ∧ bit v 0 = false)
    ∧ (∃ (s : State) (who : Nat) (size : Nat) (v : Nat), s.live ∧ who < 64 ∧ size ≤ 8 ∧ ioOk who 0 size = true ∧ v < 2 ^ 32 ∧ (s.dev.hasGlobal who = false ∨ size < 4) ∧ s.dev.coreMiss who Reg.sheTamperLatch size = false)
    ∧ (∃ (s : State) (who : Nat) (size : Nat) (v : Nat), s.live ∧ who < 64 ∧ size ≤ 8 ∧ ioOk who 0 size = true ∧ v < 2 ^ 32 ∧ (s.dev.hasGlobal who = false ∨ size < 4) ∧ s.dev.coreMiss who Reg.pwrTrip size = false)
    ∧ (∃ (s : State) (who : Nat) (off : Nat) (bs : List Byte), s.live ∧ s.memWf = true ∧ who < 32 ∧ 0x2000000 ≤ off ∧ off + bs.length ≤ 0x3F00000 ∧ bs.length ≤ 64 
      ∧ bs ≠ [] ∧ s.dev.hasGlobal who = true ∧ (s.dev.boot.st = .waitPush ∨ s.dev.boot.st = .recovery))
    ∧ (∃ (s : State) (who : Nat) (off : Nat) (bs : List Byte), s.live ∧ who < 64 ∧ 0x2000000 ≤ off ∧ off + bs.length ≤ 0x3F00000 ∧ ioOk who off bs.length = true 
      ∧ s.dev.coreMiss who off bs.length = false ∧ s.dev.boot.st ≠ .waitPush ∧ s.dev.boot.st ≠ .recovery) :=
  ⟨⟨live id, 63, 0x1900000, 8, 7, rfl, by decide +kernel⟩,
  ⟨live id, 63, 1, 8, 7, rfl, by decide +kernel⟩,
  ⟨live id, 63, 0x3EFFFF8, 7, rfl, by decide +kernel⟩,
  ⟨live id, 31, 2047, 1, rfl, by decide +kernel⟩,
  ⟨live id, 63, 77, rfl, by decide +kernel⟩,
  ⟨live (fun d => { d with hif := { fns := [(31, { errs := 2 ^ 40 + 5 })] } }), 31, 0x3F00010, 0x3F00010, 2 ^ 40 + 5, rfl, by decide +kernel⟩,
  ⟨live (fun d => { d with hif := { fns := [(31, { errs := 2 ^ 40 + 5 })], latches := [(31, (0x3F00010, 77))] } }), 31, 0x3F00014, 0x3F00010, 2 ^ 40 + 5, 3, 77, rfl, by decide +kernel⟩,
  ⟨live (fun d => { d with hif := { fns := [(31, { errs := 2 ^ 40 + 5 })] } }), 31, 0x3F00014, 0x3F00010, 2 ^ 40 + 5, 3, rfl, (fun _ q => nomatch q), by decide +kernel⟩,
  ⟨live (fun d => { d with path := { queues := [(2047, { peak := 9 })] } }), 0, rfl, by decide +kernel⟩,
  ⟨live id, 63, rfl, by decide +kernel⟩,
  ⟨live id, 63, rfl, by decide +kernel⟩,
  ⟨live id, 31, 0x3EFFFF8, 8, rfl, by decide +kernel⟩,
  ⟨live (fun d => { d with path := { peak := 9 } }), 0, rfl, by decide +kernel⟩,
  ⟨live (fun d => { d with path := { queues := [(2047, { peak := 9 })] } }), 0, 2047, rfl, by decide +kernel⟩,
  ⟨live id, 0, 4, rfl, by decide +kernel⟩,
  ⟨live id, 32, 2 ^ 32 - 1, rfl, by decide +kernel⟩,
  ⟨live id, 31, 0, 3, rfl, by decide +kernel⟩,
  ⟨live id, 0, 2 ^ 32 - 1, rfl, by decide +kernel⟩,
  ⟨live (fun d => { d with hif := { rawSel := [(32, 1792)] } }), 32, 2 ^ 22 - 16, 7, 0, 1048575, 2, rfl, by decide +kernel⟩,
  ⟨live (fun d => { d with hif := { rawSel := [(32, 1792)] } }), 32, 2 ^ 22 - 8, 7, 0, 1048575, 3, rfl, by decide +kernel⟩,
  ⟨live (fun d => { d with hif := { rawSel := [(32, 1792)] }, tbl := { stale := (List.range 256).map fun l => ⟨0, l, 9999⟩ } }), 32, 2 ^ 22 - 8, 7, 0, 1048575, 3, rfl, by decide +kernel⟩,
  ⟨live (fun d => { d with hif := { rawSel := [(32, 1792)] }, tbl := { mac := [(1048575, { key := 5, result := 6, mask := 7, hit := true })] } }), 32, 2 ^ 22 - 8, 1048575,
      { key := 5, result := 6, mask := 7, hit := true }, rfl, by decide +kernel⟩,
  ⟨live id, 0, 4, 2 ^ 32 - 1, rfl, by decide +kernel⟩,
  ⟨live id, 0, 4, 2 ^ 32 - 1, rfl, by decide +kernel⟩,
  ⟨live id, 0, 4, 2 ^ 32 - 2, rfl, by decide +kernel⟩,
  ⟨live id, 31, 8, 7, rfl, by decide +kernel⟩,
  ⟨live id, 31, 8, 7, rfl, by decide +kernel⟩,
  ⟨live (fun d => { d with boot := { held := false, gated := true, st := .waitPush } }), 0, 0x3F00000 - 2, [1, 2], rfl, by decide +kernel⟩,
  ⟨live id, 0, 0x3F00000 - 2, [1, 2], rfl, by decide +kernel⟩⟩

theorem test_hypotheses_StepRunsTheFrontCommand :
    (∃ (s : State), s.live ∧ s.pending = [])
    ∧ (∃ (s : State), s.pending = [] ∧ s.dev.boot.held = true) :=
  ⟨⟨live id, rfl, by decide +kernel⟩,
  ⟨State.reset, by decide +kernel⟩⟩

theorem test_hypotheses_ExactlyIllFormedCommandsAreRefused :
    (∃ (c : Instr), c.wf = false)
    ∧ (∃ (c : Instr), c.wf = true) :=
  ⟨⟨.perstAssert 4, by decide +kernel⟩,
  ⟨.perstAssert 3, by decide +kernel⟩⟩

theorem test_hypotheses_QueueInvariant :
    (∃ (s : State), s.queueWf)
    ∧ (∃ (s : State) (t : State), step s = .next t) :=
  ⟨⟨{ live id with pending := [.perstAssert 3] }, (by unfold State.queueWf; decide +kernel)⟩,
  ⟨{ live id with pending := [.perstAssert 3] }, match step { live id with pending := [.perstAssert 3] } with | .next t => t | _ => State.reset, (rfl)⟩⟩

theorem test_hypotheses_MemoryInvariant :
    (∃ (s : State) (t : State), step s = .next t ∧ s.memWf = true) :=
  ⟨{ live id with pending := [.perstAssert 3] }, match step { live id with pending := [.perstAssert 3] } with | .next t => t | _ => State.reset, (rfl), by decide +kernel⟩

theorem test_hypotheses_HeldMainDomainIsUnmoved :
    (∃ (c : Instr) (s : State), s.dev.boot.held = true ∧ c.wf = true ∧ actsInReset c = false) :=
  ⟨.hostLinkDown 3, State.reset, by decide +kernel⟩

theorem test_hypotheses_OperationWordsRoundTrip :
    (∃ (i : Instr) (w : BitVec 32), (∀ f e, i ≠ .nop f w e) ∧ (∀ f g rd size ix ra off e, i = .wld f g rd size ix ra off e → e = 0) ∧ (∀ f g rd size region ra imm e,
      i = .sld f g rd size region ra imm e → e = 0) ∧ i.wf = true ∧ operationWord i = some w)
    ∧ (∃ (f : Nat) (w : BitVec 32), decodeNamed f w = none)
    ∧ (∃ (f : Nat), f < 4096) :=
  ⟨⟨.addi 5 9 7 1 0xFFF, 0b1001_000010_00111_00001_111111111111, (by intro f e h; cases h), (by intro f g rd size ix ra off e h; cases h),
      (by intro f g rd size region ra imm e h; cases h), by decide +kernel⟩,
  ⟨5, 0x0FC00000, by decide +kernel⟩,
  ⟨4095, by decide +kernel⟩⟩

theorem test_hypotheses_EventDelivery :
    (∃ (d : Dev) (q : Nat) (ev : List Byte) (b : Buf) (t : List Buf), (d.qp q).bufs = b :: t ∧ b.used + ev.length ≤ b.len)
    ∧ (∃ (d : Dev) (q : Nat), (d.qp q).bufs = [])
    ∧ (∃ (d : Dev) (q : Nat) (ev : List Byte) (b : Buf) (t : List Buf), (d.qp q).bufs = b :: t ∧ b.used = 0 ∧ b.len < ev.length) :=
  ⟨⟨(live (fun d => { d with hif := { qps := [(9, { st := .active, kind := 1, bufs := [{ desc := 4, addr := 0x1000, len := 64, used := 40 }] })] } })).dev, 9,
      List.replicate 24 7, { desc := 4, addr := 0x1000, len := 64, used := 40 }, [], by decide +kernel⟩,
  ⟨(live id).dev, 9, by decide +kernel⟩,
  ⟨(live (fun d => { d with hif := { qps := [(9, { st := .active, kind := 1, bufs := [{ desc := 4, addr := 0x1000, len := 64, used := 0 }] })] } })).dev, 9,
      List.replicate 72 7, { desc := 4, addr := 0x1000, len := 64, used := 0 }, [], by decide +kernel⟩⟩

end Sys2Proof.Tests
end

section
/-! Bundles, operation words and counters (R20, R119): proofs for the family 00_scope.md. -/
namespace Sys2Proof.Machine

/-- A slot joins the bits above it: what starts at slot n + 1 is widened downwards by slot n. -/
theorem extractLsb'_append_slotWord (b : BitVec 128) (n len : Nat) :
    b.extractLsb' (32 * (n + 1)) len ++ slotWord b n = b.extractLsb' (32 * n) (len + 32) :=
  BitVec.extractLsb'_append_extractLsb'_eq_extractLsb' (Nat.mul_succ 32 n)

/-- R119: the four slots, slot 3 uppermost, hold every bit of a bundle. -/
theorem slotWords_append (b : BitVec 128) : slotWord b 3 ++ slotWord b 2 ++ slotWord b 1 ++ slotWord b 0 = b := by
  have slot3 : slotWord b 3 = b.extractLsb' (32 * (2 + 1)) 32 := rfl
  rw [slot3, extractLsb'_append_slotWord b 2, extractLsb'_append_slotWord b 1, extractLsb'_append_slotWord b 0]
  exact BitVec.extractLsb'_eq_self

/-- Settles O55: the model decodes the written words by computation; the slots of a bundle partition its bits; an increment adds
modulo 2^64 at its own offset and moves nothing but the counters. -/
theorem operationWordsAndCounters : Obligations.OperationWordsAndCounters :=
  ⟨rfl, rfl, rfl, rfl, rfl, rfl, rfl, rfl, rfl, rfl, rfl, slotWords_append, fun d off n =>
    ⟨d.count_add_same off n, (d.add_touches off n).keeps, fun _ other => d.count_add_other n other.symm⟩⟩

end Sys2Proof.Machine
end

section
/-! Strands and execution (R84 to R86, R110, R122 to R127): proofs for the family 03_strands_execution.md. -/
namespace Sys2Proof.Machine

/-! ## What the operations compute (Table 4.2, R84, R127) -/

theorem popCount_eq_countP (n : Nat) (x : W) : popCount n x = (List.range n).countP fun k => x.getLsbD k := by
  induction n with
  | zero => rfl
  | succ k ih => rw [popCount, ih, List.range_succ, List.countP_append, List.countP_singleton, Nat.add_comm]

@[simp] theorem Arch.getP_zero (a : Arch) : a.getP 0 = true := rfl

@[simp] theorem Arch.setP_zero (a : Arch) (v : Bool) : a.setP 0 v = a := rfl

@[simp] theorem guardHolds_zero (a : Arch) : guardHolds 0 a = true := rfl

theorem condHolds_iff (a b : W) :
    (condHolds 0 a b = true ↔ a = b) ∧ (condHolds 1 a b = true ↔ a ≠ b) ∧ (condHolds 2 a b = true ↔ a < b)
      ∧ (condHolds 3 a b = true ↔ b ≤ a) ∧ (condHolds 4 a b = true ↔ a.toInt < b.toInt) ∧ (condHolds 5 a b = true ↔ b.toInt ≤ a.toInt)
      ∧ (condHolds 6 a b = true ↔ a &&& b ≠ 0) :=
  ⟨beq_iff_eq, bne_iff_ne, decide_eq_true_iff, decide_eq_true_iff, BitVec.slt_iff_toInt_lt, BitVec.sle_iff_toInt_le, bne_iff_ne⟩

/-! ## Forms that are illegal whatever their guard (R122, R124, R127) -/

section Forms
variable {s : State} {c : Instr} {f t : Nat} {g : BitVec 4} {regs preds : List Nat} {m14 last ill : Bool}

/-- A form that the operation's own check finds illegal. -/
theorem Traps.form {act : Fibre → Dev → Act} (h : s.slotOp f t c g regs preds m14)
    (he : exec c s = s.run (decide (f < 4096)) (Dev.fromStore c (Dev.issue f g last ill regs preds m14 act)))
    (hf : opFibre c = f) (illegal : ill = true) : Traps c s f t 0x04 :=
  .illegal he (decide_eq_true h.num) hf h (.inl illegal)

/-- An illegal form of an operation that writes one general register. -/
theorem Traps.toReg {rd : BitVec 5} {v : Arch → W} (h : s.slotOp f t c g regs [] false)
    (he : exec c s = s.run (decide (f < 4096)) (Dev.fromStore c (Dev.toReg f g ill regs rd v)))
    (hf : opFibre c = f) (illegal : ill = true) : Traps c s f t 0x04 :=
  .form h he hf illegal

theorem cmp_reserved_traps {pd : BitVec 3} {ra rb : BitVec 5} {low : BitVec 6}
    (h : s.slotOp f t (.cmp f g pd 7 ra rb low) g [ra.toNat, rb.toNat] [] false) : Traps (.cmp f g pd 7 ra rb low) s f t 0x04 :=
  .form h rfl rfl rfl

theorem cmpi_reserved_traps {pd : BitVec 3} {ra : BitVec 5} {imm : BitVec 11}
    (h : s.slotOp f t (.cmpi f g pd 7 ra imm) g [ra.toNat] [] false) : Traps (.cmpi f g pd 7 ra imm) s f t 0x04 :=
  .form h rfl rfl rfl

theorem ext_pastBit63_traps {rd ra : BitVec 5} {pos len : BitVec 6} (h : s.slotOp f t (.ext f g rd ra pos len) g [ra.toNat] [] false)
    (past : 64 < pos.toNat + (len.toNat + 1)) : Traps (.ext f g rd ra pos len) s f t 0x04 :=
  .toReg h rfl rfl (decide_eq_true past)

theorem ins_pastBit63_traps {rd ra : BitVec 5} {pos len : BitVec 6}
    (h : s.slotOp f t (.ins f g rd ra pos len) g [rd.toNat, ra.toNat] [] false)
    (past : 64 < pos.toNat + (len.toNat + 1)) : Traps (.ins f g rd ra pos len) s f t 0x04 :=
  .toReg h rfl rfl (decide_eq_true past)

end Forms

/-! ## The begun bundle: what a trap is decided on (R86, R92, R110) -/

@[simp] theorem State.begun_run (s : State) (f t : Nat) : (s.begun f t).run = (s.dev.fibre f).run := (Dev.openBundle_spec f t s.dev).2.2.1

@[simp] theorem State.begun_arch (s : State) (f t : Nat) : (s.begun f t).arch = (s.dev.fibre f).arch := (Dev.openBundle_spec f t s.dev).2.1

@[simp] theorem Dev.openBundle_shd (f t : Nat) (d : Dev) : (d.openBundle f t).shd = d.shd :=
  (Dev.openBundle_spec f t d).2.2.2.2 .shd (by decide)

theorem Dev.exception_openBundle (n h f t : Nat) (d : Dev) : (d.openBundle f t).exception n h = d.exception n h := by
  have sets : (d.openBundle f t).progSet n (fibreLay h) = d.progSet n (fibreLay h) := by
    simp only [Dev.progSet, Dev.shade, Dev.openBundle_shd]
  rw [Dev.exception, sets, Dev.exception]

/-- The length a terminal checks is of what the fibre runs and the registers alone (R86). -/
theorem badLength_begun (s : State) (f t : Nat) :
    badLength (s.begun f t) (s.begun f t).arch = badLength (s.dev.fibre f) (s.dev.fibre f).arch := by
  simp only [badLength, State.begun_run, State.begun_arch]

/-- R110: off the slow path a fibre may not block, in a trap vector where it is no exception fibre. -/
theorem State.not_mayBlock {s : State} {f t : Nat} {r : Run} (runs : (s.dev.fibre f).run = some r) (fast : r.role ≠ .slow)
    (vector : r.role = .vector → s.dev.exception r.shade f = false) : (s.dev.openBundle f t).mayBlock f (s.begun f t) = false := by
  simp only [Dev.mayBlock, State.begun_run, runs, Dev.exception_openBundle]
  cases role : r.role with
  | slow => exact absurd role fast
  | vector => exact vector role
  | ingress | egress => rfl

theorem dropAllowed_eq_false {code : BitVec 8} (named : code ≠ 0x17) (outside : code.toNat < 0x40 ∨ 0xEF < code.toNat) :
    dropAllowed code.toNat = false := by
  have : code.toNat ≠ 0x17 := fun e => named (BitVec.eq_of_toNat_eq e)
  simp only [dropAllowed, Bool.or_eq_false_iff, Bool.and_eq_false_iff, decide_eq_false_iff_not]
  omega

theorem runsPast_of_lt {r : BitVec 5} {n : Nat} (past : 32 < r.toNat + n) : runsPast r n = true := decide_eq_true past

/-! ## The obligations -/

/-- Settles O19: each operation issues alone and writes what it computes from the registers its bundle reads (`Retires.arch`), MUL's
product 3 pclk later; the forms whose legality depends on a field (shift counts, EXT, INS, conditions, PLOG) are legal by
hypothesis, or trap. -/
theorem arithmeticOperations : Obligations.ArithmeticOperations := by
  refine ⟨?registers, ?immediates, ?predicates⟩
  case registers =>
    refine ⟨?_, ?_, ?_, ?_, ?_, ?_, ?_, ?_, ?_, ?_, ?_, ?mul, ?_, ?popc, ?_⟩
    case mul => exact fun _ _ _ _ _ _ _ h => .issue rfl (decide_eq_true h.num) rfl h rfl nofun rfl
    case popc =>
      simp only [← popCount_eq_countP]
      exact fun _ _ _ _ _ _ _ h => .arch false h rfl rfl rfl
    all_goals exact fun _ _ _ _ _ _ _ h => .arch false h rfl rfl rfl
  case immediates =>
    refine ⟨?_, ?_, ?_, ?_, ?shli, ?shri, ?sari, ?_, ?_, ?ext, ?ins⟩
    case shli | shri | sari => exact fun _ _ _ _ _ _ _ h inside => .arch _ h rfl rfl (decide_eq_false (Nat.not_le.mpr inside))
    case ext | ins => exact fun _ _ _ _ _ _ _ _ h inside => .arch _ h rfl rfl (decide_eq_false (by omega))
    all_goals exact fun _ _ _ _ _ _ _ h => .arch false h rfl rfl rfl
  case predicates =>
    refine ⟨?cmp, ?cmpi, ?_, ?_, ?_, ?_, ?_, ?_, ?_, fun a n v => ⟨a.getP_zero, a.setP_zero v, Arch.getP_zero _⟩, guardHolds_zero,
      condHolds_iff, fun _ _ _ _ _ _ _ _ => cmp_reserved_traps, fun _ _ _ _ _ _ _ => cmpi_reserved_traps,
      fun _ _ _ _ _ _ _ _ => ext_pastBit63_traps, fun _ _ _ _ _ _ _ _ => ins_pastBit63_traps⟩
    case cmp => exact fun _ _ _ _ _ _ _ _ _ h legal => .arch _ h rfl rfl (beq_false_of_ne legal)
    case cmpi => exact fun _ _ _ _ _ _ _ _ h legal => .arch _ h rfl rfl (beq_false_of_ne legal)
    all_goals exact fun _ _ _ _ _ _ _ _ h zero => .arch _ h rfl rfl (bne_eq_false_iff_eq.mpr zero)

/-- Settles O24: an illegal form traps by the operation's own check or outside slot 3, whatever its guard (`Traps.form`,
`Traps.illegal`); an address, a metadata write, a frame size and a blocking operation off the slow path trap by what the operation
finds in the begun bundle (`Traps.act`). -/
theorem operationsThatTrap : Obligations.OperationsThatTrap := by
  refine ⟨?shli, ?shri, ?sari, ?ext, ?ins, fun _ _ _ _ _ _ _ _ => cmp_reserved_traps, fun _ _ _ _ _ _ _ => cmpi_reserved_traps,
    ?plogAnd, ?mrd, ?mwr, ?mwri, ?sldRegion3, ?sstRegion3, ?br, ?fwd, ?drop, ?slow, ?lkx, ?lka, ?mcrd, ?cltry, ?wld, ?wst, ?sld,
    ?sstShade, ?metaWrite, ?frameSize, ?clwait, ?lnputw, ?lngetw, ?autwaitu⟩
  case shli | shri | sari => exact fun _ _ _ _ _ _ _ h past => .toReg h rfl rfl (decide_eq_true past)
  case ext => exact fun _ _ _ _ _ _ _ _ h past => ext_pastBit63_traps h (by omega)
  case ins => exact fun _ _ _ _ _ _ _ _ h past => ins_pastBit63_traps h (by omega)
  case plogAnd => exact fun _ _ _ _ _ _ _ _ h reserved => .form h rfl rfl (bne_iff_ne.mpr reserved)
  case mrd | mwr | mwri => exact fun _ _ _ _ _ _ _ h reserved => .form h rfl rfl (bne_iff_ne.mpr reserved)
  case cltry => exact fun _ _ _ _ _ _ _ _ h reserved => .form h rfl rfl (bne_iff_ne.mpr reserved)
  case sldRegion3 => exact fun _ _ _ _ _ _ _ _ _ h noFault => .illegal rfl (by simp [h.num, noFault]) rfl h (.inl rfl)
  case sstRegion3 => exact fun _ _ _ _ _ _ _ _ h => .form h rfl rfl rfl
  case br | fwd =>
    exact fun _ _ _ _ _ _ h bad =>
      .illegal rfl (decide_eq_true h.num) rfl h (bad.imp bne_iff_ne.mpr fun notLast => ⟨rfl, notLast⟩)
  case drop =>
    exact fun _ _ _ _ _ _ h bad => .form h rfl rfl (Bool.or_eq_true_iff.mpr
      (bad.imp bne_iff_ne.mpr fun ⟨named, outside⟩ => congrArg not (dropAllowed_eq_false named outside)))
  case slow =>
    -- SLOW's own check reads the role its fibre runs in.
    intro s f t g code r h runs egress
    refine .form h (ill := ((s.dev.fibre f).run.map (·.role)).getD .ingress == .egress) rfl rfl ?_
    simp [runs, egress]
  case lkx =>
    exact fun _ _ _ _ _ _ _ _ h general bad => .illegal rfl (Bool.and_eq_true_iff.mpr ⟨decide_eq_true h.num, congrArg not general⟩) rfl h
      (.inl (Bool.or_eq_true_iff.mpr (bad.imp bne_iff_ne.mpr fun last => by subst last; rfl)))
  case lka =>
    exact fun _ _ _ _ _ _ _ _ h bad => .form h rfl rfl (Bool.or_eq_true_iff.mpr
      (bad.imp decide_eq_true fun past => runsPast_of_lt (by omega)))
  case mcrd =>
    exact fun _ _ _ _ _ _ _ _ h bad => .form h rfl rfl (Bool.or_eq_true_iff.mpr
      (bad.imp bne_iff_ne.mpr fun past => runsPast_of_lt (by omega)))
  case wld =>
    exact fun _ _ _ _ _ _ _ _ _ _ h noFault out => .act rfl (by simp [h.num, noFault]) rfl h rfl nofun (if_pos (congrArg not out))
  case wst => exact fun _ _ _ _ _ _ _ _ _ h out => .act rfl (decide_eq_true h.num) rfl h rfl nofun (if_pos (congrArg not out))
  case sld =>
    exact fun _ _ _ _ _ _ _ _ _ _ h legal noFault out =>
      .act rfl (by simp [h.num, noFault]) rfl h (beq_false_of_ne legal) nofun (if_pos out)
  case sstShade => exact fun _ _ _ _ _ _ _ _ h => .act rfl (decide_eq_true h.num) rfl h rfl nofun (if_pos (.inl rfl))
  case metaWrite =>
    intro s f t g ra n h bad
    rw [← State.begun_run s f t] at bad
    exact .act rfl (decide_eq_true h.num) rfl h rfl nofun (if_pos bad)
  case frameSize =>
    intro s f t g code h last bad
    rw [← badLength_begun s f t] at bad
    exact .act rfl (decide_eq_true h.num) rfl h rfl (fun _ => last) (if_pos bad)
  case clwait | lnputw | lngetw =>
    exact fun _ _ _ _ _ _ _ _ h last runs fast vector =>
      .act rfl (decide_eq_true h.num) rfl h rfl (fun _ => last) (if_pos (congrArg not (State.not_mayBlock runs fast vector)))
  case autwaitu =>
    exact fun _ _ _ _ _ _ h last runs fast vector =>
      .act rfl (decide_eq_true h.num) rfl h rfl (fun _ => last) (if_neg (Bool.eq_false_iff.mp (State.not_mayBlock runs fast vector)))

end Sys2Proof.Machine
end

section
/-! Guards of packet operations (R120, R121): proofs for the family 04_enette_reference.md. -/
namespace Sys2Proof.Machine

/-- R120: the guard of an operation's word is the guard it was given. -/
theorem wordGuard_opWord (g : BitVec 4) (major : BitVec 6) (fields : BitVec 22) : wordGuard (opWord g major fields) = g :=
  (BitVec.extractLsb'_append_eq_of_le (xhi := g ++ major) (xlo := fields) (by decide : 22 ≤ 28)).trans BitVec.extractLsb'_append_eq_left

/-! ## Every operation is one issue -/

/-- A change of the device that issues one operation in the next slot of fibre f, under the guard g. -/
def IssuesOne (f : Nat) (g : BitVec 4) (h : Dev → Dev) : Prop :=
  ∃ last ill regs preds m14 act, h = Dev.issue f g last ill regs preds m14 act

section Forms
variable {f : Nat} {g : BitVec 4} {ill sized m14 last : Bool} {regs preds : List Nat} {act : Fibre → Dev → Act}

theorem IssuesOne.issue : IssuesOne f g (Dev.issue f g last ill regs preds m14 act) := ⟨_, _, _, _, _, _, rfl⟩

theorem IssuesOne.toReg {rd : BitVec 5} {v : Arch → W} : IssuesOne f g (Dev.toReg f g ill regs rd v) := .issue

theorem IssuesOne.toPred {pd : BitVec 3} {v : Arch → Bool} : IssuesOne f g (Dev.toPred f g ill regs preds pd v) := .issue

theorem IssuesOne.metaWrite {n : BitVec 4} {v : Arch → W} : IssuesOne f g (Dev.metaWrite f g ill regs n v) := .issue

theorem IssuesOne.lane {lane : Nat} {rd : BitVec 5} {pd : BitVec 3} {op : Fibre → Dev → LaneOp} :
    IssuesOne f g (Dev.lane f g ill regs lane rd pd op) := .issue

theorem IssuesOne.shareOp {v : BitVec 9} : IssuesOne f g (Dev.shareOp f g v regs act) := .issue

theorem IssuesOne.terminal {t : Term} : IssuesOne f g (Dev.terminal f g ill sized t) := .issue

end Forms

/-- A packet operation but NOP runs where its program store holds it, as one issue under the guard of its word. -/
theorem exec_operation {c : Instr} {w : BitVec 32} (word : operationWord c = some w) (named : ∀ f v e, c ≠ .nop f v e) (s : State) :
    ∃ h, exec c s = s.run c.wf (Dev.fromStore c h) ∧ IssuesOne (opFibre c) (wordGuard w) h := by
  cases c <;> cases word
  case nop => exact absurd rfl (named _ _ _)
  all_goals rw [wordGuard_opWord]
  case slow f g high code =>
    -- SLOW's own check reads the role its fibre runs in.
    exact ⟨Dev.terminal f g (high != 0 || ((s.dev.fibre f).run.map (·.role)).getD .ingress == .egress) true .slow, rfl, .terminal⟩
  case cmp | cmpi | plogAnd | plogOr | plogXor | plogAndn | plogNot | plogSet | plogClr => exact ⟨_, rfl, .toPred⟩
  case mwr | mwri => exact ⟨_, rfl, .metaWrite⟩
  case lkx | lkxMac | lkl | lka | count | police | mcrd | autsub => exact ⟨_, rfl, .lane⟩
  case cltry | clrel | clwait | lnput | lnget | lnputw | lngetw => exact ⟨_, rfl, .shareOp⟩
  case fwd | drop | trap => exact ⟨_, rfl, .terminal⟩
  case aluMul | mrd | wld | wst | sld | sst | br | autwait | autwaitu => exact ⟨_, rfl, .issue⟩
  all_goals exact ⟨_, rfl, .toReg⟩

/-- A well-formed packet operation names one of the 4,096 fibres. -/
theorem opFibre_lt {c : Instr} {w : BitVec 32} (word : operationWord c = some w) (wf : c.wf = true) : opFibre c < 4096 := by
  cases c <;> cases word
  case nop | wld | sld | lkx | lkxMac => exact of_decide_eq_true (Bool.and_eq_true_iff.mp wf).1
  all_goals exact of_decide_eq_true wf

/-! ## An issue whose guard is off (R121) -/

/-- What a bundle reads is fixed by its first slot, at whatever pclk it issues (R92). -/
theorem State.begun_iss (s : State) (f t : Nat) : (s.begun f t).iss = ((s.dev.fibre f).begin 0).iss := by
  by_cases first : (s.dev.fibre f).slot = 0
  · obtain ⟨r, passed⟩ := Dev.due_spec t s.dev
    have begun : s.begun f t = (s.dev.fibre f).begin t := by
      rw [State.begun, Dev.openBundle, if_neg (not_not_intro first), Dev.fibre_onFibre_same, passed]; rfl
    simp [begun, Fibre.begin, first]
  · rw [State.begun, Dev.openBundle_later first, Fibre.begin, if_neg first]

section Off
variable {s : State} {c : Instr} {f : Nat} {g : BitVec 4} {regs preds : List Nat} {m14 ok last ill : Bool} {act : Fibre → Dev → Act}

/-- An operation changes nothing where its program store holds another one, or where its bundle cannot issue. -/
theorem Unmoved.of_not_opens (he : exec c s = s.run ok (Dev.fromStore c (Dev.issue f g last ill regs preds m14 act)))
    (hok : ok = true) (hf : opFibre c = f) (live : s.live)
    (closed : s.dev.fetches f c = true → s.dev.opens f regs (guardPred g :: preds) m14 = none) : Unmoved c s := by
  have still : Dev.fromStore c (Dev.issue f g last ill regs preds m14 act) s.dev = s.dev := by
    rw [Dev.fromStore, hf]
    cases held : s.dev.fetches f c with
    | false => rfl
    | true => rw [Dev.when_true, Dev.issue, closed held]
  rw [Unmoved, he, State.run_next hok live, State.onDev, still]

/-- An operation whose guard is off changes nothing, advances its slot, or traps because its form is illegal. -/
theorem unmoved_or_retires_or_traps_of_guard_off
    (he : exec c s = s.run ok (Dev.fromStore c (Dev.issue f g last ill regs preds m14 act))) (hok : ok = true) (hf : opFibre c = f)
    (num : f < 4096) (live : s.live) (off : guardHolds g ((s.dev.fibre f).begin 0).iss = false) :
    Unmoved c s ∨ ∃ t, Retires c s f t none (fun _ a => a) ∨ Traps c s f t 0x04 := by
  cases held : s.dev.fetches f c with
  | false => exact .inl (.of_not_opens he hok hf live (by simp [held]))
  | true =>
    cases opens : s.dev.opens f regs (guardPred g :: preds) m14 with
    | none => exact .inl (.of_not_opens he hok hf live fun _ => opens)
    | some t =>
      have slot : s.slotOp f t c g regs preds m14 := ⟨live, num, held, opens⟩
      refine .inr ⟨t, ?_⟩
      by_cases illegal : ill = true ∨ (last = true ∧ (s.dev.fibre f).slot ≠ 3)
      · exact .inr (.illegal he hok hf slot illegal)
      · obtain ⟨legal, inSlot⟩ := not_or.mp illegal
        rw [← s.begun_iss f t] at off
        exact .inl (.off he hok hf slot (Bool.eq_false_iff.mpr legal) (fun l => Classical.not_not.mp fun k => inSlot ⟨l, k⟩) off)

/-- A legal operation that writes one general register, its guard off. -/
theorem Retires.off_toReg {t : Nat} {rd : BitVec 5} {v : Arch → W} (h : s.slotOp f t c g regs [] false)
    (off : guardHolds g (s.begun f t).iss = false)
    (he : exec c s = s.run (decide (f < 4096)) (Dev.fromStore c (Dev.toReg f g false regs rd v))) (hf : opFibre c = f) :
    Retires c s f t none fun _ a => a :=
  .off he (decide_eq_true h.num) hf h rfl nofun off

end Off

/-! ## The obligation -/

/-- Settles O25: every operation is one issue under its word's guard (`exec_operation`), and an issue whose guard is off changes
nothing, advances its slot or traps ILLEGAL_BUNDLE; a legal form that issues, in slot 3 where only that slot takes it, advances its
slot (`Retires.off`). -/
theorem guardedOffOperations : Obligations.GuardedOffOperations := by
  refine ⟨?anyOperation, ?_, ?_, ?_, ?_, ?_, ?_, ?_, ?_, ?_, ?_, ?_, ?mul, ?_, ?_, ?_, ?_, ?_, ?_, ?_, ?_, ?_, ?wst, ?mwr, ?br, ?fwd,
    ?trap, ?cltry, ?lnput⟩
  case anyOperation =>
    intro c s w word named wf live off
    obtain ⟨_, he, _, _, _, _, _, _, rfl⟩ := exec_operation word named s
    exact unmoved_or_retires_or_traps_of_guard_off he wf rfl (opFibre_lt word wf) live off
  case mul => exact fun _ _ _ _ _ _ _ h off => .off rfl (decide_eq_true h.num) rfl h rfl nofun off
  case wst => exact fun _ _ _ _ _ _ _ _ _ h off => .off rfl (decide_eq_true h.num) rfl h rfl nofun off
  case mwr => exact fun _ _ _ _ _ _ _ h off zero => .off rfl (decide_eq_true h.num) rfl h (bne_eq_false_iff_eq.mpr zero) nofun off
  case br | fwd | trap =>
    exact fun _ _ _ _ _ _ h off zero last =>
      .off rfl (decide_eq_true h.num) rfl h (bne_eq_false_iff_eq.mpr zero) (fun _ => last) off
  case cltry | lnput =>
    exact fun _ _ _ _ _ _ _ _ h off zero last =>
      .off rfl (decide_eq_true h.num) rfl h (bne_eq_false_iff_eq.mpr zero) (fun _ => last) off
  all_goals exact fun _ _ _ _ _ _ _ h off => .off_toReg h off rfl rfl

end Sys2Proof.Machine
end

section
/-! The machine after reset and policers that answer red (R178, R261, Table 8.4): proofs for the family 08_scheduling.md. -/
namespace Sys2Proof.Machine

@[simp] theorem Map.getD_nil {α : Type} (k : Nat) (d : α) : Map.getD ([] : Map α) k d = d := rfl

/-- At reset index 0 holds a CURRENT shade with nothing set, and every other index a free one (R178). -/
theorem reset_shade (n : Nat) : State.reset.dev.shade n = { st := if n = 0 then .current else .free } := by
  cases n with
  | zero => rfl
  | succ _ => rfl

@[simp] theorem reset_shade_shapers (n : Nat) : (State.reset.dev.shade n).shapers = [] := by rw [reset_shade]

@[simp] theorem reset_shade_policers (n : Nat) : (State.reset.dev.shade n).policers = [] := by rw [reset_shade]

/-- Table 8.4: an RFC 2698 colour-blind policer whose P level is below the charge answers red, whatever the packet's colour. -/
theorem policeDecide_red {cfg : PolCfg} {colour : Nat} {c p b : Int} (rfc2698 : cfg.rfc4115 = false) (blind : cfg.aware = false)
    (short : p < b) : (policeDecide cfg colour c p b).1 = 2 := by
  simp [policeDecide, rfc2698, blind, short]

theorem reset_memWf : State.reset.memWf = true := by
  obtain ⟨scratch, flat, dram, flash⟩ := reset_memory_wf
  simp only [State.memWf, Dev.memOk, scratch, flat, dram, flash, Bool.and_self]

/-- Settles O52: no shade sets a shaper or a policer at reset (`reset_shade`), so each reads its default, and a policer with empty
buckets answers red (`policeDecide_red`); the memories are empty (`reset_memory_wf`); the other parts are fields of the reset state. -/
theorem resetState : Obligations.ResetState := by
  refine ⟨?queues, ?shapers, ?policers, rfl, rfl, rfl, rfl, rfl, rfl, rfl, rfl, rfl, rfl, ?slice0, rfl, rfl, rfl, ?queueWf, reset_memWf⟩
  case queues => exact fun _ => ⟨rfl, rfl⟩
  case shapers => exact fun n k => ⟨by rw [reset_shade_shapers, Map.getD_nil], rfl⟩
  case policers =>
    intro n k
    rw [reset_shade_policers, Map.getD_nil]
    exact ⟨rfl, rfl, rfl, fun _ _ positive => policeDecide_red rfl rfl positive⟩
  case slice0 => exact ⟨slice0, rfl, rfl, rfl, rfl⟩
  case queueWf => exact List.forall_mem_nil _

end Sys2Proof.Machine
end

section
/-! Doorbells and fetch rounds (R41, R427, R433, R435, R466, R467): proofs for the family 14_host_queues.md. -/
namespace Sys2Proof.Machine

/-! ## A change of one queue pair -/

@[simp] theorem Dev.qp_onQp_same (q : Nat) (f : Qp → Qp) (d : Dev) : (d.onQp q f).qp q = f (d.qp q) := Map.getD_modify_same ..

theorem Dev.qp_onQp_other {q r : Nat} (f : Qp → Qp) (d : Dev) (other : r ≠ q) : (d.onQp q f).qp r = d.qp r :=
  Map.getD_modify_other _ _ _ _ other.symm

/-- A change made to every queue pair of a list: once where it is listed, however often, for a change that is the same when made again. -/
theorem Dev.qp_foldl_onQp {f : Qp → Qp} (idem : ∀ x, f (f x) = f x) (l : List Nat) (q : Nat) (d : Dev) :
    (l.foldl (fun d r => d.onQp r f) d).qp q = if q ∈ l then f (d.qp q) else d.qp q := by
  induction l generalizing d with
  | nil => rfl
  | cons r l ih =>
    rw [List.foldl_cons, ih]
    by_cases same : q = r
    · subst same; simp [idem]
    · simp [same, Dev.qp_onQp_other f d same]

theorem Dev.foldl_onQp_spec (f : Qp → Qp) (l : List Nat) (d : Dev) :
    ∃ qps, l.foldl (fun d r => d.onQp r f) d = { d with hif := { d.hif with qps := qps } } :=
  List.foldlRecOn l (fun d r => d.onQp r f) (motive := fun e => ∃ qps, e = { d with hif := { d.hif with qps := qps } })
    ⟨_, rfl⟩ fun _ ⟨_, he⟩ _ _ => he ▸ ⟨_, rfl⟩

/-! ## Doorbells (R433) -/

section Doorbell
variable {q v : Nat} {f : Qp → Nat → Option Qp} {d : Dev}

theorem Dev.doorbell_stale (stale : bits v 32 16 ≠ d.sliceGen (d.qp q).slice) : d.doorbell q v f = d.bump Reg.hifDbStale :=
  if_pos (bne_iff_ne.mpr stale)

theorem Dev.doorbell_disabled (fresh : bits v 32 16 = d.sliceGen (d.qp q).slice) (off : (d.qp q).st ≠ .active) :
    d.doorbell q v f = d.bump Reg.hifDbDisabled := by
  simp only [Dev.doorbell, fresh, bne_self_eq_false, Bool.false_eq_true, if_false, bne_iff_ne.mpr off, if_true]

theorem Dev.doorbell_outOfRange (fresh : bits v 32 16 = d.sliceGen (d.qp q).slice) (active : (d.qp q).st = .active)
    (out : f (d.qp q) (v % 2 ^ 32) = none) : d.doorbell q v f = d.bump Reg.hifDbRange := by
  simp only [Dev.doorbell, fresh, active, out, bne_self_eq_false, Bool.false_eq_true, if_false]

/-- An accepted doorbell changes its queue pair alone. -/
theorem Dev.doorbell_accepted {y : Qp} (fresh : bits v 32 16 = d.sliceGen (d.qp q).slice) (active : (d.qp q).st = .active)
    (inside : f (d.qp q) (v % 2 ^ 32) = some y) :
    Dev.keeps [.hif] d (d.doorbell q v f) ∧ (∀ r, r ≠ q → (d.doorbell q v f).qp r = d.qp r) ∧ (d.doorbell q v f).qp q = y := by
  have accepted : d.doorbell q v f = d.onQp q fun _ => y := by
    simp only [Dev.doorbell, fresh, active, inside, bne_self_eq_false, Bool.false_eq_true, if_false]
  rw [accepted]
  exact ⟨Dev.onQp_keeps _ _ _, fun _ => Dev.qp_onQp_other _ _, Dev.qp_onQp_same _ _ _⟩

end Doorbell

/-- A well-formed doorbell of either kind is one doorbell of the device, with the kind's own check of its count. -/
theorem Acts.sqDoorbell {s : State} {q v : Nat} {P : Dev → Prop} (live : s.live) (page : q < 65536) (word : v < 2 ^ 64)
    (h : P (s.dev.doorbell q v fun x n =>
      if x.fetched + x.sqDepth < x.prod + ahead 32 n x.prod then none else some { x with prod := x.prod + ahead 32 n x.prod })) :
    Acts (.sqDoorbell q v) s P :=
  .run rfl (Bool.and_eq_true_iff.mpr ⟨decide_eq_true page, decide_eq_true word⟩) live h

theorem Acts.cqDoorbell {s : State} {q v : Nat} {P : Dev → Prop} (live : s.live) (page : q < 65536) (word : v < 2 ^ 64)
    (h : P (s.dev.doorbell q v fun x n =>
      if x.cqWr < x.cqHead + ahead 32 n x.cqHead then none else some { x with cqHead := x.cqHead + ahead 32 n x.cqHead })) :
    Acts (.cqDoorbell q v) s P :=
  .run rfl (Bool.and_eq_true_iff.mpr ⟨decide_eq_true page, decide_eq_true word⟩) live h

/-! ## Fetch rounds (R41, R435, R466, R467) -/

theorem Dev.fetchCount_le (q : Nat) (d : Dev) :
    d.fetchCount q ≤ 64 ∧ d.fetchCount q ≤ (d.qp q).burst ∧ d.fetchCount q ≤ (d.qp q).credit
      ∧ d.fetchCount q ≤ (d.qp q).prod - (d.qp q).fetched ∧ d.fetchCount q ≤ (d.qp q).freeSlots := by
  simp only [Dev.fetchCount, List.foldl_cons, List.foldl_nil]
  omega

/-- The queue pair served last is the engine's last one (R435). -/
theorem Dev.fetchN_engines (q n : Nat) (given : List (List Byte)) (d : Dev) :
    Map.find (d.fetchN q n given).hif.engines (d.qp q).engine = some q :=
  Map.find_put_same ..

section Serve
variable {q : Nat} {d : Dev} {given : List (List Byte)} {served : Bool}

theorem Dev.serveQ_notReady (idle : d.readyBase q = false) : Dev.serveQ (d, given, served) q = (d, given, served) := by
  simp [Dev.serveQ, idle]

theorem Dev.serveQ_noTag (ready : d.readyBase q = true) (credit : (d.qp q).credit ≠ 0)
    (noTag : d.tagsFor q (tagService (d.qp q).kind) = 0) : Dev.serveQ (d, given, served) q = (d.tagWait q, given, served) := by
  simp [Dev.serveQ, ready, credit, noTag]

theorem Dev.serveQ_fetches (ready : d.readyBase q = true) (credit : (d.qp q).credit ≠ 0)
    (tags : d.tagsFor q (tagService (d.qp q).kind) ≠ 0) (limits : d.withinLimits q = true) :
    Dev.serveQ (d, given, served) q =
      (d.fetchN q (d.fetchCount q) given, if (d.qp q).capstan then given else given.drop (d.fetchCount q), true) := by
  simp [Dev.serveQ, ready, credit, tags, limits]

theorem Dev.foldl_serveQ_notReady {l : List Nat} (idle : ∀ q ∈ l, d.readyBase q = false) :
    l.foldl Dev.serveQ (d, given, served) = (d, given, served) :=
  List.foldlRecOn l Dev.serveQ (motive := (· = (d, given, served))) rfl fun b he q hq => by
    subst he; exact serveQ_notReady (idle q hq)

end Serve

/-- A round over an engine's only queue pair is that queue pair's turn. -/
theorem Acts.fetchRound_single {s : State} {e q : Nat} {ds : List (List Byte)} {P : Dev → Prop} {r : Dev × List (List Byte) × Bool}
    (live : s.live) (engine : e < 5) (only : s.dev.engineQps e = [q]) (turn : Dev.serveQ (s.dev, ds, false) q = r)
    (h : P (if r.2.2 then r.1 else r.1.resetCredits e)) : Acts (.fetchRound e ds) s P := by
  refine .run (f := _) rfl (decide_eq_true engine) live ?_
  have order : ∀ last, [q].filter (fun q => decide (last < q)) ++ [q].filter (fun q => decide (q ≤ last)) = [q] := by
    intro last
    by_cases behind : last < q
    · simp [behind]
    · simp [behind, Nat.not_lt.mp behind]
  simp only [only, order, List.foldl_cons, List.foldl_nil, turn]
  exact h

/-- A round in which no queue pair is ready restores the credits. -/
theorem Acts.fetchRound_none {s : State} {e : Nat} {ds : List (List Byte)} {P : Dev → Prop} (live : s.live) (engine : e < 5)
    (idle : ∀ q ∈ s.dev.engineQps e, s.dev.readyBase q = false) (h : P (s.dev.resetCredits e)) : Acts (.fetchRound e ds) s P := by
  refine .run (f := _) rfl (decide_eq_true engine) live ?_
  dsimp only
  rw [Dev.foldl_serveQ_notReady]
  · exact h
  · intro q hq
    rw [List.mem_append, List.mem_filter, List.mem_filter] at hq
    exact idle q (hq.elim And.left And.left)

theorem Dev.qp_resetCredits {e q : Nat} {d : Dev} (mem : q ∈ d.engineQps e) :
    (d.resetCredits e).qp q = { d.qp q with credit := (d.qp q).weight } :=
  (Dev.qp_foldl_onQp (f := fun x => { x with credit := x.weight }) (fun _ => rfl) _ q d).trans (if_pos mem)

@[simp] theorem Dev.resetCredits_tagWait (e : Nat) (d : Dev) : (d.resetCredits e).hif.tagWait = d.hif.tagWait := by
  obtain ⟨qps, h⟩ := Dev.foldl_onQp_spec (fun x => { x with credit := x.weight }) (d.engineQps e) d
  simp only [Dev.resetCredits, Dev.onHif_hif, h]

@[simp] theorem Dev.count_resetCredits (off e : Nat) (d : Dev) : (d.resetCredits e).count off = d.count off := by
  have same : (d.resetCredits e).ctr = d.ctr := Dev.resetCredits_keeps e d .ctr (by decide)
  rw [Dev.count, same, Dev.count]

/-- The wait of a requester that did not wait yet is noted and counted (R41). -/
theorem Dev.tagWait_fresh {w : Nat} {d : Dev} (fresh : w ∉ d.hif.tagWait) :
    d.tagWait w = (d.onHif fun h => { h with tagWait := h.tagWait ++ [w] }).bump Reg.glbTagWait :=
  if_neg (by simpa using fresh)

/-- Settles O31: a doorbell's checks fall in R433's order (`Dev.doorbell_stale`, `_disabled`, `_outOfRange`, `_accepted`); a round over
one queue pair is its turn (`Acts.fetchRound_single`), and one in which none is ready, or none has a tag, restores the credits. -/
theorem doorbellAndFetchEvents : Obligations.DoorbellAndFetchEvents := by
  refine ⟨?sqAccepted, ?cqAccepted, ?stale, ?disabled, ?sqRange, ?cqRange, ?fetches, ?noTag, ?noneReady⟩
  case sqAccepted =>
    exact fun s q v live page word fresh active inside =>
      .sqDoorbell live page word (Dev.doorbell_accepted fresh active (if_neg (Nat.not_lt.mpr inside)))
  case cqAccepted =>
    exact fun s q v live page word fresh active inside =>
      .cqDoorbell live page word (Dev.doorbell_accepted fresh active (if_neg (Nat.not_lt.mpr inside)))
  case stale =>
    exact fun s q v live page word stale =>
      ⟨.sqDoorbell live page word (Dev.doorbell_stale stale), .cqDoorbell live page word (Dev.doorbell_stale stale)⟩
  case disabled =>
    exact fun s q v live page word fresh off =>
      ⟨.sqDoorbell live page word (Dev.doorbell_disabled fresh off), .cqDoorbell live page word (Dev.doorbell_disabled fresh off)⟩
  case sqRange =>
    exact fun s q v live page word fresh active out =>
      .sqDoorbell live page word (Dev.doorbell_outOfRange fresh active (if_pos out))
  case cqRange =>
    exact fun s q v live page word fresh active out =>
      .cqDoorbell live page word (Dev.doorbell_outOfRange fresh active (if_pos out))
  case fetches =>
    intro s e ds q live engine only ready credit tags limits
    obtain ⟨most, burst, credits, posted, slots⟩ := s.dev.fetchCount_le q
    exact .fetchRound_single live engine only (Dev.serveQ_fetches ready credit tags limits)
      ⟨rfl, most, burst, credits, posted, slots, Dev.fetchN_engines ..⟩
  case noTag =>
    intro s e ds q live engine only ready credit noTag fresh
    refine .fetchRound_single live engine only (Dev.serveQ_noTag ready credit noTag) ?_
    have mem : q ∈ (s.dev.tagWait q).engineQps e := by
      rw [Dev.tagWait_fresh fresh]
      exact only ▸ List.mem_singleton_self q
    have same : (s.dev.tagWait q).qp q = s.dev.qp q := by rw [Dev.tagWait_fresh fresh]; rfl
    simp only [Bool.false_eq_true, if_false, Dev.qp_resetCredits mem, Dev.count_resetCredits, Dev.resetCredits_tagWait, same]
    rw [Dev.tagWait_fresh fresh]
    exact ⟨Dev.count_add_same .., List.mem_append_right _ (List.mem_singleton_self q), trivial, trivial⟩
  case noneReady =>
    exact fun s e ds live engine idle =>
      .fetchRound_none live engine idle ⟨Dev.resetCredits_keeps _ _, fun _ => Dev.qp_resetCredits⟩

end Sys2Proof.Machine
end

section
/-! QPSET, QUIESCE and ABORT (R303, R424 to R426, R442 to R444): proofs for the family 14_host_queues.md. -/
namespace Sys2Proof.Machine

/-! ## What the record of an instruction leaves of the queue pairs (R152, R440) -/

theorem Map.find_ne_none_of_mem_keysWhere {α : Type} {m : Map α} {p : Nat → α → Bool} {k : Nat} (mem : k ∈ Map.keysWhere m p) :
    Map.find m k ≠ none := by
  obtain ⟨⟨k, y⟩, listed, rfl⟩ := List.mem_map.mp mem
  replace listed := (List.mem_filter.mp listed).1
  clear mem
  induction m with
  | nil => cases listed
  | cons h t ih =>
    obtain ⟨a, x⟩ := h
    rw [Map.find]
    split
    · nofun
    · next other => exact ih ((List.mem_cons.mp listed).resolve_left fun same => other (congrArg Prod.fst same).symm)

/-- Two queue pairs of the same settings, state and counts: their descriptors, completions, buffers and places in the splice log may
differ. -/
def Qp.SameBinding (x y : Qp) : Prop :=
  ∃ descs held bufs logPos, y = { x with descs := descs, held := held, bufs := bufs, logPos := logPos }

/-- Every queue pair keeps its binding, none appears and none is gone, and the steering of received packets stays. -/
structure KeepsQps (d e : Dev) : Prop where
  steer : e.hif.steer = d.hif.steer
  absent : ∀ q, Map.find e.hif.qps q = none ↔ Map.find d.hif.qps q = none
  binding : ∀ q, (d.qp q).SameBinding (e.qp q)

namespace KeepsQps

theorem of_hif {d e : Dev} (same : e.hif = d.hif) : KeepsQps d e :=
  ⟨by rw [same], fun _ => by rw [same], fun _ => by rw [Dev.qp, Dev.qp, same]; exact ⟨_, _, _, _, rfl⟩⟩

theorem refl (d : Dev) : KeepsQps d d := .of_hif rfl

theorem trans {a b c : Dev} (h : KeepsQps a b) (k : KeepsQps b c) : KeepsQps a c := by
  refine ⟨k.steer.trans h.steer, fun q => (k.absent q).trans (h.absent q), fun q => ?_⟩
  obtain ⟨_, _, _, _, first⟩ := h.binding q
  obtain ⟨descs, held, bufs, logPos, second⟩ := k.binding q
  exact ⟨descs, held, bufs, logPos, by rw [second, first]⟩

theorem foldl {α : Type} {f : Dev → α → Dev} {l : List α} {d : Dev} (hf : ∀ e, KeepsQps d e → ∀ x ∈ l, KeepsQps e (f e x)) :
    KeepsQps d (l.foldl f d) :=
  List.foldlRecOn l f (.refl d) fun e kept x mem => kept.trans (hf e kept x mem)

theorem onQp {q : Nat} {f : Qp → Qp} {d : Dev} (present : Map.find d.hif.qps q ≠ none) (same : (d.qp q).SameBinding (f (d.qp q))) :
    KeepsQps d (d.onQp q f) := by
  refine ⟨rfl, fun r => ?_, fun r => ?_⟩
  · by_cases this : r = q
    · subst this
      exact iff_of_false (by simp [Dev.onQp, Map.modify]) present
    · rw [Dev.onQp, Map.find_modify_other _ _ _ (Ne.symm this)]
  · by_cases this : r = q
    · subst this; rwa [Dev.qp_onQp_same]
    · rw [Dev.qp_onQp_other f d this]; exact ⟨_, _, _, _, rfl⟩

theorem present {d e : Dev} {q : Nat} (h : KeepsQps d e) (there : Map.find d.hif.qps q ≠ none) :
    Map.find e.hif.qps q ≠ none := mt (h.absent q).mp there

end KeepsQps

theorem Dev.qp_of_absent {q : Nat} {d : Dev} (absent : Map.find d.hif.qps q = none) : d.qp q = {} := by
  rw [Dev.qp, Map.getD, absent, Option.getD_none]

theorem Dev.complete_keepsQps (q id st : Nat) (dws : List Nat) (d : Dev) : KeepsQps d (d.complete q id st dws) := by
  unfold Dev.complete
  split
  · exact .refl d
  · next e found =>
    split
    · exact .refl d
    · refine .onQp (fun absent => ?_) ⟨_, _, _, _, rfl⟩
      rw [Dev.desc, Dev.qp_of_absent absent] at found
      cases found

theorem Dev.ownerWrite_keepsQps (q a : Nat) (bs : List Byte) (d : Dev) : KeepsQps d (d.ownerWrite q a bs) :=
  .of_hif (Dev.ownerWrite_keeps q a bs d .hif (by decide))

theorem Dev.offer_keepsQps (q : Nat) (ev : List Byte) (d : Dev) : KeepsQps d (d.offer q ev).1 := by
  by_cases absent : Map.find d.hif.qps q = none
  · rw [Dev.offer, Dev.qp_of_absent absent]; exact .refl d
  · have closed : ∀ (bs full : List Buf), KeepsQps d (full.foldl (fun d b => d.closeBuf q b) (d.onQp q fun x => { x with bufs := bs })) :=
      fun bs full => (KeepsQps.onQp absent ⟨_, _, _, _, rfl⟩).trans (.foldl fun e _ b _ => e.complete_keepsQps ..)
    unfold Dev.offer
    dsimp only
    split
    · exact (closed _ _).trans (Dev.ownerWrite_keepsQps ..)
    · exact (closed _ _).trans (.of_hif rfl)
    · split
      · exact .refl d
      · exact closed _ _

theorem Dev.logTake1_keepsQps {q : Nat} {d : Dev} (present : Map.find d.hif.qps q ≠ none) : KeepsQps d (d.logTake1 q) := by
  have took := d.offer_keepsQps q
  unfold Dev.logTake1
  dsimp only
  split
  · exact .refl d
  · split
    · exact .onQp present ⟨_, _, _, _, rfl⟩
    · split
      · exact took _
      · exact (took _).trans (.onQp ((took _).present present) ⟨_, _, _, _, rfl⟩)

theorem Dev.pumpLog_keepsQps (d : Dev) : KeepsQps d d.pumpLog := by
  have taken : KeepsQps d (((d.subscribers 0 0).filter d.waitable).foldl
      (fun d q => (List.range d.spl.log.length).foldl (fun d _ => d.logTake1 q) d) d) := by
    refine .foldl fun e kept q mem => .foldl fun _ more _ _ => Dev.logTake1_keepsQps ?_
    exact (kept.trans more).present (Map.find_ne_none_of_mem_keysWhere (List.mem_filter.mp mem).1)
  exact taken.trans (.of_hif rfl)

theorem Dev.append_keepsQps (r : LogRec) (d : Dev) : KeepsQps d (d.append r) := by
  have counted : KeepsQps d (({ d with spl := { d.spl with stage := d.spl.stage ++ [r] } } : Dev).bump Reg.glbSpliceLogHead) := .of_hif rfl
  refine (counted.trans (.foldl fun e kept q mem => ?_)).trans (Dev.pumpLog_keepsQps _)
  refine (KeepsQps.of_hif (d := e) (e := e.bump Reg.hifEvtMiss) rfl).trans (.onQp ?there ?same)
  case there => exact kept.present (Map.find_ne_none_of_mem_keysWhere (List.mem_filter.mp mem).1)
  case same => exact ⟨_, _, _, _, rfl⟩

theorem Dev.logIns_keepsQps (p : Prog) (i : Ins) (st ns : Nat) (d : Dev) : KeepsQps d (d.logIns p i st ns) := d.append_keepsQps _

theorem Dev.endProg_keepsQps (x : Prog) (st idx : Nat) (d : Dev) : KeepsQps d (d.endProg x st idx) := by
  refine KeepsQps.trans (.of_hif ?_) (Dev.complete_keepsQps ..)
  exact Dev.bumpIf_keeps _ _ _ .hif (by decide)

theorem Dev.advance_keepsQps (p st : Nat) (d : Dev) : KeepsQps d (d.advance p st) := by
  unfold Dev.advance
  split
  · exact .refl d
  · split
    · exact .refl d
    · dsimp only
      split
      · exact d.endProg_keepsQps ..
      · split
        · split <;> exact d.endProg_keepsQps ..
        · exact .of_hif rfl

/-! ## What follows an instruction's own effect (R136) -/

section Ran
variable {s : State} {c : Instr} {p : Nat} {x : Prog} {i : Ins} {row : Ins → Bool} {act : Prog → Ins → Dev → SpRes} {d : Dev}
  {l : List Comp} {cost : Nat}

/-- An instruction that comes to a status and whose own effect leaves the sequencer and the counters: its record and perhaps the end of
its program follow, and every queue pair keeps its binding. -/
theorem State.executes {st : Nat} (he : exec c s = s.run true (Dev.runIns p row act)) (h : s.atIns p x i) (is : row i = true)
    (comes : act x i s.dev = .done st d 0) (takes : i.cost = cost) (keeps : Dev.keeps l s.dev d) (spl : d.spl = s.dev.spl)
    (ctr : d.ctr = s.dev.ctr) (within : ∀ y ∈ logged, y ∈ l) :
    ∃ t, exec c s = .next t ∧ Executed s t p x i st cost ∧ Kept l s t ∧ KeepsQps d t.dev ∧ Dev.keeps logged d t.dev := by
  obtain ⟨t, runs, executed, pending, snaps, frozen, _⟩ :=
    State.ran h is comes (by rw [Dev.prog, spl]; exact h.found) (by rw [Dev.count, ctr, Dev.count])
  obtain ⟨f, ns, dev⟩ : ∃ f ns, t.dev = ((d.onSpl f).logIns x i st ns).advance p st := by
    rw [State.run_next rfl h.live] at runs
    injection runs with runs
    rw [← runs, State.onDev_dev, Dev.runIns]
    simp only [h.found, h.ins, h.runs, is, h.room, h.rsv, h.may, comes, Bool.not_true, Bool.or_self, Bool.false_eq_true, if_false]
    exact ⟨_, _, rfl⟩
  have after : Dev.keeps logged d t.dev := by
    rw [dev]
    refine Dev.keeps_tr (Dev.advance_keeps _ _ _) (by decide) ?_
    exact Dev.keeps_tr (Dev.logIns_keeps _ _ _ _ _) (by decide) (Dev.keeps_mono (Dev.onSpl_keeps _ _) (by decide))
  refine ⟨t, he.trans runs, takes ▸ executed, ⟨pending, snaps, frozen, Dev.keeps_tr after within keeps⟩, ?_, after⟩
  rw [dev]
  exact (KeepsQps.of_hif (d := d) (e := d.onSpl f) rfl).trans ((Dev.logIns_keepsQps ..).trans (Dev.advance_keepsQps ..))

/-- An instruction that comes to a status and does nothing else. -/
theorem State.answers {st : Nat} (he : exec c s = s.run true (Dev.runIns p row act)) (h : s.atIns p x i) (is : row i = true)
    (comes : act x i s.dev = .done st s.dev 0) (takes : i.cost = cost) :
    ∃ t, exec c s = .next t ∧ Executed s t p x i st cost ∧ Kept logged s t := by
  obtain ⟨t, runs, executed, kept, -⟩ := State.executes he h is comes takes (Dev.keeps_refl logged _) rfl rfl fun _ => id
  exact ⟨t, runs, executed, kept⟩

/-- An instruction that changes the logline's bindings. -/
theorem State.setsLog {f : Log → Log} {st : Nat} (he : exec c s = s.run true (Dev.runIns p row act)) (h : s.atIns p x i)
    (is : row i = true) (comes : act x i s.dev = .done st (s.dev.onLog f) 0) (takes : i.cost = cost) :
    ∃ t, exec c s = .next t ∧ Executed s t p x i st cost ∧ Kept (.log :: logged) s t ∧ t.dev.log = f s.dev.log := by
  obtain ⟨t, runs, executed, kept, -, after⟩ := State.executes (l := .log :: logged) he h is comes takes
    (Dev.keeps_up_log (by decide) (Dev.keeps_refl _ _)) rfl rfl (by decide)
  exact ⟨t, runs, executed, kept, after .log (by decide)⟩

/-- An instruction that waits and whose own effect leaves the sequencer and the counters. -/
theorem State.waits {w : SpWait} {expiry : Option Nat} (he : exec c s = s.run true (Dev.runIns p row act)) (h : s.atIns p x i)
    (is : row i = true) (comes : act x i s.dev = .wait d w expiry) (takes : i.cost = cost) (keeps : Dev.keeps l s.dev d)
    (spl : d.spl = s.dev.spl) (ctr : d.ctr = s.dev.ctr) (within : Comp.spl ∈ l) :
    ∃ t, exec c s = .next t ∧ Waits s t p x w expiry cost ∧ Kept l s t ∧ ∀ q, t.dev.qp q = d.qp q := by
  obtain ⟨t, runs, waits, pending, snaps, frozen, ⟨_, dev⟩, _⟩ :=
    State.waited h is comes (by rw [Dev.prog, spl]; exact h.found) (by rw [Dev.count, ctr, Dev.count]) (by rw [spl])
  refine ⟨t, he.trans runs, takes ▸ waits, ⟨pending, snaps, frozen, ?_⟩, fun _ => by rw [dev]; rfl⟩
  rw [dev]
  exact Dev.keeps_up_spl within keeps

end Ran

/-! ## ABORT with nothing outstanding (R443) -/

theorem Dev.onQp_congr {q : Nat} {f g : Qp → Qp} {d : Dev} (same : f (d.qp q) = g (d.qp q)) : d.onQp q f = d.onQp q g := by
  change f (Map.getD d.hif.qps q {}) = g (Map.getD d.hif.qps q {}) at same
  simp only [Dev.onQp, Map.modify, same]

theorem Dev.onQp_onQp (q : Nat) (f g : Qp → Qp) (d : Dev) : (d.onQp q f).onQp q g = d.onQp q fun x => g (f x) := by
  simp only [Dev.onQp, Map.modify, Map.put_put, Map.getD, Map.find_put_same, Option.getD_some]

theorem Dev.abortRing_of_fetched {q : Nat} {ring : List (List Byte)} {d : Dev} (fetched : (d.qp q).prod ≤ (d.qp q).fetched) :
    d.abortRing q ring = d.onQp q id := by
  refine Dev.onQp_congr ?_
  simp [Nat.sub_eq_zero_of_le fetched, Nat.max_eq_right fetched]

theorem Dev.abortWork_of_empty {q : Nat} {but : Option Nat} {d : Dev} (kind : (d.qp q).kind = 1 ∨ (d.qp q).kind = 5)
    (bufs : (d.qp q).bufs = []) (descs : (d.qp q).descs = []) : d.abortWork q but = d.onQp q id := by
  have closed : d.abortBufs q = d.onQp q id := by
    simp only [Dev.abortBufs, bufs, List.foldl_nil]
    exact Dev.onQp_congr (by rw [← bufs]; rfl)
  have work : d.abortWork q but = (d.abortBufs q).abortDescs q := by
    rcases kind with kind | kind <;> simp only [Dev.abortWork, kind]
  simp [work, closed, Dev.abortDescs, descs]

/-- A receive or event queue pair with nothing fetched, posted or waiting to be fetched is only aborted, and IDLE once nothing is held
(Table 14.10). -/
theorem Dev.abort_of_nothing_outstanding {q : Nat} {ring : List (List Byte)} {d : Dev}
    (kind : (d.qp q).kind = 1 ∨ (d.qp q).kind = 5) (bufs : (d.qp q).bufs = []) (descs : (d.qp q).descs = [])
    (fetched : (d.qp q).prod ≤ (d.qp q).fetched) (bound : (d.qp q).st ≠ .disabled) (runs : (d.qp q).st ≠ .idle) :
    (d.abortRing q ring).abortQp q none = d.onQp q fun x => Qp.settle { x with st := .aborting } := by
  rw [Dev.abortRing_of_fetched fetched, Dev.abortQp, if_neg (by simp [bound, runs]), Dev.onQp_onQp]
  dsimp only
  rw [Dev.abortWork_of_empty, Dev.onQp_onQp, Dev.onQp_onQp]
  · rfl
  all_goals simpa

/-! ## The obligation -/

section Stop
variable {x : Prog} {q : Nat} {d : Dev}

theorem Dev.stoppable_spec (may : d.stoppable x q = true) : (d.qp q).st ≠ .disabled ∧ (d.qp q).st ≠ .idle := by
  simp only [Dev.stoppable, Bool.and_eq_true, bne_iff_ne] at may
  obtain ⟨⟨_, bound⟩, notIdle⟩ := may
  exact ⟨bound, notIdle⟩

/-- R444. -/
theorem Dev.not_stoppable (own : q = x.qp ∨ (d.qp q).st = .disabled ∨ (d.qp q).st = .idle) : d.stoppable x q = false := by
  rcases own with own | own | own <;> simp [Dev.stoppable, own]

end Stop

theorem Ins.cost_qpset {i : Ins} (op : i.op = 0x30) : i.cost = 48 := by simp only [Ins.cost, op]

theorem Ins.cost_quiesce {i : Ins} (op : i.op = 0x31) : i.cost = 32 := by simp only [Ins.cost, op]

theorem Ins.cost_abort {i : Ins} (op : i.op = 0x32) : i.cost = 32 := by simp only [Ins.cost, op]

/-- The device once a QPSET has enabled the queue pair its words describe (R424 to R426). -/
def Dev.enableQp (i : Ins) (d : Dev) : Dev :=
  let e := (d.freeTags (tagService (d.qp i.a).kind) (d.qp i.a).descs.length).onQp i.a fun _ => { qpOf i with logPos := d.logHead }
  if i.field = 1 ∧ bit (i.w 4) 12 then
    e.onHif fun h => { h with steer := Map.put h.steer (bits (i.w 4) 0 8) (i.a, bits (i.w 4) 8 4) }
  else e

theorem Dev.enableQp_spec (i : Ins) (d : Dev) : ∃ hif, d.enableQp i = { d with hif := hif } := by
  unfold Dev.enableQp
  split <;> exact ⟨_, rfl⟩

theorem Dev.enableQp_keeps (i : Ins) (d : Dev) : Dev.keeps [.hif] d (d.enableQp i) := by
  obtain ⟨_, h⟩ := d.enableQp_spec i
  rw [h]
  exact Dev.keeps_up_hif (by decide) (d.keeps_refl _)

theorem Dev.qp_enableQp (i : Ins) (d : Dev) : (d.enableQp i).qp i.a = { qpOf i with logPos := d.logHead } := by
  unfold Dev.enableQp
  extract_lets _ e
  have settings : e.qp i.a = { qpOf i with logPos := d.logHead } := Dev.qp_onQp_same _ _ _
  split <;> exact settings

/-- R426: the sub-code of a NET_RECV binding is steered to its queue pair. -/
theorem Dev.enableQp_steers {i : Ins} {d : Dev} (named : i.field = 1 ∧ bit (i.w 4) 12 = true) :
    Map.find (d.enableQp i).hif.steer (bits (i.w 4) 0 8) = some (i.a, bits (i.w 4) 8 4) := by
  rw [Dev.enableQp, if_pos named]
  exact Map.find_put_same ..

/-- R425, R469: the function, the slice and the storage engine have room for one more queue pair. -/
theorem Dev.qpset_room {i : Ins} {d : Dev}
    (ofFn : bit (i.w 2) 33 = true ∨ (d.countQps fun k y => k != i.a && !y.capstan && y.fnKey == (qpOf i).fnKey) < 2048)
    (ofSlice : (d.countQps fun k y => k != i.a && y.slice == (qpOf i).slice) < 256)
    (ofStore : i.field = 2 → (d.countQps fun k y => k != i.a && y.kind == 2) < 4096) :
    ¬((!(qpOf i).capstan && 2048 ≤ d.countQps fun k y => k != i.a && !y.capstan && y.fnKey == (qpOf i).fnKey)
        || 256 ≤ (d.countQps fun k y => k != i.a && y.slice == (qpOf i).slice)
        || ((qpOf i).kind == 2 && 4096 ≤ d.countQps fun k y => k != i.a && y.kind == 2)) = true := by
  simp only [Bool.or_eq_true, Bool.and_eq_true, Bool.not_eq_true', decide_eq_true_eq, beq_iff_eq]
  rintro ((⟨host, full⟩ | full) | ⟨store, full⟩)
  · exact ofFn.elim (fun capstan => absurd (capstan.symm.trans host) nofun) (Nat.not_lt.mpr full)
  · exact Nat.not_lt.mpr full ofSlice
  · exact Nat.not_lt.mpr full (ofStore store)

/-- The operands of a view that keep Table 9.5. -/
theorem viewOperands_ok {i : Ins} {n : Nat} (len : i.len = 10) (a : i.a < 64) (reserved : bits (i.w 0) 15 17 = 0)
    (high : bits (i.w 0) 48 16 = 0) (ports : portMap i 1 < 2 ^ n) :
    ¬(i.len != 10 || 64 ≤ i.a || bits (i.w 0) 15 17 != 0 || bits (i.w 0) 48 16 != 0 || 2 ^ n ≤ (viewOf i).ports) = true := by
  have inside : decide (2 ^ n ≤ (viewOf i).ports) = false := decide_eq_false (Nat.not_le.mpr ports)
  simp [len, a, reserved, high, inside]

/-- Settles O8: an instruction that completes keeps every queue pair's binding past its own effect (`State.executes`), so what QPSET set
still stands and what it released is gone; QUIESCE and ABORT wait, and an ABORT with nothing outstanding is one change of its queue pair
(`Dev.abort_of_nothing_outstanding`); a queue pair that may not be stopped is refused (`Dev.not_stoppable`). -/
theorem queuePairInstructions : Obligations.QueuePairInstructions := by
  refine ⟨⟨?enable, ?release⟩, ⟨?quiesce, ?notStoppable, ?abort⟩, ?bind, ?unbind, ?view, ?unview⟩
  case enable =>
    intro s p x i h op kind on ok ofFn ofSlice ofStore
    obtain ⟨t, runs, executed, kept, qps, -⟩ := State.executes (c := .qpsetEnable p) (l := logged) (d := s.dev.enableQp i)
      (st := stDone) rfl h (by simp [op, kind, on])
      ((if_neg (by simp [ok])).trans (if_neg (Dev.qpset_room ofFn ofSlice ofStore))) (Ins.cost_qpset op)
      (Dev.keeps_mono (Dev.enableQp_keeps i s.dev) (by decide)) (Dev.enableQp_keeps i s.dev .spl (by decide))
      (Dev.enableQp_keeps i s.dev .ctr (by decide)) (fun _ => id)
    obtain ⟨_, _, _, _, binding⟩ := qps.binding i.a
    rw [Dev.qp_enableQp] at binding
    refine ⟨t, runs, executed, kept, ?_⟩
    rw [binding, qps.steer]
    exact ⟨rfl, rfl, rfl, rfl, rfl, rfl, rfl, rfl, rfl, rfl, rfl, Dev.enableQp_steers⟩
  case release =>
    intro s p x i h op kind off len num idle
    have operands : ¬(i.len != 6 || 65536 ≤ i.a || 6 < i.field || (s.dev.qp i.a).st != .idle) = true := by
      simp only [len, idle, bne_self_eq_false, Bool.false_or, Bool.or_false, Bool.or_eq_true, decide_eq_true_eq]
      omega
    obtain ⟨t, runs, executed, kept, qps, -⟩ := State.executes (c := .qpsetRelease p) (l := logged) rfl h
      (by simp [op, off, show i.field ≠ 6 by omega]) (if_neg operands) (Ins.cost_qpset op)
      (Dev.keeps_up_hif (by decide) (Dev.keeps_up_hif (by decide) (Dev.keeps_refl _ _))) rfl rfl (fun _ => id)
    have gone : Map.find t.dev.hif.qps i.a = none := (qps.absent i.a).mpr (Map.find_del_same ..)
    exact ⟨t, runs, executed, kept, gone, by rw [Dev.qp_of_absent gone]⟩
  case quiesce =>
    intro s p x i h op field len positive bound may
    have operands : ¬(i.field != 0 || i.len != 2 || i.w 0 = 0 || 2 ^ 32 ≤ i.w 0 || !s.dev.stoppable x i.a) = true := by
      simp only [field, len, may, bne_self_eq_false, Bool.not_true, Bool.false_or, Bool.or_false, Bool.or_eq_true, decide_eq_true_eq]
      omega
    obtain ⟨t, runs, waits, kept, qps⟩ := State.waits (c := .quiesce p) (l := [.hif, .spl]) rfl h (beq_iff_eq.mpr op)
      (if_neg operands) (Ins.cost_quiesce op) (Dev.keeps_up_hif (by decide) (Dev.keeps_refl _ _)) rfl rfl (by decide)
    exact ⟨t, runs, waits, kept, (qps _).trans (Dev.qp_onQp_same ..), fun q other => (qps q).trans (Dev.qp_onQp_other _ _ other)⟩
  case notStoppable =>
    intro s p x i ring h own
    have refused := Dev.not_stoppable own
    exact ⟨fun op => State.answers rfl h (beq_iff_eq.mpr op) (if_pos (by simp [refused])) (Ins.cost_quiesce op),
      fun op => State.answers rfl h (beq_iff_eq.mpr op) (if_pos (by simp [refused])) (Ins.cost_abort op)⟩
  case abort =>
    intro s p x i ring h op field len may
    have next : exec (.abort p ring) s = .next (s.onDev _) := State.run_next rfl h.live
    refine ⟨_, next, fun kind bufs descs fetched => ?_⟩
    obtain ⟨bound, busy⟩ := Dev.stoppable_spec may
    have aborted := Dev.abort_of_nothing_outstanding (ring := ring) kind bufs descs fetched bound busy
    obtain ⟨t, runs, waits, kept, qps⟩ := State.waits (c := .abort p ring) (l := [.hif, .spl]) rfl h (beq_iff_eq.mpr op)
      ((if_neg (by simp [field, len, may])).trans (congrArg (SpRes.wait · (.abort i.a) none) aborted)) (Ins.cost_abort op)
      (Dev.keeps_up_hif (by decide) (Dev.keeps_refl _ _)) rfl rfl (by decide)
    injection next.symm.trans runs with same
    rw [same]
    exact ⟨waits, kept, (qps _).trans (Dev.qp_onQp_same ..), fun q other => (qps q).trans (Dev.qp_onQp_other _ _ other)⟩
  case bind =>
    intro s p x i h op kind archive len a view reserved apart first second on vol
    obtain ⟨t, runs, executed, kept, log⟩ := State.setsLog (c := .qpsetLoglineArchive p) rfl h (by simp [op, kind, archive])
      (if_neg (by simp [len, a, view, reserved, apart, first, second, vol])) (Ins.cost_qpset op)
    exact ⟨t, runs, executed, kept, by rw [log, on]; rfl⟩
  case unbind =>
    intro s p x i h op kind archive len a view reserved apart first second off
    obtain ⟨t, runs, executed, kept, log⟩ := State.setsLog (c := .qpsetLoglineArchive p) rfl h (by simp [op, kind, archive])
      (if_neg (by simp [len, a, view, reserved, apart, first, second, off])) (Ins.cost_qpset op)
    exact ⟨t, runs, executed, kept, by rw [log, off]; rfl⟩
  case view =>
    intro s p x i h op kind view len a reserved high ports on active event slice
    obtain ⟨t, runs, executed, kept, log⟩ := State.setsLog (c := .qpsetLoglineView p) rfl h (by simp [op, kind, view])
      ((if_neg (viewOperands_ok len a reserved high ports)).trans
        ((if_neg (by simp [on])).trans (if_neg (by simp [active, event, slice])))) (Ins.cost_qpset op)
    refine ⟨t, runs, executed, kept, ⟨_, by rw [log]; exact Map.find_put_same .., rfl⟩, fun k other => ?_, by rw [log]⟩
    rw [log]
    exact Map.find_put_other _ _ other.symm
  case unview =>
    intro s p x i h op kind view len a reserved high ports off
    obtain ⟨t, runs, executed, kept, log⟩ := State.setsLog (c := .qpsetLoglineView p) rfl h (by simp [op, kind, view])
      ((if_neg (viewOperands_ok len a reserved high ports)).trans (if_pos (by simp [off]))) (Ins.cost_qpset op)
    exact ⟨t, runs, executed, kept, log⟩

end Sys2Proof.Machine
end
